-- ==== Sys2Proof/Word.lean ====
section
/-! DEFINITION. The plain words of the model: a byte, the fixed-width words the spec treats as bits, and the
units of time (00_scope.md Conventions; 16_power_and_clocks.md R473). Nothing here computes more than a constant. -/
namespace Sys2Proof

/-- One byte. -/
abbrev Byte := BitVec 8
/-- The bits of an fp32 number (R25: scores are fp32). -/
abbrev F32 := BitVec 32
/-- A 64-bit register value. -/
abbrev Word64 := BitVec 64
/-- An epoch number (R16, R209): a count that is never reused, so it never wraps here. -/
abbrev Epoch := Nat
/-- A time in cycles of the 1.6 GHz on-die network clock (R473). -/
abbrev Cycle := Nat

/-- On-die network cycles in one microsecond (R473: 1.6 GHz). -/
abbrev cyclesPerUs : Nat := 1600
/-- On-die network cycles in one millisecond. -/
abbrev cyclesPerMs : Nat := 1600000
/-- On-die network cycles in one second. -/
abbrev cyclesPerS : Nat := 1600000000

/-- A PCIe function: 0 the PF, n the virtual function n (R379). -/
abbrev FnId := Fin 64
/-- A partition P0 to P3 (R45). -/
abbrev PartId := Fin 4
/-- A strand of a partition by its logical coordinate S0 to S7 (R45). -/
abbrev StrandNo := Fin 8
/-- A fabric port (R312). -/
abbrev PortId := Fin 32
/-- A flash channel (R279). -/
abbrev ChanId := Fin 32
/-- A traffic class: 0 Q, 1 R, 2 I, 3 M, 4 C (R320). -/
abbrev ClassId := Fin 5

/-- The void key, refused on ingest and written in void entries (R31, R210). -/
abbrev voidKey : Nat := 0xFFFFFFFFFFFFFFFF

end Sys2Proof
end

