-- ==== Sys2Proof/Graph.lean ====
section
/-! DEFINITION. Compiled model graphs as data (R158, R164, R167): tensors, operand formats and nodes. The spec names the operators and
their conditions and gives a graph no encoding, so a graph is an operand (log 10). -/
namespace Sys2Proof

/-- Formats of the elements of a matrix product (R158, R123). -/
inductive NumFmt where
  | int8 | int4 | e4m3 | e5m2 | e2m3 | e3m2 | e2m1 | bf16
  deriving DecidableEq, Repr

/-- A tensor: its axes, outermost first, and its elements in row-major order. An integer or a truth value stands as the fp32 of the
same number (log 80). -/
structure Tensor where
  shape : List Nat
  data : List F32
  deriving DecidableEq, Repr

/-- The functions of one operand that the vector unit approximates (R162), and both forms of Gelu (R167). -/
inductive VecFn where
  | exp | log | tanh | erf | sigmoid | rsqrt | geluErf | geluTanh
  deriving DecidableEq, Repr

/-- Operators of one operand (R167). -/
inductive UnOp where
  | neg | abs | sqrt | reciprocal | relu
  | approx (f : VecFn)
  /-- Pow with exponent 0.5, 2 or 3. -/
  | powHalf | powTwo | powThree
  /-- Cast to bf16, or to an integer of `bits` bits. -/
  | castBf16
  | castInt (bits : Nat)
  deriving DecidableEq, Repr

/-- Operators of two operands, broadcast under ONNX rules (R167). -/
inductive BinOp where
  | add | sub | mul | div | max | min | equal | less | greater
  deriving DecidableEq, Repr

/-- Reductions over the last axis (R167). -/
inductive RedOp where
  | mean | sum | max
  deriving DecidableEq, Repr

/-- An operand of a matrix product. A weight holds its codes along the reduction axis, one list for each row of the left operand or
each column of the right one, and for an MX format one E8M0 byte for each block of 32 (R159). An activation is converted under R161;
`scale` is its quantisation scale where the format is an integer. -/
inductive ProdSide where
  | weight (fmt : NumFmt) (codes scales : List (List Nat))
  | activation (node : Nat) (fmt : NumFmt) (scale : F32)
  deriving DecidableEq, Repr

/-- A node of a compiled graph. Its operands are earlier nodes, by number. Identity, Squeeze, Unsqueeze and Flatten are reshapes, a
Split is its slices; QuantizeLinear and DequantizeLinear are folded into products (R167). -/
inductive GraphNode where
  | input (n : Nat)
  | const (t : Tensor)
  /-- MatMul or Gemm in MAC mode; `tr` is transB of the right operand, `heads` the heads of the attention pattern that it belongs to, 1
  outside one. -/
  | product (left right : ProdSide) (tr : Bool) (heads : Nat)
  /-- MatMul or Gemm in table mode: code and scale record of each output column (R164). -/
  | table (a fmt sfmt : Nat) (cols : List (List Byte × List Byte))
  | unary (op : UnOp) (a : Nat)
  | binary (op : BinOp) (a b : Nat)
  | softmax (a : Nat)
  /-- LayerNormalization: scale and bias nodes, epsilon. -/
  | layerNorm (a scale : Nat) (bias : Option Nat) (eps : F32)
  | reduce (op : RedOp) (keep : Bool) (a : Nat)
  | gather (table index : Nat)
  /-- A dimension of 0 is copied from the operand, -1 is inferred. -/
  | reshape (a : Nat) (dims : List Int)
  | transpose (a : Nat) (perm : List Nat)
  | concat (axis : Nat) (xs : List Nat)
  /-- Slice of one axis: start, end and step; a negative start or end counts from the axis' end, as in ONNX (log 80). -/
  | slice (a axis : Nat) (start stop step : Int)
  | expand (a : Nat) (dims : List Nat)
  /-- Where: condition, then, else. -/
  | select (c a b : Nat)
  deriving DecidableEq, Repr

/-- A compiled graph; its output is its last node. -/
structure Graph where
  nodes : List GraphNode
  deriving DecidableEq, Repr

/-- What the fetches of one item of a top-S block return to a scoring model: payload tokens, payload values, and the row of each
feature input (R172). -/
structure ItemInput where
  tokens : List Nat
  values : List F32
  rows : List (List F32)
  deriving DecidableEq, Repr

end Sys2Proof
end

