-- ==== Sys2Proof/Operand.lean ====
section
/-! DEFINITION. The operands that commands carry beyond plain numbers and byte strings: filter terms, what stage programs set,
register addresses, administration commands, references to contexts and reads. -/
namespace Sys2Proof

/-- An in-scan filter term (R192). -/
structure InTerm where
  op : Nat
  clause : Nat
  negate : Bool
  arg : Nat
  deriving DecidableEq, Repr

/-- A post-filter term (R196). -/
structure PostTerm where
  off : Nat
  ty : Nat
  op : Nat
  clause : Nat
  negate : Bool
  const : Nat
  deriving DecidableEq, Repr

/-- Where a SCORE program takes a feature row's index from (R361). -/
inductive FeatSource where
  | itemKey
  /-- A U32 (4 bytes) or U64 (8 bytes) payload field at an offset. -/
  | payload (off size : Nat)
  /-- VALUE of the attribute word. -/
  | attr
  deriving DecidableEq, Repr

/-- A feature input of a SCORE program: its table and the source of its index (R361). -/
structure FeatureRef where
  table : Nat
  source : FeatSource
  deriving DecidableEq, Repr

/-- What the stage programs of an image set (R47, R48). Their encoding is not in the spec (log 10). -/
structure ProgSettings where
  defNprobe : Option Nat := none
  defR : Option Nat := none
  defS : Option Nat := none
  inputScale : F32 := 0x3F800000
  beam : Option Nat := none
  hopLimit : Option Nat := none
  entryPoints : List Nat := []
  planeOrder : List Nat := []
  seedCarried : Bool := true
  /-- Query columns of a fixed arrangement; 0 AUTO (R100). -/
  arrangement : Nat := 0
  filterTerms : List InTerm := []
  postTerms : List PostTerm := []
  pieceSize : Nat := 256
  scaleA : F32 := 0x3F800000
  scaleB : F32 := 0
  extra : List Byte := []
  /-- Feature inputs of the SCORE program (R361). -/
  features : List FeatureRef := []
  deriving DecidableEq, Repr

/-- A register that a write can name and that has no row of its own (R5, R380, R383, R340, R405, R447, R463, R270, R403). -/
inductive RegAddr where
  /-- Page 0 of a function's BAR: the function control page or the basic-level window, by its level. -/
  | page0 (fn off : Nat)
  /-- Memory Space Enable [0] and Bus Master Enable [1] of the PCIe command register. -/
  | pciCommand (fn : Nat)
  /-- An MSI-X table entry: word 0 address, 1 data, 2 mask. -/
  | msixEntry (fn vec word : Nat)
  /-- METER_STATUS of a function's snapshot block (OVERLAP is W1C). -/
  | meterStatus (fn : Nat)
  /-- A port's register block. -/
  | port (port off : Nat)
  /-- A strand's staging control block, counters and STG_STATUS. -/
  | staging (part strand off : Nat)
  /-- The PF's mailbox page. -/
  | mailbox (off : Nat)
  /-- The recovery page. -/
  | recovery (off : Nat)
  deriving DecidableEq, Repr

/-- Who accesses the object dictionary (R415). -/
inductive Accessor where
  | mgmt
  | operator
  | reader
  | fn (n : Nat)
  deriving DecidableEq, Repr

/-- An administration command as it reaches the module: function, SQ index, its 128-byte entry, its input buffer (R399). -/
structure AdminCmd where
  fn : Nat
  sqIndex : Nat
  entry : List Byte
  input : List Byte
  /-- The input was read without a completion error or poisoned data (R391). -/
  readOk : Bool
  deriving DecidableEq, Repr

/-- What the module finds in an image's programs and graphs. Their encoding is not in the spec (log 10). -/
structure ImageFacts where
  progs : ProgSettings
  /-- Every program reaches only what R48 allows it. -/
  progsOk : Bool
  /-- The compiled graphs of its encoder and its scoring model, with no node where it holds none. -/
  encoder : Graph
  scorer : Graph
  deriving DecidableEq, Repr

/-- A selection context: a query's at its origin, or a member's on a list strand. -/
inductive CtxRef where
  | origin (q : Nat)
  | member (batch member : Nat)
  deriving DecidableEq, Repr

/-- A tier read with a useful-by cycle (R259): a candidate's code fetch, or a feature row of a block item. -/
inductive ReadRef where
  | code (fetch : Nat)
  | row (q item n : Nat)
  deriving DecidableEq, Repr

/-- An input source of a top-S item: its payload, or the row of a feature input, by the input's number (R172). -/
inductive InputSource where
  | payload
  | row (n : Nat)
  deriving DecidableEq, Repr

/-- How a mailbox push travels (R444). -/
inductive PushPath where
  | onDie
  | deferrable
  | posted
  deriving DecidableEq, Repr

/-- A staging access (R265, R267): master numbered as OWNER, whether it is one of the strand's own tiles working on a batch. -/
structure StagingAccess where
  part : Nat
  strand : Nat
  bank : Nat
  word : Nat
  master : Nat
  /-- A read, with or without a write of the same word in the same cycle (R269). -/
  read : Bool
  write : Option (List Byte)
  /-- SECDED on the word read: 0 no error, 1 corrected, 2 uncorrectable (R264, R497). -/
  ecc : Nat
  /-- Batch whose work the access serves, for an own tile. -/
  batch : Option Nat
  deriving DecidableEq, Repr

/-- A reset request's fields (R496). -/
structure ResetReq where
  part : Nat
  strand : Nat
  cls : Nat
  index : Nat
  deriving DecidableEq, Repr

/-- The power-gated domain kinds (R475), in the order of that table. -/
inductive DomainKind where
  | base
  | strand
  | tensor
  | port
  | onfi
  | upStep
  deriving DecidableEq, Repr

/-- A domain: its kind and number (partition, strand 0 to 31, tensor tile 16 × partition + tile, port, channel). -/
structure DomainId where
  kind : DomainKind
  num : Nat
  deriving DecidableEq, Repr

/-- One home's report of a MAINT_PERIOD (R364): the row bytes it served for each of its feature shards, and its LPDDR room. -/
structure FeatLoad where
  module : Nat
  room : Nat
  shards : List (Nat × Nat)
  deriving DecidableEq, Repr

/-- A stripe's fragment as read for a rebuild (R374): fragment number, 64 KiB chunk. -/
structure FragIn where
  stripe : Nat
  frag : Nat
  firstEpoch : Nat
  lastEpoch : Nat
  chunk : List Byte
  deriving DecidableEq, Repr

/-- Another home's report of a completed version build (R116, R238): items and the exact sum of squared norms, n × 2^e. -/
structure BuildReport where
  home : Nat
  count : Nat
  sumNum : Nat
  sumExp : Int
  deriving DecidableEq, Repr

/-- What the boot finds in the settings store: the sequences of the records whose MAC fails (R460), and the budget counters that fail their
check, by their place in the table of R428 (R427). -/
structure StoreCheck where
  bad : List Nat := []
  budgets : List Nat := []
  deriving DecidableEq, Repr

/-- What the boot ROM finds when it starts: whether the identity reads good, and the settings store (R454, R460). -/
structure BootFind where
  identityOk : Bool
  store : StoreCheck
  deriving DecidableEq, Repr

/-- A turn of a partition's walker, and how many of the partition's probes the dispatch takes out after it (R52, R108). -/
structure WalkTurn where
  part : Nat
  probes : Nat
  deriving DecidableEq, Repr

/-- How far a scan pass goes in the staged piece of its view: the blocks read next, and whether the read fails error correction (R90, R93). -/
structure ScanRun where
  blocks : Nat
  eccFail : Bool
  deriving DecidableEq, Repr

/-- What maintenance sees at a sweep: the peers it chooses for each entry, and the entries that other modules' edge tables name (R112). -/
structure SweepView where
  edges : List (Nat × List Nat)
  named : List Nat
  deriving DecidableEq, Repr

/-- An index by its namespace and its ID. -/
structure IndexName where
  ns : Nat
  idx : Nat
  deriving DecidableEq, Repr

/-- A grant command and who issues it: a function of the owning tenant, or the management firmware (R186). -/
structure GrantCmd where
  cmd : AdminCmd
  firmware : Bool
  deriving DecidableEq, Repr

/-- Whether the host answered a basic-level read of the descriptor, and of the data it names (R405). -/
structure HostReads where
  descOk : Bool
  dataOk : Bool
  deriving DecidableEq, Repr

/-- What the other modules answer to the leader at a change of the isolation mode: those whose budget is spent, and those that fail (R430). -/
structure ModuleAnswers where
  spent : Nat
  failed : Nat
  deriving DecidableEq, Repr

/-- How a round of a move's copy went: the reads of the source, the writes of the destination (R255, R257). -/
structure CopyRound where
  readOk : Bool
  writeOk : Bool
  deriving DecidableEq, Repr

end Sys2Proof
end

