-- ==== Sys2Proof/Syntax.lean ====
section
/-! DEFINITION. The commands of the module: one constructor for each row of the table of operations and events. Every
command is one whole, indivisible step of the module (95_what_each_step_holds.md). An operand `t` is the on-die network
cycle at which a timed event occurs; bytes are laid out as the spec lays out the entry, frame or message they are. The commands without operands stand last. -/
namespace Sys2Proof

/-- A command to the module or an event at it. -/
inductive Instr where
  /-- REGISTER_WRITE (R5): A write to a register or field that has no row of its own stores the value, with reserved bits written as zero. -/
  | registerWrite (reg : RegAddr) (value : Nat)
  /-- EVENT_COUNTER_CLEAR (R11): Writing 1 to an event counter clears it; an increment in the same cycle counts after the clear. -/
  | eventCounterClear (index sub value sameCycle : Nat)
  /-- SAT_CLEAR (R12): Writing 1 to a group summary's SAT bit clears it. -/
  | satClear (index sub : Nat)
  /-- SAT_REASSERT (R12): In the cycle after SAT is cleared, the module sets SAT again without an event if a counter of the group still holds 0xFFFF_FFFF. -/
  | satReassert (index sub : Nat)
  /-- PCIE_LINK_TRAIN (R378): The PCIe link trains at the highest supported rate and width. -/
  | pcieLinkTrain (gen width : Nat)
  /-- FN_ENABLE (R380): Writing FN_CTL.ENABLE enables the function, fixing its level and tenant and creating ring pair 0 from the ADMIN registers. -/
  | fnEnable (fn : Nat)
  /-- RUN (R380): Writing CTL.RUN enables a basic-level function. -/
  | run (fn : Nat)
  /-- BUS_MASTER_CLEAR (R380): Clearing Bus Master Enable of an enabled function acts as a Function Level Reset on its work. -/
  | busMasterClear (fn : Nat)
  /-- FUNCTION_LEVEL_RESET (R381): A Function Level Reset ends the function's queries and batches with RETRY and returns its rings, windows, vectors and registers to reset values. -/
  | functionLevelReset (fn : Nat)
  /-- DMA_WINDOW_WRITE (R385): A write to a DMA window register applies to requests issued from the next cycle. -/
  | dmaWindowWrite (fn off value : Nat)
  /-- SQ_TAIL (R389): A write of SQ_TAIL_n makes new submission entries available, or faults the pair on a bad value. -/
  | sqTail (fn pair value : Nat)
  /-- CQ_HEAD (R389): A write of CQ_HEAD_n frees completion slots, or faults the pair on a bad value. -/
  | cqHead (fn pair value : Nat)
  /-- ENTRY_TAKE (R392): When its conditions hold, the module takes a submission entry, reserves a CQ slot and advances SQ_HEAD. -/
  | entryTake (readOk : Bool)
  /-- QUERY_ENTRY_ARRIVE (R394): A query entry and its body arrive and their fields are checked. -/
  | queryEntryArrive (fn pair sqIndex : Nat) (entry body : List Byte) (readOk : Bool)
  /-- QUERY_PLACE (R392): A taken query is placed on the strand with most free ADMIT credits whose partition has its image installed. -/
  | queryPlace (q : Nat)
  /-- MIN_EPOCH_HOLD_END (R17): The module records closure of an epoch at or above the minimum, and the held query takes its snapshot. -/
  | minEpochHoldEnd (q : Nat)
  /-- TENSOR_GRANT (R54): The pool grants the head request its full tile count by earliest deadline, placing tiles that hold the section's weights. -/
  | tensorGrant (part : Nat)
  /-- ENCODE_DEADLINE (R170): An encode that is still waiting or running at its deadline limit is withdrawn or abandoned and the query completes DEADLINE. -/
  | encodeDeadline (q t : Nat)
  /-- ENCODE_COMPLETE (R171): The encoder returns the query vector, or a non-finite output rejects the query with FIELD_RANGE. -/
  | encodeComplete (q : Nat)
  /-- QUERY_SKETCH (R79): SKETCH converts the query input and projects it to a sketch under every active generation. -/
  | querySketch (q : Nat)
  /-- WALK (R108): The partition's Yarrow walker takes a pending walk in round-robin order and runs the beam walk to choose nprobe lists. -/
  | walk (turn : WalkTurn)
  /-- CLOSE_WINDOW (R62): A batch closes when BATCH_WINDOW has run from its opening. -/
  | closeWindow (batch t : Nat)
  /-- CLOSE_URGENT (R62): A batch closes when a member's remaining deadline falls below twice the average list service time. -/
  | closeUrgent (batch t : Nat)
  /-- GIG_INTERVAL (R64): A new 100 µs interval starts and renews each SCAN tile's gig share. -/
  | gigInterval (t : Nat)
  /-- GIG_QUOTA_SECOND (R65): Each second the tenant's gig rate quota is renewed. -/
  | gigQuotaSecond (t : Nat)
  /-- BATCH_SCAN_PASS (R93): A closed batch is scanned in a pass over its staged list view when a SCAN tile has a free batch credit. -/
  | batchScanPass (g tile batch : Nat) (run : ScanRun)
  /-- FILTER_CANDIDATE (R194): FILTER applies the tenant test and the in-scan terms to a candidate and forwards or drops it. -/
  | filterCandidate (g : Nat)
  /-- SCAN_BOUND_ARRIVE (R95): A tighter bound reaches the SCAN tiles and applies to plane rows started from the next cycle. -/
  | scanBoundArrive (g : Nat)
  /-- SCAN_SUMMARY_RECEIVE (R125): The origin receives a scan summary and recomputes the rerank gate. -/
  | scanSummaryReceive (src : Nat) (summary : List Byte)
  /-- GATE_MESSAGE_RECEIVE (R126): A strand keeps the smallest gate received for a member and releases its held candidates. -/
  | gateMessageReceive (g : Nat) (msg : List Byte)
  /-- RERANK_CANDIDATE_RECEIVE (R126): RERANK places an arriving candidate in the member's hold buffer. -/
  | rerankCandidateReceive (g : Nat)
  /-- RELEASE_HOLD (R126): Held candidates are released when GATE_HOLD has passed since the scan summary was sent. -/
  | releaseHold (batch member t : Nat)
  /-- RELEASE_LATE (R126): When a member's remaining deadline reaches RERANK_RESERVE its candidates are released and outstanding code fetches are abandoned as late. -/
  | releaseLate (batch member t : Nat)
  /-- KEY_FETCH_COMPLETE (R99): A candidate's key arrives from the key column; a key read failing twice withdraws the list. -/
  | keyFetchComplete (fetch : Nat) (ok : Bool)
  /-- CODE_FETCH_COMPLETE (R130): A candidate's codes and scales arrive and RERANK computes its exact score. -/
  | codeFetchComplete (fetch : Nat) (ok : Bool)
  /-- TIER_READ_LATE (R259): A tier answers a read with a useful-by cycle LATE, or withdraws it when not started by then. -/
  | tierReadLate (read : ReadRef)
  /-- POSTFILTER_READ_COMPLETE (R198): A candidate's payload arrives and the post-filter passes or drops it; an unreadable payload gives DATA_LOSS. -/
  | postfilterReadComplete (fetch : Nat) (ok : Bool)
  /-- SELECT_ENTRY_OFFER (R142): A scored entry is offered to a selection context, which takes it in or refuses it. -/
  | selectEntryOffer (g : Nat)
  /-- PIECE_SEND (R146): A partial-result piece is sent to the origin on its merge-slot credit. -/
  | pieceSend (batch member : Nat)
  /-- PIECE_RECEIVE (R147): The origin takes a piece, reserving piece buffer for a list's first piece or making it wait. -/
  | pieceReceive (src : Nat) (piece : List Byte)
  /-- PIECE_RESERVATION_GRANT (R147): Room frees for a waiting piece's reservation, and it is accepted. -/
  | pieceReservationGrant (q list : Nat)
  /-- LIST_MERGE_COMPLETE (R148): A list's pieces finish merging into the origin context and the list counts as reached. -/
  | listMergeComplete (q list : Nat)
  /-- RUN_MERGE_START (R149): An HBM context starts merging its carry run with up to 15 runs. -/
  | runMergeStart (ctx : CtxRef)
  /-- RUN_MERGE_COMPLETE (R149): A run merge ends with a new carry run and sets the context's threshold. -/
  | runMergeComplete (ctx : CtxRef)
  /-- POOL_WAIT (R152): A context waiting for an HBM work area obtains one when the selection pool has room. -/
  | poolWait (ctx : CtxRef)
  /-- CUTOFF (R154): At a context's cut-off the origin orders what it has merged and the query completes DEADLINE. -/
  | cutoff (q t : Nat)
  /-- SCORE_CUTOFF (R173): At the score cut-off the origin freezes the first context and forms the top-S block from it. -/
  | scoreCutoff (q t : Nat)
  /-- QUERY_DEADLINE (R38): When the deadline passes the origin selects from what it has merged and discards stalled work. -/
  | queryDeadline (q t : Nat)
  /-- SCORE_INPUT_ASSEMBLE (R172): A payload or feature-row fetch for the top-S block completes or fails, and when all are assembled SCORE requests tiles. -/
  | scoreInputAssemble (q item : Nat) (source : InputSource) (ok : Bool)
  /-- SCORE_WITHDRAWN (R56): A SCORE request whose remaining deadline falls below its stated time before grant is withdrawn and exact scores are used. -/
  | scoreWithdrawn (q t : Nat)
  /-- SCORE_ABANDONED (R174): A scoring invocation unfinished at deadline − 8 µs is abandoned and exact scores are used. -/
  | scoreAbandoned (q t : Nat)
  /-- SCORE_COMPLETE (R175): The model returns scores, output scaling is applied and a second context selects the k best. -/
  | scoreComplete (q : Nat) (inputs : List ItemInput)
  /-- QUERY_COMPLETION_WRITE (R396): EMIT writes the result entries, the completion and the receipt leaf, and charges metering. -/
  | queryCompletionWrite (q : Nat)
  /-- TILE_RESTARTS (R178): A tensor-tile fault abandons the invocation, resets the tile and re-enters the request once. -/
  | tileRestarts (part tile : Nat) (weightRead : Bool)
  /-- MAINT_TENSOR_GRANT (R177): Maintenance takes tensor tiles when the queue is empty and MAINT_TILE_CAP leaves room. -/
  | maintTensorGrant (part step tiles : Nat)
  /-- MAINT_YIELDS (R55): Maintenance yields its tiles within 20 µs of a query request waiting, saving its state. -/
  | maintYields (part : Nat)
  /-- IMAGE_SUBMIT (R72): An image is checked in order and becomes resident or is refused. -/
  | imageSubmit (cmd : AdminCmd) (facts : ImageFacts)
  /-- IMAGE_REMOVE (R73): A resident image is removed unless a held version names it. -/
  | imageRemove (cmd : AdminCmd)
  /-- IMAGE_INSTALL (R74): ACTION 1 starts installing an image in a partition by quiescing it. -/
  | imageInstall (cmd : AdminCmd)
  /-- IMAGE_UNINSTALL (R74): ACTION 2 starts removing an image from a partition by quiescing it. -/
  | imageUninstall (cmd : AdminCmd)
  /-- INSTALL_DRAIN_END (R74): When in-flight work has drained, program slots are written in every tile. -/
  | installDrainEnd (part : Nat)
  /-- INSTALL_DRAIN_LIMIT (R75): At SWAP_DRAIN_LIMIT the partition is reset at strand scope and its queries complete RETRY. -/
  | installDrainLimit (part t : Nat)
  /-- INSTALL_WRITE_COMPLETE (R76): The readback digest is compared; the partition resumes, or the write is retried once or fails with IMAGE_INSTALL_FAILED. -/
  | installWriteComplete (part : Nat) (digestOk : Bool) (unit : Nat)
  /-- IMAGE_INFO (R541): The command returns the digests, security version and installed partitions of a resident image. -/
  | imageInfo (cmd : AdminCmd)
  /-- DRAY_CLOSE_WINDOW (R349): An open dray closes and is queued when DRAY_WINDOW has passed since its first item. -/
  | drayCloseWindow (dest cls tenant t : Nat)
  /-- DRAY_ROUTE_DROP (R350): A Q dray waiting with no UP port is dropped once the budget of every query it carries has run out. -/
  | drayRouteDrop (t : Nat)
  /-- DRAY_RECEIVE (R344): A delivered dray is checked for format and repeats and its items are handled. -/
  | drayReceive (src cls tenant mapEpoch : Nat) (body : List Byte)
  /-- QCTX_BUDGET_EXPIRE (R347): A peer's context slot budget runs out and its remaining work is discarded. -/
  | qctxBudgetExpire (src handle t : Nat)
  /-- MAP_WORK_HOLD_END (R357): Work held for a newer map is served when the map is installed, or answered STALE_MAP at MAP_WAIT. -/
  | mapWorkHoldEnd (t : Nat)
  /-- INGEST_ENTRY_ARRIVE (R397): An ingest entry and its records arrive; the batch is checked, earlier records of a key superseded and records sent to homes. -/
  | ingestEntryArrive (fn pair sqIndex : Nat) (entry records : List Byte) (readOk : Bool)
  /-- COMMIT_TIMEOUT (R221): A held write that has waited COMMIT_TIMEOUT is answered TIMEOUT and dropped. -/
  | commitTimeout (t : Nat)
  /-- LOG_FLUSH (R220): At each LOG_FLUSH_INTERVAL the commit log starts programming its pending records. -/
  | logFlush (t : Nat)
  /-- LOG_PAGE_DURABLE (R220): A commit-log page finishes programming; its writes are applied to delta segments and acknowledged. -/
  | logPageDurable (page : Nat)
  /-- BEACON_EMIT (R205): The leader emits an epoch beacon every EPOCH_LENGTH. -/
  | beaconEmit (t : Nat)
  /-- BEACON_RECEIVE (R206): A beacon opens the next epoch, closes earlier ones and takes effect for epoch-scheduled changes. -/
  | beaconReceive (port : Nat) (beacon : List Byte)
  /-- LEADER_TAKEOVER (R352): A candidate that has seen no lower-ranked beacon for (r + 1) × BEACON_TIMEOUT becomes leader. -/
  | leaderTakeover (t : Nat)
  /-- BEACON_GAPS (R208): When no beacon arrives for BEACON_TIMEOUT the module counts a gap and raises one event. -/
  | beaconGaps (t : Nat)
  /-- MAP_ANNOUNCE (R356): The leader announces a map in a MAP_NOTICE and relays its content. -/
  | mapAnnounce (content : List Byte)
  /-- MAP_NOTICE (R356): A module takes a map notice and awaits the content. -/
  | mapNotice (port : Nat) (notice : List Byte)
  /-- MAP_LATE_INSTALL (R356): Late map content arrives with a matching digest and the map is installed. -/
  | mapLateInstall (content : List Byte)
  /-- MAINT_PERIOD (R226): At each MAINT_PERIOD a module reads and clears PROBES, sends sums and evaluates splits, merges, re-fits and feature balance. -/
  | maintPeriod (t : Nat)
  /-- SPLIT_COPY_COMPLETE (R227): A split or merge finishes copying under a held tail and schedules its directory change. -/
  | splitCopyComplete (list : Nat) (centroidA centroidB : List F32)
  /-- DIR_FULL (R232): A split or merge waiting for a FREE directory entry proceeds when one frees. -/
  | dirFull (list : Nat)
  /-- FOLD_BUILD_COMPLETE (R224): A fold's base build completes and it chooses its switch epoch. -/
  | foldBuildComplete (handle : Nat)
  /-- SEGMENT_FREE (R88): A segment past its VALID_UNTIL is freed once no batch or admitted query refers to it. -/
  | segmentFree (seg : Nat)
  /-- EDGE_SWEEP (R112): Each EDGE_SWEEP_PERIOD maintenance revalidates every edge and frees eligible tombstones. -/
  | edgeSweep (t : Nat) (view : SweepView)
  /-- VERSION_CREATE (R237): A version record is checked and a new version enters BUILDING. -/
  | versionCreate (cmd : AdminCmd)
  /-- VERSION_BUILD_COMPLETE (R238): A home completes a version build and the version becomes READY when every home has. -/
  | versionBuildComplete (ns idx ver : Nat) (reports : List BuildReport)
  /-- VERSION_SWITCH (R239): The leader checks a switch request and sets its switch epoch F. -/
  | versionSwitch (cmd : AdminCmd)
  /-- VERSION_FREE (R239): A DRAINING version is freed when no admitted query holds a snapshot below its F. -/
  | versionFree (ns idx ver : Nat)
  /-- VERSION_INFO (R400): The command returns a version record and its state. -/
  | versionInfo (cmd : AdminCmd)
  /-- NAMESPACE_CREATE (R234): The leader checks a namespace creation and schedules it at epoch F. -/
  | namespaceCreate (cmd : AdminCmd)
  /-- NAMESPACE_DELETE (R234): The leader checks a namespace deletion and schedules it at epoch F. -/
  | namespaceDelete (cmd : AdminCmd)
  /-- INDEX_CREATE (R234): The leader checks an index creation and schedules it at epoch F. -/
  | indexCreate (cmd : AdminCmd)
  /-- INDEX_DELETE (R234): The leader checks an index deletion and schedules it at epoch F. -/
  | indexDelete (cmd : AdminCmd)
  /-- INDEX_DATA_DISCARD (R235): A deleted index's data is discarded in the background once no query reads it. -/
  | indexDataDiscard (index : IndexName) (homes : List Nat)
  /-- GRANT_CREATE (R186): The leader stamps a new grant's VALID_FROM at epoch F and announces it. -/
  | grantCreate (grant : GrantCmd)
  /-- GRANT_REVOKE (R186): The leader stamps a grant's VALID_UNTIL at epoch F and announces it. -/
  | grantRevoke (grant : GrantCmd)
  /-- TABLE_CREATE (R360): A feature table is created with its descriptor and default row. -/
  | tableCreate (cmd : AdminCmd)
  /-- RECEIPT_PERIOD_END (R242): At the end of each 100 ms receipt period the module builds the Merkle tree and asks for a signature. -/
  | receiptPeriodEnd (t : Nat)
  /-- RECEIPT_TREES (R243): The signed tree header is written to the receipt log. -/
  | receiptTrees (seq : Nat)
  /-- RECEIPT_ERASE (R244): At each erasure check, periods older than RECEIPT_RETAIN are erased. -/
  | receiptErase (t : Nat)
  /-- RECEIPT_PROOF (R402): The command returns a leaf's proof, or RECEIPT_GONE or RECEIPT_PENDING. -/
  | receiptProof (cmd : AdminCmd)
  /-- IDENTITY (R400): The command returns the module ID and identity public key. -/
  | identity (cmd : AdminCmd)
  /-- CREATE_RING (R388): A ring pair of type QUERY or INGEST is created. -/
  | createRing (cmd : AdminCmd)
  /-- DELETE_RING (R390): A ring pair is deleted after its last completion is written. -/
  | deleteRing (cmd : AdminCmd)
  /-- SET_INTERRUPT (R404): A pair's vector and coalescing thresholds are replaced for later completions. -/
  | setInterrupt (cmd : AdminCmd)
  /-- COAL_TIMER (R404): COAL_US passes since the oldest unsignalled completion and one MSI-X message is sent. -/
  | coalTimer (fn pair t : Nat)
  /-- MSIX_UNMASK (R403): Unmasking a vector sends its pending message. -/
  | msixUnmask (fn vec : Nat)
  /-- QSR_TAIL (R405): A write of the basic-level query ring tail makes descriptors available. -/
  | qsrTail (fn value : Nat)
  /-- QCR_HEAD (R405): A write of the basic-level completion head frees completion slots. -/
  | qcrHead (fn value : Nat)
  /-- IGR_TAIL (R405): A write of the basic-level ingest ring tail makes descriptors available. -/
  | igrTail (fn value : Nat)
  /-- BASIC_QUERY_DESCRIPTOR (R407): A basic-level query descriptor is translated into an expert-level query. -/
  | basicQueryDescriptor (fn : Nat) (desc vec : List Byte) (reads : HostReads)
  /-- BASIC_INGEST_DESCRIPTOR (R407): A basic-level ingest descriptor is translated into an expert-level batch. -/
  | basicIngestDescriptor (fn : Nat) (desc records : List Byte) (reads : HostReads)
  /-- SNAP_REQ (R200): Writing SNAP_REQ requests a metering snapshot, or sets OVERLAP while BUSY. -/
  | snapReq (fn : Nat)
  /-- TENANT_SNAP_REQ (R202): Writing 0x2033.01 requests a snapshot of the tenant named in 0x2030.01. -/
  | tenantSnapReq (who : Accessor)
  /-- METER_CAPTURE (R201): Within 2 µs, all metering counters of the tenant are captured in one cycle and BUSY clears. -/
  | meterCapture (fn : Option Nat) (t : Nat)
  /-- TENANT_REMOVE (R183): Writing a tenant ID discards its record unless it is bound or has work in flight. -/
  | tenantRemove (who : Accessor) (tenant : Nat)
  /-- TENANT_ISOLATION_MODE (R185): A budgeted write changes the isolation mode from a switch epoch F, through the leader in a composition. -/
  | tenantIsolationMode (who : Accessor) (mode : Nat) (others : ModuleAnswers) (leaderF : Option Nat)
  /-- OBJECT_ACCESS (R431): An in-band object access request is sized and its items run in order. -/
  | objectAccess (cmd : AdminCmd)
  /-- SEGMENT_WRITE_TIMEOUT (R421): An open segmented Domain write with no segment for 1 s is discarded. -/
  | segmentWriteTimeout (t : Nat)
  /-- OAP_REQUEST (R435): A field-network REQUEST frame is checked and its items run with its key's rights. -/
  | oapRequest (frame : List Byte)
  /-- HELLO (R434): The module sends a HELLO when its link comes up and every 10 s. -/
  | hello (t : Nat)
  /-- LOG_BASE (R453): Writing LOG_BASE sets the accessor's window into the event log. -/
  | logBase (who : Accessor) (value : Nat)
  /-- MGMT_PLACE (R425): The management firmware writes a placement call and is answered when it completes. -/
  | mgmtPlace (call : List Byte)
  /-- PLACE (R254): A placement call is checked and queues a move of an object or of a list's code pairs. -/
  | place (cmd : AdminCmd)
  /-- PLACE_CANCEL (R254): A placement call with CANCEL abandons the running or queued move of the object. -/
  | placeCancel (cmd : AdminCmd)
  /-- DESCRIBE (R400): The command returns object descriptors. -/
  | describe (cmd : AdminCmd)
  /-- MOVE_ROUND_COMPLETE (R255): A copy round ends; dirty chunks are copied again, or writes are held and the object switches home. -/
  | moveRoundComplete (obj : Nat) (round : CopyRound)
  /-- MOVE_SOURCE_FREE (R255): The source is freed when every read issued to it has completed. -/
  | moveSourceFree (obj : Nat)
  /-- REPAIR_COMPLETE (R262): A page's content is regenerated and it leaves REPAIR. -/
  | repairComplete (tier device page : Nat)
  /-- DEVICE_RETIRE (R263): A retired HBM stack or LPDDR package has its pages regenerated elsewhere, moving code pairs if needed. -/
  | deviceRetire (tier device : Nat)
  /-- BANK_OWNER (R266): A write of BANK_OWNER hands a staging bank to a new owner from the next cycle. -/
  | bankOwner (part strand bank master value : Nat) (mgmtValue : Option Nat)
  /-- STAGING_REFUSED (R267): An access by a non-owner is refused and counted; an own-tile refusal withdraws the list. -/
  | stagingRefused (access : StagingAccess)
  /-- HAREBELL_WORD (R271): After HAREBELL_INTERVAL Harebell saves the next word and starts its march test. -/
  | harebellWord (part t : Nat)
  /-- HAREBELL_TEST_COMPLETE (R273): The march test ends; the word is written back, or remapped on failure. -/
  | harebellTestComplete (part : Nat) (pass : Bool) (t : Nat)
  /-- HB_DEFERRED (R272): A word test unfinished within 4,096 cycles is written back and deferred. -/
  | hbDeferred (part t : Nat)
  /-- FLASH_UNIT_READ (R289): A flash unit read completes, with read retry, parity rebuild or FAILED. -/
  | flashUnitRead (lba : Nat) (level : Option Nat) (rebuilt : Bool)
  /-- PAGE_PROGRAM_COMPLETE (R290): A flash page program completes, or a failed program reassigns its units and retires the block. -/
  | pageProgramComplete (page : Nat) (ok : Bool)
  /-- DISCARD (R285): A discard unmaps a range of units and is acknowledged when its journal record is durable. -/
  | discard (first count owner : Nat)
  /-- JOURNAL_PAGE_PROGRAM (R293): A journal page is programmed when 16 KiB are pending or 200 µs after its first record. -/
  | journalPageProgram (t : Nat)
  /-- CHECKPOINT_START (R295): A checkpoint starts after CKPT_INTERVAL or CKPT_SB_LIMIT and writes changed map segments. -/
  | checkpointStart (t : Nat)
  /-- GC_VICTIM (R304): A row under collection chooses a victim superblock and copies its valid units. -/
  | gcVictim (row : Nat)
  /-- SB_ERASE (R294): A freed superblock is erased once SB_FREE is durable and reads have completed. -/
  | sbErase (row sb : Nat)
  /-- ERASE_COMPLETE (R293): An erase completes and SB_ERASED is recorded, or the block is retired. -/
  | eraseComplete (row sb : Nat) (failed : Option Nat)
  /-- DIES_RETIRED (R306): A die that stops responding or reaches retire is retired and its superblocks are refreshed. -/
  | diesRetired (chan die : Nat)
  /-- BUFFER_GRANT (R301): A freed flash buffer goes to the oldest waiting request of its channel. -/
  | bufferGrant (chan : Nat) (write : Bool)
  /-- PORT_ENABLE (R313): Setting PORT_CTL.ENABLE allows the port to train. -/
  | portEnable (port : Nat)
  /-- PORT_SIGNAL_DETECT (R313): A signal on a lane starts training through equalisation and FEC lock. -/
  | portSignalDetect (port lanes : Nat)
  /-- TRAIN_FAILS (R313): A training step exceeding its limit returns the port to DOWN for retry after 100 ms. -/
  | trainFails (port t : Nat)
  /-- TRAIN_RETRY (R313): 100 ms after a failure the port retries training. -/
  | trainRetry (port t : Nat)
  /-- IDENT (R314): An IDENT flit is compared with the descriptor; the port becomes UP or MISMATCH. -/
  | ident (port : Nat) (content : List Byte)
  /-- RETRAIN_TRIGGER (R315): Lane loss, FEC failures or repeated replays start a retrain. -/
  | retrainTrigger (port cause : Nat)
  /-- RETRAIN (R315): Writing PORT_CTL.RETRAIN requests a retrain. -/
  | retrain (port : Nat)
  /-- RETRAIN_COMPLETE (R315): A retrain ends at the supported width, or the port goes DOWN. -/
  | retrainComplete (port lanes : Nat)
  /-- PORT_DOWN (R327): A port going DOWN discards partial frames and re-queues unacknowledged ones. -/
  | portDown (port : Nat)
  /-- FLIT_RECEIVE (R317): A flit is checked for CRC and sequence, acknowledged or NAKed, and replays on received NAKs. -/
  | flitReceive (port : Nat) (flit : List Byte)
  /-- FRAME_HEADER_DECIDE (R323): A frame header is decided ACCEPT or DEFER within 4 cycles. -/
  | frameHeaderDecide (port : Nat)
  /-- FRAME_DELIVER (R339): An accepted frame completes and goes to its exchange inbox or transit egress. -/
  | frameDeliver (port tag : Nat)
  /-- ANSWER_RECEIVE (R326): A sender receives ACCEPT or DEFER for a frame. -/
  | answerReceive (port word : Nat)
  /-- DEFER_BACKOFF (R326): After backoff a deferred frame goes to the head of its class queue. -/
  | deferBackoff (port tag t : Nat)
  /-- ANSWER_TIMEOUT (R327): An answer missing after ANSWER_TIMEOUT counts as DEFER TABLE. -/
  | answerTimeout (port tag t : Nat)
  /-- FRAME_START (R332): The egress starts the next frame by class priority among qualifying classes. -/
  | frameStart (port t : Nat)
  /-- GATE_ENTRY (R329): The gate control list moves to its next entry or starts a new cycle. -/
  | gateEntry (port t : Nat)
  /-- GCL_SWITCH (R330): A bank switch request is checked and refused or scheduled. -/
  | gclSwitch (port t : Nat)
  /-- SHAPER_REFILL (R334): Every 1 µs each token bucket gains RATE bytes, clipped to BURST. -/
  | shaperRefill (t : Nat)
  /-- QUEUE_SAMPLE (R336): Every 1.024 µs each egress queue's depth and head delay are binned. -/
  | queueSample (t : Nat)
  /-- HIST_SNAP (R337): Writing HIST_SNAP copies a port's 640 bins to the snapshot. -/
  | histSnap (port : Nat)
  /-- HIST_CLR (R337): Writing HIST_CLR clears every live bin of the port. -/
  | histClr (port : Nat)
  /-- SHARD_MOVE_START (R359): The leader marks a shard MOVING and the source starts copying it. -/
  | shardMoveStart (shard dest : Nat) (loads : Option (List FeatLoad))
  /-- SHARD_COPY_COMPLETE (R359): The source's copy rounds end and the leader announces the new home. -/
  | shardCopyComplete (shard : Nat)
  /-- SHARD_FREE (R359): The source frees the shard when no query holds a snapshot below F2. -/
  | shardFree (shard : Nat)
  /-- HOT_ROW_REPLICATE (R365): A row whose sampled rate exceeds HOT_ROW_RATE is copied to its top readers. -/
  | hotRowReplicate (ns table row : Nat)
  /-- INVALIDATE (R366): A holder stops serving an invalidated replica row and echoes the entry. -/
  | invalidate (src : Nat) (body : List Byte)
  /-- INVALIDATE_ACK (R366): The home takes a holder's echoed invalidation. -/
  | invalidateAck (src : Nat) (body : List Byte)
  /-- REPLICA_LEASE_EXPIRE (R367): A replica lease runs out; the holder drops its replicas and the home stops waiting. -/
  | replicaLeaseExpire (peer t : Nat)
  /-- TAKEN (R369): The draining module receives TAKEN and drops its copy. -/
  | taken (src : Nat) (msg : List Byte)
  /-- ASK (R370): A lease holder answers ASK with what it holds. -/
  | ask (src : Nat) (msg : List Byte)
  /-- LEASE_ANSWER (R370): An ANSWER lease message resolves who holds the state. -/
  | leaseAnswer (src : Nat) (msg : List Byte)
  /-- RESEND (R370): The draining module sends the state again on RESEND. -/
  | resend (src : Nat) (msg : List Byte)
  /-- ORPHANED_QUERIES (R370): At lease expiry with no claim the stub completes ORPHANED. -/
  | orphanedQueries (handle t : Nat)
  /-- CODE_FLUSH (R371): A stripe unfinished after CODE_FLUSH is padded, coded and its fragments sent. -/
  | codeFlush (shard t : Nat)
  /-- MEMBER_REBUILD (R374): A replacement member rebuilds its fragments from eight others. -/
  | memberRebuild (shard frag : Nat) (read : List FragIn)
  /-- HOME_REBUILD (R374): A new home rebuilds a lost shard from its code group and becomes LIVE. -/
  | homeRebuild (shard : Nat) (read : List FragIn)
  /-- MBX_PUSH (R443): A push stores a message in the channel's next slot, waking a gated receiver, or is refused. -/
  | mbxPush (master channel : Nat) (path : PushPath) (bytes : List Byte)
  /-- MBX_POP (R447): Writing MBX_POP removes the head of an outbound channel. -/
  | mbxPop (mask : Nat)
  /-- FW_FETCH (R448): The management firmware fetches a firmware image from host memory. -/
  | fwFetch (image : List Byte)
  /-- KEY_ENROL (R457): The first OPERATOR key is enrolled while none exists and the composition is unsealed. -/
  | keyEnrol (record : List Byte)
  /-- LOG_COPY (R451): The firmware copies records to the flash log, or drops them on overflow. -/
  | logCopy (count : Nat)
  /-- SENSOR_SAMPLE (R449): Every 10 ms the sensor hub samples every sensor. -/
  | sensorSample (t : Nat) (values : List (Nat × Nat × F32))
  /-- COMPOSITION_SEAL (R459): Writing the seal verifies the descriptor and loads the address set, or clears it on 0. -/
  | compositionSeal (who : Accessor) (value : Nat)
  /-- SETTINGS_DEFAULT (R461): Writing 1 returns persistent objects to defaults while unsealed. -/
  | settingsDefault (who : Accessor) (value : Nat)
  /-- BOOT_START (R462): The boot ROM derives keys, reads SLOT_ID and verifies and starts a slot. -/
  | bootStart (t : Nat) (found : BootFind)
  /-- BOOT_WATCHDOG (R462): The firmware not declaring HEALTHY within BOOT_WATCHDOG moves the boot ROM to the next step. -/
  | bootWatchdog (t : Nat)
  /-- RECOVERY_OFFER_END (R462): Recovery offered for 30 s without an image leads to the wait. -/
  | recoveryOfferEnd (t : Nat)
  /-- BOOT_WAIT_END (R462): The boot wait ends and boot repeats from step 1. -/
  | bootWaitEnd (t : Nat)
  /-- REC_GO (R463): Writing REC_CTL.GO fetches, verifies and starts a recovery image. -/
  | recGo (image : List Byte)
  /-- HEALTHY (R462): The firmware declares HEALTHY and the start sequence continues. -/
  | healthy (t : Nat)
  /-- BEGIN (R465): FW_CTL BEGIN opens a firmware update. -/
  | fwBegin (length : Nat)
  /-- FW_DATA (R465): A complete FW_DATA write adds 64 KiB of image. -/
  | fwData (bytes : List Byte)
  /-- ACTIVATE (R465): FW_CTL ACTIVATE makes the slot preferred in TRIAL and restarts the management complex. -/
  | fwActivateSlot (t : Nat)
  /-- WATCHDOG_RESETS (R467): A management core not servicing its watchdog for 2 s is reset alone. -/
  | watchdogResets (t : Nat)
  /-- TELEMETRY_EXPORT (R468): Every TELEMETRY_INTERVAL telemetry frames are sent. -/
  | telemetryExport (t : Nat)
  /-- POWER_SAMPLE (R474): Every 1 µs the sequencer measures input and holds load within the ceiling. -/
  | powerSample (t millivolts milliamps : Nat)
  /-- F_STEP (R474): The arithmetic clock steps down or up by 100 MHz on its timer. -/
  | fStep (part t : Nat)
  /-- LIMITER_TRIPS (R474): Input over 52 A for 20 µs forces shedding step 3 for 100 ms. -/
  | limiterTrips (t : Nat)
  /-- IDLE_GATE (R475): A domain idle for IDLE_GATE_DELAY requests to gate off. -/
  | idleGate (dom : DomainId) (t : Nat)
  /-- PLL_OFF (R475): A partition base idle for PLL_OFF_DELAY gates off and stops its PLL. -/
  | pllOff (part t : Nat)
  /-- WAKE_SLOT (R476): Every 2 µs the sequencer grants wake tokens in priority order up to 400 A. -/
  | wakeSlot (t : Nat)
  /-- DOMAIN_READY (R477): A domain becomes powered and its PLL locked, and its wake latency is binned. -/
  | domainReady (dom : DomainId) (t : Nat)
  /-- SHED_STEP (R478): The shedding step changes with the filtered input voltage or SHED_FORCE. -/
  | shedStep (t : Nat)
  /-- SHED_FORCE (R478): Writing SHED_FORCE sets a forced step. -/
  | shedForce (who : Accessor) (value : Nat)
  /-- HOLDUP_FLUSHES (R480): The flush completes; a LIFECYCLE record is written and VBUS switched off. -/
  | holdupFlushes (t : Nat)
  /-- THERMAL_THROTTLES (R482): A sensor crossing its throttle point starts throttling. -/
  | thermalThrottles (sub : Nat)
  /-- THERMAL_RELEASE (R482): A sensor below its release point ends throttling. -/
  | thermalRelease (sub : Nat)
  /-- THERMAL_TRIPS (R482): A trip resets the partition or enters step 6. -/
  | thermalTrips (sub : Nat)
  /-- CAP_NOT_HELD (R483): A partition above PART_TEMP_CAP at 1.0 GHz for 1 s raises a fault. -/
  | capNotHeld (part t : Nat)
  /-- F_MAX (R484): A lower F_MAX steps F down at once. -/
  | fMax (who : Accessor) (value : Nat)
  /-- MEMORY_TRAINING_COMPLETE (R487): Memory interface training ends and the memory test starts. -/
  | memoryTrainingComplete (failed : List (Nat × Nat))
  /-- MEMTEST_COMPLETE (R488): The memory test ends, remapping pages and retiring devices. -/
  | memtestComplete (pages : List (Nat × Nat × Nat)) (devices : List (Nat × Nat))
  /-- REPLAY (R296): The map is rebuilt from the checkpoint and journal, and the commit log replayed. -/
  | replay (t : Nat) (clean : Bool) (lost : List (Nat × Nat))
  /-- RECEIPT_RECOVERY (R243): Unsealed receipt periods are sealed with RECOVERED and images installed. -/
  | receiptRecovery (t : Nat)
  /-- READY (R490): READY is declared when phases, beacon and topology conditions all hold. -/
  | ready (t : Nat)
  /-- TOPOLOGY_WAIT (R491): After TOPOLOGY_WAIT without readiness the module enters NOT_READY. -/
  | topologyWait (t : Nat)
  /-- RESET_TILE (R493): RESET_REQUEST scope 1 resets one tile, absorbing its work. -/
  | resetTile (who : Accessor) (req : ResetReq)
  /-- RESET_STRAND (R493): RESET_REQUEST scope 2 drains and resets a strand. -/
  | resetStrand (who : Accessor) (req : ResetReq)
  /-- RESET_PARTITION (R493): RESET_REQUEST scope 3 drains and resets a partition. -/
  | resetPartition (who : Accessor) (req : ResetReq)
  /-- RESET_MODULE (R493): RESET_REQUEST scope 4 drains and resets the module. -/
  | resetModule (who : Accessor) (req : ResetReq)
  /-- RESET_DRAIN_END (R494): A drain ends or its limit expires and remaining work is absorbed. -/
  | resetDrainEnd (scope part strand t : Nat)
  /-- UNIT_RETURN (R493): A reset unit returns to service. -/
  | unitReturn (scope part strand : Nat) (t : Nat)
  /-- HEALTH_HALF_LIFE (R498): At each HEALTH_HALF_LIFE every score is halved. -/
  | healthHalfLife (t : Nat)
  /-- CAMPION_ISSUE (R502): A Campion probe is issued at CAMPION_RATE. -/
  | campionIssue (t : Nat)
  /-- CAMPION_RESULT (R503): A Campion probe's digests are checked and mismatches scored. -/
  | campionResult (num stage load : Nat)
  /-- DUAL_CHECK_COMPARE (R504): Two check digests are compared. -/
  | dualCheckCompare (q list : Nat) (first second : List Byte)
  /-- SHADOW_START (R507): The leader names shards to copy to a shadow module. -/
  | shadowStart (peer : Nat) (partner : Bool) (shards : List Nat)
  /-- SHADOW_DIGEST (R508): The partner compares the shadow's check digests. -/
  | shadowDigest (handle list : Nat) (digest : List Byte)
  /-- PERST_N (R520): Asserting PERST_N resets the PCIe core. -/
  | perstN (asserted : Bool)
  /-- OVERVOLTAGE (R526): Input above 61 V opens the switch and enters step 6. -/
  | overvoltage (t : Nat)
  /-- BANK_QUALIFY (R530): The hold-up bank is measured before starting. -/
  | bankQualify (millivolts millijoules : Nat)
  /-- MAINT_STEP_COMPLETE (R230): A maintenance step on tensor tiles, such as a streaming k-means re-fit or a projection fit, finishes in full, releases its tiles and yields its result, such as a new CSKETCH. -/
  | maintStepComplete (step : Nat) (centroid : List F32)
  /-- ADMISSION_TABLE_PUBLISH (R59): ADMIT publishes its free credits to the fabric admission table every on-die network cycle. -/
  | admissionTablePublish
  /-- PEER_SNAPSHOT_HOLD_END (R18): Work held for a snapshot the peer had not closed is released when it records the closure. -/
  | peerSnapshotHoldEnd
  /-- RECORD_ORDER (R216): A home orders a record, stamps it with its open epoch, evaluates it and queues it for the commit log. -/
  | recordOrder
  /-- EPOCH_CLOSURE_RECORD (R207): The module records an epoch closed after the beacon, durability and replica invalidation have all occurred. -/
  | epochClosureRecord
  /-- FIELD_LINK_UP (R434): The field-network link comes up. -/
  | fieldLinkUp
  /-- MOVE_START (R255): A queued move starts when fewer than 8 run, reserving destination space and copying chunks. -/
  | moveStart
  /-- CHECKPOINTS (R295): When all copies are durable CKPT_END is recorded and the checkpoint is complete. -/
  | checkpoints
  /-- FW_ACTIVATE (R448): The mailbox message runs ACTIVATE. -/
  | fwActivate
  /-- NOTICES_LOST (R452): When a slot frees a message reports notices dropped. -/
  | noticesLost
  /-- SETTINGS_COMPACT (R460): A full settings area is copied to the other and the old erased. -/
  | settingsCompact
  /-- COMMIT (R465): FW_CTL COMMIT runs the image checks. -/
  | fwCommit
  /-- ABORT (R465): FW_CTL ABORT ends the open update. -/
  | fwAbort
  /-- WAKE_HIST_SNAP (R477): Writing 0x2C30.01 copies the wake-latency bins. -/
  | wakeHistSnap
  /-- WAKE_HIST_CLR (R486): Writing 0x2C30.04 clears every live wake-latency bin. -/
  | wakeHistClr
  /-- RELOAD_COMPLETE (R258): HBM and LPDDR objects are rebuilt from flash in their journalled tiers. -/
  | reloadComplete
  /-- SHADOW_PEER_FAIL (R511): A failing partner or shadow ends shadowing. -/
  | shadowPeerFail
  /-- PRESENT_N_OPEN (R518): Opening J1 PRESENT_N opens the input switch and enters step 6. -/
  | presentNOpen
  /-- VF_ENABLE (R408): Setting VF Enable in the PF's SR-IOV capability brings the VFs into being with VF_VECTORS MSI-X entries each and locks VF_VECTORS against writes. -/
  | vfEnable
  /-- FIELD_LINK_DOWN (R432): The 10BASE-T1S field-network link goes down and LINK_UP reads 0 until the link comes up again. -/
  | fieldLinkDown
  deriving DecidableEq, Repr

end Sys2Proof
end

