-- ==== Sys2Proof/Config.lean ====
section
/-! DEFINITION. What an implementation fixes and the spec does not: the free values. Each is an opaque constant, so nothing can be
proved from its value; where a fresh value is drawn each time, it is applied to the state's count of draws. -/
namespace Sys2Proof.Config

/-- Was an entry that a peer marked ESTIMATED estimated because its codes were unreadable (true, RERANK_FAILED) or late (false,
RERANK_LATE)? No message of the spec carries it (R36, R146; log 20). -/
opaque estimateFailed : Nat → Bool

/-- The page of a memory device that held a region which failed error correction: device and page number. The spec does not say
where in a tier an object lies (R262; log 23). -/
opaque failedPage : Nat → Nat × Nat

/-- Which of a model's weight objects a failed weight read read (R178; log 28). -/
opaque failedWeight : Nat → Nat

/-- Does a read of an object with a page in REPAIR touch that page (R260, R262)? The spec places no content of an object in a page (log 87). -/
opaque touchesRepair : Nat → Bool

/-- The elements that the bytes of a feature row stand for in a compiled model (R172, R361): its encoding is not in the spec (log 10). -/
opaque rowElements : List (BitVec 8) → List (BitVec 32)

/-- The data of a staging word read with an uncorrectable error, which the spec does not state (R264; log 89). -/
opaque badWord : Nat → List (BitVec 8)

/-- Load bin of a fault: 0, 1 or 2 by its remainder modulo 3. The share of busy cycles over the last millisecond is timing, which the
model does not hold (R505; log 27). -/
opaque loadBin : Nat → Nat

/-- Which of the two tile faults of R178 other than a weight read a tensor tile reported: a residue mismatch (true) or an
uncorrectable local-memory error. TILE_RESTARTS does not say (log 28). -/
opaque residueFault : Nat → Bool

/-- Element `i` of what a fitted projection generation holds: its centre first, then its matrix rows; and the routing sketch of a list
that a version is created with. How either is fitted is the module's own (R536; log 34). -/
opaque fitted : Nat → Nat → F32

/-- The partition whose SKETCH tiles sketch an inserted item or a centroid, by its remainder modulo 4: the spec names none (R79, R114; log 81). -/
opaque sketchPart : Nat → Nat

/-- Which entries of a list a drift sample takes: draw and place in the sample (R226; log 35). -/
opaque driftSample : Nat → Nat → Nat

/-- Does a segment on another home of an index still hold an older generation (R231)? No message of the spec says so (log 35). -/
opaque heldElsewhere : Nat → Bool

/-- Does a projection change of an index start now? The spec does not say when one does (R231; log 35). -/
opaque startProjection : Nat → Bool

/-- The root secret of the module's PUF, from which every derived key comes (R454). No path shows it (log 38). -/
opaque pufRoot : List (BitVec 8)

/-- Writes lost with a home beyond the last stripe that its group holds: the spec gives the new home no way to know the number (R375; log 42). -/
opaque lostWrites : Nat → Nat

/-- Pages that a memory device held when it was retired, each with the object it held: the spec does not say where in a tier an object lies
(R263; log 43). -/
opaque pagesHeld : Nat → List (Nat × Nat)

/-- The KEY_ID of the manufacturing key, and its signature on the enrolment certificate (R456): no rule states them (log 93). -/
opaque manufacturer : List (BitVec 8) × List (BitVec 8)

/-- The four firmware signers fixed in the boot ROM: SIGNER_ID and public key. No object names them (R457; log 47). -/
opaque romSigner : Nat → List (BitVec 8) × List (BitVec 8)

/-- The route entry that the management firmware finds for a module that is no neighbour: draw and module ID. How it discovers the
topology beyond the neighbours is not in the spec (R350; log 46). -/
opaque discoveredRoute : Nat → Nat → Nat

/-- How many other modules of the composition have spent their budget for TENANT_ISOLATION_MODE, and how many fail to take its change
(R430): a free value, by the number of free values drawn (log 53). -/
opaque isolationPeers : Nat → Nat × Nat

/-- What the vector unit returns for a function that it approximates: within 2 units in the last place of the exact result, and the spec
does not give the algorithm (R162; log 80). -/
opaque vecFn : VecFn → F32 → F32

/-- The larger or smaller of two operands of which neither is less: the spec does not state it (R167; log 80). -/
opaque unordered : F32 → F32 → F32

/-- A deviation from the mean divided by the root of variance plus epsilon: the spec does not state its roundings (R162; log 80). -/
opaque normalised : F32 → F32 → F32 → F32

/-- An element of a row that a Gather names beyond its data: index and column. The spec states none (R167; log 80). -/
opaque absentRow : F32 → Nat → F32

/-- The busy cycles that one piece of work adds to SIGN_CYCLES, CH_BUSY_CYCLES or CHECK_CYCLES: the spec gives no duration for a signature, a
NAND transfer or a probe (R311, R461, R513; log 13). -/
opaque busyCycles : Nat → Nat

end Sys2Proof.Config
end

