-- ==== Sys2Proof/Machine/Store.lean ====
section
/-! DEFINITION. The one keyed table of the model: a list of key and value pairs with strictly rising keys, so that
equal tables are equal data. Counters, settings, queries, flash units and every other sparse collection of State
are held in it. -/
namespace Sys2Proof.Machine

/-- A sparse table by natural-number key. -/
abbrev Table (α : Type) := List (Nat × α)

/-- The value at a key, if the table lists one. -/
def Table.get {α : Type} : Table α → Nat → Option α
  | [], _ => none
  | (k', v) :: t, k => if k = k' then some v else if k < k' then none else Table.get t k

/-- The value at a key, or what an unlisted key reads as. -/
def Table.getD {α : Type} (m : Table α) (k : Nat) (d : α) : α := (Table.get m k).getD d

/-- Write a value at a key. -/
def Table.set {α : Type} : Table α → Nat → α → Table α
  | [], k, v => [(k, v)]
  | (k', v') :: t, k, v =>
    if k = k' then (k, v) :: t else if k < k' then (k, v) :: (k', v') :: t else (k', v') :: Table.set t k v

/-- Remove a key. -/
def Table.erase {α : Type} : Table α → Nat → Table α
  | [], _ => []
  | (k', v') :: t, k => if k = k' then t else if k < k' then (k', v') :: t else (k', v') :: Table.erase t k

/-- Write a value, keeping the form in which a key that reads as the default is not listed. -/
def Table.put {α : Type} [DecidableEq α] (m : Table α) (k : Nat) (d v : α) : Table α :=
  if v = d then Table.erase m k else Table.set m k v

/-- Apply a function to the value at a key, where one is listed. -/
def Table.alter {α : Type} (m : Table α) (k : Nat) (f : α → α) : Table α :=
  match Table.get m k with
  | some v => Table.set m k (f v)
  | none => m

/-- Apply a function to every listed value. -/
def Table.mapVals {α : Type} (f : α → α) (m : Table α) : Table α := m.map fun kv => (kv.1, f kv.2)

/-- Keep the pairs that satisfy a test. -/
def Table.keep {α : Type} (p : Nat → α → Bool) (m : Table α) : Table α := m.filter fun kv => p kv.1 kv.2

/-- One above the highest listed key: a key that is not listed. -/
def Table.fresh {α : Type} (m : Table α) : Nat := (m.map fun kv => kv.1 + 1).foldl max 0

/-- The keys rise strictly. -/
def Table.wf {α : Type} : Table α → Bool
  | [] => true
  | [_] => true
  | (k, _) :: (k', v') :: t => decide (k < k') && Table.wf ((k', v') :: t)

/-- The first element that satisfies a test, replaced by a function of it. -/
def replaceFirst {α : Type} (p : α → Bool) (f : α → α) : List α → List α
  | [] => []
  | x :: xs => if p x then f x :: xs else x :: replaceFirst p f xs

/-- Split a list into pieces of a length (fuel: the list's length). -/
def chunkFuel {α : Type} (n : Nat) : Nat → List α → List (List α)
  | 0, _ => []
  | _ + 1, [] => []
  | fuel + 1, xs => xs.take n :: chunkFuel n fuel (xs.drop n)

/-- Split a list into pieces of `n` elements, the last one shorter. -/
def chunks {α : Type} (n : Nat) (xs : List α) : List (List α) := chunkFuel n xs.length xs

/-- Insert into a list that an order keeps, before the first element that does not come before it. -/
def insertBy {α : Type} (before : α → α → Bool) (x : α) : List α → List α
  | [] => [x]
  | y :: ys => if before y x then y :: insertBy before x ys else x :: y :: ys

/-- Sort by insertion. -/
def sortBy {α : Type} (before : α → α → Bool) (xs : List α) : List α := xs.foldl (fun acc x => insertBy before x acc) []

/-- The element that an order puts first. -/
def firstBy {α : Type} (before : α → α → Bool) : List α → Option α
  | [] => none
  | x :: xs =>
    match firstBy before xs with
    | none => some x
    | some y => if before y x then some y else some x

/-- The list of 0 to n - 1 that satisfy a test. -/
def upTo (n : Nat) (p : Nat → Bool) : List Nat := (List.range n).filter p

end Sys2Proof.Machine
end

