-- ==== Sys2Proof/Machine/Bytes.lean ====
section
/-! DEFINITION. Byte order and the two cyclic redundancy checks: R4 (every multi-byte field is little-endian), R316
(CRC-64 with the ECMA-182 polynomial) and R288, R450 (CRC-32C). -/
namespace Sys2Proof.Machine

/-- `n` little-endian bytes of a number (R4). -/
def leBytes : Nat → Nat → List Byte
  | 0, _ => []
  | n + 1, v => BitVec.ofNat 8 v :: leBytes n (v / 256)

/-- The number that little-endian bytes spell (R4). -/
def leNat : List Byte → Nat
  | [] => 0
  | b :: bs => b.toNat + 256 * leNat bs

/-- The little-endian field of `size` bytes at `off`; bytes beyond the end read zero. -/
def field (bs : List Byte) (off size : Nat) : Nat := leNat ((bs.drop off).take size)

/-- The bytes at `off`, padded with zeros to `size`. -/
def slice (bs : List Byte) (off size : Nat) : List Byte :=
  let t := (bs.drop off).take size
  t ++ List.replicate (size - t.length) 0

/-- Are all bytes of a range zero? -/
def allZero (bs : List Byte) (off size : Nat) : Bool := ((bs.drop off).take size).all fun b => b == 0

/-- Pad with zeros to a multiple of `m`. -/
def padTo (m : Nat) (bs : List Byte) : List Byte := bs ++ List.replicate ((m - bs.length % m) % m) 0

/-- `n` rounded up to a multiple of `m`. -/
def roundUp (m n : Nat) : Nat := (n + m - 1) / m * m

/-- The ceiling of a quotient. -/
def ceilDiv (a b : Nat) : Nat := (a + b - 1) / b

/-- ASCII bytes of a string. -/
def ascii (s : String) : List Byte := s.toList.map fun c => BitVec.ofNat 8 c.toNat

/-- Bits [hi:lo] of a number, as the spec writes bit ranges. -/
def bits (v hi lo : Nat) : Nat := (v >>> lo) % 2 ^ (hi - lo + 1)

/-- One bit of a number. -/
def bit (v i : Nat) : Bool := v.testBit i

/-- Set or clear one bit of a number. -/
def setBit (v i : Nat) (b : Bool) : Nat :=
  if b then v ||| 2 ^ i else if v.testBit i then v ^^^ 2 ^ i else v

/-- Set bits among the first `n` of a number. -/
def popcount : Nat → Nat → Nat
  | 0, _ => 0
  | n + 1, v => v % 2 + popcount n (v / 2)

/-- `n` shifts of the CRC-64 register, most significant bit first, polynomial of ECMA-182. -/
def crc64Shift : Nat → Nat → Nat
  | 0, c => c
  | n + 1, c =>
    let s := (c <<< 1) % 2 ^ 64
    crc64Shift n (if c.testBit 63 then s ^^^ 0x42F0E1EBA9EA3693 else s)

/-- CRC-64 with the ECMA-182 polynomial (R316); initial value 0, unreflected, no final complement (log 5). -/
def crc64 (bs : List Byte) : Nat := bs.foldl (fun c b => crc64Shift 8 (c ^^^ (b.toNat <<< 56))) 0

/-- `n` shifts of the reflected CRC-32C register. -/
def crc32cShift : Nat → Nat → Nat
  | 0, c => c
  | n + 1, c => crc32cShift n (if c % 2 = 1 then (c >>> 1) ^^^ 0x82F63B78 else c >>> 1)

/-- CRC-32C (R288, R450), in the usual reflected form with initial value and final complement of all ones (log 5). -/
def crc32c (bs : List Byte) : Nat :=
  bs.foldl (fun c b => crc32cShift 8 (c ^^^ b.toNat)) 0xFFFFFFFF ^^^ 0xFFFFFFFF

/-- Exclusive or of two byte strings, the shorter padded with zeros. -/
def xorBytes : List Byte → List Byte → List Byte
  | [], ys => ys
  | xs, [] => xs
  | x :: xs, y :: ys => (x ^^^ y) :: xorBytes xs ys

end Sys2Proof.Machine
end

