-- ==== Sys2Proof/Machine/StatePipe.lean ====
section
/-! DEFINITION. The state of the query pipeline: queries and their contexts (01, 05), batches, candidates and fetches
(02, 03, 04), the tensor pools (06). A strand is numbered g = 8 × partition + strand, 0 to 31 (R45, R67). -/
namespace Sys2Proof.Machine

/-- A result entry (R31): KEY, SCORE, FLAGS (R33), SHARD_HINT (R32). -/
structure Entry where
  key : Nat
  score : F32
  flags : Nat
  shard : Nat
  deriving DecidableEq, Repr

/-- The fields of a query (R14, R394, R395). `r` and `s` are none where the entry leaves them to the index's default. -/
structure QueryFields where
  ns : Nat
  idx : Nat
  version : Nat
  tokens : Bool
  fmt : Nat
  len : Nat
  input : List Byte
  k : Nat
  nprobe : Nat
  r : Option Nat
  s : Option Nat
  deadlineUs : Nat
  urgent : Bool
  minEpoch : Nat
  inTerms : List InTerm
  postTerms : List PostTerm
  tag : Nat
  resultAddr : Nat
  deriving DecidableEq, Repr

/-- A selection context (R140, R149): its capacity K_sel, its store (0 Teasel, 1 spill, 2 HBM runs), the entries held
in order, and for HBM the runs, the carry run and the runs that a merge in progress reads beyond the carry. -/
structure SelCtx where
  kSel : Nat
  store : Nat := 0
  entries : List Entry := []
  runs : List (List Entry) := []
  carry : Option (List Entry) := none
  merging : Option (List (List Entry)) := none
  /-- Cycle in which the merge in progress started (R154). -/
  mergeAt : Nat := 0
  /-- Bytes held in the HBM selection pool (R152). -/
  hbmBytes : Nat := 0
  /-- Waiting for a work area of the selection pool (R152). -/
  poolWait : Bool := false
  /-- Entries of the Teasel store taken (R141). -/
  teasel : Nat := 0
  /-- Bytes of the spill store taken, and whether the context waits for them (R141). -/
  spill : Nat := 0
  spillWait : Bool := false
  deriving DecidableEq, Repr

/-- How far a chosen list has come at the origin: open, reserved or receiving, merged, or not reached. -/
inductive ListState where
  | open
  | reached
  | notReached
  deriving DecidableEq, Repr

/-- A list chosen by routing (R110), its item count at the snapshot and its partial result so far (R147, R148). -/
structure ChosenList where
  list : Nat
  items : Nat
  state : ListState := .open
  reserved : Bool := false
  /-- Its probe has been dispatched (R57, R96). -/
  sent : Bool := false
  /-- Module whose partial result holds the reservation (R148). -/
  sender : Option Nat := none
  total : Nat := 0
  /-- Pieces taken, by piece number. -/
  pieces : List (Nat × List Entry) := []
  last : Option Nat := none
  /-- Pieces waiting at their sender for a reservation (R147): sending module and bytes. -/
  waiting : List (Nat × List Byte) := []
  deriving DecidableEq, Repr

/-- A scan summary as received (R124). -/
structure Summary where
  list : Nat
  dLo : Nat
  dHi : Nat
  count : Nat
  cum : List Nat
  deriving DecidableEq, Repr

/-- One item of a top-S block (R155, R172): its entry, what is still being fetched, the feature rows that have come for it by the number of
their input, and whether it was dropped. -/
structure BlockItem where
  entry : Entry
  payloadDue : Bool
  /-- Numbers of the feature inputs whose rows are still due. -/
  rowsDue : List Nat
  rows : Table (List Byte) := []
  dropped : Bool := false
  deriving DecidableEq, Repr

/-- Where a query stands at its origin. -/
inductive QPhase where
  /-- Taken and read, waiting for placement (R392). -/
  | placing
  /-- Held for its minimum epoch (R17). -/
  | minHold
  /-- Waiting for its selection work area (R152). -/
  | poolWait
  /-- ENCODE requested and waiting for tiles (R170). -/
  | encodeWait
  /-- The encoder runs. -/
  | encoding
  /-- In the ADMIT to SKETCH link. -/
  | toSketch
  /-- Sketched, waiting for the walker (R53). -/
  | toWalk
  /-- Lists chosen; partial results awaited. -/
  | searching
  /-- The first context is done; its top-S block waits for a credit of the SELECT to SCORE link (R57). -/
  | blockWait
  /-- The top-S block's inputs are being fetched (R172). -/
  | assembling
  /-- SCORE requested and waiting for tiles (R174). -/
  | scoreWait
  /-- The scoring model runs. -/
  | scoring
  /-- The answer is with EMIT. -/
  | emitting
  /-- Its merge state has been handed to the successor of a drain; the stub waits for the answer (R369). -/
  | handedOff
  deriving DecidableEq, Repr

/-- What the successor of a drain reports of a query it completed (R369): status, reason, coverage, NODE_SET_DIGEST. -/
structure Given where
  status : Nat
  reason : Nat
  coverage : Nat
  nodeSet : List Byte
  deriving DecidableEq, Repr

/-- A query at its origin. -/
structure Query where
  fn : Nat
  pair : Nat
  sqIndex : Nat
  basic : Bool
  fields : QueryFields
  tenant : Nat
  phase : QPhase := .placing
  /-- Order of arrival. -/
  seq : Nat
  /-- Cycle in which the entry was read. -/
  arrivedAt : Nat
  /-- Cycle of admission and of the deadline (R37). -/
  admittedAt : Nat := 0
  deadlineAt : Nat := 0
  /-- Origin strand and merge slot (R60). -/
  g : Nat := 0
  slot : Nat := 0
  snapshot : Option Nat := none
  version : Nat := 0
  /-- Effective nprobe, R and S after defaults (R47). -/
  nprobe : Nat := 0
  r : Nat := 0
  s : Nat := 0
  gig : Bool := false
  /-- FORCED_GROUPS of the grant it was admitted under, 0 for the owner (R188). -/
  forced : Nat := 0
  /-- SCORE_MARGIN in force at admission, in µs (R180). -/
  scoreMargin : Nat := 0
  vector : List F32 := []
  /-- Sketch under each active generation (R82). -/
  sketches : List (Nat × Nat) := []
  routed : Bool := false
  chosen : List ChosenList := []
  summaries : List Summary := []
  gate : Option Nat := none
  /-- Smallest list bound received in a partial result that may seed a probe (R96). -/
  seed : Option Nat := none
  ctx : SelCtx := { kSel := 0 }
  /-- Merges under R28. -/
  merged : Nat := 0
  /-- The first context is frozen at the score cut-off (R173). -/
  frozen : Bool := false
  block : List BlockItem := []
  /-- Bit n set: degradation reason n applies (R36). -/
  reasons : Nat := 0
  dataLoss : Bool := false
  deadlineHit : Bool := false
  rejected : Option Nat := none
  stale : Bool := false
  retry : Bool := false
  orphaned : Bool := false
  /-- The answer's entries, valid ones only, once ordered. -/
  answer : List Entry := []
  /-- Selected for a dual-strand check (R504), and whether it is the second run of one. -/
  dual : Bool := false
  shadowOf : Option Nat := none
  /-- A tensor-tile fault has restarted its request once (R178). -/
  restarted : Bool := false
  /-- Module IDs that served parts of it (receipts, R240), and those that its context has been sent to (R346). -/
  peers : List Nat := []
  ctxSent : List Nat := []
  /-- Handle at the draining module of a query whose merge state was taken over from it (R369). -/
  adopted : Option Nat := none
  given : Option Given := none
  deriving DecidableEq, Repr

/-- A candidate record (R99) with the batch it belongs to. -/
structure Cand where
  batch : Nat
  member : Nat
  list : Nat
  seg : Nat
  slot : Nat
  dist : Nat
  gen : Nat
  deriving DecidableEq, Repr

/-- What a fetch part has come to. -/
inductive Part where
  | none
  | due
  | done
  deriving DecidableEq, Repr

/-- A released candidate whose key, codes and payload are being fetched (R126, R198). -/
structure Fetch where
  cand : Cand
  key : Part := .due
  codes : Part := .none
  post : Part := .none
  /-- 0 home tier pair, 1 reduced copy, 2 estimate. -/
  path : Nat := 0
  /-- Where the codes lie: 0 HBM, 1 LPDDR, 2 flash. -/
  tier : Nat := 1
  keyVal : Nat := 0
  score : F32 := 0
  flags : Nat := 0
  passed : Bool := true
  deriving DecidableEq, Repr

/-- A scored record on the RERANK to SELECT link (R57). -/
structure Scored where
  batch : Nat
  member : Nat
  entry : Entry
  /-- Hamming distance of its candidate (R501). -/
  dist : Nat
  deriving DecidableEq, Repr

/-- A candidate held at the rerank gate: the cycle it was held in and the GATE_HOLD then in force, in µs (R126, R137). -/
structure HeldCand where
  cand : Cand
  since : Nat
  us : Nat
  deriving DecidableEq, Repr

/-- A member of a batch (R52, R62): one probe. -/
structure Member where
  /-- Query handle at its origin, and the origin's module ID. -/
  handle : Nat
  origin : Nat
  tenant : Nat
  ns : Nat
  snapshot : Nat
  sketches : List (Nat × Nat)
  vector : List F32
  /-- Pruning depth N (R91), R, and selection depth. -/
  n : Nat
  r : Nat
  kSel : Nat
  /-- Running scan bound at the SCAN tiles (R93, R95), starting from the seed. -/
  bound : Nat
  inTerms : List InTerm
  postTerms : List PostTerm
  forced : Nat
  /-- Cycle at which its deadline or budget runs out. -/
  deadlineAt : Nat
  /-- Histogram of passed candidates by distance (R92), and the list bound it gives. -/
  hist : Table Nat := []
  listBound : Nat
  gate : Option Nat := none
  held : List HeldCand := []
  /-- Released by HOLD, GATE or LATE: later candidates pass straight through. -/
  released : Bool := false
  scanned : Bool := false
  summaryAt : Option Nat := none
  withdrawn : Bool := false
  ctx : SelCtx
  pieces : List (List Byte) := []
  built : Bool := false
  ended : Bool := false
  /-- Check mode (R501), with every scored candidate and its distance; a run whose partial result is discarded: the second one of a
  dual-strand check (R504), or a mirrored probe at a shadow (R508). -/
  check : Bool := false
  discard : Bool := false
  records : List (Nat × Entry) := []
  deriving DecidableEq, Repr

/-- Why a batch closed (R62); a gig closes at once (R64). -/
inductive CloseCause where
  | window
  | full
  | urgent
  | quiesce
  | gig
  deriving DecidableEq, Repr

/-- A batch of probes of one list view (R52, R62, R88). -/
structure Batch where
  list : Nat
  ns : Nat
  idx : Nat
  version : Nat
  /-- Segment identifiers of the view. -/
  view : List Nat
  g : Nat
  openedAt : Nat
  /-- BATCH_WINDOW (µs) and BATCH_MAX in force when it opened (R66). -/
  window : Nat
  max : Nat
  gig : Bool
  members : List Member := []
  closed : Option CloseCause := none
  closedAt : Nat := 0
  /-- SCAN tile on which it is staged, once dispatched to one (R57), and the tile's scan buffer that holds its piece: 0 A, 1 B (R264). -/
  tile : Option Nat := none
  buffer : Nat := 0
  /-- Members already scanned in passes, and blocks of the view already scanned in the present pass (R63, R89). -/
  passFrom : Nat := 0
  blocksDone : Nat := 0
  deriving DecidableEq, Repr

/-- A probe that waits here because every partition with its image is out of service (R52, R74): list handle, gig, dual-strand check. -/
structure ParkedProbe where
  list : Nat
  gig : Bool
  dual : Bool
  member : Member
  deriving DecidableEq, Repr

/-- The kinds of tensor-pool request: ENCODE and SCORE of a query, or background maintenance (R54, R177). -/
inductive TensorKind where
  | encode
  | score
  | maint
  deriving DecidableEq, Repr

/-- A request in a partition's pool queue, or the invocation it became (R54, R176). -/
structure TensorReq where
  kind : TensorKind
  /-- Query handle, or maintenance step number. -/
  owner : Nat
  tiles : Nat
  deadlineAt : Nat
  strand : Nat
  /-- Model section: the image's slot key times 2 plus 0 encoder, 1 scoring model. -/
  model : Nat
  queuedAt : Nat
  deriving DecidableEq, Repr

/-- A running invocation: its request, tiles and start. -/
structure Invocation where
  req : TensorReq
  held : List Nat
  startedAt : Nat
  deriving DecidableEq, Repr

/-- A complete weight share on a tile (R176): the tile, the model section and the tile position in the section it is the share of. -/
structure Share where
  tile : Nat
  model : Nat
  pos : Nat
  deriving DecidableEq, Repr

/-- A partition's tensor pool (R45, R176). -/
structure TensorPool where
  queue : List TensorReq := []
  running : List Invocation := []
  /-- Tiles out of service (reset or retired without a spare). -/
  out : List Nat := []
  /-- Complete weight shares held, most recent first (R176). -/
  shares : List Share := []
  /-- Maintenance steps suspended with their state saved (R177). -/
  suspended : List Nat := []
  deriving DecidableEq, Repr

/-- The query pipeline. -/
structure Pipe where
  queries : Table Query := []
  nextQuery : Nat := 1
  batches : Table Batch := []
  nextBatch : Nat := 1
  /-- Probes that wait for a partition with their image, oldest first. -/
  parked : List ParkedProbe := []
  fetches : Table Fetch := []
  nextFetch : Nat := 1
  /-- SCAN to FILTER, FILTER to RERANK and RERANK to SELECT links, by strand. -/
  scanFifo : Table (List Cand) := []
  rerankFifo : Table (List Cand) := []
  selectFifo : Table (List Scored) := []
  /-- Bounds on their way to the SCAN tiles: strand, then batch, member, bound (R95). -/
  bounds : Table (List (Nat × Nat × Nat)) := []
  /-- Look-up tables resident per RERANK tile (2 × strand + tile), most recent first: query handle and bytes (R128). -/
  tables : Table (List (Nat × Nat)) := []
  /-- Strand served last by each partition's walker (R53). -/
  walkLast : Table Nat := []
  /-- SCAN cycles used by gigs in this interval, by 4 × strand + tile; the interval number; the share in force (R64). -/
  gigUsed : Table Nat := []
  gigInterval : Nat := 0
  gigShare : Nat := 25
  /-- Last list service times of each partition, newest first, at most 256 (R62). -/
  svc : Table (List Nat) := []
  /-- Tenant of each completed query whose late partial results are still counted (R38). -/
  doneTenant : Table Nat := []
  /-- Queries admitted as origin since reset, for the selection of dual checks (R504). -/
  admitted : Nat := 0
  tensor : Table TensorPool := []
  /-- ADMIT credits last published to the fabric admission table (R59): descriptors, probes, by strand. -/
  published : Table Nat := []
  deriving DecidableEq, Repr

end Sys2Proof.Machine
end

