-- ==== Sys2Proof/Machine/StateData.lean ====
section
/-! DEFINITION. The state of the corpus: lists, segments and items (03, 08), the centroid directory, ingest and the commit
path, epochs, the catalog and index versions, maintenance, receipts (08), pipeline images (02) and tenants (07). -/
namespace Sys2Proof.Machine

/-- One entry slot of a segment (R84, R117): sketch, attribute word, key, codes and scales, and for a delta its stamp. -/
structure Item where
  key : Nat
  sketch : Nat
  attr : Nat
  codes : List Byte
  scales : List Byte
  reduced : List Byte
  /-- Insert epoch (R85); VALID_FROM stands for it in a base segment (R87). -/
  insert : Nat
  /-- The home's record it is an entry of. -/
  record : Nat
  deriving DecidableEq, Repr

/-- A delete mark (R85). -/
structure Mark where
  seg : Nat
  slot : Nat
  epoch : Nat
  deriving DecidableEq, Repr

/-- A segment of a list (R83). -/
structure Segment where
  segIndex : Nat
  isBase : Bool
  gen : Nat
  items : List Item := []
  marks : List Mark := []
  validFrom : Nat
  validUntil : Option Nat := none
  /-- Handle of the tier object that holds its code pair (R117, R247). -/
  pairHandle : Nat := 0
  /-- Numbers of all its tier objects (R248). -/
  objs : List Nat := []
  deriving DecidableEq, Repr

/-- A list made from another by a split or merge, as writes find it: LIST_HANDLE, list ID, CSKETCH and its generation, and the centroid it
was fitted with. -/
structure Child where
  handle : Nat
  list : Nat
  csketch : Nat
  gen : Nat
  centroid : List F32 := []
  deriving DecidableEq, Repr

/-- A list on its home, reached by its LIST_HANDLE (R103, R227). -/
structure ListData where
  ns : Nat
  idx : Nat
  version : Nat
  listId : Nat
  shard : Nat
  /-- Segments by identifier. -/
  segs : Table Segment := []
  /-- Writes to it are held (a split's tail, a fold's switch, a shard move). -/
  hold : Bool := false
  /-- Replaced by a split or merge; its segments stay until freed (R227). -/
  retired : Bool := false
  /-- Lists made from it, to which writes ordered before its replacement are copied when they become durable (R227). -/
  children : List Child := []
  deriving DecidableEq, Repr

/-- A directory entry (R102 to R105) with the neighbours its edges name (R106). PROBES counters are in the counters. -/
structure DirEntry where
  csketch : Nat
  home : Nat
  handle : Nat
  entryGen : Nat := 0
  projGen : Nat := 0
  /-- 0 FREE, 1 LIVE, 2 TOMBSTONE. -/
  state : Nat := 0
  items : Nat := 0
  succA : Nat := 0
  succAGen : Nat := 0
  succB : Option (Nat × Nat) := none
  edges : List (Nat × Nat) := []
  ns : Nat := 0
  idx : Nat := 0
  version : Nat := 0
  /-- The centroid whose sketch CSKETCH is, as the list's home holds it (R230, R231). -/
  centroid : List F32 := []
  /-- Shard the list belongs to (R214). -/
  shard : Nat := 0
  /-- Frees of this entry in the present sweep period (R112). -/
  frees : Nat := 0
  deriving DecidableEq, Repr

/-- A directory change with the epoch at which it takes effect (R107). -/
structure DirChange where
  epoch : Nat
  list : Nat
  entry : DirEntry
  deriving DecidableEq, Repr

/-- A record of an item at its home: what the flash holds of it (R219) and its epochs (R19). -/
structure Rec where
  ns : Nat
  idx : Nat
  key : Nat
  attr : Nat
  stored : List Byte
  payload : List Byte
  insert : Nat
  delete : Option Nat := none
  /-- Logical units that hold its stored vector and payload (R219, R282). -/
  units : List Nat := []
  deriving DecidableEq, Repr

/-- A parsed ingest record (R210). -/
structure IngestRec where
  op : Nat
  keepVector : Bool
  keepPayload : Bool
  fmt : Nat
  dim : Nat
  ns : Nat
  idx : Nat
  key : Nat
  attr : Nat
  clientTag : Nat
  vector : List Byte
  payload : List Byte
  /-- Bytes of the record with its padding. -/
  size : Nat
  deriving DecidableEq, Repr

/-- A feature-row write (R363) that a commit path carries: table, row, value. -/
structure RowWrite where
  table : Nat
  row : Nat
  value : List Byte
  deriving DecidableEq, Repr

/-- A write on its way through a home's commit path: its record, who waits for the answer, and what ordering gave it. -/
structure Write where
  record : IngestRec
  row : Option RowWrite := none
  tenant : Nat
  /-- Module and batch at the origin, position in the batch, bytes of the batch tag. -/
  origin : Nat
  batch : Nat
  pos : Nat
  arrivedAt : Nat
  /-- COMMIT_TIMEOUT in force when it was held (ms). -/
  timeoutMs : Nat := 0
  epoch : Nat := 0
  /-- Superseded by a later write of the same epoch (R217). -/
  superseded : Bool := false
  /-- The new record's entries: version, list handle, item, and the records deleted. -/
  places : List (Nat × Nat × Item) := []
  deletes : List Nat := []
  recId : Option Nat := none
  deriving DecidableEq, Repr

/-- An ingest result (R212). -/
structure IngestResult where
  clientTag : Nat
  epoch : Nat
  status : Nat
  cause : Nat
  deriving DecidableEq, Repr

/-- An ingest batch at its origin (R212, R398). -/
structure IngestBatch where
  fn : Nat
  pair : Nat
  sqIndex : Nat
  basic : Bool
  tenant : Nat
  tag : Nat
  resultsAddr : Nat
  /-- Address of the basic-level descriptor for write-back (R406). -/
  descAddr : Nat := 0
  results : List (Option IngestResult)
  /-- Records sent to homes. -/
  sent : Nat := 0
  deriving DecidableEq, Repr

/-- Epochs at this module (R205 to R209) and the leader's beacon (R352, R353). -/
structure EpochState where
  open_ : Nat := 1
  closed : Nat := 0
  /-- Epochs that beacons have closed and whose closure is not yet recorded, with the cycle of the beacon, oldest first (R207). -/
  closing : List (Nat × Nat) := []
  /-- Closure recorded at this cycle becomes usable in the next (R16); until then the previous one counts. -/
  closedAt : Nat := 0
  prevClosed : Nat := 0
  /-- Cycle of the last event that each epoch not yet closed has waited for: a write of it durable, an invalidation acknowledged (R207). -/
  settled : Table Nat := []
  nextLength : Nat := 1000
  lastBeacon : Nat := 0
  /-- Arrival of the last beacon whose LEADER has a lower rank than this candidate (R352). -/
  lastLower : Nat := 0
  /-- A gap has been counted since the last beacon (R208). -/
  gap : Bool := false
  /-- Beacon timeout in force for the next beacon, ms (R245). -/
  timeoutMs : Nat := 100
  leader : Nat := 0
  leading : Bool := false
  lastEmit : Nat := 0
  /-- Highest epoch stamped, as the commit log holds it (R209). -/
  stamped : Nat := 0
  /-- After a restart nothing is stamped until a beacon at or above `stamped` (R209). -/
  mayStamp : Bool := true
  /-- Version switches announced: version, namespace, index, F (R239). -/
  switches : List (Nat × Nat × Nat × Nat) := []
  deriving DecidableEq, Repr

/-- A namespace (R233), with its end once deleted. -/
structure Namespace where
  ns : Nat
  owner : Nat
  created : Nat
  deleted : Option Nat := none
  deriving DecidableEq, Repr

/-- An index (R233). -/
structure IndexRec where
  ns : Nat
  idx : Nat
  metric : Nat
  width : Nat
  dim : Nat
  created : Nat
  deleted : Option Nat := none
  /-- This home's data of it is discarded, and reported; every home's is, and its ID is free (R235). -/
  reported : Bool := false
  discarded : Bool := false
  deriving DecidableEq, Repr

/-- A grant (R186). -/
structure Grant where
  ns : Nat
  grantee : Nat
  groups : Nat
  from_ : Nat
  until_ : Option Nat := none
  deriving DecidableEq, Repr

/-- A projection generation of a version (R79, R82, R536): seeded, or with the rows fitted to it. -/
structure Gen where
  num : Nat
  seeded : Bool
  mu : List F32 := []
  rows : List (List F32) := []
  activeFrom : Nat := 0
  retiredAt : Option Nat := none
  deriving DecidableEq, Repr

/-- Version states (R237). -/
inductive VState where
  | building
  | ready
  | current
  | draining
  deriving DecidableEq, Repr

/-- An index version (R236, R237). -/
structure Version where
  ver : Nat
  ns : Nat
  idx : Nat
  width : Nat
  assign : Nat
  metric : Nat
  codeFmt : Nat
  scaleFmt : Nat
  assignLimit : Nat
  dim : Nat
  reduced : Bool
  normEst : F32 := 0x3F800000
  image : List Byte
  created : Nat
  /-- F at which it becomes or became CURRENT; 0 before (R239). -/
  switchEpoch : Nat := 0
  /-- F of the version that follows it. -/
  endEpoch : Option Nat := none
  state : VState := .building
  gens : List Gen := []
  digest : List Byte := []
  /-- Records its build has still to read (R238), and the homes that have reported the build complete. -/
  toBuild : List Nat := []
  homesReady : List Nat := []
  deriving DecidableEq, Repr

/-- What a catalog change does when its epoch opens (R234, R186, R185). -/
inductive CatalogChange where
  | nsCreate (n : Namespace)
  | nsDelete (ns : Nat)
  | idxCreate (i : IndexRec)
  | idxDelete (ns idx : Nat)
  | grantCreate (g : Grant)
  | grantRevoke (ns grantee : Nat)
  | isolation (mode : Nat)
  deriving DecidableEq, Repr

/-- An administration command that completes when an epoch opens: function, pair entry, tag. -/
structure AdminRef where
  fn : Nat
  pair : Nat
  sqIndex : Nat
  tag : Nat
  outAddr : Nat
  outLen : Nat
  deriving DecidableEq, Repr

/-- A change waiting for its epoch F, with the command to complete. -/
structure PendingChange where
  epoch : Nat
  change : CatalogChange
  cmd : Option AdminRef
  deriving DecidableEq, Repr

/-- The catalog (R233 to R239). -/
structure Catalog where
  namespaces : List Namespace := []
  indices : List IndexRec := []
  grants : List Grant := []
  versions : List Version := []
  pending : List PendingChange := []
  /-- Changes forwarded to the leader, with the epoch open then, and version switches asked of it: command, version, namespace, index (R234,
  R239). -/
  forwarded : List PendingChange := []
  asked : List (AdminRef × Nat × Nat × Nat) := []
  /-- Tenant isolation modes: mode in force from an epoch, newest first (R185). -/
  isolation : List (Nat × Nat) := []
  deriving DecidableEq, Repr

/-- A fold in progress (R224). -/
structure Fold where
  handle : Nat
  /-- Closed epoch C, the fresh delta's segment, the new base once built and its switch epoch F. -/
  c : Nat
  delta : Nat
  old : List Nat
  base : Option Segment := none
  switchAt : Option Nat := none
  deriving DecidableEq, Repr

/-- A split or merge (R227, R228): its source list IDs, whether a limit of R232 defers it, whether it waits for FREE entries, and the entries
it has reserved. -/
structure Reorg where
  sources : List Nat
  isMerge : Bool
  deferred : Bool := false
  waiting : Bool := false
  reserved : List Nat := []
  /-- Copied, with its directory change at this epoch, and the lists made. -/
  effect : Option Nat := none
  children : List Child := []
  deriving DecidableEq, Repr

/-- A projection change in progress (R231): its index and version, and the generation it introduces once fitted. -/
structure Projection where
  ns : Nat
  idx : Nat
  ver : Nat
  gen : Option Nat := none
  deriving DecidableEq, Repr

/-- Background maintenance (R225 to R232). -/
structure Maint where
  periodStart : Nat := 0
  /-- MAINT_PERIOD and EDGE_SWEEP_PERIOD in force, s (R113, R245). -/
  periodS : Nat := 10
  sweepS : Nat := 10
  /-- Probe sums by list for the next evaluation (R226). -/
  sums : Table Nat := []
  /-- Each own list's drift as last measured: the sum of its sample's Hamming distances, and the entries sampled (R226). -/
  drift : Table (Nat × Nat) := []
  folds : List Fold := []
  reorgs : List Reorg := []
  /-- Re-fits (0, the list ID) and projection fits (1, the number of a projection change) on the tensor tiles, by step number. -/
  steps : Table (Nat × Nat) := []
  nextStep : Nat := 1
  /-- REFIT_BITS as each running re-fit took it (R245). -/
  refitBits : Table Nat := []
  /-- Projection changes (R231), by number. -/
  projections : Table Projection := []
  sweepStart : Nat := 0
  dirChanges : List DirChange := []
  deriving DecidableEq, Repr

/-- A sealed receipt period (R243). -/
structure Tree where
  seq : Nat
  first : Nat
  leaves : List (List Byte)
  header : List Byte
  signature : List Byte := []
  /-- Written to the receipt log, and the units of it that hold its leaves and its header. -/
  durable : Bool := false
  units : List Nat := []
  periodStart : Nat
  deriving DecidableEq, Repr

/-- Receipts (R240 to R244). -/
structure Receipts where
  nextLeaf : Nat := 0
  periodStart : Nat := 0
  /-- Leaves of the open period, oldest first. -/
  open_ : List (List Byte) := []
  /-- What the hold-up-protected write buffer of the receipt log holds, and the units written in the open period (R243). -/
  buffer : List Byte := []
  units : List Nat := []
  trees : List Tree := []
  nextTree : Nat := 0
  prevDigest : List Byte := List.replicate 64 0
  deriving DecidableEq, Repr

/-- A model section's header fields (R165) and digest (R166). -/
structure Model where
  role : Nat
  inputs : Nat
  seqMax : Nat
  outDim : Nat
  vocab : Nat
  baseNs : Nat
  rowNs : Nat
  digest : List Byte
  /-- Local memory per tile, and bytes of its weight sections. -/
  tileMem : Nat := 0
  weightBytes : Nat := 0
  /-- Tier objects of its weight sections (R73). -/
  weights : List Nat := []
  /-- Its compiled graph, weights included (R164, R167). -/
  graph : Graph := ⟨[]⟩
  deriving DecidableEq, Repr

/-- A resident image (R73); partitions run up to eight side by side, each work item under its own (R49). -/
structure Image where
  digest : List Byte
  security : Nat
  encodeTiles : Nat
  scoreTiles : Nat
  stageMask : Nat
  progs : ProgSettings
  encoder : Option Model := none
  scorer : Option Model := none
  /-- Partitions in which it is installed. -/
  installed : List Nat := []
  deriving DecidableEq, Repr

/-- An installation or removal in progress (R74). -/
structure Install where
  part : Nat
  image : Nat
  remove : Bool
  startedAt : Nat
  /-- SWAP_DRAIN_LIMIT in force at its start (µs). -/
  limitUs : Nat
  drained : Bool := false
  retried : Bool := false
  /-- Waiting until no other partition is out of service for this purpose (R74). -/
  waiting : Bool := false
  cmd : Option AdminRef := none
  deriving DecidableEq, Repr

/-- A tenant record (R182, R199, R203). -/
structure Tenant where
  deadlineUs : Nat := 50000
  inflightCap : Nat := 2048
  gigQuota : Nat := 1000
  /-- Gigs taken and the quota in force in the present second (R65). -/
  gigUsed : Nat := 0
  gigQuotaNow : Nat := 1000
  meters : Table Nat := []
  deriving DecidableEq, Repr

/-- The corpus held on this module. -/
structure Corpus where
  lists : Table ListData := []
  nextSeg : Nat := 1
  nextHandle : Nat := 1
  dir : Table DirEntry := []
  records : Table Rec := []
  nextRec : Nat := 1
  /-- Live record and the last write of each key: (namespace, index, key) coded as one number. -/
  keys : Table (Option Nat) := []
  /-- Writes held ahead of ordering, in arrival order (R221). -/
  held : List Write := []
  /-- Ordered records not yet in a log page, and the pages programming, by page number (R220). -/
  logPending : List Write := []
  logPages : Table (List Write) := []
  nextPage : Nat := 0
  /-- Bytes of the first pending record that a page already holds (R220). -/
  logSkip : Nat := 0
  lastFlush : Nat := 0
  /-- LOG_FLUSH_INTERVAL in force for the running interval, µs (R245). -/
  flushUs : Nat := 200
  /-- Records in the durable commit log, for replay (R222). -/
  durable : List Write := []
  batches : Table IngestBatch := []
  nextBatch : Nat := 1
  deriving DecidableEq, Repr

end Sys2Proof.Machine
end

