-- ==== Sys2Proof/Machine/StateHost.lean ====
section
/-! DEFINITION. The state of the host interface (13), the object dictionary server (14) and the management complex (15). -/
namespace Sys2Proof.Machine

/-- One DMA window (R384). -/
structure Window where
  base : Nat := 0
  last : Nat := 0
  valid : Bool := false
  read : Bool := false
  write : Bool := false
  deriving DecidableEq, Repr

/-- A ring pair (R388 to R392, R404). State: 0 ABSENT, 1 ACTIVE, 2 FAULTED, 3 DELETING. -/
structure RingPair where
  state : Nat := 0
  /-- 0 administration, 1 QUERY, 2 INGEST. -/
  kind : Nat := 0
  sqBase : Nat := 0
  sqSize : Nat := 0
  cqBase : Nat := 0
  cqSize : Nat := 0
  sqTail : Nat := 0
  sqHead : Nat := 0
  cqHead : Nat := 0
  /-- Next CQ index to write, the phase bit, and slots reserved by entries taken (R392). -/
  cqTail : Nat := 0
  phase : Bool := true
  reserved : Nat := 0
  /-- Completions written that the host has not consumed (R392). -/
  unconsumed : Nat := 0
  vector : Nat := 0
  coalCount : Nat := 1
  coalUs : Nat := 0
  /-- Completions since the last message and the cycle of the oldest of them (R404). -/
  unsignalled : Nat := 0
  oldestAt : Nat := 0
  /-- DELETE_RING waiting for the last completion. -/
  deleting : Option AdminRef := none
  deriving DecidableEq, Repr

/-- One MSI-X table entry (R403): message address, data and mask, and its pending bit. -/
structure Vec where
  addr : Nat := 0
  data : Nat := 0
  masked : Bool := true
  pending : Bool := false
  deriving DecidableEq, Repr

/-- A metering snapshot block (R200, R202). -/
structure SnapBlock where
  busy : Bool := false
  requestedAt : Nat := 0
  overlap : Bool := false
  seq : Nat := 0
  time : Nat := 0
  epoch : Nat := 0
  meters : List Nat := []
  deriving DecidableEq, Repr

/-- The basic-level window's registers (R405). -/
structure BasicRegs where
  irqEn : Bool := false
  error : Bool := false
  arenaBase : Nat := 0
  arenaSize : Nat := 0
  qsrBase : Nat := 0
  qsrSize : Nat := 0
  qsrTail : Nat := 0
  qsrHead : Nat := 0
  qcrBase : Nat := 0
  qcrSize : Nat := 0
  qcrHead : Nat := 0
  qcrTail : Nat := 0
  igrBase : Nat := 0
  igrSize : Nat := 0
  igrTail : Nat := 0
  igrHead : Nat := 0
  irqStatus : Nat := 0
  /-- Query completion slots reserved by descriptors taken, and completions the host has not consumed. -/
  reserved : Nat := 0
  unconsumed : Nat := 0
  /-- Query rings and ingest ring stopped by a fault. -/
  stoppedQ : Bool := false
  stoppedI : Bool := false
  deriving DecidableEq, Repr

/-- One PCIe function (R379 to R391). -/
structure FnState where
  /-- Memory Space Enable and Bus Master Enable of the PCIe command register (R380). -/
  mse : Bool := false
  bme : Bool := false
  enabled : Bool := false
  tenant : Nat := 0
  /-- Level at the last enable: true expert (R383). -/
  expert : Bool := true
  evtCause : Nat := 0
  evtMask : Nat := 0x1F
  evtVector : Nat := 0
  faultPair : Nat := 0
  faultCause : Nat := 0
  dmaFaultAddr : Nat := 0
  adminSqBase : Nat := 0
  adminCqBase : Nat := 0
  adminSize : Nat := 0
  adminVector : Nat := 0
  windows : Table Window := []
  /-- The cycle of the latest window write, and the windows in force in that cycle (R385). -/
  winOld : Option (Nat × Table Window) := none
  pairs : Table RingPair := []
  vecs : Table Vec := []
  snap : SnapBlock := {}
  basic : BasicRegs := {}
  /-- Pair served last (R393). -/
  lastPair : Nat := 63
  /-- First SEQ of this function's log window (R453). -/
  logBase : Nat := 0
  deriving DecidableEq, Repr

/-- What a taken administration entry or an entry on its way is waiting for. -/
structure TakenEntry where
  fn : Nat
  pair : Nat
  sqIndex : Nat
  deriving DecidableEq, Repr

/-- The host interface. -/
structure HostIf where
  fns : Table FnState := []
  /-- Function served last (R393). -/
  lastFn : Nat := 63
  /-- Link: 0 down, else the PCIe generation 4 to 6; width. PERST_N asserted (R378, R520). -/
  linkGen : Nat := 0
  linkWidth : Nat := 0
  perst : Bool := true
  /-- VF Enable of the PF's SR-IOV capability and the VF_VECTORS locked with it (R408). -/
  vfEnable : Bool := false
  vfVectors : Nat := 31
  /-- Entries taken whose read has been issued and has not arrived, oldest first. -/
  taken : List TakenEntry := []
  deriving DecidableEq, Repr

/-- An open segmented Domain write (R421): object, accessor, bytes so far, cycle of the last segment. -/
structure SegWrite where
  key : Nat
  accessor : Nat
  bytes : List Byte
  at_ : Nat
  deriving DecidableEq, Repr

/-- One item of an object access request (R417). -/
structure ObjItem where
  op : Nat
  last : Bool
  index : Nat
  sub : Nat
  offset : Nat
  length : Nat
  data : List Byte
  /-- No reserved encoding or field of it is set, and it lies in the body (R419). -/
  formOk : Bool
  deriving DecidableEq, Repr

/-- Who is answered when a request ends: an OBJECT_ACCESS command, a field-network frame by its SEQ, or whoever made a single write. -/
inductive ReqOwner where
  | admin (cmd : AdminRef)
  | oap (seq : Nat)
  | single
  deriving DecidableEq, Repr

/-- What the command-like write of a request waits for (R425): a placement call, by its number among such waits, or a reset. -/
inductive ReqWait where
  | placement (token : Nat)
  | reset (bytes : List Byte)
  deriving DecidableEq, Repr

/-- A request whose item waits for its command to complete (R425): the items answered, the one that waits, and those behind it. -/
structure WaitReq where
  owner : ReqOwner
  who : Accessor
  txn : Nat
  stop : Bool
  done : List (List Byte)
  item : ObjItem
  rest : List ObjItem
  wait : ReqWait
  deriving DecidableEq, Repr

/-- A record of the settings store (R460). `tenant`: the tenant whose value it is, for an object held per tenant (R203), else 0. -/
structure StoreRec where
  key : Nat
  tenant : Nat := 0
  seq : Nat
  value : List Byte
  deriving DecidableEq, Repr

/-- The dictionary server (14). Objects are keyed index × 256 + sub-index. -/
structure Dict where
  /-- Settings that differ from their default. -/
  settings : Table Nat := []
  /-- Domain contents that differ from all zero. -/
  domains : Table (List Byte) := []
  /-- Changes consumed of each budgeted object, and objects whose counter failed its check (R427). -/
  used : Table Nat := []
  spent : List Nat := []
  segWrites : List SegWrite := []
  /-- The tenant that `0x2030.01` names has lost its record since it was written (R183). -/
  selGone : Bool := false
  /-- Settings store: the records of the active area, sequence of the newest record, bytes used, which area is active (R460). -/
  store : List StoreRec := []
  storeSeq : Nat := 0
  storeUsed : Nat := 0
  storeArea : Nat := 0
  /-- The settings store refuses to record (a flash failure), so writes are answered ABORT_STORE. -/
  storeFailed : Bool := false
  /-- Highest SEQ accepted per key slot in this incarnation (R435). -/
  oapSeq : Table Nat := []
  /-- Requests that wait for a command-like write, in order of arrival; the number of the next such wait; the placement calls that have
  completed for one, with their statuses (R425). -/
  waitingReqs : List WaitReq := []
  nextWait : Nat := 0
  placed : List (Nat × Nat) := []
  incarnation : Nat := 0
  linkUp : Bool := false
  lastHello : Nat := 0
  /-- LOG_BASE of the management firmware, the operator and the reader (R453). -/
  logBases : Table Nat := []
  /-- Snapshot block of 0x2033 and the tenant it is taken for (R202). -/
  tenantSnap : SnapBlock := {}
  snapTenant : Nat := 0
  deriving DecidableEq, Repr

/-- A log record (R450). -/
structure LogRec where
  seq : Nat
  rtc : Nat
  epoch : Nat
  objIndex : Nat
  objSub : Nat
  kind : Nat
  unit : Nat
  data : List Byte
  deriving DecidableEq, Repr

/-- The event unit and its logs (R451 to R453). -/
structure EventLog where
  nextSeq : Nat := 0
  /-- The always-on ring, newest last, and how many of its newest records are not yet copied. -/
  ring : List LogRec := []
  waiting : Nat := 0
  /-- Records in the flash ring and in the boot log. -/
  flash : List LogRec := []
  boot : List LogRec := []
  flashReady : Bool := false
  /-- Records lost since the last STATE record about it, and notices dropped since the last one delivered. -/
  lost : Nat := 0
  dropped : Nat := 0
  deriving DecidableEq, Repr

/-- The mailbox memory (R441, R447): channels 0 to 15 NS0 to NS15, 16 to 31 S0 to S15. -/
structure Mailboxes where
  slots : Table (List (List Byte)) := []
  overrun : Nat := 0
  format : Nat := 0
  seqs : Table Nat := []
  deriving DecidableEq, Repr

/-- Where the boot ROM stands (R462). -/
inductive BootPhase where
  | off
  | running (slot : Nat) (startedAt : Nat)
  | recovery (since : Nat)
  | wait (since : Nat)
  | healthy (slot : Nat)
  | recovered
  /-- Identity could not be derived; the start stops (R454). -/
  | noIdentity
  deriving DecidableEq, Repr

/-- A firmware slot of the boot flash (R465). -/
structure FwSlot where
  valid : Bool := true
  image : List Byte := []
  version : Nat := 0
  security : Nat := 0
  deriving DecidableEq, Repr

/-- The management complex (15): boot, slots, update, seal. -/
structure Mgmt where
  boot : BootPhase := .off
  rounds : Nat := 0
  /-- Sensors that have failed to answer since the start, by key (R449). -/
  silent : List Nat := []
  slotA : FwSlot := {}
  slotB : FwSlot := {}
  preferred : Nat := 0
  trial : Bool := false
  /-- Preference restored when a trial fails. -/
  previous : Nat := 0
  /-- The open update, or the recovery image that the field network streams: length declared and bytes received (R462, R465). -/
  update : Option (Nat × List Byte) := none
  committed : Bool := false
  recAddr : Nat := 0
  recLen : Nat := 0
  recStatus : Nat := 0
  /-- Cycle of the management core's last watchdog service (R467). -/
  serviced : Nat := 0
  /-- Is the object server up (R466)? -/
  serverUp : Bool := false
  /-- BOOT_WATCHDOG captured at this start, s (R469). -/
  watchdogS : Nat := 120
  /-- The running firmware has a PART component that is not installed yet (R466). -/
  partPending : Bool := false
  /-- OAP_UDP_PORT captured at this start (R432). -/
  oapPort : Nat := 23190
  /-- The sealed descriptor's address set (R321) and this module's ID (R458). -/
  sealed_ : Bool := false
  moduleId : Nat := 0
  addresses : List Nat := []
  /-- Next telemetry export (R468). -/
  lastExport : Nat := 0
  /-- TELEMETRY_EXPORT_MODE and TELEMETRY_INTERVAL in force for the running interval, s (R428, R469). -/
  exportMode : Nat := 0
  exportS : Nat := 10
  deriving DecidableEq, Repr

end Sys2Proof.Machine
end

