-- ==== Sys2Proof/Machine/StateMem.lean ====
section
/-! DEFINITION. The state of the memory tiers, the staging SRAM with Harebell (09) and the flash translation layer (10). -/
namespace Sys2Proof.Machine

/-- A tier object (R248, R252). -/
structure TierObj where
  kind : Nat
  /-- 0 HBM, 1 LPDDR, 2 flash, 0xFF for a LIST. -/
  tier : Nat
  size : Nat
  /-- Owning list ID, 0xFFFFFFFF for none; the list's object number. -/
  list : Nat := 0xFFFFFFFF
  owner : Nat := 0
  /-- The feature shard of a FEATURE_SHARD. -/
  shard : Nat := 0
  /-- Bytes read in the last completed and in the running MAINT_PERIOD. -/
  readLast : Nat := 0
  readNow : Nat := 0
  /-- A LIST's code-pair preference (R250). -/
  pref : Nat := 1
  deriving DecidableEq, Repr

/-- Who is answered when a move ends (R254). -/
inductive MoveOwner where
  | nobody
  | admin (cmd : AdminRef)
  /-- A MGMT_PLACE item of the management firmware, by its item number (R425). -/
  | mgmt (item : Nat)
  deriving DecidableEq, Repr

/-- A move, queued or running (R255). -/
structure Move where
  obj : Nat
  /-- Tier of the source, held until it is freed. -/
  source : Nat
  target : Nat
  running : Bool := false
  /-- Bytes of the copy round that runs, and chunks dirtied since it began. -/
  copied : Nat := 0
  dirty : List Nat := []
  switched : Bool := false
  /-- The cycle of the switch (R255 step 5). -/
  switchedAt : Nat := 0
  /-- The placement call it belongs to. -/
  call : Nat
  deriving DecidableEq, Repr

/-- A placement call in progress: who waits for it and on which LIST or object it acts. -/
structure PlaceCall where
  handle : Nat
  owner : MoveOwner
  deriving DecidableEq, Repr

/-- A page in REPAIR (R262): tier, device, page number, object. -/
structure RepairPage where
  tier : Nat
  device : Nat
  page : Nat
  obj : Nat
  deriving DecidableEq, Repr

/-- The memory tiers. -/
structure Tiers where
  objs : Table TierObj := []
  nextObj : Nat := 1
  moves : List Move := []
  calls : Table PlaceCall := []
  nextCall : Nat := 1
  /-- Placement journal: object number and tier of each journalled switch, newest first (R258). -/
  journal : List (Nat × Nat) := []
  repair : List RepairPage := []
  /-- Spare pages left of each device (tier × 256 + device) used by remaps. -/
  remapped : Table Nat := []
  /-- Retired devices, tier × 256 + device (R263). -/
  retired : List Nat := []
  /-- Lists whose sketch data no device can hold any more; they stay in REPAIR (R263). -/
  unheld : List Nat := []
  /-- HBM reserved for selection work areas: origin half and list half, bytes (R152). -/
  poolOrigin : Nat := 0
  poolList : Nat := 0
  deriving DecidableEq, Repr

/-- What a partition's Harebell engine is doing (R271, R272). -/
structure Harebell where
  /-- HB_POSITION, the next word of the pass, and the word under test or tested last (R278). -/
  position : Nat := 0
  word : Nat := 0
  active : Bool := false
  /-- Save register and the cycle the test began. -/
  save : List Byte := []
  startedAt : Nat := 0
  lastDone : Nat := 0
  /-- Words deferred to the end of their bank, oldest first (R272). -/
  deferred : List Nat := []
  /-- Spare words used, by strand × 32 + bank, and the remapped words (R273). -/
  spares : Table Nat := []
  remapped : List Nat := []
  deriving DecidableEq, Repr

/-- The staging SRAM (R264 to R278). A bank is numbered ((partition × 9 + strand) × 32 + bank); strand 8 is the spare. -/
structure Staging where
  /-- Staged bytes: canonical memory of the whole SRAM, address = bank × 524288 + offset. -/
  mem : List Host.Cell := []
  /-- OWNER of each bank where it differs from management, and HANDOVER_SEQ where not zero (R270). -/
  owner : Table Nat := []
  /-- The owner before the last handover of a bank, and the cycle in which the handover was written (R266). -/
  handed : Table (Nat × Nat) := []
  seq : Table Nat := []
  hb : Table Harebell := []
  deriving DecidableEq, Repr

/-- A data superblock (R281, R293): 0 erased and free, 1 open, 2 closed, 3 freed and waiting for erase. -/
structure Superblock where
  state : Nat := 0
  chMask : Nat := 0xFFFFFFFF
  stream : Nat := 0
  openSeq : Nat := 0
  /-- The wain that fills, and the next slot in it. -/
  page : Nat := 0
  slot : Nat := 0
  erases : Nat := 0
  refresh : Bool := false
  /-- An erase of it runs. -/
  erasing : Bool := false
  /-- Channels whose block is retired and waits for its replacement (R305). -/
  retire : List Nat := []
  /-- Blocks replaced: channel and physical block (R305). -/
  blocks : List (Nat × Nat) := []
  deriving DecidableEq, Repr

/-- A unit on flash or in the buffer on its way there (R283, R288). -/
structure FlashUnit where
  lba : Nat
  seq : Nat
  data : List Byte
  gc : Bool := false
  /-- Entry of the copy it was made from. -/
  src : Nat := 0
  deriving DecidableEq, Repr

/-- A page of a wain: at most four units, or the parity of the wain (R286 to R288). -/
structure FlashPage where
  units : List FlashUnit
  stream : Nat := 0
  parity : Bool := false
  /-- 0 filling or waiting, 1 programming, 2 programmed, 3 failed. -/
  state : Nat := 0
  progSeq : Nat := 0
  /-- Cycle in which its program starts (R280). -/
  startAt : Nat := 0
  /-- It holds its 4 buffers, of the shared part or of the channel's own (R300). -/
  buffered : Bool := false
  shared : Bool := false
  deriving DecidableEq, Repr

/-- A translation-journal record (R293). -/
structure JournalRec where
  ty : Nat
  row : Nat
  sb : Nat
  argA : Nat
  seq : Nat
  argB : Nat
  argC : Nat
  /-- Cycle in which it was recorded. -/
  madeAt : Nat
  deriving DecidableEq, Repr

/-- The checkpoint engine (R295). -/
structure Ckpt where
  id : Nat := 0
  running : Bool := false
  startSeq : Nat := 0
  startedAt : Nat := 0
  /-- Superblocks opened since the last START_SEQ. -/
  opened : Nat := 0
  /-- Highest SEG_SEQ of its copies. -/
  segSeq : Nat := 0
  lastComplete : Nat := 0
  deriving DecidableEq, Repr

/-- One flash channel's buffers and waiters (R300, R301). -/
structure FlashChan where
  writeBufs : Nat := 0
  sharedBufs : Nat := 0
  /-- Pages that wait for their buffers, oldest first. -/
  writeWait : List Nat := []
  deriving DecidableEq, Repr

/-- One die row (R281, R284, R302). -/
structure FlashRow where
  sbs : Table Superblock := []
  /-- Open superblock of each stream (0 DATA, 1 GC, 2 LOG). -/
  open_ : Table Nat := []
  /-- Cycles in which the latest programs of new writes start, newest first, at most 32 (R303). -/
  newStarts : List Nat := []
  /-- How many victims have been taken (R304), and whether collection runs (R302). -/
  victims : Nat := 0
  collecting : Bool := false
  /-- Dies retired, by channel (R306). -/
  retired : List Nat := []
  /-- Spare blocks used per die (channel), of 48 (R281). -/
  spares : Table Nat := []
  deriving DecidableEq, Repr

/-- A complete checkpoint's copy of the superblock tables (R295): row and superblock to its record. -/
abbrev SbTable := Table Superblock

/-- The flash translation layer. -/
structure Flash where
  rows : Table FlashRow := []
  /-- The map (R283): logical unit to entry, absent 0x00000000. -/
  map : Table Nat := []
  /-- Highest sequence applied to each map segment (R295). -/
  segSeqs : Table Nat := []
  /-- Pages by row, superblock and page: ((row × 8064 + sb) × 2048 + page) × 32 + channel. -/
  pages : Table FlashPage := []
  seq : Nat := 1
  /-- Next logical unit to allocate to an object, and the next page of the commit log's range (R282). -/
  nextUnit : Nat := 0
  nextLog : Nat := 0
  /-- Journal records pending, and durable, oldest first (R293). -/
  jPending : List JournalRec := []
  jDurable : List JournalRec := []
  /-- Discards waiting for their journal record: sequence and owner (R285). -/
  discards : List (Nat × Nat) := []
  ckpt : Ckpt := {}
  /-- Copies of map segments on flash: segment, (checkpoint, SEG_SEQ, entries), newest of a complete checkpoint. -/
  segCopies : Table (Nat × Nat × List (Nat × Nat)) := []
  /-- Copies of the running checkpoint. -/
  segNew : Table (Nat × Nat × List (Nat × Nat)) := []
  /-- Superblock tables of the running and of the latest complete checkpoint: row × 8064 + superblock. -/
  tableNew : SbTable := []
  tableCopy : SbTable := []
  /-- START_SEQ of the latest complete checkpoint. -/
  startSeq : Nat := 0
  chans : Table FlashChan := []
  /-- Cycle of the last program and erase start of each die: channel × 16 + die (R280). -/
  lastProg : Table Nat := []
  lastErase : Table Nat := []
  flushing : Bool := false
  readOnly : Bool := false
  throttle : Nat := 32
  /-- Reads repeated at retry levels 1 to 7, by channel × 16 + die, for the health points of R497, and the highest retry
  level used by channel in the running and in the last completed MAINT_PERIOD (R310). -/
  retried : Table Nat := []
  levelNow : Table Nat := []
  levelLast : Table Nat := []
  /-- Rebuilds in each block, for retirement: (row × 8064 + superblock) × 32 + channel. -/
  rebuilt : Table Nat := []
  deriving DecidableEq, Repr

end Sys2Proof.Machine
end

