-- ==== Sys2Proof/Machine/StateFabric.lean ====
section
/-! DEFINITION. The state of the Cuhus ports (11) and of the exchange engine, feature tables and composition (12). -/
namespace Sys2Proof.Machine

/-- A gate control list entry (R329): DURATION in 10 ns, OPEN bits. -/
structure Gate where
  duration : Nat
  open_ : Nat
  deriving DecidableEq, Repr

/-- A frame at a sender (R318, R326). -/
structure Frame where
  tag : Nat
  /-- It takes its route again under this tag (R327). -/
  keepTag : Bool := false
  dest : Nat
  src : Nat
  cls : Nat
  hops : Nat
  kind : Nat
  demand : Nat
  mapEpoch : Nat
  tenant : Nat
  body : List Byte
  /-- Consecutive DEFERs, and the cycle at which a backoff ends. -/
  defers : Nat := 0
  backoffUntil : Nat := 0
  /-- Cycle it entered its class queue (R336). -/
  queuedAt : Nat := 0
  /-- Sent so far: 0 nothing, 1 the FIRST flit only (header-first), 2 all flits. -/
  sent : Nat := 0
  accepted : Bool := false
  /-- Cycle its header's last flit left, and ANSWER_TIMEOUT in force then (ns). -/
  headerAt : Nat := 0
  timeoutNs : Nat := 0
  /-- Egress buffers held: guaranteed and shared. -/
  guaranteed : Nat := 0
  shared : Nat := 0
  /-- Flit sequence number of its LAST flit, and of its last flit sent in header-first mode. -/
  lastSeq : Nat := 0
  /-- Latest budget end of the queries a Q dray carries (R350). -/
  budgetEnd : Nat := 0
  deriving DecidableEq, Repr

/-- A frame being received (R323): tag, header, bytes so far, buffers and DEMAND reserved, whether deferred. -/
structure RxFrame where
  tag : Nat
  header : List Byte
  bytes : List Byte
  need : Nat
  accepted : Bool
  guaranteed : Nat := 0
  shared : Nat := 0
  demand : Nat := 0
  cls : Nat := 0
  /-- Answered DEFER: its further flits are discarded. -/
  deferred : Bool := false
  /-- Its LAST flit has arrived. -/
  whole : Bool := false
  deriving DecidableEq, Repr

/-- A port (R312 to R337). -/
structure Port where
  enable : Bool := false
  maxWidth : Nat := 2
  /-- 0 DOWN, 1 TRAINING, 2 IDENT, 3 UP, 4 RETRAIN, 5 MISMATCH, 6 SHED, 7 DISABLED (R340). -/
  state : Nat := 0
  width : Nat := 0
  nbrModule : Nat := 0
  nbrPort : Nat := 0
  /-- IDENT content last accepted (R314). -/
  ident : List Byte := []
  /-- Cycle of the last training failure, or of the signal that began training. -/
  since : Nat := 0
  /-- The last training attempt failed, so the port retries 100 ms after it (R313). -/
  failed : Bool := false
  active : Nat := 0
  /-- Cycle start at which an accepted bank switch takes effect (R330). -/
  switchAt : Option Nat := none
  gclStatus : Nat := 0
  countA : Nat := 1
  countB : Nat := 0
  /-- Raw entries of the two banks (R340): reset entry 0 of bank A is 0x0007E710. -/
  bankA : Table Nat := [(0, 0x0007E710)]
  bankB : Table Nat := []
  /-- Running list's entry and the cycle it started; start of the gate cycle. -/
  gate : Nat := 0
  gateAt : Nat := 0
  cycleAt : Nat := 0
  /-- SHAPE_RATE and SHAPE_BURST written, and those in force since the last refill (R335). -/
  rate : Table Nat := []
  burst : Table Nat := []
  rateNow : Table Nat := []
  burstNow : Table Nat := []
  /-- Cycle of the last write of each RATE (2 × class) and BURST (2 × class + 1). -/
  wroteAt : Table Nat := []
  tokens : Table Nat := []
  histSeq : Nat := 0
  histSnap : List Nat := []
  txSeq : Nat := 0
  rxSeq : Nat := 0
  /-- Replays since power-on, for the health points of R497. -/
  replayed : Nat := 0
  /-- Flits sent and not acknowledged (R317), and consecutive replays of the oldest. -/
  replay : List (Nat × List Byte) := []
  replays : Nat := 0
  nak : Bool := false
  /-- Answers waiting for a flit slot (R324). -/
  answers : List Nat := []
  queues : Table (List Frame) := []
  /-- Frames sent and not finished (R326). -/
  flying : List Frame := []
  rx : Option RxFrame := none
  /-- Frames whose FIRST flit has arrived and that wait for a decision, a continuation (header-first, R326) or delivery. -/
  partial_ : List RxFrame := []
  nextTag : Nat := 0
  /-- Destinations in header-first mode, by dest × 8 + class (R326). -/
  headerFirst : List Nat := []
  deriving DecidableEq, Repr

/-- The ports and what they share (R323, R338). -/
structure Fabric where
  ports : Table Port := []
  /-- DEMAND of frames accepted and not yet delivered, by class (R323). -/
  demand : Table Nat := []
  /-- Ingress buffers in use: port × 8 + class guaranteed; egress guaranteed per port; shared per port. -/
  inBufs : Table Nat := []
  outBufs : Table Nat := []
  sharedIn : Table Nat := []
  /-- Route table (R350), by module ID. -/
  routes : Table Nat := []
  deriving DecidableEq, Repr

/-- An open dray (R349). -/
structure Dray where
  dest : Nat
  cls : Nat
  tenant : Nat
  mapEpoch : Nat := 0
  items : List (List Byte)
  openedAt : Nat
  windowNs : Nat
  urgent : Bool := false
  forwarded : Bool := false
  deriving DecidableEq, Repr

/-- What a receiver remembers of a source and class (R348). -/
structure RxSeq where
  incarnation : Nat := 0
  highest : Nat := 0
  seen : List Nat := []
  deriving DecidableEq, Repr

/-- A query context held for a peer's query (R346, R347). -/
structure QCtx where
  handle : Nat
  source : Nat
  tenant : Nat
  snapshot : Nat
  version : Nat
  ns : Nat
  idx : Nat
  budgetEnd : Nat
  n : Nat
  kSel : Nat
  forced : Nat
  dim : Nat
  sketches : List (Nat × Nat)
  inTerms : List InTerm
  postTerms : List PostTerm
  urgent : Bool
  probes : Nat
  done : Nat := 0
  /-- QVEC chunks: first element, elements. -/
  chunks : List (Nat × List F32) := []
  /-- Modules to which its context has been re-sent with a forwarded probe (R357). -/
  forwardedTo : List Nat := []
  deriving DecidableEq, Repr

/-- A shard's state in a map (R354). -/
structure ShardEntry where
  home : Nat := 0
  state : Nat := 0
  group : List Nat := []
  deriving DecidableEq, Repr

/-- A composition map (R354). -/
structure CompMap where
  epoch : Nat := 0
  prev : Nat := 0
  shards : List ShardEntry := []
  features : List ShardEntry := []
  drain : List (Nat × Nat) := []
  namespaces : List Namespace := []
  indices : List IndexRec := []
  grants : List Grant := []
  deriving DecidableEq, Repr

/-- A map announced and not yet installed (R356). -/
structure MapNotice where
  epoch : Nat
  prev : Nat
  bytes : Nat
  digest : List Byte
  content : List Byte := []
  late : Bool := false
  deriving DecidableEq, Repr

/-- Work held for a newer map or for a snapshot's closure (R18, R357): the item, its frame's source, class, tenant,
map epoch and FORWARDED flag. -/
structure HeldWork where
  item : List Byte
  source : Nat
  cls : Nat
  tenant : Nat
  mapEpoch : Nat
  forwarded : Bool
  since : Nat
  waitUs : Nat
  /-- Snapshot it waits for, or none when it waits for a map. -/
  snapshot : Option Nat := none
  deriving DecidableEq, Repr

/-- A shard move this module takes part in (R359). -/
structure ShardMove where
  shard : Nat
  feature : Bool := false
  source : Nat
  dest : Nat
  /-- F1 and, once announced, F2. -/
  f1 : Nat
  f2 : Option Nat := none
  copied : Bool := false
  holding : Bool := false
  switched : Bool := false
  /-- Part of a shadowed set: step 4 is withheld until promotion (R507). -/
  shadow : Bool := false
  deriving DecidableEq, Repr

/-- A feature table (R360). -/
structure FeatTable where
  table : Nat
  ns : Nat
  rows : Nat
  rowBytes : Nat
  shardLog : Nat
  default_ : List Byte
  deletedAt : Option Nat := none
  deriving DecidableEq, Repr

/-- A feature row as its home holds it: value and epoch of its last readable write (R362), and the durable values written in
epochs not yet closed, oldest first (R363). -/
structure FeatRow where
  value : List Byte
  version : Nat
  next : List (List Byte × Nat) := []
  deriving DecidableEq, Repr

/-- A replica: at its home, who holds it; at a holder, its copy (R365, R366). -/
structure Replica where
  table : Nat
  row : Nat
  /-- Module on the other side: the holder at the home, the home at the holder. -/
  peer : Nat
  value : List Byte := []
  version : Nat := 0
  /-- Epochs whose invalidation the holder has not acknowledged (home side). -/
  unacked : List Nat := []
  valid : Bool := true
  readAt : Nat := 0
  deriving DecidableEq, Repr

/-- A request-state lease (R368 to R370). -/
structure Lease where
  handle : Nat
  peer : Nat
  /-- This module is the draining one. -/
  draining : Bool
  epoch : Nat
  expiry : Nat
  taken : Bool := false
  /-- State bytes sent or received, kept until TAKEN. -/
  copy : List Byte := []
  complete : Bool := false
  dropped : Bool := false
  /-- ANSWER items received so far (R369): FIRST and entries, the completion block, whether LAST has come. -/
  parts : List (Nat × List Entry) := []
  block : List Byte := []
  last : Bool := false
  /-- Epoch in which ASK was last sent (R370). -/
  asked : Nat := 0
  deriving DecidableEq, Repr

/-- A shard's coded stream at its home (R371). -/
structure CodedStream where
  open_ : List Byte := []
  firstAt : Nat := 0
  /-- CODE_FLUSH in force for the open stripe, ms. -/
  flushMs : Nat := 10
  stripe : Nat := 0
  firstEpoch : Nat := 0
  lastEpoch : Nat := 0
  deriving DecidableEq, Repr

/-- A stored fragment of another home's shard: fragment number, stripe, chunk. -/
structure Fragment where
  shard : Nat
  frag : Nat
  stripe : Nat
  firstEpoch : Nat
  lastEpoch : Nat
  chunk : List Byte
  deriving DecidableEq, Repr

/-- The exchange engine and the composition (12). -/
structure Exchange where
  drays : List Dray := []
  /-- Frames built and waiting for an UP port of their route, oldest first (R350). -/
  waiting : List Frame := []
  /-- Next DRAY_SEQ by dest × 8 + class. -/
  seqs : Table Nat := []
  rxSeqs : Table RxSeq := []
  qctx : Table QCtx := []
  held : List HeldWork := []
  /-- Content being received in TRANSFER items: identifier to bytes by offset, with the total. -/
  transfers : Table (Nat × List (Nat × List Byte)) := []
  /-- Next TRANSFER_ID sent. -/
  nextTransfer : Nat := 1
  maps : List CompMap := []
  notices : List MapNotice := []
  moves : List ShardMove := []
  tables : List FeatTable := []
  /-- Rows by table and index: table × 2^40 + index. -/
  rows : Table FeatRow := []
  /-- Sampled row reads and their rate counts, with those of each reader: row × 4,096 + module; the HOT_ROW_RATE of the latest sample
  (R365, R376). -/
  sampled : Table Nat := []
  readers : Table Nat := []
  hotRate : Nat := 10000
  /-- Row reads of each feature shard, of which one in 64 is sampled (R365). -/
  rowReads : Table Nat := []
  replicasOut : List Replica := []
  replicasIn : List Replica := []
  /-- Cycle of the last INVALIDATE body received from each home, sent to each holder, with the REPLICA_LEASE it took (R367, R376). -/
  invalSeen : Table (Nat × Nat) := []
  invalSent : Table (Nat × Nat) := []
  /-- Row bytes served per feature shard in this period (R364). -/
  served : Table Nat := []
  /-- FEATURE_IMBALANCE of the period, and the modules from which the leader has moved a feature shard in it (R364, R376). -/
  imbalance : Nat := 50
  featMoved : List Nat := []
  leases : List Lease := []
  streams : Table CodedStream := []
  fragments : List Fragment := []
  /-- Units of REPLAY_LOST pages whose copy there the map has not kept, with their shard: to verify against the code group (R297, R375). -/
  verify : List (Nat × Nat) := []
  /-- CODE_SPREAD published (R373). -/
  spread : Nat := 0
  /-- Reports to the leader awaiting: over-capacity shards (R263). -/
  overCapacity : List Nat := []
  deriving DecidableEq, Repr

end Sys2Proof.Machine
end

