-- ==== Sys2Proof/Machine/StatePower.lean ====
section
/-! DEFINITION. The state of power, clocks and shedding (16), of bring-up, partial reset and repair (17), of the pins (18),
of the sensors (15) and of everything the module sends out. -/
namespace Sys2Proof.Machine

/-- What a domain is doing (R476). -/
inductive DomState where
  | gated
  | waking
  | powered
  deriving DecidableEq, Repr

/-- A request for a wake token (R476): class 1 to 5, whether it gates off, the cycle raised, whether a full slot has deferred it, and,
once granted, the cycle its slot starts. -/
structure TokenReq where
  dom : DomainId
  cls : Nat
  off : Bool
  at_ : Nat
  deferred : Bool := false
  slot : Nat := 0
  deriving DecidableEq, Repr

/-- Power, clocks and shedding (16). -/
structure Power where
  /-- Arithmetic clock of each partition in MHz where it differs from 2,100 (R473). -/
  f : Table Nat := []
  /-- Domains that are not gated: coded kind × 256 + number. -/
  doms : Table DomState := []
  /-- Cycle since which a powered domain has been idle, with the delay in force for that idle period, µs (R475, R484). -/
  idleAt : Table (Nat × Nat) := []
  /-- Cycle at which a partition's PLL locks (R473). -/
  pllAt : Table Nat := []
  requests : List TokenReq := []
  /-- Wakes granted whose domains are not ready yet. -/
  granted : List TokenReq := []
  lastSlot : Nat := 0
  /-- Live wake-latency bins' snapshot and its sequence (R477). -/
  histSnap : List Nat := []
  histSeq : Nat := 0
  /-- Shedding: step of the input voltage, step forced by the limiter with the cycle it ends, port-die throttle (R478). -/
  voltStep : Nat := 0
  aboveSince : Option Nat := none
  limiterUntil : Nat := 0
  limiterOn : Bool := false
  overCurrentAt : Option Nat := none
  /-- Step in force as last acted on. -/
  step : Nat := 0
  /-- Voltage samples in mV, newest first, at most 120 (R478, R526). -/
  volts : List Nat := []
  /-- Filtered voltages, newest first, at most 100. -/
  filtered : List Nat := []
  amps : Nat := 0
  /-- Since when the load has been below 95% of the ceiling, and whether it is above it (R474). -/
  belowSince : Option Nat := none
  above : Bool := false
  /-- Cycles of the last down and up step of each partition, and the steps that its temperature has taken off F (R474, R482). -/
  lastDown : Table Nat := []
  lastUp : Table Nat := []
  thermal : Table Nat := []
  /-- Since when the input has been at 42 V or more (R471). -/
  startSince : Option Nat := none
  /-- Sensors throttling now (R482): sub-index of 0x2CF0. -/
  throttled : List Nat := []
  tripped : List Nat := []
  /-- Since when a partition at 1.0 GHz has been above its cap (R483), and whether it has been counted. -/
  capSince : Table Nat := []
  capCounted : List Nat := []
  /-- Step 6: the flush runs, the input switch is open, the load is off (R480, R518). -/
  flushing : Bool := false
  switchOpen : Bool := false
  busOff : Bool := false
  deriving DecidableEq, Repr

/-- A unit's health (R497, R514): score, and flags. Keyed by its UNIT word. -/
structure Health where
  score : Nat := 0
  tempBound : Bool := false
  patternBound : Bool := false
  retired : Bool := false
  deriving DecidableEq, Repr

/-- A drain or reset in progress (R493, R494). Scope 1 tile, 2 strand, 3 partition, 4 module; 5 partition at strand scope. -/
structure ResetJob where
  scope : Nat
  part : Nat
  strand : Nat := 0
  cls : Nat := 0
  index : Nat := 0
  /-- Draining, then resetting since. -/
  draining : Bool
  startedAt : Nat
  limit : Nat := 0
  /-- Waiting for another partition to resume (R495). -/
  waiting : Bool := false
  /-- The unit is retired at the end. -/
  retire : Bool := false
  /-- Strands that return with a partition, and whether a thermal trip ordered the reset (R482, R493). -/
  back : List Nat := []
  thermal : Bool := false
  deriving DecidableEq, Repr

/-- A fault a check has found in a tile (R505, R506): UNIT word, temperature band, clock step, load bin. -/
structure FaultBin where
  unit : Nat
  band : Nat
  clock : Nat
  load : Nat
  deriving DecidableEq, Repr

/-- A Campion probe issued (R502): number, target strand or tensor tile, SCAN and RERANK tile. -/
structure Campion where
  num : Nat
  tensor : Bool
  target : Nat
  scanTile : Nat
  rerankTile : Nat
  /-- 0 first run; 1 repeat on the same strand; 2 repeat on another partition. -/
  round : Nat := 0
  /-- Unit scored by the first failure, and the points it has got for this probe and its repeat. -/
  blamed : Nat := 0
  points : Nat := 0
  deriving DecidableEq, Repr

/-- A dual-strand check running (R504): query, list, strands and the digests so far. -/
structure DualCheck where
  handle : Nat
  list : Nat
  g1 : Nat
  g2 : Nat
  d1 : Option (List Byte) := none
  d2 : Option (List Byte) := none
  deriving DecidableEq, Repr

/-- A partner's own check digest of a mirrored probe (R508): handle, list, strand, the end of its query's deadline, and what came of it:
0 the shadow's digest is awaited, 1 equal, 2 different, 3 its query has been counted. -/
structure ShadowWait where
  handle : Nat
  list : Nat
  digest : List Byte
  g : Nat
  deadlineAt : Nat
  state : Nat := 0
  deriving DecidableEq, Repr

/-- Shadowing (R507 to R511). -/
structure Shadow where
  state : Nat := 0
  role : Nat := 0
  peer : Nat := 0
  shards : List Nat := []
  since : Nat := 0
  agreed : Nat := 0
  disagreed : Nat := 0
  waiting : List ShadowWait := []
  deriving DecidableEq, Repr

/-- Bring-up, reset and repair (17). -/
structure Repair where
  phase : Nat := 0
  /-- A start has begun; the cycle phase 0 began; the cycle phase 7 completed. -/
  started : Bool := false
  startAt : Nat := 0
  cold : Bool := true
  phase7At : Nat := 0
  phasesDone : Bool := false
  ready : Bool := false
  /-- Start-time captures: TOPOLOGY_WAIT, s. -/
  topoWait : Nat := 600
  jobs : List ResetJob := []
  /-- Units out of service: strands 0 to 31, partitions. -/
  strandsOut : List Nat := []
  partsOut : List Nat := []
  /-- Tiles retired without a spare: strand × 16 + class × … coded as UNIT words. -/
  tilesOut : List Nat := []
  /-- Spare strands and tensor tiles used, by partition. -/
  spareStrand : List Nat := []
  /-- The coordinate that the spare strand of a partition has taken (R46). -/
  spareFor : Table Nat := []
  spareTensor : List Nat := []
  health : Table Health := []
  /-- Start of the running half-life, and HEALTH_HALF_LIFE in force for it, h (R498, R513). -/
  halfLifeAt : Nat := 0
  halfLifeH : Nat := 168
  level : Nat := 0
  faults : List FaultBin := []
  /-- Bands in which a tile has passed a Campion probe: UNIT word to lowest band. -/
  passed : Table Nat := []
  /-- PART_TEMP_CAP before a restriction, by partition with the tile. -/
  savedCap : List (Nat × Nat × Nat) := []
  campions : List Campion := []
  nextCampion : Nat := 0
  lastCampion : Nat := 0
  /-- CAMPION_RATE in force, and the second in which it was taken (R502, R513). -/
  campionRate : Nat := 64
  campionSecond : Nat := 0
  duals : List DualCheck := []
  shadow : Shadow := {}
  /-- Firmware restart of the management complex runs. -/
  mgmtRestart : Bool := false
  deriving DecidableEq, Repr

/-- The pins (18): J1 PRESENT_N, the slot strapping, port cables plugged, the stepping (0 A0, 1 B0, 2 B1). -/
structure Pins where
  present : Bool := true
  slotId : Nat := 0
  slotRead : Nat := 0
  cables : List Nat := List.range 32
  stepping : Nat := 2
  /-- STAT[2:0] driven (R523). -/
  stat : Nat := 7
  bankMv : Nat := 0
  bankMj : Nat := 0
  deriving DecidableEq, Repr

/-- What the module sends out, in the order it sends it. -/
inductive Output where
  /-- A DMA write to host memory by a function: address, bytes (R385). -/
  | dma (fn addr : Nat) (bytes : List Byte)
  /-- An MSI-X message (R404). -/
  | msix (fn vector : Nat)
  /-- Work for a strand's SELECT or the exchange: a partial-result piece to a module (R146). -/
  | piece (dest : Nat) (bytes : List Byte)
  /-- A scan summary (R124), a gate message (R125). -/
  | summary (dest : Nat) (bytes : List Byte)
  | gate (dest strand : Nat) (bytes : List Byte)
  /-- A frame's flit on a port (R316). -/
  | flit (port : Nat) (bytes : List Byte)
  /-- A body delivered to the exchange inbox (R339): source, class, BODY_KIND, tenant, map epoch and bytes (R343). -/
  | inbox (src cls kind tenant mapEpoch : Nat) (bytes : List Byte)
  /-- A field-network frame and the UDP port it goes to, 0 for a request's sender (R433, R434, R468). -/
  | oap (port : Nat) (bytes : List Byte)
  /-- A response of the dictionary server to the management firmware. -/
  | response (bytes : List Byte)
  /-- A bus error answered to an on-die master (R444, R446). -/
  | busError (master : Nat)
  /-- A PCIe completion with Completer Abort (R444). -/
  | completerAbort
  /-- A mailbox message to an on-die receiver or the host became readable on a channel. -/
  | mailbox (channel : Nat)
  /-- A shadow's check digest for its partner (R508): peer, query handle, list, digest. -/
  | digest (peer handle list : Nat) (bytes : List Byte)
  /-- Read data of a staging access (R267, R269). -/
  | staging (bytes : List Byte)
  /-- STAT pins (R523). -/
  | stat (value : Nat)
  /-- What the module tells the leader, a neighbour or its own firmware in a message whose form the spec does not give, by kind: 1 its new
  MODULE_LEVEL (R500); 2 the answer to a placement call (R254, R257); 3 keys gone with an index (R235); 4 row bytes served for each
  feature shard (R364); 5 a request for a map's content to a neighbour (R356); 6 a shard over capacity (R263); 7 a discard made durable
  (R293); 8 the isolation mode and its switch epoch (R430); 9 a shadow to promote (R509); 10 a shadow to be ended for its disagreements (R510);
  11 the directory copies of two partitions to be compared, as a probe failed in both (R503). The values follow. -/
  | report (kind : Nat) (values : List Nat)
  deriving DecidableEq, Repr

end Sys2Proof.Machine
end

