-- ==== Sys2Proof/Machine/State.lean ====
section
/-! DEFINITION. The whole state of the module, the state right after power-on reset, and the reasons a step can stop.
The parts are in the files StatePipe, StateData, StateHost, StateMem, StateFabric and StatePower beside this one. -/
namespace Sys2Proof.Machine

/-- The state of one module: everything the spec gives it, as plain data, and the queue of waiting commands. -/
structure State where
  /-- Cycles of the on-die network clock since power-on (R473); the real-time clock counts from it (R449). -/
  time : Nat := 0
  /-- Queries, batches, candidates, selection contexts, tensor pools (01 to 06). -/
  pipe : Pipe := {}
  /-- Lists, segments, items, directory, records, commit path (03, 08). -/
  corpus : Corpus := {}
  /-- Epochs and the leader's beacon (R205 to R209, R352). -/
  epochs : EpochState := {}
  /-- Namespaces, indices, grants, versions (R233 to R239). -/
  catalog : Catalog := {}
  /-- Background maintenance (R225 to R232). -/
  maint : Maint := {}
  /-- Receipts (R240 to R244). -/
  receipts : Receipts := {}
  /-- Resident pipeline images by slot (R73). -/
  images : Table Image := []
  /-- Installations and removals in progress (R74). -/
  installs : List Install := []
  /-- Tenant records by tenant ID (R182, R199). -/
  tenants : Table Tenant := []
  /-- Host interface (13). -/
  host : HostIf := {}
  /-- Object dictionary (14). -/
  dict : Dict := {}
  /-- Every counter of the module, keyed index × 256 + sub-index (R9 to R13). -/
  counters : Table Nat := []
  /-- Event log (R449 to R453). -/
  log : EventLog := {}
  /-- Mailboxes (R441 to R448). -/
  mbx : Mailboxes := {}
  /-- Management complex (15). -/
  mgmt : Mgmt := {}
  /-- Latest sample of each sensor, keyed index × 256 + sub-index (R449). -/
  sensors : Table F32 := []
  /-- Memory tiers (R247 to R263). -/
  tiers : Tiers := {}
  /-- Staging SRAM and Harebell (R264 to R278). -/
  staging : Staging := {}
  /-- Flash translation layer (10). -/
  flash : Flash := {}
  /-- Ports (11). -/
  fabric : Fabric := {}
  /-- Exchange and composition (12). -/
  exchange : Exchange := {}
  /-- Power, clocks, shedding (16). -/
  power : Power := {}
  /-- Bring-up, reset, repair (17). -/
  repair : Repair := {}
  /-- Pins (18). -/
  pins : Pins := {}
  /-- The model's own: how many free values the run has drawn. -/
  freeCount : Nat := 0
  /-- The model's own: what the module has sent out, newest last. -/
  out : List Output := []
  /-- The model's own: the commands that are waiting, first in, first out. -/
  pending : List Instr := []
  deriving DecidableEq, Repr

/-- The state right after power-on: every part at its reset value, no command waiting. -/
def State.reset : State := {}

/-- Reasons to stop with a fault. -/
inductive Fault where
  /-- A byte operand whose length no event of the module can have. Raised by FLIT_RECEIVE for a flit that is not 256
  bytes (R316). Safe: no hardware event corresponds to it. -/
  | malformed (mnemonic : String)
  deriving DecidableEq, Repr

/-- Reasons to refuse a command. -/
inductive Refusal where
  /-- The command has no meaning yet. Raised by the dispatcher's arm of that command only. Safe: the machine stops. -/
  | notModelled (mnemonic : String)
  deriving DecidableEq, Repr

end Sys2Proof.Machine
end

