-- ==== Sys2Proof/Machine/Ops.lean ====
section
/-! DEFINITION. What every part of the module shares: time, what is sent out, settings, counters (R9 to R13), the event log
(R450 to R453), function causes and MSI-X (R403, R543), and the points of the health score (R497, R498). -/
namespace Sys2Proof.Machine

/-- The module sends something out. -/
def State.emit (s : State) (o : Output) : State := { s with out := s.out ++ [o] }

/-- Real-time counter ticks (R449, R450): 32,768 a second. -/
def State.rtc (s : State) : Nat := (s.time - s.repair.startAt) * 32768 / cyclesPerS

/-- The key of an object: index × 256 + sub-index. -/
def objKey (index sub : Nat) : Nat := index * 256 + sub

/-- The stored value of a setting, its default while none is stored (R423). -/
def State.setting (s : State) (index sub dflt : Nat) : Nat := s.dict.settings.getD (objKey index sub) dflt

/-- Is the composition sealed (R459)? -/
def State.sealedNow (s : State) : Bool := s.mgmt.sealed_

/-! ## Counters (R9 to R13) -/

/-- The counters of an object: free-running sub-indices, event sub-indices, the group summary (0: none). -/
structure CounterShape where
  free : List Nat
  event : List Nat
  summary : Nat
  deriving DecidableEq, Repr

/-- Sub-indices from `a` to `b`. -/
def subs (a b : Nat) : List Nat := (List.range (b + 1 - a)).map (· + a)

/-- The counter objects (R67, R114, R115, R138, R157, R181, R203, R204, R246, R276 to R278, R309, R310, R342, R377, R409, R438,
R470, R485, R515). -/
def counterShape (index : Nat) : Option CounterShape :=
  if index = 0x2031 then some ⟨[], [5], 6⟩
  else if 0x2040 ≤ index ∧ index ≤ 0x207F then some ⟨subs 1 3, subs 4 8, 9⟩
  else if 0x2110 ≤ index ∧ index ≤ 0x212F then some ⟨subs 1 4, subs 5 0xB, 0⟩
  else if 0x2318 ≤ index ∧ index ≤ 0x231B then some ⟨[1], subs 2 7, 0⟩
  else if 0x2320 ≤ index ∧ index ≤ 0x233F then some ⟨subs 1 4, subs 5 7, 0⟩
  else if 0x2410 ≤ index ∧ index ≤ 0x242F then some ⟨subs 1 4, subs 5 0xB, 0⟩
  else if 0x2430 ≤ index ∧ index ≤ 0x244F then some ⟨subs 1 3, subs 4 9, 0⟩
  else if 0x2510 ≤ index ∧ index ≤ 0x2513 then some ⟨subs 1 3, subs 4 0xB, 0⟩
  else if 0x2610 ≤ index ∧ index ≤ 0x262F then some ⟨[1], subs 2 7, 0⟩
  else if index = 0x2710 then some ⟨subs 1 2, subs 3 0xC, 0xD⟩
  else if index = 0x2810 then some ⟨subs 1 2, subs 3 9, 0xA⟩
  else if 0x2820 ≤ index ∧ index ≤ 0x283F ∨ 0x2F00 ≤ index ∧ index ≤ 0x2F03 then some ⟨[], subs 1 9, 0xA⟩
  else if 0x2840 ≤ index ∧ index ≤ 0x2843 then some ⟨[1], subs 2 5, 7⟩
  else if index = 0x2910 then some ⟨subs 1 3, subs 4 0x10, 0x11⟩
  else if 0x2920 ≤ index ∧ index ≤ 0x293F then some ⟨subs 1 3, [4], 7⟩
  else if 0x2A40 ≤ index ∧ index ≤ 0x2A5F then some ⟨subs 1 3, subs 4 0xF, 0x10⟩
  else if index = 0x2B10 then some ⟨subs 1 4, subs 5 0xE ++ [0x10], 0xF⟩
  else if index = 0x2C20 then some ⟨[1], subs 2 0xA, 0xB⟩
  else if index = 0x2D10 then some ⟨[1], subs 2 0xC, 0xD⟩
  else if index = 0x2E08 then some ⟨[1], subs 2 9, 0xA⟩
  else if index = 0x2E0C then some ⟨[8], subs 1 7, 9⟩
  else none

/-- Keys of the counters that are no sub-index of their own: a tenant's LATE_PARTIALS and its summary (R203). -/
def lateKey (tenant : Nat) : Nat := 0x100000000 + 2 * tenant
/-- PROBES of a list in a partition's copy of the directory (R104). -/
def probesKey (part list : Nat) : Nat := 0x200000000 + part * 0x100000 + list
/-- A live bin of a port's histograms (R336): class, 0 depth or 1 delay, bin. -/
def binKey (port cls k b : Nat) : Nat := 0x300000000 + port * 1024 + (cls * 2 + k) * 64 + b
/-- A live bin of the wake-latency histogram (R477). -/
def wakeBinKey (b : Nat) : Nat := 0x400000000 + b

/-- Is a key one of a free-running counter (R10)? Every other counter key is an event counter's (R11). -/
def isFreeRunning (key : Nat) : Bool :=
  match counterShape (key / 256) with
  | some c => c.free.contains (key % 256)
  | none => false

/-- Is a key a sub-index that is an event counter? -/
def isEventCounter (key : Nat) : Bool :=
  match counterShape (key / 256) with
  | some c => c.event.contains (key % 256)
  | none => false

/-- The group summary of an event counter, where its group has one. -/
def summaryOf (key : Nat) : Option Nat :=
  if key ≥ 0x400000000 then some (objKey 0x2C30 3)
  else if key ≥ 0x300000000 then some (0x300000000 + (key - 0x300000000) / 1024 * 1024 + 1023)
  else if key ≥ 0x200000000 then some (objKey (0x2318 + (key - 0x200000000) / 0x100000) 8)
  else if key ≥ 0x100000000 then some (key / 2 * 2 + 1)
  else match counterShape (key / 256) with
    | some c => if c.summary = 0 then none else some (objKey (key / 256) c.summary)
    | none => none

/-- The event counters of a group, by its summary, as far as they hold a count. -/
def groupMembers (counters : Table Nat) (summary : Nat) : List Nat :=
  (counters.filter fun kv => kv.1 != summary && summaryOf kv.1 == some summary && !isFreeRunning kv.1).map (·.1)

/-- The highest value of an event counter (R11). -/
abbrev eventMax : Nat := 0xFFFFFFFF

/-- A counter's value; zero where it holds no count. -/
def State.counter (s : State) (key : Nat) : Nat := s.counters.getD key 0

/-- Object of a SATURATED record for a counter key (R451). -/
def counterObject (key : Nat) : Nat × Nat :=
  if key ≥ 0x400000000 then (0x2C30, 0x10)
  else if key ≥ 0x300000000 then (0x2A60 + (key - 0x300000000) / 1024, 0x10)
  else if key ≥ 0x200000000 then (0x2318 + (key - 0x200000000) / 0x100000, 8)
  else if key ≥ 0x100000000 then (0x2031, 5)
  else (key / 256, key % 256)

/-- Add to a counter: a free-running counter wraps (R10); an event counter saturates and sets SAT of its group (R11). The flag
says that the counter has just reached saturation. -/
def bumpCounter (counters : Table Nat) (key n : Nat) : Table Nat × Bool :=
  let v := counters.getD key 0
  if isFreeRunning key then (counters.put key 0 ((v + n) % 2 ^ 64), false)
  else
    let v' := min eventMax (v + n)
    let c := counters.put key 0 v'
    if v < eventMax && v' == eventMax then
      (match summaryOf key with
        | some g => (c.set g 1, true)
        | none => (c, true))
    else (c, false)

/-! ## Units (R450) -/

/-- The module as a unit. -/
def unitModule : Nat := 0
/-- A partition. -/
def unitPart (p : Nat) : Nat := 1 + p * 16
/-- A strand, numbered 0 to 31. -/
def unitStrand (g : Nat) : Nat := 2 + g / 8 * 16 + g % 8 * 64
/-- A stage tile: strand, class, index. -/
def unitTile (g cls idx : Nat) : Nat := 3 + g / 8 * 16 + g % 8 * 64 + cls * 512 + idx * 8192
/-- A tensor tile. -/
def unitTensor (p tile : Nat) : Nat := 4 + p * 16 + tile * 65536
/-- A port. -/
def unitPort (n : Nat) : Nat := 5 + n * 65536
/-- A flash channel. -/
def unitChannel (n : Nat) : Nat := 6 + n * 65536
/-- A NAND die. -/
def unitDie (chan die : Nat) : Nat := 7 + chan * 65536 + die * 0x1000000
/-- An HBM stack. -/
def unitStack (n : Nat) : Nat := 8 + n * 65536
/-- An LPDDR package. -/
def unitPackage (n : Nat) : Nat := 9 + n * 65536
/-- A PCIe function. -/
def unitFn (n : Nat) : Nat := 10 + n * 65536
/-- A tenant. -/
def unitTenant (n : Nat) : Nat := 11 + n * 65536

/-- Unit of a counter's SATURATED record: the unit whose object it is. -/
def counterUnit (key : Nat) : Nat :=
  let o := (counterObject key).1
  if key / 0x100000000 = 1 then unitTenant (key % 0x100000000 / 2)
  else if 0x2040 ≤ o ∧ o ≤ 0x207F then unitFn (o - 0x2040)
  else if 0x2110 ≤ o ∧ o ≤ 0x212F then unitStrand (o - 0x2110)
  else if 0x2318 ≤ o ∧ o ≤ 0x231B then unitPart (o - 0x2318)
  else if 0x2320 ≤ o ∧ o ≤ 0x233F then unitStrand (o - 0x2320)
  else if 0x2410 ≤ o ∧ o ≤ 0x242F then unitStrand (o - 0x2410)
  else if 0x2430 ≤ o ∧ o ≤ 0x244F then unitStrand (o - 0x2430)
  else if 0x2510 ≤ o ∧ o ≤ 0x2513 then unitPart (o - 0x2510)
  else if 0x2610 ≤ o ∧ o ≤ 0x262F then unitStrand (o - 0x2610)
  else if 0x2820 ≤ o ∧ o ≤ 0x283F then unitStrand (o - 0x2820)
  else if 0x2840 ≤ o ∧ o ≤ 0x2843 then unitPart (o - 0x2840)
  else if 0x2F00 ≤ o ∧ o ≤ 0x2F03 then unitPart (o - 0x2F00)
  else if 0x2920 ≤ o ∧ o ≤ 0x293F then unitChannel (o - 0x2920)
  else if 0x2A40 ≤ o ∧ o ≤ 0x2A5F then unitPort (o - 0x2A40)
  else if 0x2A60 ≤ o ∧ o ≤ 0x2A7F then unitPort (o - 0x2A60)
  else unitModule

/-! ## Functions, causes and messages -/

/-- A function's state. -/
def State.fnState (s : State) (fn : Nat) : FnState := s.host.fns.getD fn {}

/-- Replace a function's state. -/
def State.setFn (s : State) (fn : Nat) (f : FnState) : State :=
  { s with host := { s.host with fns := s.host.fns.set fn f } }

/-- Change a function's state. -/
def State.updFn (s : State) (fn : Nat) (f : FnState → FnState) : State := s.setFn fn (f (s.fnState fn))

/-- Send an MSI-X message on a vector, or set its pending bit while it is masked (R403). `cnt` counts. -/
def msixWith (cnt : State → Nat → Nat → State) (s : State) (fn vec : Nat) : State :=
  let f := s.fnState fn
  let v := f.vecs.getD vec {}
  if v.masked then s.setFn fn { f with vecs := f.vecs.set vec { v with pending := true } }
  else cnt (s.emit (.msix fn vec)) (objKey (0x2040 + fn) 8) 1

/-- Set a bit of EVT_CAUSE; a bit that goes from 0 to 1 while its mask bit is clear sends one message on EVT_VECTOR (R383,
R543). A function at the basic level has no EVT_CAUSE. -/
def causeWith (cnt : State → Nat → Nat → State) (s : State) (fn b : Nat) : State :=
  let f := s.fnState fn
  if (f.enabled && !f.expert) || bit f.evtCause b then s
  else
    let s := s.setFn fn { f with evtCause := setBit f.evtCause b true }
    if bit f.evtMask b then s else msixWith cnt s fn f.evtVector

/-! ## Mailbox slots and the event log -/

/-- Messages waiting in a mailbox channel (R441). -/
def State.channel (s : State) (c : Nat) : List (List Byte) := s.mbx.slots.getD c []

/-- A message of the module's own firmware (R442): type, sender's count, payload, master number 0x0001. -/
def mbxMessage (ty seq master : Nat) (payload : List Byte) : List Byte :=
  leBytes 2 ty ++ leBytes 2 (seq % 65536) ++ leBytes 1 payload.length ++ [0] ++ leBytes 2 master ++ slice payload 0 56

/-- The management firmware sends a message to the host on a channel NS4 to NS7; a full channel refuses it (R444). -/
def hostMessageWith (cnt : State → Nat → Nat → State) (s : State) (c ty : Nat) (payload : List Byte) : State × Bool :=
  let q := s.channel c
  if q.length ≥ 8 then (cnt s (objKey 0x2E0C 4) 1, false)
  else
    let seq := s.mbx.seqs.getD c 0
    let s := { s with mbx := { s.mbx with
      slots := s.mbx.slots.set c (q ++ [mbxMessage ty seq 1 payload]), seqs := s.mbx.seqs.set c ((seq + 1) % 65536) } }
    let s := s.emit (.mailbox c)
    (if q.isEmpty then causeWith cnt s 0 4 else s, true)

/-- SEVERITY of a record by its KIND (R542). -/
def severityOf : Nat → Nat
  | 0 => 1
  | 1 => 2
  | 2 => 3
  | 3 => 3
  | 4 => 0
  | 5 => 4
  | _ => 2

/-- The 64 bytes of a log record (R450). -/
def logBytes (r : LogRec) : List Byte :=
  let b := leBytes 8 r.seq ++ leBytes 8 r.rtc ++ leBytes 8 r.epoch ++ leBytes 2 r.objIndex ++ leBytes 1 r.objSub ++
    leBytes 1 (severityOf r.kind) ++ leBytes 1 r.kind ++ leBytes 3 0 ++ leBytes 4 r.unit ++ slice r.data 0 20 ++ leBytes 4 0
  b ++ leBytes 4 (crc32c b)

/-- Write one log record and send its notice (R451, R452). With 4,096 records waiting to be copied it is dropped. -/
def logWith (cnt : State → Nat → Nat → State) (s : State) (index sub kind unit : Nat) (data : List Byte) : State :=
  if s.log.waiting ≥ 4096 then
    cnt { s with log := { s.log with lost := s.log.lost + 1 } } (objKey 0x2E0C 2) 1
  else
    let r : LogRec := ⟨s.log.nextSeq, s.rtc, s.epochs.closed, index, sub, kind, unit, data⟩
    let ring := s.log.ring ++ [r]
    let s := { s with log := { s.log with
      nextSeq := s.log.nextSeq + 1, ring := ring.drop (ring.length - 4096), waiting := s.log.waiting + 1 } }
    let s := cnt s (objKey 0x2E0C 1) 1
    if severityOf kind ≥ s.setting 0x2E0B 5 2 then
      let (s, ok) := hostMessageWith cnt s 4 0x0200 ((logBytes r).take 56)
      if ok then s
      else cnt { s with log := { s.log with dropped := s.log.dropped + 1 } } (objKey 0x2E0C 3) 1
    else s

/-- Count, and on reaching saturation write the SATURATED record (R11, R451). The fuel bounds how often the log's own counters
can reach saturation while the record is written. -/
def countFuel : Nat → State → Nat → Nat → State
  | 0, s, key, n => { s with counters := (bumpCounter s.counters key n).1 }
  | f + 1, s, key, n =>
    let (c, sat) := bumpCounter s.counters key n
    let s := { s with counters := c }
    if sat then
      logWith (countFuel f) s (counterObject key).1 (counterObject key).2 0 (counterUnit key) []
    else s

/-- Add to a counter (R10, R11). -/
def State.count (s : State) (key n : Nat) : State := if n = 0 then s else countFuel 6 s key n

/-- Add one to the counter of an object's sub-index. -/
def State.tally (s : State) (index sub : Nat) : State := s.count (objKey index sub) 1

/-- One piece of work whose duration the spec does not give adds its busy cycles to a free-running counter (R10; log 13). -/
def State.spendCycles (s : State) (index sub : Nat) : State :=
  { s with
    freeCount := s.freeCount + 1
    counters := s.counters.set (objKey index sub) ((s.counter (objKey index sub) + Config.busyCycles s.freeCount) % 2 ^ 64) }

/-- Send an MSI-X message (R403, R404). -/
def State.msix (s : State) (fn vec : Nat) : State := msixWith (fun s k n => s.count k n) s fn vec

/-- Set a cause bit of a function (R383). -/
def State.cause (s : State) (fn b : Nat) : State := causeWith (fun s k n => s.count k n) s fn b

/-- Set a cause bit of every enabled function. -/
def State.causeAll (s : State) (b : Nat) : State := (List.range 64).foldl (fun s fn => if (s.fnState fn).enabled then s.cause fn b else s) s

/-- Write a log record: object, KIND, unit, DATA (R450, R451). -/
def State.logEvent (s : State) (index sub kind unit : Nat) (data : List Byte) : State :=
  logWith (fun s k n => s.count k n) s index sub kind unit data

/-- An event of KIND STATE with old and new values (R542). -/
def State.logState (s : State) (index sub unit old new : Nat) : State :=
  s.logEvent index sub 1 unit (leBytes 8 old ++ leBytes 8 new)

/-- Send the host a message on NS4 to NS7. -/
def State.hostMessage (s : State) (c ty : Nat) (payload : List Byte) : State :=
  (hostMessageWith (fun s k n => s.count k n) s c ty payload).1

/-! ## Time -/

/-- Can a ring pair take its next entry, as far as its own state says (R392)? `inFlight` counts its ingest batches. -/
def pairReady (p : RingPair) (placing : Bool) (inFlight : Nat) : Bool :=
  p.state = 1 && p.sqHead ≠ p.sqTail && p.unconsumed + p.reserved < p.cqSize &&
    (p.kind ≠ 1 || !placing) && (p.kind ≠ 2 || inFlight < 8)

/-- Is a query of the pair waiting for placement (R392)? -/
def State.pairPlacing (s : State) (fn pair : Nat) : Bool :=
  s.pipe.queries.any fun kq => kq.2.fn = fn && kq.2.pair = pair && !kq.2.basic && kq.2.phase == .placing

/-- Ingest batches of the pair in flight, entries taken and not yet arrived among them (R392). -/
def State.pairBatches (s : State) (fn pair : Nat) : Nat :=
  (s.corpus.batches.filter fun kb => kb.2.fn = fn && kb.2.pair = pair && !kb.2.basic).length +
    (s.host.taken.filter fun e => e.fn = fn && e.pair = pair).length

/-- Is the pair ready to be taken from (R392)? -/
def State.ready (s : State) (fn pair : Nat) (p : RingPair) : Bool := pairReady p (s.pairPlacing fn pair) (s.pairBatches fn pair)

/-- Is anything taken from rings of a kind: 0 administration, else query and ingest? Not the latter before READY (R489), and nothing
while a module drain runs (R493) or step 6 is in force (R480). -/
def State.ringsOpen (s : State) (kind : Nat) : Bool :=
  (kind = 0 || s.repair.ready) && s.power.step < 6 && !(s.repair.jobs.any fun j => j.scope = 4)

/-- Can the basic-level query ring take a descriptor (R392, R405)? -/
def State.basicReady (s : State) (fn : Nat) : Bool :=
  let f := s.fnState fn
  s.ringsOpen 1 && f.enabled && !f.expert && !f.basic.stoppedQ && f.basic.qsrHead ≠ f.basic.qsrTail &&
    f.basic.unconsumed + f.basic.reserved < f.basic.qcrSize &&
    !(s.pipe.queries.any fun kq => kq.2.fn = fn && kq.2.basic && kq.2.phase == .placing)

/-- Can the basic-level ingest ring take a descriptor (R392, R405)? -/
def State.basicIngestReady (s : State) (fn : Nat) : Bool :=
  let f := s.fnState fn
  s.ringsOpen 2 && f.enabled && !f.expert && !f.basic.stoppedI && f.basic.igrHead ≠ f.basic.igrTail &&
    (s.corpus.batches.filter fun kb => kb.2.fn = fn && kb.2.basic).length < 8

/-- Does a function have a ring with pending entries that cannot take one (FETCH_STALL_CYCLES, R409)? -/
def State.stalled (s : State) (fn : Nat) (f : FnState) : Bool :=
  f.enabled && if f.expert then f.pairs.any fun kp => kp.2.state = 1 && kp.2.sqHead ≠ kp.2.sqTail && !s.ready fn kp.1 kp.2
    else (!f.basic.stoppedQ && f.basic.qsrHead ≠ f.basic.qsrTail && !s.basicReady fn) ||
      (!f.basic.stoppedI && f.basic.igrHead ≠ f.basic.igrTail && !s.basicIngestReady fn)

/-- The first number after `last`, in rotation over `n`, that satisfies a test. -/
def nextRobin (n last : Nat) (p : Nat → Bool) : Option Nat :=
  ((List.range n).map fun i => (last + 1 + i) % n).find? p

/-- The ring of a function to take from next: round robin over its pairs that are ready; at the basic level the query ring counts as pair 0
and the ingest ring as pair 1 (R393, R405). -/
def State.nextPair (s : State) (fn : Nat) : Option Nat :=
  let f := s.fnState fn
  if !f.enabled then none
  else nextRobin 64 f.lastPair fun n =>
    if f.expert then (match f.pairs.get n with
      | some p => s.ringsOpen p.kind && s.ready fn n p
      | none => false)
    else n = 0 && s.basicReady fn || n = 1 && s.basicIngestReady fn

/-- The function and the ring whose turn it is: round robin over the functions of either level (R1, R3, R393). -/
def State.turn (s : State) : Option (Nat × Nat) :=
  (nextRobin 64 s.host.lastFn fun fn => (s.nextPair fn).isSome).bind fun fn => (s.nextPair fn).map fun pair => (fn, pair)

/-- An entry is taken: the turn passes on, and the entry is counted (R393, R409). -/
def State.took (s : State) (fn pair : Nat) : State :=
  let s := s.updFn fn fun f => { f with lastPair := pair }
  ({ s with host := { s.host with lastFn := fn } } : State).tally (0x2040 + fn) 4

/-- Power-gated domains of R475: 4 bases, 32 strands, 64 tensor tiles, 32 ports, 32 channels, the up-step; those not listed
are gated. -/
def State.gatedDomains (s : State) : Nat := 164 - (s.power.doms.filter fun kd => kd.1 < 1280).length

/-- Has a strand work: a query or a batch (R475)? -/
def State.strandWork (s : State) (g : Nat) : Bool :=
  s.pipe.queries.any (fun kq => kq.2.g = g && kq.2.phase != .placing) || s.pipe.batches.any fun kb => kb.2.g = g

/-- Is the domain of a key in use? A base is in use while a strand or a tensor tile of its partition is not gated, or while work
waits for one (R475). -/
def State.domBusy (s : State) (key : Nat) : Bool :=
  let n := key % 256
  match key / 256 with
  | 0 => (s.power.doms.any fun kd => (kd.1 / 256 = 1 && kd.1 % 256 / 8 = n) || (kd.1 / 256 = 2 && kd.1 % 256 / 16 = n)) ||
      (List.range 8).any (fun i => s.strandWork (8 * n + i)) || !(s.pipe.tensor.getD n {}).running.isEmpty
  | 1 => s.strandWork n
  | 2 => (s.pipe.tensor.getD (n / 16) {}).running.any fun i => i.held.contains (n % 16)
  | 3 => let p := s.fabric.ports.getD n {}
    p.enable && p.state ≠ 6
  | 4 => s.flash.pages.any (fun kp => kp.1 % 32 = n && kp.2.state = 1) || s.flash.rows.any fun kr => kr.2.sbs.any fun kb => kb.2.erasing
  | _ => false

/-- The delay of an idle period that begins now: PLL_OFF_DELAY of a base, IDLE_GATE_DELAY of any other domain (R475, R484). -/
def State.idleDelay (s : State) (key : Nat) : Nat := if key < 256 then s.setting 0x2C00 3 1000 else s.setting 0x2C00 2 50

/-- Add to a meter of a tenant (R199). Work that this module does for a peer's query is charged here as well: a tenant without a record gets
one, within the 256 of R182 (log 86). Tenant 0 is no tenant. -/
def State.meter (s : State) (t n amount : Nat) : State :=
  let add (r : Tenant) : Tenant := { r with meters := r.meters.put n 0 ((r.meters.getD n 0 + amount) % 2 ^ 64) }
  match s.tenants.get t with
  | some r => { s with tenants := s.tenants.set t (add r) }
  | none => if t = 0 || t ≥ 0xFFFF || s.tenants.length ≥ 256 then s else { s with tenants := s.tenants.set t (add {}) }

/-- Cycles of a partition's arithmetic clock between two cycles of the on-die network clock, at the clock now in force (R473, R540). -/
def State.arithCycles (s : State) (p t0 t1 : Nat) : Nat :=
  let f := s.power.f.getD p 2100
  t1 * f / 1600 - t0 * f / 1600

/-- Does a link of a strand stall, by the sub-index of its stall counter (R57, R58, R67)? A link holds its first units, and its sender the
rest. -/
def State.linkStalls (s : State) (g sub : Nat) : Bool := match sub with
  | 2 => decide ((s.pipe.scanFifo.getD g []).length > 2048)
  | 3 => decide ((s.pipe.selectFifo.getD g []).length > 1024)
  | _ => decide ((s.pipe.queries.filter fun kq => kq.2.g = g && kq.2.phase == .emitting && kq.2.rejected.isNone).length > 64)

/-- The stall cycles of a strand's links (R58, R67). ADMIT places a query only where a credit is free, and counts none. -/
def State.countStalls (s : State) (t0 t1 : Nat) : State :=
  (List.range 32).foldl (fun a g => [2, 3, 4].foldl (fun a sub =>
    if s.linkStalls g sub then a.count (objKey (0x2110 + g) sub) (s.arithCycles (g / 8) t0 t1) else a) a) s

/-- The tile-cycles of running invocations, at the clock in force, in each pool's counter (R181). -/
def State.countTiles (s : State) (t0 t1 : Nat) : State :=
  s.pipe.tensor.foldl (fun a kp => kp.2.running.foldl (fun a i =>
    a.count (objKey (0x2510 + kp.1) 1) (i.held.length * s.arithCycles kp.1 t0 t1)) a) s

/-- The same tile-cycles for the tenants of the queries that the invocations serve (R199 n = 18). -/
def State.meterTiles (s : State) (t0 t1 : Nat) : State :=
  s.pipe.tensor.foldl (fun a kp => kp.2.running.foldl (fun a i =>
    match i.req.kind, s.pipe.queries.get i.req.owner with
    | .maint, _ => a
    | _, some x => a.meter x.tenant 18 (i.held.length * s.arithCycles kp.1 t0 t1)
    | _, none => a) a) s

/-- The cycles in which a partition's walker held a walk: from the sketch's arrival to the choice of the lists (R114). -/
def State.countWalks (s : State) (t0 t1 : Nat) : State :=
  (List.range 4).foldl (fun a p =>
    if s.pipe.queries.any fun kq => kq.2.g / 8 = p && kq.2.phase == .toWalk then a.count (objKey (0x2318 + p) 1) (t1 - t0) else a) s

/-- The counters that count cycles of what the state shows waiting or held, over the cycles from `t0` to `t1`, each by the clock of its
group (R540): walks held (R114), stalled pairs (R409), stalled links (R67), gated domains (R485), tensor requests queued and tiles held (R181,
R199), pieces waiting
(R157: where several wait, the cycles of each count, DESIGN CHOICE, log 81); and until when each powered domain has been in use (R475). -/
def State.elapse (s : State) (t0 t1 : Nat) : State :=
  let s := (((s.meterTiles t0 t1).countStalls t0 t1).countTiles t0 t1).countWalks t0 t1
  let s := s.host.fns.foldl (fun a kf => if s.stalled kf.1 kf.2 then a.count (objKey (0x2040 + kf.1) 3) (t1 - t0) else a) s
  let s := s.count (objKey 0x2C20 1) ((t1 / 32 - t0 / 32) * s.gatedDomains)
  let s := s.pipe.tensor.foldl (fun a kp => a.count (objKey (0x2510 + kp.1) 3) (kp.2.queue.length * (t1 - t0))) s
  let s := s.pipe.queries.foldl (fun a kq =>
    a.count (objKey (0x2430 + kq.2.g) 3) ((kq.2.chosen.map (·.waiting.length)).sum * (t1 - t0))) s
  { s with power := { s.power with idleAt := s.power.doms.foldl (fun t kd =>
      if kd.2 == .powered && s.domBusy kd.1 then Table.set t kd.1 (t1, s.idleDelay kd.1) else t) s.power.idleAt } }

/-- Time moves on to a later cycle; a cycle already passed changes nothing. -/
def State.advance (s : State) (t : Nat) : State :=
  if t ≤ s.time then s else { s.elapse s.time t with time := t }

/-! ## Wake requests (R475, R476) -/

/-- Do maintenance, tier moves, Harebell, collection and the background memory test run? Shedding step 2 stops them, and so does a port
die above its throttle point, independently of the step (R478, R482). -/
def State.upkeepRuns (s : State) : Bool := s.power.step < 2 && !(s.power.throttled.contains 5 || s.power.throttled.contains 6)

/-- The number of a domain kind, in the order of R475. -/
def domainKindNo : DomainKind → Nat
  | .base => 0
  | .strand => 1
  | .tensor => 2
  | .port => 3
  | .onfi => 4
  | .upStep => 5

/-- The key of a domain. -/
def domainKey (d : DomainId) : Nat := domainKindNo d.kind * 256 + d.num

/-- What a domain is doing. -/
def State.domain (s : State) (d : DomainId) : DomState := s.power.doms.getD (domainKey d) .gated

/-- Is a domain powered? -/
def State.powered (s : State) (k : DomainKind) (n : Nat) : Bool := s.domain ⟨k, n⟩ == .powered

/-- The domain that must be powered before a domain raises a request: its partition's base (R475, R476). -/
def domainParent (d : DomainId) : Option DomainId :=
  match d.kind with
  | .strand => some ⟨.base, d.num / 8⟩
  | .tensor => some ⟨.base, d.num / 16⟩
  | _ => none

/-- Has the shedding step in force shed a domain (R478, R479)? -/
def State.domainShed (s : State) (d : DomainId) : Bool :=
  match d.kind with
  | .onfi => false
  | .tensor => decide (s.power.step ≥ 3 && d.num % 16 ≥ 8) || decide (s.power.step ≥ 6)
  | .port => decide ((s.fabric.ports.getD d.num {}).state = 6) || decide (s.power.step ≥ 6)
  | _ => decide (s.power.step ≥ 6)

/-- Raise a request for a wake token, unless the domain is not gated, already waits or is shed (R476, R478). -/
def State.raiseWake (s : State) (d : DomainId) (cls : Nat) : State :=
  if s.domain d != .gated || s.domainShed d || (s.power.requests.any fun r => r.dom == d && !r.off) then s
  else { s with power := { s.power with
    requests := s.power.requests ++ [({ dom := d, cls := cls, off := false, at_ := s.time } : TokenReq)] } }

/-- Work reaches a domain: its idle period ends, and it asks for a wake token, or its parent does first while that is not powered
(R475, R476). -/
def State.wake (s : State) (k : DomainKind) (n cls : Nat) : State :=
  let d : DomainId := ⟨k, n⟩
  let key := domainKey d
  let s := { s with power := { s.power with
    idleAt := s.power.idleAt.alter key fun _ => (s.time, s.idleDelay key)
    requests := s.power.requests.filter fun r => !(r.dom == d && r.off && r.cls = 5) } }
  match domainParent d with
  | some p => if s.domain p == .powered then s.raiseWake d cls else s.raiseWake p cls
  | none => s.raiseWake d cls

/-! ## Health points (R497, R498) -/

/-- The level of a score: 0 OK, 1 WATCH, 2 DRAIN, 3 RETIRE (R498). -/
def levelOf (score : Nat) : Nat := if score ≥ 1000 then 3 else if score ≥ 400 then 2 else if score ≥ 100 then 1 else 0

/-- A unit's health. -/
def State.healthOf (s : State) (unit : Nat) : Health := s.repair.health.getD unit {}

/-- Write a unit's health; a change of level writes a STATE record against the unit (R498). -/
def State.setHealth (s : State) (unit : Nat) (h : Health) : State :=
  let old := levelOf (s.healthOf unit).score
  let s := { s with repair := { s.repair with health := s.repair.health.put unit {} h } }
  if levelOf h.score = old then s else s.logState 0x2D03 4 unit old (levelOf h.score)

/-- A unit gains points (R497); SCORE saturates at 65,535 (R514), and a retired unit keeps its score (R499). -/
def State.score (s : State) (unit points : Nat) : State :=
  let h := s.healthOf unit
  if h.retired then s else s.setHealth unit { h with score := min 65535 (h.score + points) }

/-! ## Small accessors -/

/-- A query at its origin. -/
def State.query (s : State) (q : Nat) : Option Query := s.pipe.queries.get q

/-- Replace a query. -/
def State.setQuery (s : State) (q : Nat) (x : Query) : State :=
  { s with pipe := { s.pipe with queries := s.pipe.queries.set q x } }

/-- A batch. -/
def State.batch (s : State) (b : Nat) : Option Batch := s.pipe.batches.get b

/-- Replace a batch. -/
def State.setBatch (s : State) (b : Nat) (x : Batch) : State :=
  { s with pipe := { s.pipe with batches := s.pipe.batches.set b x } }

/-- Replace a member of a batch, by its position. -/
def State.setMember (s : State) (b m : Nat) (x : Member) : State :=
  match s.batch b with
  | some bt => s.setBatch b { bt with members := bt.members.set m x }
  | none => s

/-- A member of a batch. -/
def State.member (s : State) (b m : Nat) : Option Member :=
  match s.batch b with
  | some bt => bt.members[m]?
  | none => none

/-- A list on this home. -/
def State.list (s : State) (h : Nat) : Option ListData := s.corpus.lists.get h

/-- Replace a list. -/
def State.setList (s : State) (h : Nat) (x : ListData) : State :=
  { s with corpus := { s.corpus with lists := s.corpus.lists.set h x } }

/-- An event for which the closure of an epoch waits happens now (R207). -/
def State.noteSettled (s : State) (e : Nat) : State :=
  { s with epochs := { s.epochs with settled := s.epochs.settled.set e s.time } }

/-- A tenant's record, or the values a new record takes (R182). -/
def State.tenant (s : State) (t : Nat) : Tenant := s.tenants.getD t {}

/-- Bytes of a tier object, and bytes that one has served in this MAINT_PERIOD (R252). -/
def State.objBytes (s : State) (obj : Nat) : Nat := match s.tiers.objs.get obj with
  | some o => o.size
  | none => 0

/-- Bytes that a tier object has served in this MAINT_PERIOD grow (R252). -/
def State.objRead (s : State) (obj bytes : Nat) : State :=
  { s with tiers := { s.tiers with objs := s.tiers.objs.alter obj fun o => { o with readNow := o.readNow + bytes } } }

/-- A port's state. -/
def State.port (s : State) (p : Nat) : Port := s.fabric.ports.getD p {}

/-- Replace a port. -/
def State.setPort (s : State) (p : Nat) (x : Port) : State :=
  { s with fabric := { s.fabric with ports := s.fabric.ports.set p x } }

/-- Is a strand in service, with its partition (R493, R512)? -/
def State.strandUp (s : State) (g : Nat) : Bool := g < 32 && !s.repair.strandsOut.contains g && !s.repair.partsOut.contains (g / 8)

/-- The arithmetic clock of a partition in MHz (R473). -/
def State.clockOf (s : State) (p : Nat) : Nat := s.power.f.getD p 2100

/-! ## Staging banks (R46, R264 to R270)

A partition has nine physical strands: 0 to 7, which bring-up puts at their own coordinates, and 8, the spare. -/

/-- Number of a bank: partition, physical strand, bank. -/
def bankId (part strand bank : Nat) : Nat := (part * 9 + strand) * 32 + bank

/-- The physical strand at a coordinate: the spare, where it has taken it (R46). -/
def State.physOf (s : State) (g : Nat) : Nat := if s.repair.spareFor.get (g / 8) = some (g % 8) then 8 else g % 8

/-- The coordinate of a physical strand: none for the idle spare, and none for the strand that it has replaced (R46). -/
def State.coordOf (s : State) (part phys : Nat) : Option Nat := match s.repair.spareFor.get part with
  | some n => if phys = 8 then some n else if phys = n then none else some phys
  | none => if phys < 8 then some phys else none

/-- The object that holds a physical strand's staging counters; the one without a coordinate has an object that no access reaches
(R277). -/
def State.stagingIndex (s : State) (part phys : Nat) : Nat := match s.coordOf part phys with
  | some n => 0x2820 + 8 * part + n
  | none => 0x2F00 + part

/-- The region of a bank: its first bank and how many it has (R264). -/
def regionOf (bank : Nat) : Nat × Nat :=
  if bank < 16 then (bank / 2 * 2, 2) else if bank < 20 then (16, 4) else if bank < 28 then (20, 8) else (bank, 1)

/-- The bank, and the word within it, of the n-th word of a region: consecutive words rotate through its banks (R264). -/
def regionWord (region : Nat × Nat) (n : Nat) : Nat × Nat := (region.1 + n % region.2, n / region.2)

/-- Owner of a bank after bring-up: 0 strand, 1 exchange engine, 2 DMA, 3 management (R264). -/
def bankOwner0 (bank : Nat) : Nat := if bank < 16 then 2 else if bank < 29 then 0 else if bank < 31 then 1 else 3

/-- The owner that a bank's register holds (R265, R270). -/
def State.writtenOwner (s : State) (id : Nat) : Nat := s.staging.owner.getD id 3

/-- The owner whose accesses a bank serves in this cycle: a handover takes effect in the cycle after it is written (R266). -/
def State.ownerOf (s : State) (id : Nat) : Nat := match s.staging.handed.get id with
  | some (old, t) => if s.time ≤ t then old else s.writtenOwner id
  | none => s.writtenOwner id

/-- Write a bank's owner; a change advances HANDOVER_SEQ (R266). -/
def State.giveBank (s : State) (id owner : Nat) : State :=
  if s.writtenOwner id = owner then s
  else { s with staging := { s.staging with
    owner := s.staging.owner.put id 3 owner, handed := s.staging.handed.set id (s.ownerOf id, s.time)
    seq := s.staging.seq.put id 0 ((s.staging.seq.getD id 0 + 1) % 256) } }

/-- Number of the first of the two banks of a tile's scan buffer, at a strand's coordinate (R264). -/
def State.bufferBank (s : State) (g tile buffer : Nat) : Nat := bankId (g / 8) (s.physOf g) (4 * tile + 2 * buffer)

/-- The scan buffer of a tile in which DMA has staged the next piece: one that DMA owns (R264). -/
def State.stagedBuffer (s : State) (g tile : Nat) : Option Nat :=
  [0, 1].find? fun k => s.writtenOwner (s.bufferBank g tile k) = 2 && s.writtenOwner (s.bufferBank g tile k + 1) = 2

/-- A scan buffer passes between DMA (2) and the strand (0), so far as the giver owns its banks (R264, R265). -/
def State.handBuffer (s : State) (g tile buffer owner : Nat) : State :=
  [0, 1].foldl (fun (s : State) k =>
    let id := s.bufferBank g tile buffer + k
    if s.writtenOwner id = 2 - owner then s.giveBank id owner else s) s

/-- The scan buffer that a batch holds goes back to DMA (R264). -/
def State.returnBuffer (s : State) (b : Batch) : State := match b.tile with
  | some t => s.handBuffer b.g t b.buffer 2
  | none => s

end Sys2Proof.Machine
end

