-- ==== Sys2Proof/Machine/CatalogOps.lean ====
section
/-! DEFINITION. What the catalog says at an epoch: namespaces, indices, isolation mode, grants, versions (R185 to R188, R233 to
R239), and which images and strands serve a version. -/
namespace Sys2Proof.Machine

/-- Does something created at one epoch and deleted at another exist at an epoch (R233, R235)? -/
def existsAt (created : Nat) (deleted : Option Nat) (e : Nat) : Bool :=
  decide (created ≤ e) && (match deleted with
    | none => true
    | some d => decide (e < d))

/-- The namespace at an epoch. -/
def State.nsAt (s : State) (ns e : Nat) : Option Namespace :=
  s.catalog.namespaces.find? fun n => n.ns = ns && existsAt n.created n.deleted e

/-- The index at an epoch, its namespace existing too. -/
def State.idxAt (s : State) (ns idx e : Nat) : Option IndexRec :=
  if (s.nsAt ns e).isSome then s.catalog.indices.find? fun i => i.ns = ns && i.idx = idx && existsAt i.created i.deleted e
  else none

/-- The isolation mode in force at an epoch (R185). -/
def State.modeAt (s : State) (e : Nat) : Nat :=
  match s.catalog.isolation.find? fun m => decide (m.2 ≤ e) with
  | some m => m.1
  | none => 0

/-- The tenant test of R187 at an epoch: the forced group mask it passes under (0 for the owner), or none. -/
def State.tenantTest (s : State) (tenant ns e : Nat) : Option Nat :=
  if tenant = 0 ∨ tenant = 0xFFFF then none
  else match s.nsAt ns e with
    | none => none
    | some n =>
      if n.owner = tenant then some 0
      else if s.modeAt e = 1 then
        (s.catalog.grants.find? fun g => g.ns = ns && g.grantee = tenant && existsAt g.from_ g.until_ e).map (·.groups)
      else none

/-- Is a version served at a snapshot epoch (R237, R239)? -/
def Version.servedAt (v : Version) (e : Nat) : Bool := v.switchEpoch ≠ 0 && existsAt v.switchEpoch v.endEpoch e

/-- The version a query searches: the one it names, or the one in force at its snapshot (R14, R237). -/
def State.versionAt (s : State) (ns idx named e : Nat) : Option Version :=
  s.catalog.versions.find? fun v => v.ns = ns && v.idx = idx && v.servedAt e && (named = 0 || v.ver = named)

/-- A version by its number. -/
def State.versionOf (s : State) (ns idx ver : Nat) : Option Version :=
  s.catalog.versions.find? fun v => v.ns = ns && v.idx = idx && v.ver = ver

/-- Change a version. -/
def State.updVersion (s : State) (ns idx ver : Nat) (f : Version → Version) : State :=
  { s with catalog := { s.catalog with
    versions := replaceFirst (fun v => v.ns = ns && v.idx = idx && v.ver = ver) f s.catalog.versions } }

/-- The resident image of a digest, with its slot (R73). -/
def State.imageByDigest (s : State) (digest : List Byte) : Option (Nat × Image) := s.images.find? fun kv => kv.2.digest = digest

/-- Is a partition out of service for an installation or removal (R74), or for a reset or for good (R493, R499)? -/
def State.partUp (s : State) (p : Nat) : Bool := !s.repair.partsOut.contains p && !(s.installs.any fun i => i.part = p && !i.waiting)

/-- Does a strand take new work: in service, its partition too, and no drain running on it (R493)? -/
def State.takesWork (s : State) (g : Nat) : Bool :=
  s.strandUp g && s.partUp (g / 8) &&
    !(s.repair.jobs.any fun j => j.draining && !j.waiting && (j.scope = 4 || j.part = g / 8 && (j.scope = 3 || j.scope = 2 && j.strand = g % 8)))

/-- The model stages are shed (R56, R179): shedding step 1 or later. -/
def State.modelShed (s : State) : Bool := s.power.step ≥ 1

/-- The latest epoch that counts as closed: one whose closure is recorded in this very cycle does not yet (R16). -/
def State.usableClosed (s : State) : Nat := if s.time > s.epochs.closedAt then s.epochs.closed else s.epochs.prevClosed

end Sys2Proof.Machine
end

