-- ==== Sys2Proof/Machine/Crypto.lean ====
section
/-! DEFINITION. The two cryptographic functions the spec names: SHAKE256 (R71, R166, R240, R242, R354, R464 and others; FIPS 202)
and Ed448 signatures (R69, R243, R455, R464; pure Ed448 under RFC 8032 with the context strings of R455). Every loop recurses on a count. -/
namespace Sys2Proof.Machine

/-- Rotate a 64-bit lane left. -/
def rotl64 (v n : Nat) : Nat :=
  let k := n % 64
  ((v <<< k) ||| (v >>> (64 - k))) % 2 ^ 64

/-- Walk of rho: from lane (1, 0) the lane (x, y) goes on to (y, 2x + 3y), and the t-th lane met turns by the t-th triangular number. -/
def rhoWalk : Nat → Nat → Nat → Nat → List (Nat × Nat)
  | 0, _, _, _ => []
  | n + 1, t, x, y => (x + 5 * y, (t * (t + 1) / 2) % 64) :: rhoWalk n (t + 1) y ((2 * x + 3 * y) % 5)

/-- The turn of each lane x + 5y; lane (0, 0) stays. -/
def rhoTurns : List Nat := (rhoWalk 24 1 1 0).foldl (fun l p => l.set p.1 p.2) (List.replicate 25 0)

/-- The shift register of iota, by x^8 + x^6 + x^5 + x^4 + 1. -/
def iotaShift (r : Nat) : Nat := if (r * 2).testBit 8 then (r * 2) ^^^ 0x171 else r * 2

/-- The constant of one round from the register's state: its seven output bits stand at places 2^j - 1. -/
def iotaWord : Nat → Nat → Nat → Nat
  | 0, _, _ => 0
  | n + 1, r, place => (if r.testBit 0 then 2 ^ (place - 1) else 0) + iotaWord n (iotaShift r) (2 * place)

/-- The constants of `n` rounds. -/
def iotaWords : Nat → Nat → List Nat
  | 0, _ => []
  | n + 1, r => iotaWord 7 r 1 :: iotaWords n ((List.range 7).foldl (fun x _ => iotaShift x) r)

/-- The parity of column `x` of a state of 25 lanes. -/
def columnParity (a : List Nat) (x : Nat) : Nat := ((List.range 5).map fun y => a.getD (x + 5 * y) 0).foldl (· ^^^ ·) 0

/-- theta, rho and pi: the lane that stands at (x, y) afterwards, which came from (x + 3y, x). -/
def movedLane (a : List Nat) (x y : Nat) : Nat :=
  let u := (x + 3 * y) % 5
  let from5 := u + 5 * x
  rotl64 (a.getD from5 0 ^^^ columnParity a ((u + 4) % 5) ^^^ rotl64 (columnParity a ((u + 1) % 5)) 1) (rhoTurns.getD from5 0)

/-- One round of the permutation: theta, rho and pi, then chi along each row and iota on lane (0, 0). -/
def keccakRound (a : List Nat) (rc : Nat) : List Nat :=
  let rows := (List.range 5).map fun y => (List.range 5).map fun x => movedLane a x y
  let mixed := rows.flatMap fun r => (List.range 5).map fun x =>
    r.getD x 0 ^^^ (r.getD ((x + 2) % 5) 0 &&& (r.getD ((x + 1) % 5) 0 ^^^ (2 ^ 64 - 1)))
  mixed.modifyHead (· ^^^ rc)

/-- The permutation of 24 rounds. -/
def keccakF (a : List Nat) : List Nat := (iotaWords 24 1).foldl keccakRound a

/-- Absorb one 136-byte block. -/
def shakeAbsorb (a : List Nat) (blk : List Byte) : List Nat :=
  keccakF ((List.range 25).map fun i => a.getD ((i % 5) + 5 * (i / 5)) 0 ^^^ field blk (8 * i) 8)

/-- Pad a message to whole 136-byte blocks (domain bits 1111, pad10*1). -/
def shakePad (m : List Byte) : List Byte :=
  let z := 136 - m.length % 136
  if z = 1 then m ++ [0x9F] else m ++ [0x1F] ++ List.replicate (z - 2) 0 ++ [0x80]

/-- Squeeze `n` blocks. -/
def shakeSqueeze : Nat → List Nat → List Byte
  | 0, _ => []
  | n + 1, a => (a.take 17).flatMap (leBytes 8) ++ shakeSqueeze n (keccakF a)

/-- SHAKE256 with an output of `n` bytes. -/
def shake256 (m : List Byte) (n : Nat) : List Byte :=
  let st := (chunks 136 (shakePad m)).foldl shakeAbsorb (List.replicate 25 0)
  (shakeSqueeze (n / 136 + 1) st).take n

/-- A 64-byte digest (R71). -/
def digest64 (m : List Byte) : List Byte := shake256 m 64

/-- The field prime of Ed448, 2^448 - 2^224 - 1. -/
def edP : Nat := 2 ^ 448 - 2 ^ 224 - 1
/-- The group order of Ed448. -/
def edL : Nat := 2 ^ 446 - 0x8335DC163BB124B65129C96FDE933D8D723A70AADC873D6D54A7BB0D
/-- The curve constant d = -39081. -/
def edD : Nat := edP - 39081

/-- Modular power, one exponent bit a step. -/
def modPowFuel : Nat → Nat → Nat → Nat → Nat → Nat
  | 0, _, _, acc, _ => acc
  | k + 1, b, e, acc, m =>
    modPowFuel k (b * b % m) (e / 2) (if e % 2 = 1 then acc * b % m else acc) m

/-- Modular power with exponents below 2^450. -/
def modPow (b e m : Nat) : Nat := modPowFuel 450 (b % m) e 1 m

/-- A projective point of Ed448. -/
structure EdPoint where
  x : Nat
  y : Nat
  z : Nat
  deriving DecidableEq, Repr

/-- Difference modulo the field prime. -/
def edSub (a b : Nat) : Nat := (a + edP - b % edP) % edP

/-- Point addition (RFC 8032, 5.2.4). -/
def edAdd (p q : EdPoint) : EdPoint :=
  let a := p.z * q.z % edP
  let b := a * a % edP
  let c := p.x * q.x % edP
  let d := p.y * q.y % edP
  let e := edD * (c * d % edP) % edP
  let f := edSub b e
  let g := (b + e) % edP
  let h := (p.x + p.y) * (q.x + q.y) % edP
  ⟨a * f % edP * edSub (edSub h c) d % edP, a * g % edP * edSub d c % edP, f * g % edP⟩

/-- Scalar multiple, one bit a step. -/
def edMulFuel : Nat → Nat → EdPoint → EdPoint → EdPoint
  | 0, _, _, acc => acc
  | k + 1, n, p, acc => edMulFuel k (n / 2) (edAdd p p) (if n % 2 = 1 then edAdd acc p else acc)

/-- Scalar multiple with scalars below 2^448. -/
def edMul (n : Nat) (p : EdPoint) : EdPoint := edMulFuel 448 n p ⟨0, 1, 1⟩

/-- The base point (RFC 8032, 5.2). -/
def edBase : EdPoint :=
  ⟨224580040295924300187604334099896036246789641632564134246125461686950415467406032909029192869357953282578032075146446173674602635247710,
   298819210078481492676017930443930673437544040154080242095928241372331506189835876003536878655418784733982303233503462500531545062832660, 1⟩

/-- Inverse modulo the field prime. -/
def edInv (a : Nat) : Nat := modPow a (edP - 2) edP

/-- Encode a point in 57 bytes. -/
def edEncode (p : EdPoint) : List Byte :=
  let zi := edInv p.z
  let x := p.x * zi % edP
  let y := p.y * zi % edP
  leBytes 56 y ++ [if x % 2 = 1 then 0x80 else 0]

/-- Decode 57 bytes to a point, if they encode one. -/
def edDecode (bs : List Byte) : Option EdPoint :=
  let v := leNat bs
  let y := v % 2 ^ 455
  let sign := v / 2 ^ 455 % 2
  if bs.length ≠ 57 ∨ y ≥ edP then none
  else
    let u := edSub (y * y) 1
    let w := edSub (edD * (y * y % edP) % edP) 1
    let x := u * u % edP * u % edP * w % edP *
      modPow (u * u % edP * u % edP * (u * u % edP) % edP * (w * w % edP * w % edP) % edP) ((edP - 3) / 4) edP % edP
    if w * (x * x % edP) % edP ≠ u % edP then none
    else if x = 0 ∧ sign = 1 then none
    else some ⟨if x % 2 = sign then x else edP - x, y, 1⟩

/-- The prefix of every pure Ed448 hash: "SigEd448", 0, the context's length and the context. -/
def edDom (ctx : List Byte) : List Byte := ascii "SigEd448" ++ [0, BitVec.ofNat 8 ctx.length] ++ ctx

/-- The secret scalar and prefix of a 57-byte private key. -/
def edExpand (sk : List Byte) : Nat × List Byte :=
  let h := shake256 sk 114
  let a := leNat (h.take 56)
  (a / 4 * 4 % 2 ^ 447 + 2 ^ 447, h.drop 57)

/-- The public key of a private key. -/
def edPublic (sk : List Byte) : List Byte := edEncode (edMul (edExpand sk).1 edBase)

/-- The 114-byte Ed448 signature of a message. -/
def edSign (ctx sk m : List Byte) : List Byte :=
  let e := edExpand sk
  let pk := edEncode (edMul e.1 edBase)
  let r := leNat (shake256 (edDom ctx ++ e.2 ++ m) 114) % edL
  let rb := edEncode (edMul r edBase)
  let k := leNat (shake256 (edDom ctx ++ rb ++ pk ++ m) 114) % edL
  rb ++ leBytes 57 ((r + k * e.1) % edL)

/-- Does a 114-byte signature verify? -/
def edVerify (ctx pk m sig : List Byte) : Bool :=
  let s := leNat (sig.drop 57)
  match edDecode pk, edDecode (sig.take 57) with
  | some a, some r =>
    if sig.length = 114 ∧ s < edL then
      let k := leNat (shake256 (edDom ctx ++ sig.take 57 ++ pk ++ m) 114) % edL
      let l := edMul 4 (edMul s edBase)
      let q := edMul 4 (edAdd r (edMul k a))
      decide (l.x * q.z % edP = q.x * l.z % edP) && decide (l.y * q.z % edP = q.y * l.z % edP)
    else false
  | _, _ => false

end Sys2Proof.Machine
end

