-- ==== Sys2Proof/Machine/FlashOps.lean ====
section
/-! DEFINITION. The flash translation layer's shared operations (R279 to R307): channels and parity, map entries, opening superblocks,
assigning units, programming pages, freeing superblocks, the throttle. -/
namespace Sys2Proof.Machine

/-! ## Places (R281, R283, R286) -/

/-- Superblocks of a row. -/
abbrev rowSbs : Nat := 8064

/-- A row. -/
def State.row (s : State) (r : Nat) : FlashRow := s.flash.rows.getD r {}

/-- Change a row. -/
def State.updRow (s : State) (r : Nat) (f : FlashRow → FlashRow) : State :=
  { s with flash := { s.flash with rows := s.flash.rows.set r (f (s.row r)) } }

/-- A superblock's record in its row. -/
def State.sb (s : State) (r n : Nat) : Superblock := (s.row r).sbs.getD n {}

/-- Change a superblock. -/
def State.updSb (s : State) (r n : Nat) (f : Superblock → Superblock) : State :=
  s.updRow r fun w => { w with sbs := w.sbs.set n (f (w.sbs.getD n {})) }

/-- Channels of a mask, ascending. -/
def maskChannels (mask : Nat) : List Nat := (List.range 32).filter fun c => bit mask c

/-- Parity channel of wain `p` (R286). -/
def parityChan (mask sb p : Nat) : Nat :=
  let cs := maskChannels mask
  cs.getD ((sb + p) % max 1 cs.length) 0

/-- Data channels of wain `p`, ascending (R286). -/
def dataChans (mask sb p : Nat) : List Nat := (maskChannels mask).filter fun c => c ≠ parityChan mask sb p

/-- Slots of a wain: four for each data page. -/
def wainSlots (mask : Nat) : Nat := 4 * ((maskChannels mask).length - 1)

/-- Key of a page. -/
def pageKey (row sb page chan : Nat) : Nat := ((row * rowSbs + sb) * 2048 + page) * 32 + chan

/-- A map entry (R283). -/
def mapEntry (sb page slot : Nat) : Nat := slot + 128 * page + 2 ^ 18 * sb + 2 ^ 31

/-- Where an entry of a unit lies: page key and unit in the page (R286). -/
def State.locate (s : State) (lba entry : Nat) : Nat × Nat :=
  let row := lba % 16
  let sb := bits entry 30 18
  let p := bits entry 17 7
  let slot := bits entry 6 0
  (pageKey row sb p ((dataChans (s.sb row sb).chMask sb p).getD (slot / 4) 0), slot % 4)

/-- Row, superblock, page and channel of a page key. -/
def keyParts (k : Nat) : Nat × Nat × Nat × Nat := (k / 32 / 2048 / rowSbs, k / 32 / 2048 % rowSbs, k / 32 % 2048, k % 32)

/-! ## Journal and sequence (R291, R293) -/

/-- The next number of FTL_SEQ. -/
def State.nextSeq (s : State) : State × Nat :=
  ({ s with flash := { s.flash with seq := s.flash.seq + 1 } }, s.flash.seq)

/-- Record a journal record; it answers with its SEQ. -/
def State.journal (s : State) (ty row sb argA argB argC : Nat) : State × Nat :=
  let (s, n) := s.nextSeq
  let f := s.flash
  ({ s with flash := { f with jPending := f.jPending ++ [⟨ty, row, sb, argA, n, argB, argC, s.time⟩] } }, n)

/-! ## Rows (R281, R284, R302, R303) -/

/-- Channels whose die of a row lives. -/
def State.liveMask (s : State) (r : Nat) : Nat := ((List.range 32).filter fun c => !(s.row r).retired.contains c).foldl (fun m c => m + 2 ^ c) 0

/-- Erased superblocks of a row ready to open (R311). -/
def State.freeSbs (s : State) (r : Nat) : Nat := 8032 - ((s.row r).sbs.filter fun kv => kv.2.state ≠ 0).length

/-- Units of a row that the map holds (R284). -/
def State.rowMapped (s : State) (r : Nat) : Nat := (s.flash.map.filter fun kv => kv.1 % 16 = r).length

/-- Units of data capacity of a superblock with a mask. -/
def sbUnits (mask : Nat) : Nat := 2048 * 4 * ((maskChannels mask).length - 1)

/-- The mask with which a superblock opens: the row's live dies, but for the channels that it has dropped (R305, R306). -/
def State.openMask (s : State) (r : Nat) (b : Superblock) : Nat :=
  ((maskChannels (s.liveMask r)).filter fun c => !b.blocks.contains (c, 0xFFFF)).foldl (fun m c => m + 2 ^ c) 0

/-- MAPPABLE_r (R284). -/
def State.rowMappable (s : State) (r : Nat) : Nat :=
  let listed := (s.row r).sbs.map fun kv => sbUnits (if kv.2.state = 1 || kv.2.state = 2 then kv.2.chMask else s.openMask r kv.2)
  1610612736 * (listed.sum + (8032 - listed.length) * sbUnits (s.liveMask r)) / 2039742464

/-- Program slots in 32 that new writes get at a free count (R303). -/
def newSlots (fgFree f : Nat) : Nat := if f ≤ 16 then 0 else if f ≥ fgFree then 32 else min 32 (32 * (f - 16) / (fgFree - 16))

/-- THROTTLE follows the rows' free counts; falling below 32 counts FG_ENTRIES (R303). -/
def State.setThrottle (s : State) : State :=
  let n := ((List.range 16).map fun r => newSlots (s.setting 0x2900 2 48) (s.freeSbs r)).foldl min 32
  let old := s.flash.throttle
  let s := { s with flash := { s.flash with throttle := n } }
  if old = 32 && n < 32 then (s.tally 0x2910 8).causeAll 3 else s

/-- Width below 9 in a row, or more units mapped than mappable, makes the module read-only for good (R307). -/
def State.checkReadOnly (s : State) : State :=
  let bad := (List.range 16).any fun r => (s.row r).retired.length > 23 || s.rowMapped r > s.rowMappable r
  if !bad || s.flash.readOnly then s
  else ({ s with flash := { s.flash with readOnly := true } } : State).logState 0x2900 0xC unitModule 0 1 |>.causeAll 2

/-! ## Opening superblocks (R294, R304) -/

/-- Is a record of a type for a superblock still pending? -/
def State.jWaits (s : State) (ty r n : Nat) : Bool := s.flash.jPending.any fun j => j.ty = ty && j.row = r && j.sb = n

/-- The superblock to open next: free, its SB_ERASED durable; lowest erase count, then lowest number (R294, R304). -/
def State.nextFree (s : State) (r : Nat) : Option Nat :=
  let listed := (s.row r).sbs
  let fresh := ((List.range 8032).map (· + 32)).find? fun n => (listed.get n).isNone
  let used := (listed.filter fun kv => kv.2.state = 0 && !s.jWaits 5 r kv.1).map fun kv => (kv.2.erases, kv.1)
  let all := used ++ (match fresh with
    | some n => [(0, n)]
    | none => [])
  (firstBy (fun a b => decide (a.1 < b.1) || (a.1 == b.1 && decide (a.2 < b.2))) all).map (·.2)

/-- The open superblock of a stream in a row, opened where there is none (R293, R306). -/
def State.openSb (s : State) (r stream : Nat) : State × Option Nat :=
  match (s.row r).open_.get stream with
  | some n => (s, some n)
  | none =>
    match s.nextFree r with
    | none => (s, none)
    | some n =>
      let mask := s.openMask r (s.sb r n)
      let (s, seq) := s.journal 2 r n mask stream 0
      let s := s.updSb r n fun b => { b with state := 1, chMask := mask, stream, openSeq := seq, page := 0, slot := 0, refresh := false }
      let s := s.updRow r fun w => { w with open_ := w.open_.set stream n }
      let s := { s with flash := { s.flash with ckpt := { s.flash.ckpt with opened := s.flash.ckpt.opened + 1 } } }
      (s.setThrottle, some n)

/-! ## Buffers (R300, R301) -/

/-- Buffers of the shared part that no channel holds. -/
def State.sharedFree (s : State) : Nat := 47104 - (s.flash.chans.map fun kv => kv.2.sharedBufs).sum

/-- A page takes its 4 buffers: from its channel's write part, then from the shared part within POOL_SHARED_CAP; else it waits. -/
def State.takeBuffers (s : State) (k : Nat) : State :=
  let c := k % 32
  let ch := s.flash.chans.getD c {}
  let set (s : State) (ch : FlashChan) (shared buffered : Bool) : State := { s with flash := { s.flash with
    chans := s.flash.chans.set c ch, pages := s.flash.pages.alter k fun p => { p with shared, buffered } } }
  if ch.writeWait.isEmpty && ch.writeBufs + 4 ≤ 256 then set s { ch with writeBufs := ch.writeBufs + 4 } false true
  else if ch.writeWait.isEmpty && s.sharedFree ≥ 4 && (ch.sharedBufs + 4) * 100 ≤ 47104 * s.setting 0x2900 7 25 then
    set s { ch with sharedBufs := ch.sharedBufs + 4 } true true
  else (set s { ch with writeWait := ch.writeWait ++ [k] } false false).tally 0x2910 0x10

/-- A page's buffers are free again. -/
def State.freeBuffers (s : State) (k : Nat) (p : FlashPage) : State :=
  let c := k % 32
  let f (ch : FlashChan) : FlashChan :=
    if !p.buffered then ch else if p.shared then { ch with sharedBufs := ch.sharedBufs - 4 } else { ch with writeBufs := ch.writeBufs - 4 }
  { s with flash := { s.flash with chans := s.flash.chans.alter c f, pages := s.flash.pages.alter k fun p => { p with buffered := false } } }

/-! ## Programming (R280, R287, R288) -/

/-- Program slots in 32 that a row gives to new writes now (R303). -/
def State.rowSlots (s : State) (r : Nat) : Nat := newSlots (s.setting 0x2900 2 48) (s.freeSbs r)

/-- Cycles in which each die has one program slot, so that a row of full width has 32 (R280, R303). -/
abbrev programCycles : Nat := 400 * cyclesPerUs

/-- Earliest start of a new write's program in a row: of the row's program slots it takes no more than its share (R303). -/
def State.newStart (s : State) (r earliest : Nat) : Nat :=
  let n := s.rowSlots r
  match if n = 0 || n ≥ 32 then none else (s.row r).newStarts[n - 1]? with
  | some c => max earliest (c + programCycles)
  | none => earliest

/-- Issue a page's program: its sequence number, and a start at least 400 µs after the die's last (R280); a package above its throttle
point has half the program slots (R482), and new writes have the row's share of them (R303). The command wakes its channel controller
(R475). -/
def State.issueProgram (s : State) (k : Nat) : State :=
  let (row, _, _, chan) := keyParts k
  let die := chan * 16 + row
  let (s, seq) := s.nextSeq
  let free := match s.flash.lastProg.get die with
    | some c => max s.time (c + (if s.power.throttled.contains (0x29 + chan) then 2 else 1) * programCycles)
    | none => s.time
  let p := s.flash.pages.getD k { units := [] }
  let new : Bool := p.stream = 0 && !p.parity
  let at_ := if new then s.newStart row free else free
  let s := if new then s.updRow row fun w => { w with newStarts := (insertBy (fun a b => decide (a > b)) at_ w.newStarts).take 32 } else s
  let s := (s.wake .onfi chan (if p.stream = 1 then 4 else 2)).spendCycles (0x2920 + chan) 3
  { s with flash := { s.flash with
    lastProg := s.flash.lastProg.set die at_
    pages := s.flash.pages.alter k fun p => { p with state := 1, progSeq := seq, startAt := at_ } } }

/-- A page that has what it needs starts its program: its buffers and all its units, the record of its superblock's opening durable, and a
share of the program slots for a new write (R287, R294, R303). -/
def State.tryProgram (s : State) (k : Nat) : State := match s.flash.pages.get k with
  | some p =>
    let (r, n, _, _) := keyParts k
    if p.state = 0 && p.buffered && !p.parity && p.units.length ≥ 4 && !s.jWaits 2 r n && !(p.stream = 0 && s.rowSlots r = 0) then
      s.issueProgram k
    else s
  | none => s

/-- The parity of a wain: the XOR of its data pages, unit by unit (R287). -/
def parityUnits (ps : List FlashPage) : List FlashUnit :=
  (List.range 4).map fun i =>
    let data := ps.foldl (fun acc p => match p.units[i]? with
      | some u => xorBytes (slice acc 0 4096) (slice u.data 0 4096)
      | none => acc) []
    { lba := 0, seq := 0, data }

/-- A full wain's parity page takes its place, to be programmed last. -/
def State.addParity (s : State) (row sb page : Nat) : State :=
  let mask := (s.sb row sb).chMask
  let ps := (dataChans mask sb page).filterMap fun c => s.flash.pages.get (pageKey row sb page c)
  let k := pageKey row sb page (parityChan mask sb page)
  { s with flash := { s.flash with pages := s.flash.pages.set k { units := parityUnits ps, stream := (s.sb row sb).stream, parity := true } } }

/-! ## Freeing superblocks (R294, R302) -/

/-- Valid units of a superblock. -/
def State.validUnits (s : State) (r n : Nat) : Nat :=
  (s.flash.map.filter fun kv => kv.1 % 16 = r && bits kv.2 30 18 = n).length

/-- Have the GC copies made from a superblock been programmed (R294)? -/
def State.copiesDone (s : State) (r n : Nat) : Bool :=
  !(s.flash.pages.any fun kp => kp.2.state < 2 && kp.1 / 32 / 2048 / rowSbs = r && kp.2.units.any fun u => u.gc && bits u.src 30 18 = n)

/-- A closed superblock with no valid unit, its copies programmed, is recorded SB_FREE and waits for its erase (R294, R302). -/
def State.tryFree (s : State) (r n : Nat) : State :=
  if (s.sb r n).state ≠ 2 || s.validUnits r n ≠ 0 || !s.copiesDone r n then s
  else
    let (s, _) := s.journal 4 r n 0 0 0
    s.updSb r n fun b => { b with state := 3 }

/-- Every closed superblock of a row is looked at. -/
def State.freeRow (s : State) (r : Nat) : State := ((s.row r).sbs.map (·.1)).foldl (fun s n => s.tryFree r n) s

/-! ## Assigning units (R290 to R292) -/

/-- Highest sequence applied to the segment of a unit (R295). -/
def State.noteSeg (s : State) (lba seq : Nat) : State :=
  { s with flash := { s.flash with segSeqs := s.flash.segSeqs.set (lba / 1024) (max seq (s.flash.segSeqs.getD (lba / 1024) 0)) } }

/-- The slot after one in the open superblock of a stream; the last one of the last wain closes it with SB_CLOSE (R293). -/
def State.stepSlot (s : State) (r n stream : Nat) : State :=
  let b := s.sb r n
  if b.slot + 1 < wainSlots b.chMask then s.updSb r n fun b => { b with slot := b.slot + 1 }
  else
    let s := s.addParity r n b.page
    if b.page + 1 < 2048 then s.updSb r n fun b => { b with page := b.page + 1, slot := 0 }
    else
      let (s, _) := s.journal 3 r n 2048 0 0
      let s := s.updSb r n fun b => { b with state := 2, page := 2048, slot := 0 }
      s.updRow r fun w => { w with open_ := w.open_.erase stream }

/-- Assign one unit to the next free slot of a stream in its row; the map takes it in the cycle of its sequence, a GC copy only while the
map still names its source (R292). Nothing is assigned while the row has no superblock to open. -/
def State.assignUnit (s : State) (stream lba : Nat) (data : List Byte) (src : Option Nat) : State :=
  let r := lba % 16
  match s.openSb r stream with
  | (s, none) => s
  | (s, some n) =>
    let b := s.sb r n
    let (s, seq) := s.nextSeq
    let entry := mapEntry n b.page b.slot
    let k := pageKey r n b.page ((dataChans b.chMask n b.page).getD (b.slot / 4) 0)
    let u : FlashUnit := { lba, seq, data, gc := src.isSome, src := src.getD 0 }
    let fresh := (s.flash.pages.get k).isNone
    let p := s.flash.pages.getD k { units := [], stream }
    let s := { s with flash := { s.flash with pages := s.flash.pages.set k { p with units := p.units ++ [u] } } }
    let s := if fresh then s.takeBuffers k else s
    let live : Bool := match src with
      | some e => s.flash.map.getD lba 0 = e
      | none => true
    let old := s.flash.map.getD lba 0
    let s := if live then ({ s with flash := { s.flash with map := s.flash.map.set lba entry } } : State).noteSeg lba seq else s.tally 0x2910 7
    let s := (s.tryProgram k).stepSlot r n stream
    if live && old ≠ 0 then s.tryFree r (bits old 30 18) else s

/-! ## Units of the module's objects (R282) -/

/-- First logical unit beyond the ranges reserved for the commit log and the placement journal; their size is the model's own (log 45). -/
abbrev firstUnit : Nat := 2 ^ 27

/-- Allocate the next logical unit whose row has room (R282, R284). -/
def State.allocUnit (s : State) : State × Option Nat :=
  match (List.range 16).find? fun i => s.rowMapped ((s.flash.nextUnit + i) % 16) < s.rowMappable ((s.flash.nextUnit + i) % 16) with
  | some i => ({ s with flash := { s.flash with nextUnit := s.flash.nextUnit + i + 1 } }, some (firstUnit + s.flash.nextUnit + i))
  | none => (s, none)

/-- Store an object's bytes on flash, 4,096 to a unit; it answers with the units (R219, R282). -/
def State.storeBytes (s : State) (b : List Byte) : State × List Nat :=
  (chunks 4096 b).foldl (fun (a : State × List Nat) c => match a.1.allocUnit with
    | (s, some l) => (s.assignUnit 0 l (slice c 0 4096) none, a.2 ++ [l])
    | (s, none) => (s, a.2)) (s, [])

/-- Bytes go to the receipt log through its write buffer, whole units to flash (R243). -/
def State.receiptWrite (s : State) (b : List Byte) : State :=
  let all := s.receipts.buffer ++ b
  let n := all.length / 4096 * 4096
  let (s, us) := s.storeBytes (all.take n)
  { s with receipts := { s.receipts with buffer := all.drop n, units := s.receipts.units ++ us } }

/-- A page of the commit log: four units of one row in the log's own range (R220, R282; log 45). -/
def State.storeLog (s : State) (b : List Byte) : State :=
  let n := s.flash.nextLog
  let s := { s with flash := { s.flash with nextLog := n + 1 } }
  (List.range 4).foldl (fun s j => s.assignUnit 2 ((n % 16 + 16 * (4 * (n / 16) + j)) % firstUnit) (slice (b.drop (4096 * j)) 0 4096) none) s

/-- A discard of a range of at most 1,048,576 units: the entries go, the record is journalled, and the owner waits for it (R285, R292). -/
def State.discardRange (s : State) (first count owner : Nat) : State :=
  let (s, seq) := s.journal 1 0 0 count first 0
  let gone (l : Nat) : Bool := first ≤ l && l < first + count
  let hit := (s.flash.map.filter fun kv => gone kv.1).map (·.1)
  let s := hit.foldl (fun s l => s.noteSeg l seq) s
  let s := { s with flash := { s.flash with map := s.flash.map.keep (fun l _ => !gone l), discards := s.flash.discards ++ [(seq, owner)] } }
  ((hit.map (· % 16)).eraseDups).foldl (fun s r => s.freeRow r) s

/-- A discard: a longer one is issued as several records, and its owner waits for the last of them (R285). -/
def State.discard (s : State) (first count owner : Nat) : State :=
  let n := ceilDiv count 1048576
  (List.range n).foldl (fun (s : State) i =>
    let at_ := 1048576 * i
    s.discardRange (first + at_) (min 1048576 (count - at_)) (if i + 1 = n then owner else 0)) s

/-- Units of freed objects are discarded, one record each (owner 0: the module itself). -/
def State.discardUnits (s : State) (ls : List Nat) : State := ls.foldl (fun s l => s.discard l 1 0) s

end Sys2Proof.Machine
end

