-- ==== Sys2Proof/Machine/HostOps.lean ====
section
/-! DEFINITION. What the host interface does for every other part: DMA through the windows (R384 to R387), ring faults (R390),
completions and their interrupts (R391, R396, R399, R404, R406). -/
namespace Sys2Proof.Machine

/-- Does a range lie wholly inside one window that allows the access (R385)? At the basic level the arena is the only window
(R405). An empty range names no byte. -/
def dmaInside (f : FnState) (write : Bool) (addr len : Nat) : Bool :=
  if len = 0 then true
  else if f.expert then
    f.windows.any fun w => w.2.valid && (if write then w.2.write else w.2.read) && decide (w.2.base ≤ addr) &&
      decide (addr + len - 1 ≤ w.2.last)
  else decide (f.basic.arenaBase ≤ addr) && decide (addr + len ≤ f.basic.arenaBase + f.basic.arenaSize)

/-- A function with the windows that a request issued now meets: a window write holds from the next cycle on (R385). -/
def State.fnNow (s : State) (fn : Nat) : FnState :=
  let f := s.fnState fn
  match f.winOld with
  | some (c, w) => if c = s.time then { f with windows := w } else f
  | none => f

/-- Set a bit of IRQ_STATUS; one that goes from 0 to 1 while IRQ_EN is set sends one message on vector 0 (R407). -/
def State.basicIrq (s : State) (fn b : Nat) : State :=
  let f := s.fnState fn
  if bit f.basic.irqStatus b then s
  else
    let s := s.setFn fn { f with basic := { f.basic with irqStatus := setBit f.basic.irqStatus b true } }
    if f.basic.irqEn then s.msix fn 0 else s

/-- STATUS.ERROR of a basic-level function is set (R405). -/
def State.basicError (s : State) (fn : Nat) : State :=
  let f := s.fnState fn
  (s.setFn fn { f with basic := { f.basic with error := true } }).basicIrq fn 2

/-- A fault of a basic-level function's query rings, or of its ingest ring, stops them; it is counted once (R390, R405, R409). -/
def State.basicStop (s : State) (fn : Nat) (ingest : Bool) : State :=
  let b := (s.fnState fn).basic
  let s := s.updFn fn fun f => { f with basic := { f.basic with stoppedQ := f.basic.stoppedQ || !ingest, stoppedI := f.basic.stoppedI || ingest } }
  if if ingest then b.stoppedI else b.stoppedQ then s else s.tally (0x2040 + fn) 6

/-- A request that fails the window check is not issued (R387). -/
def State.dmaRefuse (s : State) (fn addr : Nat) : State :=
  let f := s.fnState fn
  let s := (s.setFn fn { f with dmaFaultAddr := addr }).tally (0x2040 + fn) 7
  if f.enabled && !f.expert then s.basicError fn else s.cause fn 1

/-- Read host memory for a function: refused outside the windows (R387). -/
def State.dmaRead (s : State) (fn addr len : Nat) : State × Bool :=
  if dmaInside (s.fnNow fn) false addr len then (s.count (objKey (0x2040 + fn) 1) len, true)
  else (s.dmaRefuse fn addr, false)

/-- Write host memory for an enabled function: refused outside the windows (R387); a function that is not enabled takes no
DMA (R381). -/
def State.dmaWrite (s : State) (fn addr : Nat) (bytes : List Byte) : State × Bool :=
  let f := s.fnState fn
  if !f.enabled then (s, false)
  else if bytes.isEmpty then (s, true)
  else if dmaInside (s.fnNow fn) true addr bytes.length then
    ((s.emit (.dma fn addr bytes)).count (objKey (0x2040 + fn) 2) bytes.length, true)
  else (s.dmaRefuse fn addr, false)

/-- A ring pair of a function. -/
def State.pairOf (s : State) (fn pair : Nat) : RingPair := (s.fnState fn).pairs.getD pair {}

/-- Replace a ring pair. -/
def State.setPair (s : State) (fn pair : Nat) (p : RingPair) : State :=
  s.updFn fn fun f => { f with pairs := f.pairs.set pair p }

/-- RING_FAULT_ID and the cause bit of a ring fault; causes 1 to 4 make the pair FAULTED (R390). A basic-level function's query rings are
its pair 0, its ingest ring its pair 1, and a fault stops the one or the other (R405). -/
def State.ringFault (s : State) (fn pair cause : Nat) : State :=
  let f := s.fnState fn
  if f.enabled && !f.expert then (s.basicStop fn (pair = 1)).basicError fn
  else
    let s := s.setFn fn { f with faultPair := pair, faultCause := cause }
    let p := s.pairOf fn pair
    let s := if cause ≤ 4 ∧ p.state = 1 then (s.setPair fn pair { p with state := 2 }).tally (0x2040 + fn) 6 else s
    s.cause fn 0

/-- After a completion: the message of R404, at once for an urgent query. -/
def State.signal (s : State) (fn pair : Nat) (urgent : Bool) : State :=
  let p := s.pairOf fn pair
  if urgent || p.coalUs = 0 || p.unsignalled ≥ p.coalCount then
    (s.setPair fn pair { p with unsignalled := 0 }).msix fn p.vector
  else s

/-- Write a completion entry: SQ index, CTYPE, OUTPUT_LOST, the bytes from offset 3 (R391). -/
def State.completeRaw (s : State) (fn pair sqIndex ctype : Nat) (lost urgent : Bool) (rest : List Byte) : State :=
  let f := s.fnState fn
  let p := s.pairOf fn pair
  if !f.enabled || p.state = 0 then s
  else
    let info := (if p.phase then 1 else 0) + ctype * 2 + (if lost then 16 else 0)
    let entry := leBytes 2 sqIndex ++ leBytes 1 info ++ slice rest 0 61
    let (s, ok) := s.dmaWrite fn (p.cqBase + 64 * p.cqTail) entry
    if !ok then (s.setPair fn pair { p with reserved := p.reserved - 1 }).ringFault fn pair 3
    else
      let tail := p.cqTail + 1
      let p := { p with
        cqTail := if tail ≥ p.cqSize then 0 else tail, phase := if tail ≥ p.cqSize then !p.phase else p.phase
        reserved := p.reserved - 1, unconsumed := p.unconsumed + 1, unsignalled := p.unsignalled + 1
        oldestAt := if p.unsignalled = 0 then s.time else p.oldestAt }
      (s.setPair fn pair p).signal fn pair urgent

/-- The body of an administration completion from offset 3: ADMIN_STATUS, CMD_TAG, OUT_BYTES, RESULT (R399). -/
def adminBody (status tag outBytes : Nat) (result : List Byte) : List Byte :=
  [0] ++ leBytes 2 status ++ leBytes 2 0 ++ leBytes 8 tag ++ leBytes 4 outBytes ++ leBytes 4 0 ++ slice result 0 40

/-- A pair being deleted whose last completion has been written becomes ABSENT, and DELETE_RING completes (R400). -/
def State.finishDelete (s : State) (fn pair : Nat) : State :=
  let p := s.pairOf fn pair
  match p.deleting with
  | some c =>
    if p.reserved = 0 then
      let s := s.updFn fn fun f => { f with pairs := f.pairs.erase pair }
      s.completeRaw fn c.pair c.sqIndex 2 false false (adminBody 0 c.tag 0 [])
    else s
  | none => s

/-- Write a completion and finish a deletion that waited for it. -/
def State.complete (s : State) (fn pair sqIndex ctype : Nat) (lost urgent : Bool) (rest : List Byte) : State :=
  (s.completeRaw fn pair sqIndex ctype lost urgent rest).finishDelete fn pair

/-- A FAULT completion (R391): cause 1 OPCODE, 2 WINDOW, 3 DMA_ERROR, with the entry's tag. -/
def State.entryFault (s : State) (fn pair sqIndex cause tag : Nat) : State :=
  (s.tally (0x2040 + fn) 5).complete fn pair sqIndex 3 false false (leBytes 1 cause ++ leBytes 4 0 ++ leBytes 8 tag)

/-- What an administration command keeps until it completes. -/
def adminRef (c : AdminCmd) : AdminRef :=
  ⟨c.fn, 0, c.sqIndex, field c.entry 8 8, field c.entry 32 8, field c.entry 40 4⟩

/-- Complete an administration command: status, output, RESULT. An output that does not fit writes nothing and completes
OUT_TOO_SMALL with the size needed (R399). -/
def State.adminDone (s : State) (c : AdminRef) (status : Nat) (output result : List Byte) : State :=
  if output.length > c.outLen then s.complete c.fn c.pair c.sqIndex 2 false false (adminBody 3 c.tag output.length [])
  else
    let (s, ok) := if output.isEmpty then (s, true) else s.dmaWrite c.fn c.outAddr output
    s.complete c.fn c.pair c.sqIndex 2 (!ok) false (adminBody status c.tag output.length result)

/-- Does a command wait: before READY every one but IMAGE_SUBMIT, IDENTITY and OBJECT_ACCESS (R489), and OBJECT_ACCESS while the object
server restarts (R466)? -/
def State.commandWaits (s : State) (opcode : Nat) : Bool :=
  if opcode = 0x70 then !s.mgmt.serverUp else !s.repair.ready && opcode ≠ 0x20 && opcode ≠ 0x51

/-- Run an administration command that has been taken on pair 0: its ranges must pass the windows (R386), its input must be read (R391), its opcode and
reserved fields must be right (R400 order 1), a VF may not issue a command reserved to the PF, and tenant 0x0000 none
(order 2). `args` is how many argument bytes the command defines; `reserved` tests the reserved bytes among them. -/
def State.adminCommand (s : State) (c : AdminCmd) (opcode args : Nat) (reserved : Bool) (pfOnly : Bool)
    (run : State → AdminRef → State) : State :=
  let taken : TakenEntry := ⟨c.fn, 0, c.sqIndex⟩
  if !s.host.taken.contains taken || s.commandWaits opcode then s
  else
    let s := { s with host := { s.host with taken := s.host.taken.erase taken } }
    let f := s.fnNow c.fn
    let r := adminRef c
    let inAddr := field c.entry 16 8
    let inLen := field c.entry 24 8
    if !(dmaInside f false inAddr inLen && dmaInside f true r.outAddr r.outLen) then s.entryFault c.fn 0 c.sqIndex 2 r.tag
    else
      let (s, _) := s.dmaRead c.fn inAddr inLen
      if !c.readOk then s.entryFault c.fn 0 c.sqIndex 3 r.tag
      else if field c.entry 0 1 ≠ opcode || !allZero c.entry 1 7 || !allZero c.entry 44 4 || !allZero c.entry (48 + args) (80 - args) ||
          !reserved then s.adminDone r 2 [] []
      else if pfOnly && c.fn ≠ 0 || f.tenant = 0 then s.adminDone r 1 [] []
      else run s r

/-- The input buffer of a command: IN_LEN bytes (R399). -/
def adminInput (c : AdminCmd) : List Byte := c.input.take (field c.entry 24 8)

end Sys2Proof.Machine
end

