-- ==== Sys2Proof/Machine/Float.lean ====
section
/-! DEFINITION. The arithmetic of R122: every conversion and every fp32 result is formed exactly and rounded once to
the nearest representable value, ties to the larger magnitude; the element formats of R14, R118, R120, R123; COSTAB of
R134. A NaN result is the quiet NaN 0x7FC0_0000 (log 6: R27 gives the written form; an inner NaN has no other reader). -/
namespace Sys2Proof.Machine

/-- An exact value: not a number, an infinity, or sign, integer and power of two. -/
inductive FVal where
  | nan
  | inf (neg : Bool)
  | fin (neg : Bool) (m : Nat) (e : Int)
  deriving DecidableEq, Repr

/-- A binary format: fraction bits, the power of two of its smallest subnormal, its largest finite magnitude as bits,
and what stands above: an infinity or saturation (R122). -/
structure FFmt where
  man : Nat
  qmin : Int
  maxFin : Nat
  toInf : Bool
  deriving DecidableEq, Repr

/-- fp32. -/
def fmtF32 : FFmt := ⟨23, -149, 0x7F7FFFFF, true⟩
/-- bf16. -/
def fmtBf16 : FFmt := ⟨7, -133, 0x7F7F, true⟩
/-- fp16. -/
def fmtF16 : FFmt := ⟨10, -24, 0x7BFF, true⟩
/-- OCP FP8 E5M2: a finite value saturates (a code format), R118, R122. -/
def fmtE5m2 : FFmt := ⟨2, -16, 0x7B, false⟩
/-- OCP FP8 E4M3: saturates at 448. -/
def fmtE4m3 : FFmt := ⟨3, -9, 0x7E, false⟩
/-- OCP FP4 E2M1: saturates at 6. -/
def fmtE2m1 : FFmt := ⟨1, -1, 0x7, false⟩
/-- OCP FP6 E2M3: saturates at 7.5 (R123). -/
def fmtE2m3 : FFmt := ⟨3, -3, 0x1F, false⟩
/-- OCP FP6 E3M2: saturates at 28 (R123). -/
def fmtE3m2 : FFmt := ⟨2, -4, 0x1F, false⟩

/-- Numerator and denominator of m × 2^e. -/
def scaleUp (m : Nat) (e : Int) : Nat × Nat :=
  match e with
  | .ofNat k => (m * 2 ^ k, 1)
  | .negSucc k => (m, 2 ^ (k + 1))

/-- floor(log2(n / d)) of a positive quotient. -/
def floorLog2 (n d : Nat) : Int :=
  let k : Int := (n.log2 : Int) - (d.log2 : Int)
  let p := scaleUp d k
  if p.1 ≤ n * p.2 then k else k - 1

/-- The magnitude bits of n / d rounded once to a format, ties to the larger magnitude, beyond the largest finite
magnitude an infinity or saturation (R122). -/
def roundMag (f : FFmt) (n d : Nat) : Nat :=
  if n = 0 then 0
  else
    let q := max (floorLog2 n d - f.man) f.qmin
    let p := scaleUp d q
    let m := (2 * (n * p.2) + p.1) / (2 * p.1)
    let b := (q - f.qmin).toNat * 2 ^ f.man + m
    if b ≤ f.maxFin then b else if f.toInf then f.maxFin + 1 else f.maxFin

/-- The exact value of the magnitude bits of a format with fraction width `man`. -/
def magVal (man : Nat) (qmin : Int) (neg : Bool) (b : Nat) : FVal :=
  let e := b / 2 ^ man
  if e = 0 then .fin neg b qmin else .fin neg (2 ^ man + b % 2 ^ man) (qmin + (e : Int) - 1)

/-- The quiet NaN of R27. -/
def f32NaN : F32 := 0x7FC00000
/-- Plus zero. -/
def f32Zero : F32 := 0
/-- Minus infinity, the score of a void entry (R31). -/
def f32NegInf : F32 := 0xFF800000

/-- The exact value of an fp32. -/
def f32Val (x : F32) : FVal :=
  let b := x.toNat
  let neg := b.testBit 31
  let mag := b % 2 ^ 31
  if mag > 0x7F800000 then .nan else if mag = 0x7F800000 then .inf neg else magVal 23 (-149) neg mag

/-- An fp32 from a sign and magnitude bits. -/
def f32Mk (neg : Bool) (mag : Nat) : F32 := BitVec.ofNat 32 (mag + if neg then 2 ^ 31 else 0)

/-- A quotient of naturals with a sign, rounded to fp32. -/
def f32Of (neg : Bool) (n d : Nat) : F32 := f32Mk neg (roundMag fmtF32 n d)

/-- An exact value rounded to fp32. -/
def f32OfVal : FVal → F32
  | .nan => f32NaN
  | .inf neg => f32Mk neg 0x7F800000
  | .fin neg m e => let p := scaleUp m e; f32Of neg p.1 p.2

/-- Is it a NaN? -/
def f32IsNaN (x : F32) : Bool := decide (x.toNat % 2 ^ 31 > 0x7F800000)
/-- Is it a NaN or an infinity? -/
def f32NonFinite (x : F32) : Bool := decide (x.toNat % 2 ^ 31 ≥ 0x7F800000)
/-- Is it a zero of either sign? -/
def f32IsZero (x : F32) : Bool := x.toNat % 2 ^ 31 == 0
/-- Sign changed. -/
def f32Neg (x : F32) : F32 := x ^^^ 0x80000000

/-- The integer that orders numbers: equal for both zeros. -/
def f32Key (x : F32) : Int :=
  let mag : Int := (x.toNat % 2 ^ 31 : Nat)
  if x.toNat.testBit 31 then -mag else mag

/-- IEEE less-than. -/
def f32Lt (x y : F32) : Bool := !f32IsNaN x && !f32IsNaN y && decide (f32Key x < f32Key y)
/-- IEEE equality. -/
def f32Eq (x y : F32) : Bool := !f32IsNaN x && !f32IsNaN y && decide (f32Key x = f32Key y)

/-- A signed integer over a power of two. -/
def signedAt (neg : Bool) (m : Nat) (e lo : Int) : Int :=
  let v : Int := (m * 2 ^ (e - lo).toNat : Nat)
  if neg then -v else v

/-- fp32 addition (R122). -/
def f32Add (x y : F32) : F32 :=
  match f32Val x, f32Val y with
  | .nan, _ => f32NaN
  | _, .nan => f32NaN
  | .inf a, .inf b => if a = b then f32Mk a 0x7F800000 else f32NaN
  | .inf a, .fin _ _ _ => f32Mk a 0x7F800000
  | .fin _ _ _, .inf b => f32Mk b 0x7F800000
  | .fin a m e, .fin b n g =>
    let lo := min e g
    let v := signedAt a m e lo + signedAt b n g lo
    if v = 0 then f32Mk (m == 0 && n == 0 && a && b) 0
    else f32OfVal (.fin (decide (v < 0)) v.natAbs lo)

/-- fp32 subtraction. -/
def f32Sub (x y : F32) : F32 := f32Add x (f32Neg y)

/-- fp32 multiplication. -/
def f32Mul (x y : F32) : F32 :=
  match f32Val x, f32Val y with
  | .nan, _ => f32NaN
  | _, .nan => f32NaN
  | .inf a, .inf b => f32Mk (a != b) 0x7F800000
  | .inf a, .fin b n _ => if n = 0 then f32NaN else f32Mk (a != b) 0x7F800000
  | .fin a m _, .inf b => if m = 0 then f32NaN else f32Mk (a != b) 0x7F800000
  | .fin a m e, .fin b n g => f32OfVal (.fin (a != b) (m * n) (e + g))

/-- fp32 division. -/
def f32Div (x y : F32) : F32 :=
  match f32Val x, f32Val y with
  | .nan, _ => f32NaN
  | _, .nan => f32NaN
  | .inf _, .inf _ => f32NaN
  | .inf a, .fin b _ _ => f32Mk (a != b) 0x7F800000
  | .fin a _ _, .inf b => f32Mk (a != b) 0
  | .fin a m e, .fin b n g =>
    if n = 0 then (if m = 0 then f32NaN else f32Mk (a != b) 0x7F800000)
    else
      let p := scaleUp m (e - g)
      f32Of (a != b) p.1 (p.2 * n)

/-- Newton steps of the integer square root. -/
def isqrtFuel : Nat → Nat → Nat → Nat
  | 0, _, r => r
  | k + 1, n, r =>
    let r' := (r + n / r) / 2
    if r' < r then isqrtFuel k n r' else r

/-- The integer square root. -/
def isqrt (n : Nat) : Nat := if n = 0 then 0 else isqrtFuel (n.log2 + 8) n (2 ^ (n.log2 / 2 + 1))

/-- The magnitude bits of the square root of n / d in fp32, rounded once (R122). -/
def sqrtMag (n d : Nat) : Nat :=
  if n = 0 then 0
  else
    let fl := (floorLog2 n d) / 2
    let q := max (fl - 23) (-149)
    let p := scaleUp 1 (2 * q)
    let x4 := 4 * n * p.2 / (d * p.1)
    let m := (isqrt x4 + 1) / 2
    let b := (q + 149).toNat * 2 ^ 23 + m
    if b ≤ 0x7F7FFFFF then b else 0x7F800000

/-- fp32 square root. -/
def f32Sqrt (x : F32) : F32 :=
  match f32Val x with
  | .nan => f32NaN
  | .inf neg => if neg then f32NaN else f32Mk false 0x7F800000
  | .fin neg m e =>
    if m = 0 then x else if neg then f32NaN
    else let p := scaleUp m e; f32Mk false (sqrtMag p.1 p.2)

/-- A natural number as fp32. -/
def f32OfNat (n : Nat) : F32 := f32Of false n 1
/-- A natural number over a natural number as fp32. -/
def f32OfRat (n d : Nat) : F32 := f32Of false n d

/-- The exact value of bits of a small format with an infinity exponent (fp16, bf16, E5M2). -/
def ieeeVal (man ebits : Nat) (qmin : Int) (b : Nat) : FVal :=
  let neg := b.testBit (man + ebits)
  let mag := b % 2 ^ (man + ebits)
  let top := (2 ^ ebits - 1) * 2 ^ man
  if mag > top then .nan else if mag = top then .inf neg else magVal man qmin neg mag

/-- The exact value of an E4M3 byte: 0x7F and 0xFF are NaN (R118). -/
def e4m3Val (b : Nat) : FVal :=
  if b % 128 = 127 then .nan else magVal 3 (-9) (b.testBit 7) (b % 128)

/-- The exact value of an E2M1 code (R118). -/
def e2m1Val (b : Nat) : FVal := magVal 1 (-1) (b.testBit 3) (b % 8)

/-- The exact value of a two's-complement integer of `n` bits. -/
def intVal (n b : Nat) : FVal :=
  if b.testBit (n - 1) then .fin true (2 ^ n - b) 0 else .fin false b 0

/-- The exact value of an RC2 code (R118). -/
def rc2Val : Nat → FVal
  | 0 => .fin true 3 (-1)
  | 1 => .fin true 1 (-1)
  | 2 => .fin false 1 (-1)
  | _ => .fin false 3 (-1)

/-- An exact value rounded to the nearest integer, ties away from zero, saturating at ±max (R122). -/
def roundInt (maxMag : Nat) : FVal → Int
  | .nan => 0
  | .inf neg => if neg then -(maxMag : Int) else maxMag
  | .fin neg m e =>
    let p := scaleUp m e
    let v := min ((2 * p.1 + p.2) / (2 * p.2)) maxMag
    if neg then -(v : Int) else v

/-- An integer as `n` bits of two's complement. -/
def intBits (n : Nat) (v : Int) : Nat := (v % (2 ^ n : Nat)).toNat

/-- The exact quotient of a value by a positive scale m × 2^e, as a magnitude quotient. -/
def quotVal (neg : Bool) (m : Nat) (e : Int) (sm : Nat) (se : Int) : Bool × Nat × Nat :=
  let p := scaleUp m (e - se)
  (neg, p.1, p.2 * sm)

/-- Element formats of a vector input, in the order of R14: 0 fp32, 1 bf16, 2 fp16, 3 E4M3, 4 E5M2, 5 int8. -/
def elemBytes : Nat → Nat
  | 0 => 4
  | 1 => 2
  | 2 => 2
  | _ => 1

/-- The exact value of one input element (R80: every conversion to fp32 is exact). -/
def elemVal (fmt b : Nat) : FVal :=
  match fmt with
  | 0 => f32Val (BitVec.ofNat 32 b)
  | 1 => ieeeVal 7 8 (-133) b
  | 2 => ieeeVal 10 5 (-24) b
  | 3 => e4m3Val b
  | 4 => ieeeVal 2 5 (-16) b
  | _ => intVal 8 b

/-- A vector of input elements as fp32. -/
def elemsF32 (fmt : Nat) (bs : List Byte) : List F32 :=
  (chunks (elemBytes fmt) bs).map fun c => f32OfVal (elemVal fmt (leNat c))

/-- The base of COSTAB: floor(pi × 2^256). -/
def piFix : Nat := 363771576891766324280234942777729862653393377328392429958772151117938894466185

/-- Taylor terms of the cosine in fixed point with 256 fraction bits. -/
def cosTerms : Nat → Nat → Int → Int → Int → Int
  | 0, _, _, _, acc => acc
  | n + 1, k, x2, term, acc =>
    let t := -(term * x2 / (2 ^ 256 : Nat)) / ((2 * k + 1) * (2 * k + 2) : Nat)
    cosTerms n (k + 1) x2 t (acc + t)

/-- cos(pi j / 1024) in fixed point for 0 ≤ j ≤ 512. -/
def cosFix (j : Nat) : Int :=
  let x : Int := (piFix * j / 1024 : Nat)
  cosTerms 60 0 (x * x / (2 ^ 256 : Nat)) (2 ^ 256 : Nat) (2 ^ 256 : Nat)

/-- COSTAB of R134: cos(pi j / 1024) rounded once to fp32; entries 0, 512 and 1,024 are exactly 1, 0 and -1. -/
def cosTab (j : Nat) : F32 :=
  if j = 0 then 0x3F800000
  else if j = 512 then 0
  else if j ≥ 1024 then 0xBF800000
  else if j < 512 then f32Of false (cosFix j).toNat (2 ^ 256)
  else f32Of true (cosFix (1024 - j)).toNat (2 ^ 256)

end Sys2Proof.Machine
end

