-- ==== Sys2Proof/Machine/SelectOps.lean ====
section
/-! DEFINITION. The total order (R26, R29), the written form of scores (R27), and the selection context: intake (R142, R143), runs and
merges (R149, R150), ordered output (R153). -/
namespace Sys2Proof.Machine

/-- canon of R26: −0 compares as +0. -/
def canonScore (x : F32) : F32 := if f32IsZero x then 0 else x

/-- precedes of R26. -/
def entryPrecedes (a b : Entry) : Bool :=
  let av := bit a.flags 0
  let bv := bit b.flags 0
  if av != bv then bv
  else
    let sa := canonScore a.score
    let sb := canonScore b.score
    if f32IsNaN sa != f32IsNaN sb then f32IsNaN sb
    else if !f32IsNaN sa && !f32Eq sa sb then f32Lt sb sa
    else decide (a.key < b.key)

/-- Are two entries' scores equal under canon, or both NaN (R143)? -/
def sameScore (a b : Entry) : Bool :=
  (f32IsNaN a.score && f32IsNaN b.score) || f32Eq (canonScore a.score) (canonScore b.score)

/-- The written form of an entry's score (R27, R144). -/
def writtenEntry (e : Entry) : Entry :=
  if f32IsNaN e.score then { e with score := f32NaN, flags := setBit e.flags 1 true }
  else { e with score := canonScore e.score }

/-- Rank by exactness: 0 exact, 1 REDUCED_CODES, 2 ESTIMATED (R143). -/
def exactRank (e : Entry) : Nat := if bit e.flags 2 then 2 else if bit e.flags 3 then 1 else 0

/-- The occurrence kept of two with one key, `old` first to arrive, with DUP_MERGED set (R143). -/
def keepOccurrence (old new : Entry) : Entry :=
  let kept :=
    if sameScore old new then (if exactRank new < exactRank old then new else old)
    else if entryPrecedes new old then new else old
  { kept with flags := setBit kept.flags 7 true }

/-- Insert an entry in the order of R26. -/
def insertEntry (e : Entry) (es : List Entry) : List Entry := insertBy entryPrecedes e es

/-- Offer an entry to an ordered list of at most `k` distinct keys (R142, R143): the list after, and whether it merged. -/
def offerList (k : Nat) (es : List Entry) (e : Entry) : List Entry × Bool :=
  let e := writtenEntry e
  match es.find? fun o => o.key = e.key with
  | some o => (insertEntry (keepOccurrence o e) (es.erase o), true)
  | none =>
    if es.length < k then (insertEntry e es, false)
    else match es.getLast? with
      | some l => if entryPrecedes e l then (insertEntry e es.dropLast, false) else (es, false)
      | none => (es, false)

/-- Offer entries one by one: the list after and the merges. -/
def offerAll (k : Nat) (es : List Entry) (new : List Entry) : List Entry × Nat :=
  new.foldl (fun acc e => let r := offerList k acc.1 e; (r.1, acc.2 + if r.2 then 1 else 0)) (es, 0)

/-- The store of a context by its capacity (R140): 0 Teasel, 1 spill, 2 HBM. -/
def storeOf (k : Nat) : Nat := if k ≤ 1024 then 0 else if k ≤ 65536 then 1 else 2

/-- The threshold of an HBM context after its first merge: the K_sel-th entry of the carry run (R150). -/
def ctxThreshold (c : SelCtx) : Option Entry :=
  match c.carry with
  | some run => run[c.kSel - 1]?
  | none => none

/-- Does an entry pass the threshold (R150)? -/
def passesThreshold (c : SelCtx) (e : Entry) : Bool :=
  match ctxThreshold c with
  | some l => entryPrecedes e l
  | none => true

/-- Runs that a merge reads beyond the carry: 15, or 16 while there is no carry (R149). -/
def mergeWidth (c : SelCtx) : Nat := if c.carry.isSome then 15 else 16

/-- What a merge over runs gives: the first K_sel distinct keys, with the merges it resolved among all it read (R28, R149). -/
def mergeRuns (k : Nat) (runs : List (List Entry)) : List Entry × Nat :=
  let r := offerAll runs.flatten.length [] runs.flatten
  (r.1.take k, r.2)

/-- The runs that the merge in progress of a context reads, its carry run first (R149). -/
def mergeReads (c : SelCtx) : List (List Entry) := match c.merging with
  | some rs => c.carry.toList ++ rs
  | none => []

/-- Entries in some runs, a repeated key counted each time. -/
def entryCount (runs : List (List Entry)) : Nat := (runs.map List.length).sum

/-- A merge in progress ends: the new carry run, the merges resolved, the bytes read (R149, R150). -/
def mergeEnd (c : SelCtx) : SelCtx × Nat × Nat :=
  if c.merging.isNone then (c, 0, 0)
  else
    let r := mergeRuns c.kSel (mergeReads c)
    ({ c with merging := none, carry := some r.1 }, r.2, 16 * entryCount (mergeReads c))

/-- The runs that a final merge reads: the carry run, the unmerged runs and entries not yet in a run. -/
def finalReads (c : SelCtx) : List (List Entry) := c.carry.toList ++ c.runs ++ (if c.entries.isEmpty then [] else [c.entries])

/-- Everything a context holds, ordered: a running merge finishes, then the final merge where more than one run is left (R149, R153). With
it the merges resolved, and the bytes that run merges read. -/
def ctxOutput (c : SelCtx) : List Entry × Nat × Nat :=
  let (c, dups, bytes) := mergeEnd c
  match finalReads c with
  | [] => ([], dups, bytes)
  | [run] => (run, dups, bytes)
  | runs =>
    let r := mergeRuns c.kSel runs
    (r.1, dups + r.2, bytes + 16 * entryCount runs)

/-- Time to order what a context holds, in network cycles at `f` MHz (R140, R154): an HBM context reads its carry run and unmerged runs,
two entries a cycle, after the rest of a merge in progress; a Teasel or spill store gives its entries at their rate of arithmetic
cycles. -/
def orderTime (c : SelCtx) (f now : Nat) : Nat :=
  if c.store = 2 then
    (ceilDiv (entryCount (mergeReads c)) 2 - (now - c.mergeAt)) + ceilDiv (entryCount (finalReads (mergeEnd c).1)) 2
  else ceilDiv (ceilDiv c.entries.length (if c.store = 0 then 4 else 2) * 1600) f

/-- A context gives its stores back (R141, R152). -/
def freeCtx (c : SelCtx) : SelCtx := { c with hbmBytes := 0, teasel := 0, spill := 0, poolWait := false, spillWait := false }

/-- A context whose work is discarded. -/
def emptyCtx (c : SelCtx) : SelCtx := freeCtx { c with entries := [], runs := [], carry := none, merging := none }

/-- The contexts on a strand: its queries' and its members'. -/
def State.ctxsOn (s : State) (g : Nat) : List SelCtx :=
  (s.pipe.queries.filter fun kq => kq.2.g = g).map (·.2.ctx) ++
    (s.pipe.batches.filter fun kb => kb.2.g = g).flatMap fun kb => (kb.2.members.filter fun m => !m.ended).map (·.ctx)

/-- Teasel entries that a strand's contexts hold (R141). -/
def State.teaselUsed (s : State) (g : Nat) : Nat := ((s.ctxsOn g).map (·.teasel)).sum

/-- Bytes of the spill store that a strand's contexts hold (R141). -/
def State.spillUsed (s : State) (g : Nat) : Nat := ((s.ctxsOn g).map (·.spill)).sum

/-- Bytes of the spill store that a context takes: its capacity, at most one run of 65,536 entries, in blocks of 64 (R140, R141, R149;
log 81). -/
def spillArea (k : Nat) : Nat := 16 * (ceilDiv (min k 65536) 64 * 64)

/-- A context takes its part of the strand's 4 MiB of spill store, or waits for it (R141). -/
def State.takeSpill (s : State) (g : Nat) (c : SelCtx) : SelCtx :=
  if s.spillUsed g + spillArea c.kSel ≤ 4194304 then { c with spill := spillArea c.kSel, spillWait := false } else { c with spillWait := true }

/-- A context that waits for the spill store asks for it again (R141). -/
def State.retrySpill (s : State) (g : Nat) (c : SelCtx) : SelCtx := if c.spillWait then s.takeSpill g c else c

/-- Open a context of capacity `k` on a strand (R140, R141, R151). A list-side context above 65,536 opens in the spill store. -/
def State.openCtx (s : State) (g k : Nat) (listSide : Bool) : State × SelCtx :=
  let need := ceilDiv k 64 * 64
  if k ≤ 1024 ∧ s.teaselUsed g + need ≤ 32768 then (s, { kSel := k, store := 0, teasel := need })
  else if k ≤ 65536 ∨ listSide then
    (if k ≤ 1024 then s.tally (0x2430 + g) 7 else s, s.takeSpill g { kSel := k, store := 1 })
  else (s, { kSel := k, store := storeOf k })

/-- Half of the selection pool in bytes (R152). -/
def State.poolHalf (s : State) : Nat := s.setting 0x2450 1 8 * 2 ^ 29

/-- Bytes of an origin work area (R152). -/
def originArea (k : Nat) : Nat := 80 * k
/-- Bytes of a list-side work area (R152). -/
def listArea (k : Nat) : Nat := 48 * k + 16 * 2 ^ 20

/-- Cycles of a SELECT tile that an entry taken in occupies (R140). -/
def intakeCycles (store : Nat) : Nat := if store = 0 then 1 else 4

/-- Offer an entry to a context on a strand (R142 to R144, R150, R151): counts merges, void keys and the cycles of R140. A list-side
context's runs of 65,536 entries go to HBM, after a wait where its half of the pool has no room (R152). -/
def State.offer (s : State) (g : Nat) (c : SelCtx) (e : Entry) : State × SelCtx × Nat :=
  if e.key = voidKey then ((s.tally (0x2430 + g) 6).count (objKey (0x2430 + g) 1) 1, c, 0)
  else if !passesThreshold c (writtenEntry e) then (s.count (objKey (0x2430 + g) 1) 1, c, 0)
  else
    let (es, dup) := offerList c.kSel c.entries e
    let s := s.count (objKey (0x2430 + g) 1) (if !dup && es == c.entries then 1 else intakeCycles c.store)
    let s := if dup then s.tally (0x2430 + g) 4 else s
    let c := { c with entries := es }
    let n := if dup then 1 else 0
    if c.kSel ≤ 65536 ∨ es.length < 65536 then (s, c, n)
    else if c.store = 2 then (s, { c with runs := c.runs ++ [es], entries := [] }, n)
    else if s.tiers.poolList + listArea c.kSel ≤ s.poolHalf then
      ({ s with tiers := { s.tiers with poolList := s.tiers.poolList + listArea c.kSel } },
        { c with store := 2, runs := [es], entries := [], hbmBytes := listArea c.kSel }, n)
    else (s.tally (0x2430 + g) 8, { c with poolWait := true }, n)

/-- Offer entries one by one to a context: the state and the context after, and the merges. -/
def State.offerEach (s : State) (g : Nat) (c : SelCtx) (es : List Entry) : State × SelCtx × Nat :=
  es.foldl (fun acc e =>
    let r := acc.1.offer g acc.2.1 e
    (r.1, r.2.1, acc.2.2 + r.2.2)) (s, c, 0)

/-- Merge a list's partial result into an origin context: entry by entry, or as one run truncated at the threshold (R148,
R149, R150). -/
def State.mergePartial (s : State) (g : Nat) (c : SelCtx) (es : List Entry) : State × SelCtx × Nat :=
  if c.store = 2 then
    let kept := es.filter fun e => e.key ≠ voidKey && passesThreshold c (writtenEntry e)
    let run := (offerAll es.length [] kept).1
    let voids := (es.filter fun e => e.key = voidKey).length
    let s := s.count (objKey (0x2430 + g) 1) (intakeCycles 2 * kept.length + (es.length - kept.length))
    (s.count (objKey (0x2430 + g) 6) voids, { c with runs := c.runs ++ [run] }, 0)
  else s.offerEach g c es

end Sys2Proof.Machine
end

