-- ==== Sys2Proof/Machine/EmitOps.lean ====
section
/-! DEFINITION. How a query ends: coverage, reason and status (R6 to R8, R35, R36, R39, R41), its result entries and completion (R30, R31,
R396, R406), its receipt leaf (R240, R241) and its metering (R199). -/
namespace Sys2Proof.Machine

/-- A query's handle: module, partition, strand, merge slot and serial number (R345). -/
def State.handleOf (s : State) (q : Nat) (x : Query) : Nat := match x.adopted with
  | some h => h
  | none => s.mgmt.moduleId % 4096 + x.g / 8 * 2 ^ 12 + x.g % 8 * 2 ^ 14 + x.slot * 2 ^ 17 + q * 2 ^ 25

/-- The serial number of a handle: the key of the query at its origin. -/
def handleSerial (handle : Nat) : Nat := handle / 2 ^ 25

/-- The query that a handle names: its own by its serial number, or one taken over in a drain (R345, R369). -/
def State.queryOf (s : State) (handle : Nat) : Option Nat :=
  let q := handleSerial handle
  match s.query q with
  | some x => if s.handleOf q x = handle then some q else (s.pipe.queries.find? fun kq => kq.2.adopted = some handle).map (·.1)
  | none => (s.pipe.queries.find? fun kq => kq.2.adopted = some handle).map (·.1)

/-- A query's coverage (R35). -/
def coverageOf (x : Query) : Nat := match x.given with
  | some g => g.coverage
  | none =>
  let selected := (x.chosen.map (·.items)).sum
  let reached := ((x.chosen.filter fun c => c.state == .reached).map (·.items)).sum
  if !x.routed then 0 else if selected = 0 then 65536 else 65536 * reached / selected

/-- The lowest-numbered degradation reason that applies (R36). -/
def degradation (x : Query) : Nat := ((subs 1 6).find? fun n => bit x.reasons n).getD 0

/-- Does a query's status, its own or the one that the module which took it over gives, force an answer of void entries (R42)? -/
def allVoid (x : Query) : Bool := x.rejected.isSome || x.stale || x.retry || x.orphaned || (match x.given with
  | some g => g.status = 4 || g.status = 5 || g.status = 6 || g.status = 8
  | none => false)

/-- Valid entries of the answer: those that fit in k (R30). -/
def validEntries (x : Query) : List Entry := if allVoid x then [] else x.answer.take x.fields.k

/-- A query's status, by the precedence of R8 (codes of R6, conditions of R40). -/
def statusOf (x : Query) : Nat := match x.given with
  | some g => g.status
  | none =>
  if x.rejected.isSome then 8
  else if x.stale then 4
  else if x.retry then 5
  else if x.orphaned then 6
  else if x.dataLoss then 9
  else if x.deadlineHit then 7
  else if coverageOf x < 65536 then 2
  else if degradation x ≠ 0 then 3
  else if (validEntries x).length < x.fields.k then 1
  else 0

/-- The reason byte (R36). -/
def reasonOf (x : Query) : Nat := match x.given, x.rejected with
  | some g, _ => g.reason
  | none, some c => c
  | none, none => degradation x

/-- The snapshot epoch field (R34). -/
def snapshotField (x : Query) : Nat := if x.rejected.isSome then 0 else x.snapshot.getD 0

/-- The index version field (R34). -/
def versionField (x : Query) : Nat := if snapshotField x = 0 then 0 else x.version

/-- The 16 bytes of a result entry (R31). -/
def entryBytes (e : Entry) : List Byte := leBytes 8 e.key ++ leBytes 4 e.score.toNat ++ leBytes 2 e.flags ++ leBytes 2 e.shard

/-- A void entry (R31). -/
def voidEntry : Entry := ⟨voidKey, f32NegInf, 1, 0xFFFF⟩

/-- The k result entries: valid ones first, then void entries (R30). -/
def resultEntries (x : Query) : List Entry :=
  validEntries x ++ List.replicate (x.fields.k - (validEntries x).length) voidEntry

/-- The bytes of the result entries; at the basic level bytes 12 to 15 of each are zero (R406). -/
def resultBytes (x : Query) : List Byte :=
  (resultEntries x).flatMap fun e => if x.basic then (entryBytes e).take 12 ++ leBytes 4 0 else entryBytes e

/-- The completion words of the EMIT program (R396). -/
def State.extraWords (s : State) (x : Query) : List Byte :=
  match s.versionOf x.fields.ns x.fields.idx x.version with
  | some v => match s.imageByDigest v.image with
    | some i => slice i.2.progs.extra 0 16
    | none => []
  | none => []

/-- The completion entry from offset 3 (R396). -/
def State.queryCompletion (s : State) (x : Query) : List Byte :=
  leBytes 1 (statusOf x) ++ leBytes 1 (reasonOf x) ++ leBytes 3 0 ++ leBytes 8 x.fields.tag ++
    leBytes 4 (validEntries x).length ++ leBytes 4 (coverageOf x) ++ leBytes 8 (snapshotField x) ++
    leBytes 4 (versionField x) ++ leBytes 4 (min 0xFFFFFFFF x.merged) ++ leBytes 8 s.receipts.nextLeaf ++
    slice (s.extraWords x) 0 16

/-- Module IDs in ascending order without repeats. -/
def sortedIds (ids : List Nat) : List Nat := (sortBy (fun a b => decide (a < b)) ids).eraseDups

/-- NODE_SET_DIGEST: the origin and every module whose partial result was merged (R241). -/
def State.nodeSetDigest (s : State) (x : Query) : List Byte := match x.given with
  | some g => g.nodeSet
  | none =>
  digest64 ((sortedIds (s.mgmt.moduleId :: x.peers)).flatMap (leBytes 2))

/-- RESULT_DIGEST (R241). -/
def resultDigest (x : Query) : List Byte :=
  digest64 (leBytes 1 (statusOf x) ++ leBytes 1 (reasonOf x) ++ leBytes 4 (validEntries x).length ++
    leBytes 4 (coverageOf x) ++ resultBytes x)

/-- 64 zero bytes. -/
def zero64 : List Byte := List.replicate 64 0

/-- The receipt leaf of a completed query (R240): every digest of a REJECTED query is zero. -/
def State.leafOf (s : State) (x : Query) : List Byte :=
  let rej := x.rejected.isSome
  let v := if snapshotField x = 0 then none else s.versionOf x.fields.ns x.fields.idx x.version
  let img := v.bind fun v => (s.imageByDigest v.image).map (·.2)
  let gens := x.sketches.map (·.1)
  let ok := !rej && snapshotField x ≠ 0
  let verDigest := match v with
    | some v => if ok then slice v.digest 0 64 else zero64
    | none => zero64
  let imgDigest := match v with
    | some v => if ok then slice v.image 0 64 else zero64
    | none => zero64
  let enc := match img.bind (·.encoder) with
    | some m => if !rej && x.fields.tokens && !x.vector.isEmpty then slice m.digest 0 64 else zero64
    | none => zero64
  let sco := match img.bind (·.scorer) with
    | some m => if !rej && !(validEntries x).isEmpty && (validEntries x).all (fun e => bit e.flags 4) then slice m.digest 0 64
        else zero64
    | none => zero64
  leBytes 8 s.receipts.nextLeaf ++ leBytes 8 (snapshotField x) ++ leBytes 4 (versionField x) ++ leBytes 2 x.tenant ++
    leBytes 1 (statusOf x) ++ leBytes 1 (reasonOf x) ++ leBytes 4 x.fields.ns ++ leBytes 4 x.fields.idx ++
    leBytes 8 x.fields.tag ++ leBytes 1 (if rej then 0 else min 2 gens.length) ++
    leBytes 1 (if rej then 0 else gens.getD 0 0) ++ leBytes 1 (if rej then 0 else gens.getD 1 0) ++ leBytes 1 0 ++
    leBytes 4 (validEntries x).length ++ leBytes 4 (coverageOf x) ++ leBytes 4 x.fields.k ++
    verDigest ++ imgDigest ++ enc ++ sco ++ (if rej then zero64 else s.nodeSetDigest x) ++
    (if rej then zero64 else resultDigest x) ++ leBytes 8 0

/-- Add a receipt leaf (R240, R242), metered to the tenant (R199). -/
def State.addLeaf (s : State) (tenant : Nat) (leaf : List Byte) : State :=
  ((({ s with receipts := { s.receipts with nextLeaf := s.receipts.nextLeaf + 1, open_ := s.receipts.open_ ++ [leaf] } } :
    State).receiptWrite leaf).meter tenant 23 1)

/-- The tensor requests and invocations that a query owns leave its partition's pool (R176). -/
def State.dropTensor (s : State) (part : Nat) (p : TensorReq → Bool) : State :=
  { s with pipe := { s.pipe with tensor := s.pipe.tensor.alter part fun t =>
    { t with queue := t.queue.filter (fun r => !p r), running := t.running.filter (fun i => !p i.req) } } }

/-- A query hands its answer to EMIT: it holds no tile and no work area from here on. -/
def State.toEmit (s : State) (q : Nat) (x : Query) : State :=
  let s := s.dropTensor (x.g / 8) fun r => r.kind != .maint && r.owner = q
  let s := { s with tiers := { s.tiers with poolOrigin := s.tiers.poolOrigin - x.ctx.hbmBytes } }
  s.setQuery q { x with phase := .emitting, ctx := freeCtx x.ctx
                        chosen := x.chosen.map fun c => { c with waiting := [], reserved := false } }

/-- A query completes REJECTED with a cause (R36). -/
def State.reject (s : State) (q : Nat) (x : Query) (cause : Nat) : State := s.toEmit q { x with rejected := some cause, answer := [] }

/-- Write a basic-level query completion of 32 bytes (R406). -/
def State.completeBasic (s : State) (x : Query) : State :=
  let f := s.fnState x.fn
  if !f.enabled then s
  else
    let e := leBytes 8 x.fields.tag ++ leBytes 1 (statusOf x) ++ leBytes 3 0 ++ leBytes 4 (validEntries x).length ++
      leBytes 4 (coverageOf x) ++ leBytes 12 0
    let (s, ok) := s.dmaWrite x.fn (f.basic.qcrBase + 32 * f.basic.qcrTail) e
    if !ok then s.ringFault x.fn 0 3
    else
      let s := s.updFn x.fn fun f => { f with basic := { f.basic with
        qcrTail := if f.basic.qcrTail + 1 ≥ f.basic.qcrSize then 0 else f.basic.qcrTail + 1
        reserved := f.basic.reserved - 1, unconsumed := f.basic.unconsumed + 1 } }
      s.basicIrq x.fn 0

/-- A completed query: its result entries, completion, leaf and metering (R396, R240, R199). With `deliver` false nothing
reaches the host (R381). A query taken over in a drain has neither here: its answer goes to the draining module (R369). -/
def State.finishQuery (s : State) (q : Nat) (x : Query) (deliver : Bool) : State :=
  if x.adopted.isSome then { s with pipe := { s.pipe with queries := s.pipe.queries.erase q } }
  else
  let leaf := s.leafOf x
  let body := s.queryCompletion x
  let s :=
    if !deliver then s
    else
      let (s, ok) := s.dmaWrite x.fn x.fields.resultAddr (resultBytes x)
      if x.basic then s.completeBasic x else s.complete x.fn x.pair x.sqIndex 0 (!ok) x.fields.urgent body
  let s := s.addLeaf x.tenant leaf
  let s := (s.meter x.tenant (statusOf x + 1) 1).meter x.tenant 12 (validEntries x).length
  let isOpen (d : DualCheck) : Bool := handleSerial d.handle = q && !(d.d1.isSome && d.d2.isSome)
  let open_ := s.repair.duals.filter isOpen
  let s := s.count (objKey 0x2D10 0xA) open_.length
  { s with
    repair := { s.repair with duals := s.repair.duals.filter fun d => !isOpen d }
    pipe := { s.pipe with queries := s.pipe.queries.erase q, doneTenant := s.pipe.doneTenant.set q x.tenant } }

/-- End a query at once with RETRY (R381, R494): it completes with k void entries. -/
def State.retryQuery (s : State) (q : Nat) (deliver : Bool) : State :=
  match s.query q with
  | some x =>
    let s := s.toEmit q { x with retry := true }
    match s.query q with
    | some x => s.finishQuery q x deliver
    | none => s
  | none => s

end Sys2Proof.Machine
end

