-- ==== Sys2Proof/Machine/FabricOps.lean ====
section
/-! DEFINITION. What the ports share: flits and frames (R316 to R319), routes (R350), pool buffers (R338, R339), the admission table
(R59, R320, R323), gates and guard bands (R329 to R331), sending a frame (R326). -/
namespace Sys2Proof.Machine

/-- MAX_FRAME of a class (R341). -/
def State.maxFrame (s : State) (cls : Nat) : Nat := s.setting 0x2A20 (cls + 1) (if cls = 4 then 512 else 9216)

/-- The 32 bytes of a frame's header (R318). -/
def frameHeader (f : Frame) : List Byte :=
  leBytes 2 f.tag ++ leBytes 2 f.dest ++ leBytes 2 f.src ++ leBytes 1 f.cls ++ leBytes 1 f.hops ++
    leBytes 2 (32 + f.body.length) ++ leBytes 2 f.kind ++ leBytes 4 f.demand ++ leBytes 8 f.mapEpoch ++
    leBytes 2 f.tenant ++ leBytes 6 0

/-- All bytes of a frame. -/
def frameBytes (f : Frame) : List Byte := frameHeader f ++ f.body

/-- LENGTH of a frame. -/
def frameLength (f : Frame) : Nat := 32 + f.body.length

/-- Flits of a frame (R319). -/
def frameFlits (f : Frame) : Nat := ceilDiv (frameLength f) 232

/-- Lanes of a width code (R340): 0 ×1, 1 ×2, 2 ×4. -/
def lanesOf (w : Nat) : Nat := if w = 0 then 1 else if w = 1 then 2 else 4

/-- A flit (R316). -/
def flitBytes (ftype : Nat) (first last : Bool) (cls seq ack : Nat) (nak : Bool) (a0 a1 : Nat) (payload : List Byte) : List Byte :=
  let fctl := ftype + (if first then 4 else 0) + (if last then 8 else 0) + cls * 16
  let b := leBytes 1 fctl ++ leBytes 2 (seq % 4096) ++ leBytes 2 (ack % 4096 + if nak then 0x8000 else 0) ++
    leBytes 1 (if ftype = 1 then payload.length else 0) ++ leBytes 2 0 ++ leBytes 4 a0 ++ leBytes 4 a1 ++ slice payload 0 232
  b ++ leBytes 8 (crc64 b)

/-- Send a flit on a port: the answers and the acknowledgement it carries leave with it; DATA and IDENT flits take a sequence number
and enter the replay buffer (R316, R317, R324). -/
def State.sendFlit (s : State) (port ftype : Nat) (first last : Bool) (cls : Nat) (payload : List Byte) : State :=
  let p := s.port port
  let b := flitBytes ftype first last cls p.txSeq (p.rxSeq + 4095) p.nak (p.answers.getD 0 0) (p.answers.getD 1 0) payload
  let s := s.setPort port { p with
    answers := p.answers.drop 2
    txSeq := if ftype = 0 then p.txSeq else (p.txSeq + 1) % 4096
    replay := if ftype = 0 then p.replay else p.replay ++ [(p.txSeq, b)] }
  let s := s.emit (.flit port b)
  if ftype = 1 then s.count (objKey (0x2A40 + port) 1) 256
  else if ftype = 0 then s.count (objKey (0x2A40 + port) 3) 1 else s

/-- Pieces of a frame to send as flits: those from the `skip`-th on, at most `n`. -/
def State.sendFlits (s : State) (port : Nat) (f : Frame) (skip n : Nat) : State :=
  let parts := chunks 232 (frameBytes f)
  let idx := (List.range parts.length).filter fun i => skip ≤ i && i < skip + n
  idx.foldl (fun s i => s.sendFlit port 1 (i == 0) (i + 1 == parts.length) f.cls (parts.getD i [])) s

/-! ## Routes and buffers -/

/-- The ports that a route names, in the order of its fields, and its HOPS (R350). -/
def routePorts (e : Nat) : List Nat :=
  ([bits e 4 0, bits e 9 5, bits e 14 10, bits e 19 15] : List Nat).take (bits e 21 20 + 1)

/-- HOPS of a module's route; 0 for none. -/
def State.routeHops (s : State) (dest : Nat) : Nat := bits (s.fabric.routes.getD dest 0) 25 22

/-- Is a port UP? -/
def State.portUp (s : State) (p : Nat) : Bool := (s.port p).state = 3

/-- Bytes of the frames queued on a port for a class. -/
def queuedBytes (p : Port) (cls : Nat) : Nat := ((p.queues.getD cls []).map frameLength).sum

/-- The port that a frame of a class to a module takes (R350). -/
def State.routePort (s : State) (dest cls : Nat) : Option Nat :=
  if s.routeHops dest = 0 then none
  else
    let up := (routePorts (s.fabric.routes.getD dest 0)).filter s.portUp
    if cls = 2 then up.head?
    else firstBy (fun a b =>
      let qa := queuedBytes (s.port a) cls
      let qb := queuedBytes (s.port b) cls
      if qa ≠ qb then qa < qb else a < b) up

/-- Buffers of a class's guaranteed ingress part (R338). -/
def guaranteedIn (cls : Nat) : Nat := match cls with
  | 0 => 256
  | 1 => 256
  | 2 => 128
  | _ => 64

/-- Buffers of the shared part (R338). -/
abbrev sharedPool : Nat := 344064

/-- Shared buffers that a port may still take (R338, R339). -/
def State.sharedRoom (s : State) (port : Nat) : Nat :=
  let used := (s.fabric.sharedIn.map (·.2)).sum
  let cap := sharedPool * s.setting 0x2A20 8 10 / 100
  min (sharedPool - used) (cap - s.fabric.sharedIn.getD port 0)

/-- Take `n` buffers, first from the guaranteed room: how many of each part, if they fit (R339). -/
def State.splitBuffers (s : State) (port free n : Nat) : Option (Nat × Nat) :=
  let g := min free n
  if n - g ≤ s.sharedRoom port then some (g, n - g) else none

/-- Book buffers of a port: guaranteed ingress of a class, or guaranteed egress, and shared. -/
def State.bookIn (s : State) (port cls g sh : Nat) : State :=
  let k := port * 8 + cls
  { s with fabric := { s.fabric with
    inBufs := s.fabric.inBufs.put k 0 (s.fabric.inBufs.getD k 0 + g)
    sharedIn := s.fabric.sharedIn.put port 0 (s.fabric.sharedIn.getD port 0 + sh) } }

/-- Release ingress buffers. -/
def State.freeIn (s : State) (port cls g sh : Nat) : State :=
  let k := port * 8 + cls
  { s with fabric := { s.fabric with
    inBufs := s.fabric.inBufs.put k 0 (s.fabric.inBufs.getD k 0 - g)
    sharedIn := s.fabric.sharedIn.put port 0 (s.fabric.sharedIn.getD port 0 - sh) } }

/-- Book or release egress buffers. -/
def State.bookOut (s : State) (port g sh : Nat) : State :=
  { s with fabric := { s.fabric with
    outBufs := s.fabric.outBufs.put port 0 (s.fabric.outBufs.getD port 0 + g)
    sharedIn := s.fabric.sharedIn.put port 0 (s.fabric.sharedIn.getD port 0 + sh) } }

/-- Release egress buffers. -/
def State.freeOut (s : State) (port g sh : Nat) : State :=
  { s with fabric := { s.fabric with
    outBufs := s.fabric.outBufs.put port 0 (s.fabric.outBufs.getD port 0 - g)
    sharedIn := s.fabric.sharedIn.put port 0 (s.fabric.sharedIn.getD port 0 - sh) } }

/-! ## Sending -/

/-- Tags of a port's unanswered and unfinished frames. -/
def tagsOf (p : Port) : List Nat := p.flying.map (·.tag) ++ p.queues.flatMap fun q => q.2.map (·.tag)

/-- The next tag that no frame of the port holds (R318). -/
def nextTag (p : Port) : Nat :=
  match ((List.range 65536).map fun i => (p.nextTag + i) % 65536).find? fun t => !(tagsOf p).contains t with
  | some t => t
  | none => p.nextTag

/-- 100 µs of gate cycle in network cycles (R329). -/
abbrev gateCycle : Nat := 160000

/-- Place of a destination among drays that close in one cycle: destinations are taken from own module ID + c in ascending order, c being the
number of gate cycles since the timebase began (R351). -/
def State.destTurn (s : State) (dest : Nat) : Nat := (dest + 4096 - (s.mgmt.moduleId + s.time / gateCycle) % 4096) % 4096

/-- Does a frame of a queue leave before a dray that closes now? All do but drays of this module that closed in this same cycle and whose
destination has a later turn (R351). -/
def State.leavesFirst (s : State) (f y : Frame) : Bool :=
  !(y.queuedAt = s.time && y.kind = 1 && y.src = s.mgmt.moduleId && s.destTurn f.dest < s.destTurn y.dest)

/-- A queue with a frame that enters it now: at its end, but for a dray among drays that closed in the same cycle (R351). -/
def State.leaveOrder (s : State) (q : List Frame) (f : Frame) : List Frame :=
  if f.kind = 1 && f.src = s.mgmt.moduleId then
    let later := (q.reverse.takeWhile fun y => !s.leavesFirst f y).reverse
    q.take (q.length - later.length) ++ f :: later
  else q ++ [f]

/-- Put a frame on its route: into the class queue of an UP port with buffers for it, else it waits in the engine. A frame that takes its
route again keeps its tag, but where another frame of the new port holds it (R318, R327, R339, R350; log 22). -/
def State.routeFrame (s : State) (f : Frame) : State :=
  let wait (s : State) : State :=
    { s with exchange := { s.exchange with waiting := s.leaveOrder s.exchange.waiting { f with queuedAt := s.time } } }
  match s.routePort f.dest f.cls with
  | none => wait s
  | some port =>
    let n := ceilDiv (frameLength f) 256
    match s.splitBuffers port (256 - s.fabric.outBufs.getD port 0) n with
    | none => wait (s.tally (0x2A40 + port) 0xF)
    | some (g, sh) =>
      let s := s.bookOut port g sh
      let p := s.port port
      let tag := if f.keepTag && !(tagsOf p).contains f.tag then f.tag else nextTag p
      let f := { f with tag, keepTag := false, queuedAt := s.time, guaranteed := g, shared := sh, sent := 0, accepted := false }
      (s.setPort port { p with nextTag := if tag = nextTag p then (tag + 1) % 65536 else p.nextTag
                               queues := p.queues.set f.cls (s.leaveOrder (p.queues.getD f.cls []) f) }).wake .port port 2

/-- Frames that wait in the engine try their routes again, in order. -/
def State.routeWaiting (s : State) : State :=
  let w := s.exchange.waiting
  w.foldl (fun s f => s.routeFrame f) { s with exchange := { s.exchange with waiting := [] } }

/-- Epoch of the newest installed map, 0 for none (R354). -/
def State.newestMap (s : State) : Nat := (s.exchange.maps.map (·.epoch)).foldl max 0

/-- Build and send a frame to another module (R318, R350). -/
def State.sendFrame (s : State) (dest cls kind demand mapEpoch tenant : Nat) (body : List Byte) (budgetEnd : Nat) : State :=
  s.routeFrame { tag := 0, dest, src := s.mgmt.moduleId, cls, hops := min 8 (s.routeHops dest + 2), kind, demand, mapEpoch
                 tenant := if cls ≥ 3 then 0 else tenant, body, budgetEnd }

/-- Queue a frame for the neighbour on one port (beacons, notices: R353, R356). -/
def State.sendNeighbour (s : State) (port kind : Nat) (body : List Byte) : State :=
  let p := s.port port
  let f : Frame := { tag := nextTag p, dest := p.nbrModule, src := s.mgmt.moduleId, cls := 4, hops := 1, kind, demand := 0
                     mapEpoch := s.newestMap, tenant := 0, body, queuedAt := s.time }
  s.setPort port { p with nextTag := (f.tag + 1) % 65536, queues := p.queues.set 4 (p.queues.getD 4 [] ++ [f]) }

/-- Send a C-class body to the neighbour of every UP port but one. -/
def State.sendAllPorts (s : State) (skip : Option Nat) (kind : Nat) (body : List Byte) : State :=
  (upTo 32 fun p => s.portUp p && some p != skip).foldl (fun s p => s.sendNeighbour p kind body) s

/-! ## The admission table -/

/-- Probe credits of one strand's ADMIT (R59; the link from ROUTE carries 1,024, R57; log 21). -/
abbrev probeCredits : Nat := 1024

/-- Free admission units of a class at this module (R320, R323), accepted frames not yet delivered taken off. -/
def State.admissionFree (s : State) (cls : Nat) : Nat :=
  let d := s.fabric.demand.getD cls 0
  match cls with
  | 0 =>
    let free := ((upTo 32 s.strandUp).map fun g => s.pipe.published.getD (2 * g + 1) probeCredits).sum
    free - s.pipe.published.getD 64 0 - d
  | 2 => 65536 - s.corpus.held.length - d
  | 3 => 4096 - d
  | _ => 0

/-! ## Gates and shapers -/

/-- Entry `e` of a port's list bank. -/
def gateWord (p : Port) (bank e : Nat) : Nat := if bank = 0 then p.bankA.getD e 0 else p.bankB.getD e 0

/-- Entries of a bank. -/
def gateCount (p : Port) (bank : Nat) : Nat := if bank = 0 then p.countA else p.countB

/-- The entries of a bank: DURATION and OPEN (R329). -/
def gateList (p : Port) (bank : Nat) : List Gate :=
  (List.range (gateCount p bank)).map fun e => let w := gateWord p bank e; ⟨bits w 13 0, bits w 18 14⟩

/-- Is a class open in an entry? -/
def opens (g : Gate) (cls : Nat) : Bool := bit g.open_ cls

/-- Length in 10 ns of the run of entries, open for a class, that a list begins with. -/
def openRun (cls : Nat) : List Gate → Nat
  | [] => 0
  | g :: gs => if opens g cls then g.duration + openRun cls gs else 0

/-- A list turned so that entry `n` stands first. -/
def rotateList {α : Type} (n : Nat) (l : List α) : List α := l.drop n ++ l.take n

/-- 10 ns in network cycles. -/
abbrev cyclesPerGateUnit : Nat := 16

/-- Cycles until the class's window closes; none when it is closed now; some none when it never closes (R329). -/
def State.windowLeft (s : State) (p : Port) (cls : Nat) : Option (Option Nat) :=
  let l := gateList p p.active
  if l.all fun g => opens g cls then some none
  else match rotateList p.gate l with
    | [] => none
    | g :: gs =>
      if !opens g cls then none
      else some (some ((g.duration + openRun cls gs) * cyclesPerGateUnit - (s.time - p.gateAt)))

/-- Time of a flit in thousandths of a cycle at a number of lanes (R312): 2.56 ns are 4.096 cycles. -/
def flitMilli (lanes : Nat) : Nat := 4096 * 4 / lanes

/-- Guard band of a class in thousandths of a cycle at a number of lanes (R331). -/
def State.guardMilli (s : State) (cls lanes : Nat) : Nat := ceilDiv (s.maxFrame cls) 232 * flitMilli lanes

/-- May the class start a frame now: its gate is open and it is outside its guard band (R331)? -/
def State.gateOpen (s : State) (p : Port) (cls : Nat) : Bool :=
  match s.windowLeft p cls with
  | none => false
  | some none => true
  | some (some left) => left * 1000 ≥ s.guardMilli cls (lanesOf p.width)

end Sys2Proof.Machine
end

