-- ==== Sys2Proof/Machine/Operands.lean ====
section
/-! DEFINITION. Reading the operands that arrive as bytes: query entries, bodies and filter terms (R192, R193, R196, R394, R395,
R406), with the range checks of R14 that need nothing but the entry. -/
namespace Sys2Proof.Machine

/-- One in-scan term of 8 bytes (R192). -/
def parseInTerm (b : List Byte) : InTerm :=
  let ctl := field b 1 1
  ⟨field b 0 1, ctl % 4, bit ctl 2, field b 4 4⟩

/-- Is an in-scan term's encoding permitted (R193)? -/
def inTermOk (b : List Byte) : Bool :=
  let op := field b 0 1
  let lo := field b 4 2
  let hi := field b 6 2
  field b 1 1 < 8 && field b 2 2 = 0 &&
    (if op = 1 ∨ op = 2 ∨ op = 3 then field b 4 4 ≠ 0
     else if op = 4 then lo ≠ 0 && hi &&& lo = hi
     else if op = 5 ∨ op = 6 then lo ≠ 0 && hi = 0
     else if op = 7 ∨ op = 8 then lo ≤ hi
     else false)

/-- Bytes of a post-filter type (R196). -/
def postWidth (ty : Nat) : Nat := match ty with
  | 0 => 1
  | 1 => 2
  | 2 => 4
  | 4 => 4
  | 6 => 4
  | _ => 8

/-- One post-filter term of 16 bytes (R196). -/
def parsePostTerm (b : List Byte) : PostTerm :=
  let ctl := field b 4 1
  ⟨field b 0 2, field b 2 1, field b 3 1, ctl % 4, bit ctl 2, field b 8 8⟩

/-- Is a post-filter term's encoding permitted (R196)? -/
def postTermOk (b : List Byte) : Bool :=
  let ty := field b 2 1
  let op := field b 3 1
  field b 0 2 < 4096 && ty ≤ 7 && op ≤ 8 && field b 4 1 < 8 && field b 5 3 = 0 &&
    allZero b (8 + postWidth ty) (8 - postWidth ty) && !(ty = 7 && 2 ≤ op && op ≤ 5) && !(ty = 6 && op ≥ 6)

/-- Bytes of the input of a query, before padding (R395). -/
def inputBytes (tokens : Bool) (fmt len : Nat) : Nat := if tokens then 4 * len else elemBytes fmt * len

/-- The input elements of a vector query as fp32 (R80). -/
def QueryFields.elements (f : QueryFields) : List F32 := elemsF32 f.fmt (f.input.take (inputBytes false f.fmt f.len))

/-- The token identifiers of a token query (R395). -/
def QueryFields.tokenIds (f : QueryFields) : List Nat := (chunks 4 (f.input.take (4 * f.len))).map leNat

/-- The fields of a query entry and body (R394, R395). -/
def parseQuery (entry body : List Byte) : QueryFields :=
  let fl := field entry 1 1
  let tokens := bit fl 1
  let fmt := field entry 2 1
  let len := field entry 6 2
  let nf := field entry 3 1
  let np := field entry 4 1
  let inLen := roundUp 8 (inputBytes tokens fmt len)
  let terms := slice (body.drop inLen) 0 (8 * nf)
  let posts := slice (body.drop (inLen + 8 * nf)) 0 (16 * np)
  { ns := field entry 16 4, idx := field entry 20 4, version := field entry 24 4, tokens, fmt, len
    input := slice body 0 (inputBytes tokens fmt len), k := field entry 32 4, nprobe := field entry 36 2
    r := if bit fl 2 then none else some (field entry 40 4), s := if bit fl 3 then none else some (field entry 44 4)
    deadlineUs := field entry 28 4, urgent := bit fl 0, minEpoch := field entry 48 8
    inTerms := (chunks 8 terms).map parseInTerm, postTerms := (chunks 16 posts).map parsePostTerm
    tag := field entry 8 8, resultAddr := field entry 72 8 }

/-- The range checks on R and S with k that do not depend on the index (R14, R539 order 1). -/
def depthOk (k : Nat) (r s : Option Nat) : Bool :=
  (match r with
    | some r => r = 0 || (k ≤ r && r ≤ 16777216)
    | none => true) &&
  (match s with
    | some s => s = 0 || (k ≤ s && s ≤ 16384)
    | none => true) &&
  (match r, s with
    | some r, some s => s ≤ r
    | _, _ => true)

/-- The checks of R539 order 1 on a parsed query: ranges of R14, finite elements (R80). -/
def fieldsOk (f : QueryFields) (open_ : Nat) : Bool :=
  1 ≤ f.k && f.k ≤ 16777216 && f.nprobe ≤ 4096 && depthOk f.k f.r f.s &&
    (f.deadlineUs = 0 || (50 ≤ f.deadlineUs && f.deadlineUs ≤ 10000000)) && f.minEpoch ≤ open_ &&
    1 ≤ f.len && f.fmt ≤ 5 && (if f.tokens then f.fmt = 0 else f.len ≤ 4096 && !f.elements.any f32NonFinite) &&
    !(f.r = some 0 && !f.postTerms.isEmpty)

/-- The checks of R539 order 1 on a query entry and its body: reserved fields, body length, terms, ranges (R394, R395). -/
def queryEntryOk (entry body : List Byte) (open_ : Nat) : Bool :=
  let f := parseQuery entry body
  let nf := field entry 3 1
  let np := field entry 4 1
  let inLen := roundUp 8 (inputBytes f.tokens f.fmt f.len)
  field entry 1 1 < 16 && nf ≤ 16 && np ≤ 16 && allZero entry 5 1 && allZero entry 38 2 && allZero entry 68 4 &&
    allZero entry 80 48 && field entry 56 8 % 8 = 0 && f.resultAddr % 16 = 0 &&
    field entry 64 4 = inLen + 8 * nf + 16 * np && field entry 64 4 ≤ 16768 &&
    (chunks 8 (slice (body.drop inLen) 0 (8 * nf))).all inTermOk &&
    (chunks 16 (slice (body.drop (inLen + 8 * nf)) 0 (16 * np))).all postTermOk && fieldsOk f open_

/-- The fields of a basic-level query descriptor (R406, R407), with the index its map entry names. -/
def parseBasicQuery (desc vec : List Byte) (ns idx : Nat) : QueryFields :=
  let fmt := if field desc 26 1 = 0 then 0 else 5
  let len := field desc 24 2
  { ns, idx, version := 0, tokens := false, fmt, len, input := slice vec 0 (inputBytes false fmt len)
    k := field desc 28 2, nprobe := field desc 30 2
    r := if field desc 32 4 = 0 then none else some (field desc 32 4), s := some 0
    deadlineUs := field desc 36 4, urgent := false, minEpoch := 0, inTerms := [], postTerms := []
    tag := field desc 0 8, resultAddr := field desc 16 8 }

/-- The range checks of a basic-level query descriptor (R406, R407). -/
def basicQueryOk (desc vec : List Byte) (open_ : Nat) : Bool :=
  field desc 26 1 ≤ 1 && field desc 27 1 ≤ 15 && field desc 28 2 ≤ 1024 && field desc 30 2 ≤ 256 && allZero desc 40 24 &&
    fieldsOk (parseBasicQuery desc vec 0 0) open_

/-! ## Filter predicates -/

/-- op_true of R193 on an attribute word. -/
def inTermTrue (t : InTerm) (word : Nat) : Bool :=
  let groups := bits word 31 0
  let flags := bits word 47 32
  let value := bits word 63 48
  let lo := bits t.arg 15 0
  let hi := bits t.arg 31 16
  match t.op with
  | 1 => groups &&& t.arg ≠ 0
  | 2 => groups &&& t.arg = t.arg
  | 3 => groups &&& t.arg = 0
  | 4 => flags &&& lo = hi
  | 5 => flags &&& lo ≠ 0
  | 6 => flags &&& lo = 0
  | 7 => lo ≤ value && value ≤ hi
  | _ => value < lo || value > hi

/-- passes of R194: every clause that has terms has one that holds. -/
def passesTerms (terms : List InTerm) (word : Nat) : Bool :=
  (List.range 4).all fun c =>
    let inC := terms.filter fun t => t.clause = c
    inC.isEmpty || inC.any fun t => xor (inTermTrue t word) t.negate

/-- The forced term of a grant (R188). -/
def forcedPass (groups word : Nat) : Bool := groups = 0 || bits word 31 0 &&& groups ≠ 0

/-- A two's complement number of `n` bytes. -/
def signedField (n v : Nat) : Int := if v ≥ 2 ^ (8 * n - 1) then (v : Int) - 2 ^ (8 * n) else v

/-- A comparison by its OP on an order (R196): EQ, NE, LT, LE, GT, GE. -/
def cmpOp (op : Nat) (lt eq : Bool) : Bool := match op with
  | 0 => eq
  | 1 => !eq
  | 2 => lt
  | 3 => lt || eq
  | 4 => !lt && !eq
  | _ => !lt

/-- A post-filter term on a payload record: none when its field is absent (R197), which makes it false whatever NEGATE. -/
def postTermTrue (t : PostTerm) (payload : List Byte) : Option Bool :=
  let n := postWidth t.ty
  if t.off + n > 4096 ∨ t.off + n > payload.length then none
  else
    let v := field payload t.off n
    let c := t.const % 2 ^ (8 * n)
    let raw : Bool :=
      if t.op = 6 then v &&& c ≠ 0
      else if t.op = 7 then v &&& c = c
      else if t.op = 8 then v &&& c = 0
      else if t.ty = 6 then
        let x : F32 := BitVec.ofNat 32 v
        let y : F32 := BitVec.ofNat 32 c
        if f32IsNaN x || f32IsNaN y then t.op = 1 else cmpOp t.op (f32Lt x y) (f32Eq x y)
      else if t.ty = 4 ∨ t.ty = 5 then
        cmpOp t.op (decide (signedField n v < signedField n c)) (decide (v = c))
      else cmpOp t.op (decide (v < c)) (decide (v = c))
    some (xor raw t.negate)

/-- The post-filter predicate, and how many terms an absent field made false (R196, R197). -/
def passesPost (terms : List PostTerm) (payload : List Byte) : Bool × Nat :=
  ((List.range 4).all fun c =>
      let inC := terms.filter fun t => t.clause = c
      inC.isEmpty || inC.any fun t => (postTermTrue t payload).getD false,
    (terms.filter fun t => (postTermTrue t payload).isNone).length)

end Sys2Proof.Machine
end

