-- ==== Sys2Proof/Machine/ExchangeOps.lean ====
section
/-! DEFINITION. What the exchange engine does for every other part: drays and their items (R344 to R351), bodies of class R (R146,
R343), the map that governs work (R354, R357), and pages marked for repair (R262). -/
namespace Sys2Proof.Machine

/-- An item with its header, padded to a multiple of 8 bytes (R344). -/
def drayItem (ty : Nat) (content : List Byte) : List Byte :=
  let c := padTo 8 content
  leBytes 1 ty ++ [0] ++ leBytes 2 (8 + c.length) ++ leBytes 4 0 ++ c

/-- ITYPE of an item. -/
def itemType (i : List Byte) : Nat := field i 0 1

/-- A STATUS item (R345). -/
def statusItem (handle list code : Nat) : List Byte := drayItem 8 (leBytes 8 handle ++ leBytes 4 list ++ leBytes 1 code ++ leBytes 3 0)

/-- Handle at the head of an item's content. -/
def itemHandle (i : List Byte) : Nat := field i 8 8

/-- Admission units of a dray's items at its destination (R320, R347). -/
def drayDemand (cls : Nat) (items : List (List Byte)) : Nat :=
  if cls = 0 then (items.filter fun i => itemType i = 1 || itemType i = 3).length
  else if cls = 2 then (items.filter fun i => itemType i = 6 || itemType i = 9).length
  else if cls = 3 then items.length else 0

/-- End of the budget of the query that an item serves: its deadline here, or its context's budget (R346, R350). -/
def State.itemBudget (s : State) (i : List Byte) : Nat :=
  match (s.queryOf (itemHandle i)).bind s.query with
  | some x => x.deadlineAt
  | none => match s.exchange.qctx.find? fun c => c.2.handle = itemHandle i with
    | some c => c.2.budgetEnd
    | none => 0

/-- BUDGET_US of a QCTX item is the remaining deadline when its dray closes (R346). -/
def State.stampBudget (s : State) (i : List Byte) : List Byte :=
  if itemType i = 1 then i.take 36 ++ leBytes 4 ((s.itemBudget i - s.time) / cyclesPerUs) ++ i.drop 40 else i

/-- Close a dray: number it, build its frame and route it (R344, R348, R349). -/
def State.closeDray (s : State) (d : Dray) : State :=
  let key := d.dest * 8 + d.cls
  let seq := s.exchange.seqs.getD key 1
  let items := d.items.map s.stampBudget
  let body := leBytes 8 (seq % 2 ^ 40 + s.dict.incarnation % 2 ^ 24 * 2 ^ 40) ++ leBytes 2 items.length ++
    leBytes 2 ((if d.urgent then 1 else 0) + if d.forwarded then 2 else 0) ++ leBytes 4 0 ++ items.flatten
  let budget := (items.map s.itemBudget).foldl max 0
  let s := { s with exchange := { s.exchange with seqs := s.exchange.seqs.set key (seq + 1), drays := s.exchange.drays.erase d } }
  let s := (s.count (objKey 0x2B10 1) body.length).meter d.tenant 19 body.length
  s.sendFrame d.dest d.cls 1 (drayDemand d.cls items) d.mapEpoch d.tenant body budget

/-- Does the dray to a destination, of a class and tenant, match? -/
def drayFor (dest cls tenant : Nat) (fwd : Bool) (d : Dray) : Bool :=
  d.dest = dest && d.cls = cls && d.tenant = tenant && d.forwarded == fwd

/-- LENGTH of a dray's frame with its items. -/
def drayLength (items : List (List Byte)) : Nat := 48 + (items.map List.length).sum

/-- Add an item to the open dray of its destination, class and tenant, closing as R349 says. -/
def State.addItem (s : State) (dest cls tenant : Nat) (fwd urgent : Bool) (item : List Byte) : State :=
  let s := match s.exchange.drays.find? (drayFor dest cls tenant fwd) with
    | some d => if drayLength (d.items ++ [item]) > s.maxFrame cls then s.closeDray d else s
    | none => s
  let d : Dray := match s.exchange.drays.find? (drayFor dest cls tenant fwd) with
    | some d => { d with items := d.items ++ [item], urgent := d.urgent || urgent }
    | none => { dest, cls, tenant, mapEpoch := s.newestMap, items := [item], openedAt := s.time
                windowNs := s.setting 0x2B00 1 2000, urgent, forwarded := fwd }
  let others := s.exchange.drays.filter fun x => !drayFor dest cls tenant fwd x
  let s := { s with exchange := { s.exchange with drays := others ++ [d] } }
  if d.items.length ≥ 1024 || d.urgent || d.windowNs = 0 then s.closeDray d else s

/-- Send a partial-result piece to its origin (R146, R343): locally, or as a frame of class R. -/
def State.sendPiece (s : State) (dest tenant : Nat) (piece : List Byte) : State :=
  if dest = s.mgmt.moduleId then s.emit (.piece dest piece) else s.sendFrame dest 1 2 0 s.newestMap tenant piece 0

/-- Send a scan summary to its origin (R124, R343). -/
def State.sendSummary (s : State) (dest tenant : Nat) (b : List Byte) : State :=
  if dest = s.mgmt.moduleId then s.emit (.summary dest b) else s.sendFrame dest 1 3 0 s.newestMap tenant b 0

/-- Send a gate message to a strand here, or to a module (R125, R343). -/
def State.sendGate (s : State) (dest strand tenant : Nat) (b : List Byte) : State :=
  if dest = s.mgmt.moduleId then s.emit (.gate dest strand b) else s.sendFrame dest 1 4 0 s.newestMap tenant b 0

/-! ## Maps -/

/-- The installed map in force at an epoch (R354, R357). -/
def State.mapAt (s : State) (e : Nat) : Option CompMap :=
  firstBy (fun a b => decide (a.epoch > b.epoch)) (s.exchange.maps.filter fun m => decide (m.epoch ≤ e))

/-- The newest installed map. -/
def State.lastMap (s : State) : Option CompMap := firstBy (fun a b => decide (a.epoch > b.epoch)) s.exchange.maps

/-- Home module and state of a shard under a map (R354). -/
def shardOf (m : CompMap) (shard : Nat) : Option (Nat × Nat) := m.shards[shard]?.map fun e => (e.home, e.state)

/-- Home and state of a shard at an epoch; without a map in force this module is every shard's LIVE home. -/
def State.homeAt (s : State) (shard e : Nat) : Nat × Nat :=
  match (s.mapAt e).bind fun m => shardOf m shard with
  | some h => h
  | none => (s.mgmt.moduleId, 0)

/-! ## Repair -/

/-- A page of an object in HBM (0) or LPDDR (1) is marked for repair and enters REPAIR (R262). Which page it is, is a free
value. The uncorrectable error scores its stack or package (R497). -/
def State.markRepair (s : State) (tier obj : Nat) : State :=
  let p := Config.failedPage s.freeCount
  let unit := if tier = 0 then unitStack (p.1 % 10) else unitPackage (p.1 % 24)
  (({ s with freeCount := s.freeCount + 1
             tiers := { s.tiers with repair := s.tiers.repair ++ [⟨tier, p.1, p.2, obj⟩] } } : State).tally 0x2810 7).score unit 200

/-- What a tier answers a read of an object: FAILED where error correction failed, and where the read touches a page in REPAIR; which page a
read touches is a free value (R260, R262; log 87). -/
def State.tierRead (s : State) (obj : Nat) (ok : Bool) : State × Bool :=
  if obj ≠ 0 && s.tiers.repair.any fun r => r.obj = obj then
    ({ s with freeCount := s.freeCount + 1 }, ok && !Config.touchesRepair s.freeCount)
  else (s, ok)

/-- A tier answers a read FAILED (R260, READS_FAILED). -/
def State.readFailed (s : State) : State := s.tally 0x2810 6

/-- A DATA_LOSS record: item key, shard, namespace, index version (R450). Its object is READS_FAILED (log 26). -/
def State.logLoss (s : State) (key shard ns ver : Nat) : State :=
  s.logEvent 0x2810 6 5 unitModule (leBytes 8 key ++ leBytes 2 shard ++ leBytes 4 ns ++ leBytes 4 ver)

end Sys2Proof.Machine
end

