-- ==== Sys2Proof/Machine/FeatureOps.lean ====
section
/-! DEFINITION. Content sent in TRANSFER items (R345), and feature rows: where they are homed, their values, reads and replicas (R355, R361,
R362, R364 to R367). -/
namespace Sys2Proof.Machine

/-! ## TRANSFER items -/

/-- Content of one TRANSFER item, cut to the greatest ILEN of R344. -/
abbrev transferChunk : Nat := 9136

/-- Send content to a module in TRANSFER items of class M (R345). -/
def State.sendTransfer (s : State) (dest ty : Nat) (content : List Byte) : State :=
  let id := s.exchange.nextTransfer
  let total := content.length
  let s := { s with exchange := { s.exchange with nextTransfer := id + 1 } }
  let parts := if content.isEmpty then [([] : List Byte)] else chunks transferChunk content
  ((List.range parts.length).zip parts).foldl (fun s p =>
    s.addItem dest 3 0 false false
      (drayItem ty (leBytes 8 id ++ leBytes 8 (p.1 * transferChunk) ++ leBytes 8 total ++ p.2))) s

/-! ## Feature rows (R355, R362, R363) -/

/-- Feature shards of a table. -/
def FeatTable.shardCount (t : FeatTable) : Nat := ceilDiv t.rows (2 ^ t.shardLog)

/-- A table ID belongs to its namespace (R360): the number by which the model names a table, its ID in the low 32 bits. -/
def tableCode (ns id : Nat) : Nat := ns * 2 ^ 32 + id % 2 ^ 32

/-- The number of a table. -/
def FeatTable.code (t : FeatTable) : Nat := tableCode t.ns t.table

/-- A table of the composition by its number. -/
def State.table (s : State) (code : Nat) : Option FeatTable := s.exchange.tables.find? fun t => t.code = code && t.deletedAt.isNone

/-- The number of the table that an item of a tenant names by its ID alone (R345): one of a namespace that the tenant may read, else any
(log 82). -/
def State.tableNamed (s : State) (tenant id : Nat) : Nat :=
  let live := s.exchange.tables.filter fun t => t.table = id && t.deletedAt.isNone
  match live.find? fun t => (s.tenantTest tenant t.ns s.epochs.open_).isSome with
  | some t => t.code
  | none => match live with
    | t :: _ => t.code
    | [] => id

/-- Number of the feature shard that holds a row: shards are numbered across tables in creation order (R355). -/
def featShardFrom : List FeatTable → Nat → Nat → Nat → Option Nat
  | [], _, _, _ => none
  | t :: ts, code, row, base =>
    if t.code = code && t.deletedAt.isNone then some (base + row / 2 ^ t.shardLog)
    else featShardFrom ts code row (base + t.shardCount)

/-- Number of the feature shard of a row. -/
def State.featShard (s : State) (code row : Nat) : Option Nat := featShardFrom s.exchange.tables code row 0

/-- Does an admitted query, of this module or a peer's served here, hold a snapshot below an epoch? -/
def State.snapBelow (s : State) (e : Nat) : Bool :=
  (s.pipe.queries.any fun kq => match kq.2.snapshot with
    | some n => decide (n < e)
    | none => false) ||
    s.exchange.qctx.any fun kc => decide (kc.2.snapshot < e)

/-- Is a table of a deleted namespace to be freed: no admitted query holds a snapshot below its end (R235)? -/
def State.tableGone (s : State) (t : FeatTable) : Bool := match t.deletedAt with
  | some e => !s.snapBelow e && decide (e ≤ s.usableClosed)
  | none => false

/-- The table that a feature shard belongs to, with the number of its first row (R355). -/
def shardTable : List FeatTable → Nat → Option (FeatTable × Nat)
  | [], _ => none
  | t :: ts, f => if f < t.shardCount then some (t, f * 2 ^ t.shardLog) else shardTable ts (f - t.shardCount)

/-- The FEATURE_SHARD object of a feature shard, or 0 (R248). -/
def State.featObj (s : State) (f : Nat) : Nat := match s.tiers.objs.find? fun kv => kv.2.kind = 8 && kv.2.shard = f with
  | some kv => kv.1
  | none => 0

/-- The FEATURE_REPLICA object, or 0 (R248, R365). -/
def State.replicaObj (s : State) : Nat := match s.tiers.objs.find? fun kv => kv.2.kind = 9 with
  | some kv => kv.1
  | none => 0

/-- Home and state of a feature shard at an epoch; without a map in force this module is its LIVE home. -/
def State.featHome (s : State) (shard e : Nat) : Nat × Nat :=
  match (s.mapAt e).bind fun m => m.features[shard]? with
  | some f => (f.home, f.state)
  | none => (s.mgmt.moduleId, 0)

/-- Key of a row. -/
def rowKey (table row : Nat) : Nat := table * 2 ^ 40 + row

/-- The newest value of a row written in an epoch that counts as closed, with that epoch; the default row before the first write. -/
def State.rowValue (s : State) (t : FeatTable) (row : Nat) : List Byte × Nat :=
  match s.exchange.rows.get (rowKey t.code row) with
  | some r => ((r.next.filter fun v => decide (v.2 ≤ s.usableClosed)).getLast?).getD (r.value, r.version)
  | none => (t.default_, 0)

/-- Send an INVALIDATE body to a holder (R343, R366). -/
def State.sendInvalidate (s : State) (peer : Nat) (entries : List (Nat × Nat × Nat)) : State :=
  let body := (entries.map fun e => leBytes 4 e.1 ++ leBytes 4 0 ++ leBytes 8 e.2.1 ++ leBytes 8 e.2.2).flatten
  let s := { s with exchange := { s.exchange with invalSent := s.exchange.invalSent.set peer (s.time, s.setting 0x2B00 5 5000) } }
  s.sendFrame peer 4 8 0 s.newestMap 0 body 0

/-- The holders of rows of this home. -/
def State.holders (s : State) : List Nat := (s.exchange.replicasOut.map (·.peer)).eraseDups

/-- The end of a replica lease that a body started (R367): after the larger of its REPLICA_LEASE and twice the epoch length in force. -/
def State.leaseEnd (s : State) (body : Nat × Nat) : Nat := body.1 + max body.2 (2 * s.epochs.nextLength) * cyclesPerUs

/-- A row read at its home for a module: counted, added to its shard's bytes, and one read in 64 of a shard sampled with its reader, in at
most 4,096 entries (R364, R365, R377). -/
def State.serveRow (s : State) (reader : Nat) (t : FeatTable) (row : Nat) : State × List Byte × Nat :=
  let v := s.rowValue t row
  let f := (s.featShard t.code row).getD 0
  let s := (s.count (objKey 0x2B10 3) t.rowBytes).objRead (s.featObj f) t.rowBytes
  let x := s.exchange
  let n := x.rowReads.getD f 0 + 1
  let k := rowKey t.code row
  let sample : Bool := n % 64 = 0 && ((x.sampled.get k).isSome || (x.sampled.filter fun kv => s.featShard (kv.1 / 2 ^ 40) (kv.1 % 2 ^ 40) = some f).length < 4096)
  ({ s with exchange := { x with
    served := x.served.set f (x.served.getD f 0 + t.rowBytes), rowReads := x.rowReads.set f n
    sampled := if sample then x.sampled.set k (x.sampled.getD k 0 + 1) else x.sampled
    readers := if sample then x.readers.set (k * 4096 + reader) (x.readers.getD (k * 4096 + reader) 0 + 1) else x.readers
    hotRate := if sample then s.setting 0x2B00 6 10000 else x.hotRate } }, v)

/-- A valid replica of a row held here, within its home's lease (R361, R367). -/
def State.replicaOf (s : State) (table row : Nat) : Option Replica :=
  s.exchange.replicasIn.find? fun r => r.table = table && r.row = row && r.valid &&
    (s.exchange.invalSeen.get r.peer).any fun c => decide (s.time ≤ s.leaseEnd c)

/-- How a feature input whose index is known is resolved (R361). -/
inductive RowPlan where
  | default
  | replica
  | here
  | ask (home : Nat)
  deriving DecidableEq, Repr

/-- The row that an input uses, in the order of R361. -/
def State.rowPlan (s : State) (table row : Nat) : RowPlan := match s.table table with
  | none => .default
  | some t =>
    if row ≥ t.rows then .default
    else if (s.replicaOf table row).isSome then .replica
    else
      let h := s.featHome ((s.featShard table row).getD 0) s.epochs.open_
      if h.1 = s.mgmt.moduleId then .here else .ask h.1

/-- ROWREQ items for the rows of one table at one home (R345). -/
def State.sendRowReq (s : State) (home tenant handle table : Nat) (urgent : Bool) (rows : List Nat) : State :=
  (chunks 1024 rows).foldl (fun s c => s.addItem home 0 tenant false urgent
    (drayItem 4 (leBytes 8 handle ++ leBytes 4 table ++ leBytes 2 c.length ++ leBytes 2 0 ++ (c.map (leBytes 8)).flatten))) s

end Sys2Proof.Machine
end

