-- ==== Sys2Proof/Machine/Elementary.lean ====
section
/-! DEFINITION. The functions that the vector unit approximates, and the bound on its results (R162): each result is free, within 2 units
in the last place of the exact value. The exact value is known here to far more bits than the bound needs, in fixed point with 240
fraction bits (log 80). -/
namespace Sys2Proof.Machine

/-- Fraction bits of the fixed-point numbers of this file. -/
abbrev fxBits : Nat := 240

/-- One. -/
abbrev fxOne : Int := 2 ^ fxBits

/-- Product of two fixed-point numbers. -/
def fxMul (a b : Int) : Int := a * b / fxOne

/-- Sum of a power series by its terms: `next i t` is the term after t. -/
def fxSeries (next : Nat → Int → Int) (value : Nat → Int → Int) (n : Nat) (t : Int) : Int :=
  ((List.range n).foldl (fun (a : Int × Int) i => (a.1 + value i a.2, next i a.2)) (0, t)).1

/-- The inverse hyperbolic tangent of |z| ≤ 1/3. -/
def fxAtanh (z : Int) : Int := fxSeries (fun _ t => fxMul t (fxMul z z)) (fun i t => t / (2 * i + 1)) 90 z

/-- The inverse tangent of 1 / k. -/
def fxAtanInv (k : Int) : Int := fxSeries (fun _ t => -t / (k * k)) (fun i t => t / (2 * i + 1)) 60 (fxOne / k)

/-- The natural logarithm of 2. -/
def fxLn2 : Int := 2 * fxAtanh (fxOne / 3)

/-- π. -/
def fxPi : Int := 16 * fxAtanInv 5 - 4 * fxAtanInv 239

/-- A finite fp32 in fixed point: exact, as its least unit is 2^-149. -/
def fxOf (neg : Bool) (m : Nat) (e : Int) : Int := signedAt neg m (e + fxBits) 0

/-- A real number as a fraction, the denominator positive. -/
structure Frac where
  num : Int
  den : Nat
  deriving DecidableEq, Repr

/-- e^x for |x| ≤ 200: the fixed-point power of e for the part below ln 2, times a power of two. -/
def fracExp (x : Int) : Frac :=
  let k := x / fxLn2
  let r := fxSeries (fun i t => fxMul t (x - k * fxLn2) / (i + 1)) (fun _ t => t) 70 fxOne
  if k < 0 then ⟨r, 2 ^ (fxBits + k.natAbs)⟩ else ⟨r * 2 ^ k.natAbs, 2 ^ fxBits⟩

/-- (a e^x + b) / (c e^x + d). -/
def fracMoebius (x a b c d : Int) : Frac :=
  let p := fracExp x
  ⟨a * p.num + b * p.den, (c * p.num + d * p.den).toNat⟩

/-- The logarithm of m × 2^e, m not 0. -/
def fracLog (m : Nat) (e : Int) : Frac :=
  let l := m.log2
  let y : Int := m * 2 ^ (fxBits - l)
  ⟨2 * fxAtanh ((y - fxOne) * fxOne / (y + fxOne)) + (e + l) * fxLn2, 2 ^ fxBits⟩

/-- The error function for |x| ≤ 6. -/
def fracErf (x : Int) : Frac :=
  let q := fxMul x x
  let sum := fxSeries (fun i t => -fxMul t q / (i + 1)) (fun i t => t / (2 * i + 1)) 240 fxOne
  let scale : Int := isqrt ((4 * fxOne * fxOne * fxOne / fxPi).toNat)
  ⟨x * fxMul sum scale, 2 ^ (2 * fxBits)⟩

/-- The exact value of a function, where it is finite and the rule names the function: Gelu has no bound of its own (R162, R167). -/
def vecExact (f : VecFn) (x : F32) : Option Frac := match f32Val x with
  | .fin neg m e =>
    let v := fxOf neg m e
    let far : Bool := v.natAbs > 200 * 2 ^ fxBits
    let limit (lo hi : Int) : Option Frac := some ⟨if neg then lo else hi, 1⟩
    match f with
    | .exp => if far then (if neg then some ⟨0, 1⟩ else none) else some (fracExp v)
    | .sigmoid => if far then limit 0 1 else some (fracMoebius v 1 0 1 1)
    | .tanh => if far then limit (-1) 1 else some (fracMoebius (2 * v) 1 (-1) 1 1)
    | .erf => if v.natAbs > 6 * 2 ^ fxBits then limit (-1) 1 else some (fracErf v)
    | .log => if neg || m = 0 then none else some (fracLog m e)
    | .rsqrt => if neg || m = 0 then none
        else let p := scaleUp m e; some ⟨isqrt (2 ^ (2 * fxBits) * p.2 / p.1), 2 ^ fxBits⟩
    | .geluErf => none
    | .geluTanh => none
  | _ => none

/-- Is an fp32 within 2 units in the last place of a fraction? The unit is that of the fraction's own binade (R162). A fraction beyond the
largest fp32 bounds nothing. -/
def withinTwoUlp (r : F32) (x : Frac) : Bool :=
  let near := f32Of (x.num < 0) x.num.natAbs x.den
  match f32Val near, f32Val r with
  | .fin _ _ q, .fin neg m e =>
    let u := scaleUp 2 q
    let v := scaleUp m e
    let d := (if neg then -1 else 1) * (v.1 : Int) * x.den - x.num * v.2
    decide (d.natAbs * u.2 ≤ u.1 * (x.den * v.2))
  | .fin _ _ _, _ => false
  | _, _ => true

/-- What the vector unit returns: a free value within the bound of R162; where the free value lies outside it, the exact value rounded. -/
def vecResult (f : VecFn) (x : F32) : F32 :=
  let r := Config.vecFn f x
  match vecExact f x with
  | none => r
  | some y => if withinTwoUlp r y then r else f32Of (y.num < 0) y.num.natAbs y.den

end Sys2Proof.Machine
end

