-- ==== Sys2Proof/Machine/SketchOps.lean ====
section
/-! DEFINITION. Sketches, bit i in bit i mod 64 of plane word i div 64 (R78 to R82, R536): the projection of a vector under a generation, and Hamming distances. -/
namespace Sys2Proof.Machine

/-- Sketch width in bits by its code (R83). -/
def widthBits (w : Nat) : Nat := 128 * 2 ^ (w % 4)

/-- A sum in ascending order, rounded at each step, from +0. -/
def chainSum (xs : List F32) : F32 := xs.foldl f32Add 0

/-- The fixed accumulation of R79: 64-element partial sums, added in ascending order. -/
def projSum (xs : List F32) : F32 := chainSum ((chunks 64 xs).map chainSum)

/-- Row `j` of the seeded projection matrix (R536): ±1 by bits of the SHAKE256 stream, with no product to round. -/
def seededRow (stream : List Byte) (d j : Nat) : List Bool :=
  (List.range d).map fun i => let n := j * d + i; ((stream.getD (n / 8) 0).toNat).testBit (n % 8)

/-- The stream of a version's seeded matrix (R536). -/
def seededStream (ns idx ver w d : Nat) : List Byte :=
  shake256 (ascii "ZR96PROJ" ++ leBytes 4 ns ++ leBytes 4 idx ++ leBytes 4 ver) (ceilDiv (w * d) 8)

/-- A sketch bit from its sum h, and whether h was NaN (R79). -/
def sketchBit (h : F32) : Bool × Bool := if f32IsNaN h then (false, true) else (f32IsZero h || f32Key h ≥ 0, false)

/-- The bits of a list, bit 0 first, as one number. -/
def packBits (bs : List Bool) : Nat := bs.foldr (fun b acc => acc * 2 + if b then 1 else 0) 0

/-- The sketch of a vector under a generation of a version (R79), with the count of NaN sums. -/
def sketchUnder (v : Version) (g : Gen) (scale : F32) (x : List F32) : Nat × Nat :=
  let w := widthBits v.width
  let hs : List F32 :=
    if g.seeded then
      let y := x.map fun e => f32Mul e scale
      let stream := seededStream v.ns v.idx v.ver w v.dim
      (List.range w).map fun j =>
        projSum (List.zipWith (fun b e => if b then e else f32Neg e) (seededRow stream v.dim j) y)
    else
      let y := List.zipWith (fun e m => f32Sub (f32Mul e scale) m) x g.mu
      (List.range w).map fun j => projSum (List.zipWith f32Mul (g.rows.getD j []) y)
  let bs := hs.map sketchBit
  (packBits (bs.map (·.1)), (bs.filter (·.2)).length)

/-- Generations of a version active at a snapshot epoch, at most two (R82, R231). -/
def gensAt (v : Version) (e : Nat) : List Gen := v.gens.filter fun g => existsAt g.activeFrom g.retiredAt e

/-- The sketches of a vector under the generations active at an epoch, by generation number, with the NaN sums. -/
def sketchesAt (v : Version) (e : Nat) (scale : F32) (x : List F32) : List (Nat × Nat) × Nat :=
  let r := (gensAt v e).map fun g => (g.num, sketchUnder v g scale x)
  (r.map fun p => (p.1, p.2.1), (r.map fun p => p.2.2).sum)

/-- Hamming distance of two sketches of `w` bits. -/
def hamming (w a b : Nat) : Nat := popcount w (a ^^^ b)

/-- The sketch a query carries for a generation. -/
def sketchFor (sketches : List (Nat × Nat)) (gen : Nat) : Nat :=
  match sketches.find? fun s => s.1 = gen with
  | some s => s.2
  | none => 0

end Sys2Proof.Machine
end

