-- ==== Sys2Proof/Machine/Quant.lean ====
section
/-! DEFINITION. Quantisation and exact scores (R117 to R122, R128 to R134, R219): code and scale records, the quantiser, the stored
vector, the score and the estimate. CODE_FMT is 0 C4_E2M1, 1 C4_INT, 2 C8_E4M3, 3 C8_E5M2, 4 C8_INT; 5 stands for RC2. -/
namespace Sys2Proof.Machine

/-- Bits of a code (R118). -/
def codeBits (fmt : Nat) : Nat := if fmt ≤ 1 then 4 else if fmt = 5 then 2 else 8

/-- The decoded value of a code (R118). -/
def codeVal (fmt c : Nat) : FVal := match fmt with
  | 0 => e2m1Val c
  | 1 => intVal 4 c
  | 2 => e4m3Val c
  | 3 => ieeeVal 2 5 (-16) c
  | 4 => intVal 8 c
  | _ => rc2Val c

/-- cmax of a format (R118), for E4M3 scales. -/
def codeMax (fmt : Nat) : Nat := match fmt with
  | 0 => 6
  | 1 => 7
  | 2 => 448
  | 3 => 57344
  | _ => 127

/-- emax of a format (R118). -/
def codeEmax (fmt : Nat) : Int := match fmt with
  | 0 => 2
  | 1 => 2
  | 2 => 8
  | 3 => 15
  | 4 => 6
  | _ => 0

/-- Groups of 32 elements (R117). -/
def groupsOf (d : Nat) : Nat := ceilDiv d 32
/-- CODE_REC, SCALE_REC and RED_REC (R117). -/
def codeRec (fmt d : Nat) : Nat := (if fmt ≤ 1 then 16 else 32) * groupsOf d
/-- Bytes of a scale record. -/
def scaleRec (d : Nat) : Nat := 8 * ceilDiv (groupsOf d) 8
/-- Bytes of a reduced record. -/
def redRec (d : Nat) : Nat := 8 * groupsOf d + scaleRec d

/-- The code of element `i` in a record (R119). -/
def codeAt (fmt : Nat) (r : List Byte) (i : Nat) : Nat :=
  let n := 8 / codeBits fmt
  ((r.getD (i / n) 0).toNat >>> (codeBits fmt * (i % n))) % 2 ^ codeBits fmt

/-- The value of a scale byte (R120): E8M0 (0) or E4M3 (1). -/
def scaleVal (sfmt b : Nat) : FVal :=
  if sfmt = 0 then (if b = 255 then .nan else .fin false 1 ((b : Int) - 127))
  else if b ≥ 127 then .nan else e4m3Val b

/-! ## The quantiser (R121) -/

/-- The code of a quotient (R121, R122): sign and magnitude n / d. -/
def toCode (fmt : Nat) (neg : Bool) (n d : Nat) : Nat := match fmt with
  | 0 => roundMag fmtE2m1 n d + if neg then 8 else 0
  | 1 => let m := min ((2 * n + d) / (2 * d)) 7; if neg then (16 - m) % 16 else m
  | 2 => roundMag fmtE4m3 n d + if neg then 128 else 0
  | 3 => roundMag fmtE5m2 n d + if neg then 128 else 0
  | 4 => let m := min ((2 * n + d) / (2 * d)) 127; if neg then (256 - m) % 256 else m
  | _ => if neg then (if n ≥ d then 0 else 1) else if n ≥ d then 3 else 2

/-- Sign and magnitude of a finite fp32 as integer and power of two. -/
def finParts (x : F32) : Bool × Nat × Int := match f32Val x with
  | .fin neg m e => (neg, m, e)
  | _ => (false, 0, 0)

/-- The largest magnitude of a group, as an fp32 without sign. -/
def groupMax (xs : List F32) : F32 := BitVec.ofNat 32 ((xs.map fun x => x.toNat % 2 ^ 31).foldl max 0)

/-- Scale byte of a group whose largest magnitude is `a` (R121), with the scale as integer and power of two. -/
def groupScale (fmt sfmt : Nat) (a : F32) : Nat × Nat × Int :=
  let (_, m, e) := finParts a
  if sfmt = 0 then
    let ex : Int := if m = 0 then -127 else max (-127) (min 127 ((m.log2 : Int) + e - codeEmax fmt))
    ((ex + 127).toNat, 1, ex)
  else
    let p := scaleUp m e
    let b := roundMag fmtE4m3 p.1 (p.2 * codeMax fmt)
    let b := if b = 0 then 1 else b
    match e4m3Val b with
    | .fin _ sm se => (b, sm, se)
    | _ => (b, 1, 0)

/-- Quantise one group: its scale byte and its codes (R121). -/
def quantiseGroup (fmt sfmt : Nat) (xs : List F32) : Nat × List Nat :=
  let (b, sm, se) := groupScale fmt sfmt (groupMax xs)
  (b, xs.map fun x =>
    let (neg, m, e) := finParts x
    let q := quotVal neg m e sm se
    toCode fmt neg q.2.1 q.2.2)

/-- Pack codes into bytes (R119). -/
def packCodes (fmt : Nat) (cs : List Nat) : List Byte :=
  (chunks (8 / codeBits fmt) cs).map fun c => BitVec.ofNat 8 (c.foldr (fun x acc => acc * 2 ^ codeBits fmt + x) 0)

/-- Quantise a vector: code record and scale record (R117, R119, R121). -/
def quantise (fmt sfmt : Nat) (x : List F32) : List Byte × List Byte :=
  let gs := (chunks 32 (x ++ List.replicate (32 * groupsOf x.length - x.length) 0)).map (quantiseGroup fmt sfmt)
  (packCodes fmt (gs.flatMap (·.2)), padTo 8 (gs.map fun g => BitVec.ofNat 8 g.1))

/-- The reduced record of a vector: RC2 codes, then E8M0 scales (R119, R121). -/
def reduce (x : List F32) : List Byte := let r := quantise 5 0 x; r.1 ++ r.2

/-- An element of the de-quantised item: s[g] × value(c[i]) (R131). -/
def dequant (fmt sfmt : Nat) (codes scales : List Byte) (i : Nat) : F32 :=
  f32Mul (f32OfVal (scaleVal sfmt (scales.getD (i / 32) 0).toNat)) (f32OfVal (codeVal fmt (codeAt fmt codes i)))

/-! ## The stored vector (R219) -/

/-- The stored vector of a submitted vector of an element format: 4-byte scale, then int8 codes. -/
def storeVector (fmt : Nat) (raw : List Byte) (x : List F32) : List Byte :=
  let a := groupMax x
  let s : F32 :=
    if fmt = 5 && !raw.contains 0x80 then 0x3F800000
    else if f32IsZero a then 0x3F800000
    else f32Div a (f32OfNat 127)
  let (_, sm, se) := finParts s
  leBytes 4 s.toNat ++ x.map fun e =>
    let (neg, m, ex) := finParts e
    let q := quotVal neg m ex sm se
    BitVec.ofNat 8 (if sm = 0 then 0 else toCode 4 neg q.2.1 q.2.2)

/-- The vector that a stored vector gives back: s × c[i] in fp32. -/
def restoreVector (b : List Byte) : List F32 :=
  let s : F32 := BitVec.ofNat 32 (field b 0 4)
  (b.drop 4).map fun c => f32Mul s (f32OfVal (intVal 8 c.toNat))

/-! ## Scores (R128 to R134) -/

/-- The plus-one chain of squares: qq (R128). -/
def squareSum (q : List F32) : F32 := chainSum (q.map fun e => f32Mul e e)

/-- The last step of a score: by METRIC, from dot, qq and vv; whether an L2 term was clamped (R130). -/
def metricScore (metric : Nat) (dot qq vv : F32) : F32 × Bool :=
  match metric with
  | 0 => (dot, false)
  | 1 =>
    let n := f32Sqrt (f32Mul qq vv)
    if f32IsZero n then (f32NaN, false) else (f32Div dot n, false)
  | _ =>
    let t := f32Sub (f32Add qq vv) (f32Mul 0x40000000 dot)
    if f32Lt t 0 then (f32Neg 0, true) else (f32Neg t, false)

/-- score of R130 on codes and scales read element by element and group by group. -/
def rerankScore (metric fmt sfmt : Nat) (q : List F32) (codes scales : List Byte) : F32 × Bool :=
  let groups := chunks 32 q
  let r := (List.range groups.length).foldl (fun (a : F32 × F32) g =>
    let es := groups.getD g []
    let p := (List.range es.length).foldl (fun (b : F32 × F32) j =>
      let v := f32OfVal (codeVal fmt (codeAt fmt codes (32 * g + j)))
      (f32Add b.1 (f32Mul v (es.getD j 0)), f32Add b.2 (f32Mul v v))) ((0 : F32), (0 : F32))
    let s := f32OfVal (scaleVal sfmt (scales.getD g 0).toNat)
    (f32Add a.1 (f32Mul s p.1), f32Add a.2 (f32Mul (f32Mul s s) p.2))) ((0 : F32), (0 : F32))
  metricScore metric r.1 (squareSum q) r.2

/-- The Hamming score −DIST (R25, R130). -/
def hammingScore (dist : Nat) : F32 := f32Neg (f32OfNat dist)

/-- estimate of R134 at a distance, for sketches of `w` bits. -/
def estimateScore (metric w : Nat) (qq normEst : F32) (dist : Nat) : F32 × Bool :=
  let c := cosTab (dist * 1024 / w)
  let root := f32Mul (f32Mul (f32Sqrt qq) normEst) c
  match metric with
  | 1 => (c, false)
  | 0 => (root, false)
  | _ =>
    let t := f32Sub (f32Add qq (f32Mul normEst normEst)) (f32Mul 0x40000000 root)
    if f32Lt t 0 then (f32Neg 0, true) else (f32Neg t, false)

end Sys2Proof.Machine
end

