-- ==== Sys2Proof/Machine/Tensor.lean ====
section
/-! DEFINITION. What tensor tiles compute (R158 to R164, R167): operand conversion, the fp32 dot product over blocks of 32, table mode,
the vector unit, and the run of a compiled graph. Tiles take rows and columns, never parts of a reduction, so neither the number of
tiles nor their choice enters any result (R163). -/
namespace Sys2Proof.Machine

/-! ## Operand pairs and formats (R158, R159) -/

/-- Bits of an MX element, 0 for an integer or bf16. -/
def mxBits : NumFmt → Nat
  | .e4m3 => 8
  | .e5m2 => 8
  | .e2m3 => 6
  | .e3m2 => 6
  | .e2m1 => 4
  | _ => 0

/-- Does the pair exist (R158, R159)? MXFP4 meets MXFP4 and MXFP6 only. -/
def productPair (l r : NumFmt) : Bool :=
  match l, r with
  | .bf16, .bf16 => true
  | .int8, .int8 => true
  | .int8, .int4 => true
  | .int4, .int8 => true
  | .int4, .int4 => true
  | _, _ => mxBits l ≠ 0 && mxBits r ≠ 0 && mxBits l ≤ mxBits r + 2 && mxBits r ≤ mxBits l + 2

/-- The exact value of a code. -/
def elementVal (f : NumFmt) (c : Nat) : FVal := match f with
  | .int8 => intVal 8 (c % 256)
  | .int4 => intVal 4 (c % 16)
  | .e4m3 => e4m3Val c
  | .e5m2 => ieeeVal 2 5 (-16) c
  | .e2m3 => magVal 3 (-3) (c.testBit 5) (c % 32)
  | .e3m2 => magVal 2 (-4) (c.testBit 5) (c % 32)
  | .e2m1 => e2m1Val c
  | .bf16 => ieeeVal 7 8 (-133) c

/-- The binary format of an MX element. -/
def mxFormat : NumFmt → FFmt
  | .e4m3 => fmtE4m3
  | .e5m2 => fmtE5m2
  | .e2m3 => fmtE2m3
  | .e3m2 => fmtE3m2
  | _ => fmtE2m1

/-- The power of two of an MX element's largest normal number: emax. -/
def mxEmax : NumFmt → Int
  | .e4m3 => 8
  | .e5m2 => 15
  | .e3m2 => 4
  | _ => 2

/-! ## Conversion of activations (R161, R122) -/

/-- One block of 32 as MX elements with their shared scale; a NaN or an infinity in the block makes the scale NaN. -/
def mxBlock (f : NumFmt) (xs : List F32) : FVal × List FVal :=
  if xs.any f32NonFinite then (.nan, xs.map fun _ => .nan)
  else
    let (_, m, e) := finParts (groupMax xs)
    let ex : Int := if m = 0 then -127 else max (-127) (min 127 ((m.log2 : Int) + e - mxEmax f))
    let fm := mxFormat f
    (.fin false 1 ex, xs.map fun x =>
      let (neg, m, e) := finParts x
      let q := quotVal neg m e 1 ex
      magVal fm.man fm.qmin neg (roundMag fm q.2.1 q.2.2))

/-- The magnitude to which an integer format of `n` bits saturates. -/
def intMax (n : Nat) : Nat := 2 ^ (n - 1) - 1

/-- An exact quotient of two fp32 values rounded once to an integer format, saturating (R122). -/
def quotInt (n : Nat) (x s : F32) : Int :=
  match f32Val x, f32Val s with
  | .nan, _ => 0
  | _, .nan => 0
  | .inf _, .inf _ => 0
  | .inf a, .fin b _ _ => roundInt (intMax n) (.inf (a != b))
  | .fin _ _ _, .inf _ => 0
  | .fin a m e, .fin b k g =>
    if k = 0 then (if m = 0 then 0 else roundInt (intMax n) (.inf (a != b)))
    else
      let p := scaleUp m (e - g)
      let v := min ((2 * p.1 + p.2 * k) / (2 * (p.2 * k))) (intMax n)
      if a != b then -(v : Int) else v

/-- An integer as an exact value. -/
def intFVal (v : Int) : FVal := .fin (decide (v < 0)) v.natAbs 0

/-- An exact value rounded to bf16 and given back as an exact value (R122). -/
def toBf16 (x : F32) : FVal := match f32Val x with
  | .fin neg m e =>
    let p := scaleUp m e
    ieeeVal 7 8 (-133) (roundMag fmtBf16 p.1 p.2 + if neg then 2 ^ 15 else 0)
  | v => v

/-- One row or column of a product, in its format: the exact elements, and for an MX format the exact scale of each block. -/
structure ProdRow where
  vals : List FVal
  scales : List FVal
  deriving DecidableEq, Repr

/-- An activation row in a format (R161). -/
def activationRow (f : NumFmt) (scale : F32) (xs : List F32) : ProdRow := match f with
  | .int8 => ⟨xs.map fun x => intFVal (quotInt 8 x scale), []⟩
  | .int4 => ⟨xs.map fun x => intFVal (quotInt 4 x scale), []⟩
  | .bf16 => ⟨xs.map toBf16, []⟩
  | _ => let bs := (chunks 32 xs).map (mxBlock f); ⟨bs.flatMap (·.2), bs.map (·.1)⟩

/-- A weight row in a format. -/
def weightRow (f : NumFmt) (codes scales : List Nat) : ProdRow :=
  ⟨codes.map (elementVal f), if mxBits f = 0 then [] else scales.map (scaleVal 0)⟩

/-! ## The dot product (R160) -/

/-- The exact product of two values. -/
def mulVal (x y : FVal) : FVal := match x, y with
  | .nan, _ => .nan
  | _, .nan => .nan
  | .inf a, .inf b => .inf (a != b)
  | .inf a, .fin b n _ => if n = 0 then .nan else .inf (a != b)
  | .fin a m _, .inf b => if m = 0 then .nan else .inf (a != b)
  | .fin a m e, .fin b n g => .fin (a != b) (m * n) (e + g)

/-- The exact sum of two values; an exact zero is plus zero. -/
def addVal (x y : FVal) : FVal := match x, y with
  | .nan, _ => .nan
  | _, .nan => .nan
  | .inf a, .inf b => if a = b then .inf a else .nan
  | .inf a, .fin _ _ _ => .inf a
  | .fin _ _ _, .inf b => .inf b
  | .fin a m e, .fin b n g =>
    let lo := min e g
    let v := signedAt a m e lo + signedAt b n g lo
    .fin (decide (v < 0)) v.natAbs lo

/-- The exact sum of one block's products. -/
def blockSum (xs ys : List FVal) : FVal := (List.zipWith mulVal xs ys).foldl addVal (.fin false 0 0)

/-- dot of R160: ascending blocks of 32, each block's exact sum rounded once, scaled with one more rounding where the operands are MX,
and added to the fp32 accumulator. An integer block's sum is at most 2^19, so its rounding is exact. -/
def tensorDot (a b : ProdRow) : F32 :=
  let mx := !a.scales.isEmpty || !b.scales.isEmpty
  let blocks := (chunks 32 a.vals).zip (chunks 32 b.vals)
  blocks.zipIdx.foldl (fun acc x =>
    let p := f32OfVal (blockSum x.1.1 x.1.2)
    let p := if mx then
        f32OfVal (mulVal (f32Val p) (mulVal (a.scales.getD x.2 .nan) (b.scales.getD x.2 .nan)))
      else p
    f32Add acc p) 0

/-- One output element of a table-mode node: the dot path of R130 on fp32 activations (R164). -/
def tableDot (fmt sfmt : Nat) (x : List F32) (col : List Byte × List Byte) : F32 := (rerankScore 0 fmt sfmt x col.1 col.2).1

/-! ## The vector unit (R162) -/

/-- The larger operand; where neither is larger (a NaN, zeros of both signs) the spec states none, and the value is free (log 80). -/
def f32Max (x y : F32) : F32 := if f32Lt x y then y else if f32Lt y x then x else if x = y then x else Config.unordered x y

/-- The smaller operand, as f32Max. -/
def f32Min (x y : F32) : F32 := if f32Lt x y then x else if f32Lt y x then y else if x = y then x else Config.unordered x y

/-- A truth value as fp32. -/
def f32Bool (b : Bool) : F32 := if b then 0x3F800000 else 0

/-- An integer as fp32. -/
def f32OfInt (v : Int) : F32 := f32OfVal (intFVal v)

/-- An operator of one operand. -/
def unary (op : UnOp) (x : F32) : F32 := match op with
  | .neg => f32Neg x
  | .abs => x &&& 0x7FFFFFFF
  | .sqrt => f32Sqrt x
  | .reciprocal => f32Div 0x3F800000 x
  | .relu => f32Max x 0
  | .approx f => vecResult f x
  | .powHalf => f32Sqrt x
  | .powTwo => f32Mul x x
  | .powThree => f32Mul (f32Mul x x) x
  | .castBf16 => f32OfVal (toBf16 x)
  | .castInt n => f32OfInt (roundInt (intMax n) (f32Val x))

/-- An operator of two operands. -/
def binary (op : BinOp) (x y : F32) : F32 := match op with
  | .add => f32Add x y
  | .sub => f32Sub x y
  | .mul => f32Mul x y
  | .div => f32Div x y
  | .max => f32Max x y
  | .min => f32Min x y
  | .equal => f32Bool (f32Eq x y)
  | .less => f32Bool (f32Lt x y)
  | .greater => f32Bool (f32Lt y x)

/-- The sum of a row in ascending order over its length. -/
def rowMean (xs : List F32) : F32 := f32Div (chainSum xs) (f32OfNat xs.length)

/-- The largest element of a row. -/
def rowMax : List F32 → F32
  | [] => f32NegInf
  | x :: xs => xs.foldl f32Max x

/-- Softmax of a row: the maximum subtracted, the exponentials summed in ascending order (R162). -/
def softmaxRow (xs : List F32) : List F32 :=
  let es := xs.map fun x => vecResult .exp (f32Sub x (rowMax xs))
  let t := chainSum es
  es.map fun e => f32Div e t

/-- LayerNormalization of a row: the mean, then the variance, in two ascending passes (R162). How a deviation is divided by the root of
the variance is not stated, and its result is free (log 80). -/
def normRow (eps : F32) (scale : List F32) (bias : Option (List F32)) (xs : List F32) : List F32 :=
  let mean := rowMean xs
  let dev := xs.map fun x => f32Sub x mean
  let var := rowMean (dev.map fun x => f32Mul x x)
  dev.zipIdx.map fun d =>
    let y := f32Mul (Config.normalised d.1 var eps) (scale.getD d.2 0)
    match bias with
    | some b => f32Add y (b.getD d.2 0)
    | none => y

/-! ## Tensors -/

/-- Number of elements of a shape. -/
def volume (shape : List Nat) : Nat := shape.foldl (· * ·) 1

/-- The index along each axis of element `i`. -/
def unravel : List Nat → Nat → List Nat
  | [], _ => []
  | n :: ns, i => (i / volume ns) % n :: unravel ns i

/-- The element at an index along each axis, where an axis of length 1 repeats. -/
def ravel : List Nat → List Nat → Nat
  | n :: ns, i :: is => (if n = 1 then 0 else i) * volume ns + ravel ns is
  | _, _ => 0

/-- An element of a tensor broadcast to more or longer axes: axes are matched from the last. -/
def elementAt (t : Tensor) (idx : List Nat) : F32 := t.data.getD (ravel t.shape (idx.drop (idx.length - t.shape.length))) 0

/-- A tensor built from its shape and its elements. -/
def buildTensor (shape : List Nat) (f : List Nat → F32) : Tensor := ⟨shape, (List.range (volume shape)).map fun i => f (unravel shape i)⟩

/-- The shape of a broadcast: axes matched from the last, the longer one of each pair. -/
def joinShape (a b : List Nat) : List Nat :=
  let n := max a.length b.length
  List.zipWith max (List.replicate (n - a.length) 1 ++ a) (List.replicate (n - b.length) 1 ++ b)

/-- A tensor of a broadcast operation. -/
def zipTensor (f : F32 → F32 → F32) (a b : Tensor) : Tensor :=
  buildTensor (joinShape a.shape b.shape) fun i => f (elementAt a i) (elementAt b i)

/-- The rows of a tensor: its elements by the last axis. -/
def tensorRows (t : Tensor) : List (List F32) := chunks (max 1 (t.shape.getLastD 1)) t.data

/-- The matrices of a tensor: its last two axes. -/
def tensorMatrices (t : Tensor) : List (List (List F32)) := chunks (max 1 (t.shape.dropLast.getLastD 1)) (tensorRows t)

/-- A matrix with rows and columns exchanged. -/
def columnsOf (m : List (List F32)) : List (List F32) := (List.range (m.headD []).length).map fun j => m.map fun r => r.getD j 0

/-- The shape that a reshape gives: 0 copies an axis, -1 takes what is left. -/
def reshaped (shape : List Nat) (dims : List Int) : List Nat :=
  let d := dims.zipIdx.map fun x => if x.1 = 0 then (shape.getD x.2 1 : Int) else x.1
  let known := volume ((d.filter fun x => x ≠ -1).map Int.toNat)
  d.map fun x => if x = -1 then volume shape / max 1 known else x.toNat

/-- The matrices of rows that one side of a product gives, each row along the reduction axis; the right side of a product gives its
columns. A weight is one matrix. -/
def sideRows (vals : List Tensor) (right tr : Bool) : ProdSide → List (List ProdRow)
  | .weight f codes scales => [codes.zipIdx.map fun c => weightRow f c.1 (scales.getD c.2 [])]
  | .activation n f scale =>
    ((tensorMatrices (vals.getD n ⟨[], []⟩)).map fun m => if right && !tr then columnsOf m else m).map fun m => m.map (activationRow f scale)

/-- The leading axes of one side of a product. -/
def sideLead (vals : List Tensor) : ProdSide → List Nat
  | .weight _ _ _ => []
  | .activation n _ _ => (vals.getD n ⟨[], []⟩).shape.dropLast.dropLast

/-- A matrix product in MAC mode (R160): one dot for each row of the left and each column of the right operand, over the leading axes,
where a single matrix meets every one of the other side. -/
def product (vals : List Tensor) (left right : ProdSide) (tr : Bool) : Tensor :=
  let a := sideRows vals false false left
  let b := sideRows vals true tr right
  let lead := if a.length ≥ b.length then sideLead vals left else sideLead vals right
  let pick (m : List (List ProdRow)) (i : Nat) : List ProdRow := if m.length ≤ 1 then m.headD [] else m.getD i []
  let out := (List.range (max a.length b.length)).flatMap fun i => (pick a i).flatMap fun r => (pick b i).map fun c => tensorDot r c
  ⟨lead ++ [(a.headD []).length, (b.headD []).length], out⟩

/-- The reduction of a row. -/
def reduceRow (op : RedOp) (xs : List F32) : F32 := match op with
  | .mean => rowMean xs
  | .sum => chainSum xs
  | .max => rowMax xs

/-- Start and length of a slice of an axis of length `d`, under ONNX's rules: a negative place counts from the end, and places beyond the
axis are drawn in (R167; log 80). -/
def sliceOf (d : Nat) (start stop step : Int) : Int × Nat :=
  let place (x : Int) : Int := if x < 0 then x + d else x
  let clip (lo hi x : Int) : Int := max lo (min hi x)
  if step < 0 then
    let a := clip 0 (d - 1) (place start)
    let b := clip (-1) (d - 1) (place stop)
    (a, ((a - b - step - 1) / -step).toNat)
  else
    let a := clip 0 d (place start)
    let b := clip 0 d (place stop)
    (a, ((b - a + step - 1) / step).toNat)

/-- The row of a table that an index names. An index below 0 or beyond the rows names none: the spec states no result (R167; log 80). -/
def gatherRow (rows : List (List F32)) (width : Nat) (x : F32) : List F32 :=
  let i := roundInt (2 ^ 63) (f32Val x)
  match if i < 0 then none else rows[i.toNat]? with
  | some r => r
  | none => (List.range width).map (Config.absentRow x)

/-- The value of a node from the values of the nodes before it. -/
def nodeValue (inputs vals : List Tensor) (n : GraphNode) : Tensor :=
  let arg (i : Nat) : Tensor := vals.getD i ⟨[], []⟩
  match n with
  | .input i => inputs.getD i ⟨[], []⟩
  | .const t => t
  | .product l r tr _ => product vals l r tr
  | .table a fmt sfmt cols =>
    ⟨(arg a).shape.dropLast ++ [cols.length], (tensorRows (arg a)).flatMap fun r => cols.map (tableDot fmt sfmt r)⟩
  | .unary op a => ⟨(arg a).shape, (arg a).data.map (unary op)⟩
  | .binary op a b => zipTensor (binary op) (arg a) (arg b)
  | .softmax a => ⟨(arg a).shape, (tensorRows (arg a)).flatMap softmaxRow⟩
  | .layerNorm a sc bias eps => ⟨(arg a).shape, (tensorRows (arg a)).flatMap (normRow eps (arg sc).data (bias.map fun b => (arg b).data))⟩
  | .reduce op keep a => ⟨(arg a).shape.dropLast ++ (if keep then [1] else []), (tensorRows (arg a)).map (reduceRow op)⟩
  | .gather tb ix =>
    let width := volume (arg tb).shape.tail
    ⟨(arg ix).shape ++ (arg tb).shape.tail, (arg ix).data.flatMap (gatherRow (chunks (max 1 width) (arg tb).data) width)⟩
  | .reshape a dims => ⟨reshaped (arg a).shape dims, (arg a).data⟩
  | .transpose a perm =>
    buildTensor (perm.map fun p => (arg a).shape.getD p 1) fun i =>
      elementAt (arg a) ((List.range perm.length).map fun d => i.getD (perm.idxOf d) 0)
  | .concat axis xs =>
    let ts := xs.map arg
    let first := ts.headD ⟨[], []⟩
    let inner := volume (first.shape.drop (axis + 1))
    let parts := ts.map fun t => chunks (max 1 (t.shape.getD axis 1 * inner)) t.data
    ⟨first.shape.set axis (ts.map fun t => t.shape.getD axis 1).sum,
      (List.range (volume (first.shape.take axis))).flatMap fun i => parts.flatMap fun p => p.getD i []⟩
  | .slice a axis start stop step =>
    let p := sliceOf ((arg a).shape.getD axis 1) start stop step
    buildTensor ((arg a).shape.set axis p.2) fun i => elementAt (arg a) (i.set axis (p.1 + i.getD axis 0 * step).toNat)
  | .expand a dims => buildTensor (joinShape (arg a).shape dims) fun i => elementAt (arg a) i
  | .select c a b =>
    buildTensor (joinShape (arg c).shape (joinShape (arg a).shape (arg b).shape)) fun i =>
      if f32IsZero (elementAt (arg c) i) then elementAt (arg b) i else elementAt (arg a) i

/-- The run of a graph on its inputs: every node in order; the output is the last node's. -/
def runGraph (g : Graph) (inputs : List Tensor) : List F32 :=
  ((g.nodes.foldl (fun vals n => vals ++ [nodeValue inputs vals n]) ([] : List Tensor)).getLastD ⟨[], []⟩).data

/-! ## What an image may hold (R159, R164, R167) -/

/-- The earlier nodes that a side of a product reads. -/
def sideRefs : ProdSide → List Nat
  | .weight _ _ _ => []
  | .activation n _ _ => [n]

/-- The format of a side of a product. -/
def sideFmt : ProdSide → NumFmt
  | .weight f _ _ => f
  | .activation _ f _ => f

/-- The nodes that a node reads. -/
def nodeRefs : GraphNode → List Nat
  | .input _ => []
  | .const _ => []
  | .product l r _ _ => sideRefs l ++ sideRefs r
  | .table a _ _ _ => [a]
  | .unary _ a => [a]
  | .binary _ a b => [a, b]
  | .softmax a => [a]
  | .layerNorm a s b _ => a :: s :: b.toList
  | .reduce _ _ a => [a]
  | .gather t i => [t, i]
  | .reshape a _ => [a]
  | .transpose a _ => [a]
  | .concat _ xs => xs
  | .slice a _ _ _ _ => [a]
  | .expand a _ => [a]
  | .select c a b => [c, a, b]

/-- Is a node one that a tile runs: an operand pair of R158 and at most as many heads as the model's header names, in table mode 4-bit codes
with a scale format of R164, a Gather from an initializer of at most 16,777,216 rows, a Slice whose step is not 0 (R165, R167)? -/
def nodeOk (g : Graph) (heads : Nat) : GraphNode → Bool
  | .product l r _ h => productPair (sideFmt l) (sideFmt r) && decide (1 ≤ h) && decide (h ≤ min heads 128)
  | .table _ fmt sfmt _ => decide (fmt ≤ 1) && decide (sfmt ≤ 1)
  | .gather tb _ => match g.nodes[tb]? with
    | some (.const t) => decide (t.shape.headD 1 ≤ 16777216)
    | _ => false
  | .slice _ _ _ _ step => decide (step ≠ 0)
  | _ => true

/-- Does a graph hold at least one node, only nodes that a tile runs, and each one's operands before it? -/
def graphOk (g : Graph) (heads : Nat) : Bool :=
  !g.nodes.isEmpty && g.nodes.zipIdx.all fun x => nodeOk g heads x.1 && (nodeRefs x.1).all fun r => r < x.2

/-! ## Inputs of a model (R165, R169, R172) -/

/-- Token identifiers as a tensor. -/
def tokenTensor (ts : List Nat) : Tensor := ⟨[ts.length], ts.map f32OfNat⟩

/-- The inputs of a scoring model for one item, in the order of INPUTS: query tokens, query vector, item tokens cut to the room that
the pair length leaves, payload values, feature rows. -/
def scoreInputs (mask seqMax : Nat) (queryTokens : List Nat) (vector : List F32) (it : ItemInput) : List Tensor :=
  let q := if mask.testBit 0 then queryTokens else []
  (if mask.testBit 0 then [tokenTensor queryTokens] else []) ++
    (if mask.testBit 1 then [(⟨[vector.length], vector⟩ : Tensor)] else []) ++
    (if mask.testBit 2 then [tokenTensor (it.tokens.take (seqMax - q.length))] else []) ++
    (if mask.testBit 3 then [(⟨[it.values.length], it.values⟩ : Tensor)] else []) ++
    (if mask.testBit 4 then it.rows.map fun r => (⟨[r.length], r⟩ : Tensor) else [])

end Sys2Proof.Machine
end

