-- ==== Sys2Proof/Machine/TensorOps.lean ====
section
/-! DEFINITION. The tensor pool: its queue (R54, R176), stated times (R170, R173), grants and weight shares (R176), and what a run of a model returns (R158 to R164, R171, R175). -/
namespace Sys2Proof.Machine

/-- A partition's pool. -/
def State.pool (s : State) (p : Nat) : TensorPool := s.pipe.tensor.getD p {}

/-- Replace a partition's pool. -/
def State.setPool (s : State) (p : Nat) (t : TensorPool) : State :=
  { s with pipe := { s.pipe with tensor := s.pipe.tensor.set p t } }

/-- Order of grants (R54): earliest deadline; SCORE before ENCODE; lower strand. -/
def reqBefore (a b : TensorReq) : Bool :=
  let k (r : TensorReq) : Nat := if r.kind == .score then 0 else 1
  if a.deadlineAt ≠ b.deadlineAt then a.deadlineAt < b.deadlineAt
  else if k a ≠ k b then k a < k b
  else a.strand < b.strand

/-- Enter a request at its place in the queue; a later equal one stands behind. -/
def enqueue (r : TensorReq) (q : List TensorReq) : List TensorReq := insertBy (fun x y => !reqBefore y x) r q

/-- Enter a request into a partition's queue. -/
def State.request (s : State) (p : Nat) (r : TensorReq) : State :=
  let t := s.pool p
  s.setPool p { t with queue := enqueue r t.queue }

/-- Tiles in service and free (R45, R176). -/
def freeTiles (t : TensorPool) : List Nat := upTo 16 fun n => !t.out.contains n && !(t.running.any fun i => i.held.contains n)

/-- A model section by its number: image slot × 2 plus 0 encoder, 1 scoring model; with the stage's tile count. -/
def State.modelOf (s : State) (m : Nat) : Option (Model × Nat) :=
  match s.images.get (m / 2) with
  | some i => if m % 2 = 0 then i.encoder.map fun e => (e, i.encodeTiles) else i.scorer.map fun e => (e, i.scoreTiles)
  | none => none

/-- Bytes of one tile's share of a section's weights (R176). -/
def State.shareBytes (s : State) (m : Nat) : Nat := match s.modelOf m with
  | some (md, tiles) => ceilDiv md.weightBytes (max 1 tiles)
  | none => 0

/-- Does a tile hold a share of a section? -/
def holdsShare (t : TensorPool) (m tile : Nat) : Bool := t.shares.any fun x => x.tile = tile && x.model = m

/-- The tiles picked for a request: those that hold a share of the section first, then the lowest number (R176). -/
def pickTiles (t : TensorPool) (m n : Nat) : List Nat :=
  let free := freeTiles t
  ((free.filter fun x => holdsShare t m x) ++ (free.filter fun x => !holdsShare t m x)).take n

/-- The granted tiles that use a share they hold, each with its position: a position goes to one tile (R176). -/
def heldPositions (t : TensorPool) (m : Nat) (tiles : List Nat) : List (Nat × Nat) :=
  tiles.foldl (fun acc x => match t.shares.find? fun y => y.tile = x && y.model = m && !acc.any fun a => a.2 = y.pos with
    | some y => acc ++ [(x, y.pos)]
    | none => acc) []

/-- The other granted tiles take the positions left, the lowest first; they stream their shares (R176). -/
def streamPositions (t : TensorPool) (m : Nat) (tiles : List Nat) : List (Nat × Nat) :=
  let held := heldPositions t m tiles
  (tiles.filter fun x => !held.any fun a => a.1 = x).zip ((List.range tiles.length).filter fun n => !held.any fun a => a.2 = n)

/-- Shares kept of one tile, most recent first: as many as fit the room, the least recently used discarded first (R176). -/
def keepShares (size : Nat → Nat) (room : Nat) : List Share → List Share
  | [] => []
  | x :: xs => if size x.model ≤ room then x :: keepShares size (room - size x.model) xs else []

/-- The shares of a pool after a tile uses position `pos` of section `m`, with `room` bytes beside the running invocation (R176). -/
def State.useShare (s : State) (held : List Share) (tile m pos room : Nat) : List Share :=
  let mine : List Share := ⟨tile, m, pos⟩ :: held.filter fun x => x.tile = tile && !(x.model = m && x.pos = pos)
  keepShares s.shareBytes room mine ++ held.filter fun x => x.tile ≠ tile

/-- Grant the tiles of a request: the invocation starts, missing shares stream, and the tiles' domains are asked awake. A query's stage
uses weights; a maintenance step brings its own data. -/
def State.grantTiles (s : State) (p : Nat) (r : TensorReq) (tiles : List Nat) : State :=
  let t := s.pool p
  let query : Bool := r.kind != .maint
  let held := if query then heldPositions t r.model tiles else []
  let streams := if query then streamPositions t r.model tiles else []
  let streamed := streams.length * s.shareBytes r.model
  let room := 2097152 - (match s.modelOf r.model with
    | some (m, _) => m.tileMem
    | none => 0)
  let shares := (held ++ streams).foldl (fun acc x => s.useShare acc x.1 r.model x.2 room) t.shares
  let weights := match s.modelOf r.model with
    | some (m, _) => m.weights
    | none => []
  let s := weights.foldl (fun (s : State) o => s.objRead o (streams.length * ceilDiv (s.objBytes o) (max 1 tiles.length))) s
  let s := s.setPool p { t with queue := t.queue.erase r, running := t.running ++ [⟨r, tiles, s.time⟩], shares }
  let s := s.count (objKey (0x2510 + p) 2) streamed
  tiles.foldl (fun s x => s.wake .tensor (p * 16 + x) (if r.kind == .maint then 4 else 2)) s

/-- An invocation ends: its tiles are free. -/
def State.endInvocation (s : State) (p : Nat) (i : Invocation) : State :=
  let t := s.pool p
  s.setPool p { t with running := t.running.erase i }

/-- The running invocation of an owner. -/
def State.invocationOf (s : State) (p : Nat) (k : TensorKind) (owner : Nat) : Option Invocation :=
  (s.pool p).running.find? fun i => i.req.kind == k && i.req.owner = owner

/-- Is the remaining time up to a deadline below a stated time of `ns` nanoseconds at 2.1 GHz, with the arithmetic clock of the
partition now (R170, R173)? A network cycle is 0.625 ns. -/
def State.tooLate (s : State) (p deadline ns : Nat) : Bool :=
  decide ((deadline - s.time) * 5 * s.clockOf p < ns * 2100 * 8)

/-- Stated time of a model on `n` rows, in ns at 2.1 GHz. -/
def statedNs (m : Model) (n : Nat) : Nat := m.baseNs + m.rowNs * n

/-- A stated time in network cycles at the partition's clock, rounded up. -/
def State.statedCycles (s : State) (p ns : Nat) : Nat := ceilDiv (ns * 2100 * 8) (5 * s.clockOf p)

/-- The image and slot that serve a query's version. -/
def State.imageFor (s : State) (x : Query) : Option (Nat × Image) :=
  (s.versionOf x.fields.ns x.fields.idx x.version).bind fun v => s.imageByDigest v.image

/-- What the encoder makes of a query's tokens (R160 to R164, R171). -/
def State.encoderOutput (s : State) (x : Query) : List F32 :=
  match (s.imageFor x).bind fun i => i.2.encoder with
  | some m => runGraph m.graph [tokenTensor x.fields.tokenIds]
  | none => []

/-- What the scoring model makes of one item: one value (R160 to R164, R172, R175). -/
def State.scorerOutput (s : State) (x : Query) (it : ItemInput) : F32 :=
  match (s.imageFor x).bind fun i => i.2.scorer with
  | some m => (runGraph m.graph (scoreInputs m.inputs m.seqMax (if x.fields.tokens then x.fields.tokenIds else []) x.vector it)).headD 0
  | none => 0

end Sys2Proof.Machine
end

