-- ==== Sys2Proof/Machine/QueryOps.lean ====
section
/-! DEFINITION. A query at its origin: the checks at its snapshot (R539 orders 2 to 8), admission (R16, R51, R60, R64, R65, R152),
and how its answer is formed from what was merged and scored (R153 to R155, R172 to R175). -/
namespace Sys2Proof.Machine

/-- The effective depths and terms of a query with its index's defaults (R47) and its program's terms (R192, R196). -/
structure Effective where
  nprobe : Nat
  r : Nat
  s : Nat
  inTerms : List InTerm
  postTerms : List PostTerm
  deriving DecidableEq, Repr

/-- Apply the defaults and the programs of an image (R47, R192, R196). -/
def effectiveOf (f : QueryFields) (p : ProgSettings) : Effective :=
  { nprobe := if f.nprobe = 0 then p.defNprobe.getD 64 else f.nprobe
    r := match f.r with
      | some r => r
      | none => p.defR.getD f.k
    s := match f.s with
      | some s => s
      | none => p.defS.getD 0
    inTerms := p.filterTerms ++ f.inTerms
    postTerms := p.postTerms ++ f.postTerms }

/-- The checks against the index and its image (R539 order 7), tokens against the encoder header (R169). -/
def imageChecksOk (f : QueryFields) (img : Image) (e : Effective) : Bool :=
  1 ≤ e.nprobe && e.nprobe ≤ 4096 && depthOk f.k (some e.r) (some e.s) &&
    e.inTerms.length ≤ 16 && e.postTerms.length ≤ 16 && !(e.r = 0 && !e.postTerms.isEmpty) &&
    (e.s = 0 || (img.scoreTiles ≠ 0 && (match img.scorer with
      | some m => f.tokens || !bit m.inputs 0
      | none => false))) &&
    (!f.tokens || (match img.encoder with
      | some m => f.len ≤ m.seqMax && f.tokenIds.all fun t => t < m.vocab
      | none => false))

/-- The checks of R539 orders 2 to 7 at a snapshot: the first cause, or the version, its image and the forced groups. A version whose image
is not resident meets those of orders 5 and 6 that need no image, then order 8. -/
def State.checkAt (s : State) (x : Query) (snap : Nat) : Except Nat (Version × Nat × Image × Nat) :=
  let f := x.fields
  match s.idxAt f.ns f.idx snap with
  | none => .error 0x81
  | some idx =>
    match s.tenantTest x.tenant f.ns snap with
    | none => .error 0x80
    | some forced =>
      match s.versionAt f.ns f.idx f.version snap with
      | none => .error 0x84
      | some v =>
        match s.imageByDigest v.image with
        | none => .error (if f.tokens && s.modelShed then 0x85 else if !f.tokens && f.len ≠ idx.dim then 0x83 else 0x86)
        | some (slot, img) =>
          if f.tokens && (img.encodeTiles = 0 || img.encoder.isNone || s.modelShed) then .error 0x85
          else if !f.tokens && f.len ≠ idx.dim then .error 0x83
          else if !imageChecksOk f img (effectiveOf f img.progs) then .error 0x82
          else .ok (v, slot, img, forced)

/-- Free descriptor credits of a strand's ADMIT (R57): 32 less the queries on their way to SKETCH. -/
def State.admitCredits (s : State) (g : Nat) : Nat :=
  32 - (s.pipe.queries.filter fun kq => kq.2.g = g &&
    (kq.2.phase == .encodeWait || kq.2.phase == .encoding || kq.2.phase == .toSketch)).length

/-- The lowest free merge slot of a strand (R60). -/
def State.freeSlot (s : State) (g : Nat) : Option Nat :=
  let used := (s.pipe.queries.filter fun kq => kq.2.g = g && !(kq.2.phase == .placing) && kq.2.rejected.isNone).map fun kq => kq.2.slot
  (List.range 256).find? fun n => !used.contains n

/-- The strand for a query among those of the given partitions: most free credits, then lowest partition and strand (R51). -/
def State.placeStrand (s : State) (parts : List Nat) : Option Nat :=
  let ok := upTo 32 fun g => s.takesWork g && parts.contains (g / 8) && s.admitCredits g > 0 && (s.freeSlot g).isSome
  firstBy (fun a b => if s.admitCredits a ≠ s.admitCredits b then s.admitCredits a > s.admitCredits b else a < b) ok

/-- Queries of a tenant in flight on the module (R60). One held for its minimum epoch has not met the tenant's cap yet (R539 order 8). -/
def State.inFlight (s : State) (tenant : Nat) : Nat :=
  (s.pipe.queries.filter fun kq => kq.2.tenant = tenant && !(kq.2.phase == .placing) && !(kq.2.phase == .minHold) && kq.2.rejected.isNone).length

/-- The ENCODE request of a token query enters its partition's queue; a vector query goes to SKETCH (R54, R170). -/
def State.startQuery (s : State) (q : Nat) (x : Query) (slot : Nat) (img : Image) : State :=
  let s := s.wake .strand x.g 2
  if x.fields.tokens then
    let s := s.setQuery q { x with phase := .encodeWait }
    s.request (x.g / 8) { kind := .encode, owner := q, tiles := img.encodeTiles, deadlineAt := x.deadlineAt
                          strand := x.g % 8, model := slot * 2, queuedAt := s.time }
  else s.setQuery q { x with phase := .toSketch }

/-- The origin's work area: reserved at once, or waited for (R152). -/
def State.reserveOrigin (s : State) (q : Nat) (x : Query) (slot : Nat) (img : Image) : State :=
  if x.ctx.kSel ≤ 65536 then s.startQuery q x slot img
  else
    let ahead := s.pipe.queries.any fun kq => kq.2.phase == .poolWait && kq.2.seq < x.seq
    let need := originArea x.ctx.kSel
    if !ahead && s.tiers.poolOrigin + need ≤ s.poolHalf then
      ({ s with tiers := { s.tiers with poolOrigin := s.tiers.poolOrigin + need } } : State).startQuery q
        { x with ctx := { x.ctx with hbmBytes := need } } slot img
    else
      (if x.phase == .poolWait then s else s.tally (0x2430 + x.g) 8).setQuery q { x with phase := .poolWait }

/-- Stamp a query with its snapshot, version, depths and selection context (R16, R47, R139), and start it. -/
def State.stampQuery (s : State) (q : Nat) (x : Query) (snap : Nat) (v : Version) (slot : Nat) (img : Image) (forced : Nat) : State :=
  let e := effectiveOf x.fields img.progs
  let k := if e.s > 0 then e.s else x.fields.k
  let (s, ctx) := s.openCtx x.g k false
  let x := { x with snapshot := some snap, version := v.ver, nprobe := e.nprobe, r := e.r, s := e.s, forced, ctx
                    fields := { x.fields with inTerms := e.inTerms, postTerms := e.postTerms } }
  s.reserveOrigin q x slot img

/-- Urgent as a gig, or downgraded where GIG_SHARE is 0 or the tenant's quota is spent (R64, R65). -/
def State.gigDecision (s : State) (x : Query) : State × Bool :=
  if !x.fields.urgent then (s, false)
  else
    let t := s.tenant x.tenant
    if s.pipe.gigShare = 0 || t.gigUsed ≥ t.gigQuotaNow then (s.tally (0x2110 + x.g) 9, false)
    else
      (({ s with tenants := s.tenants.alter x.tenant fun t => { t with gigUsed := t.gigUsed + 1 } } : State).meter x.tenant 11 1, true)

/-- Is the n-th query admitted as origin selected for a dual-strand check: one in 4,096 (R504)? -/
def dualSelected (n : Nat) : Bool := n % 4096 = 4095

/-- What the checks of R539 order 8 and the admission after them make of a query whose checks of orders 2 to 7 gave `chk`: an image of its
version in some partition, the tenant's cap, then the dual-check count, the gig decision and the snapshot's stamp (R51, R60, R64, R65,
R504). -/
def State.admitChecked (s : State) (q : Nat) (x : Query) (snap : Nat) (chk : Except Nat (Version × Nat × Image × Nat)) : State :=
  match chk with
  | .error c => s.reject q x c
  | .ok (v, slot, img, forced) =>
    if img.installed.isEmpty || s.inFlight x.tenant ≥ (s.tenant x.tenant).inflightCap then s.reject q x 0x86
    else
      let x := { x with dual := s.setting 0x2D04 2 1 = 1 && dualSelected s.pipe.admitted }
      let s := { s with pipe := { s.pipe with admitted := s.pipe.admitted + 1 } }
      let (s, gig) := s.gigDecision x
      s.stampQuery q { x with gig } snap v slot img forced

/-- ADMIT takes a query on a strand: its merge slot and its deadline; one whose minimum epoch is not closed is held, and meets the checks
when the hold ends (R16, R17, R37, R60, R539). -/
def State.admitQuery (s : State) (q : Nat) (x : Query) (g snap : Nat) (chk : Except Nat (Version × Nat × Image × Nat)) : State :=
  let us := if x.fields.deadlineUs = 0 then (s.tenant x.tenant).deadlineUs else x.fields.deadlineUs
  let x := { x with g, slot := (s.freeSlot g).getD 0, admittedAt := s.time, deadlineAt := s.time + us * cyclesPerUs
                    scoreMargin := s.setting 0x2500 1 150 }
  if x.fields.minEpoch > snap then s.setQuery q { x with phase := .minHold } else s.admitChecked q x snap chk

/-! ## The answer -/

/-- Has every chosen list been merged or given up? -/
def listsDone (x : Query) : Bool := x.routed && x.chosen.all fun c => c.state != .open

/-- Lists still open count as not reached, and their waiting pieces go (R154, R173). -/
def giveUpLists (x : Query) : Query :=
  { x with chosen := x.chosen.map fun c =>
      if c.state == .open then { c with state := .notReached, reserved := false, pieces := [], waiting := [] } else c }

/-- The answer from exact scores: the first k of the first context's ordered output, without what R172 dropped (R155). -/
def exactAnswer (x : Query) : List Entry :=
  let es := if x.block.isEmpty then (ctxOutput x.ctx).1 else (x.block.filter fun b => !b.dropped).map (·.entry)
  es.take x.fields.k

/-- Add a degradation reason (R36). -/
def addReason (x : Query) (n : Nat) : Query := { x with reasons := setBit x.reasons n true }

/-- Hand an answer from exact scores to EMIT. -/
def State.emitExact (s : State) (q : Nat) (x : Query) : State := s.toEmit q { x with answer := exactAnswer x }

/-- Enter the SCORE request once every item of the block is assembled or dropped, unless the model is shed (R56, R174). -/
def State.requestScore (s : State) (q : Nat) (x : Query) : State :=
  let live := x.block.filter fun b => !b.dropped
  if live.any fun b => b.payloadDue || !b.rowsDue.isEmpty then s.setQuery q { x with phase := .assembling }
  else if live.isEmpty then s.emitExact q x
  else if s.modelShed then s.emitExact q (addReason x 5)
  else match s.imageFor x with
    | some (slot, img) =>
      let s := s.setQuery q { x with phase := .scoreWait, restarted := false }
      s.request (x.g / 8) { kind := .score, owner := q, tiles := img.scoreTiles, deadlineAt := x.deadlineAt, strand := x.g % 8
                            model := slot * 2 + 1, queuedAt := s.time }
    | none => s.emitExact q (addReason x 4)

/-- Does SELECT on a strand hold a completion for which the link to EMIT has no credit (R57, R58)? It then takes nothing in. -/
def State.emitStalled (s : State) (g : Nat) : Bool := s.linkStalls g 4

/-! ## Feature rows (R361) -/

/-- The record of an item as the snapshot of a query sees it, where this module holds it. -/
def State.recordAt (s : State) (x : Query) (key : Nat) : Option Rec :=
  (s.corpus.records.find? fun kr => kr.2.ns = x.fields.ns && kr.2.idx = x.fields.idx && kr.2.key = key &&
    existsAt kr.2.insert kr.2.delete (x.snapshot.getD 0)).map (·.2)

/-- The index of a feature input for an item: the item key, a payload field, or VALUE of the attribute word (R361). The outer none: this
module does not hold the item, and the index comes with its payload (log 39). The inner none: the payload field is absent. -/
def State.featIndex (s : State) (x : Query) (key : Nat) (f : FeatSource) : Option (Option Nat) := match f with
  | .itemKey => some (some key)
  | .payload off size => (s.recordAt x key).map fun r => if off + size ≤ r.payload.length then some (field r.payload off size) else none
  | .attr => (s.recordAt x key).map fun r => some (bits r.attr 63 48)

/-- An input of a block item takes the default row (R261, R361). -/
def defaultRow (b : BlockItem) (n : Nat) (row : List Byte) : BlockItem :=
  { b with rowsDue := b.rowsDue.erase n, rows := Table.set b.rows n row, entry := { b.entry with flags := setBit b.entry.flags 6 true } }

/-- An input of a block item takes a row. -/
def takenRow (b : BlockItem) (n : Nat) (row : List Byte) : BlockItem := { b with rowsDue := b.rowsDue.erase n, rows := Table.set b.rows n row }

/-- The default row of a table. -/
def State.defaultOf (s : State) (code : Nat) : List Byte := match s.table code with
  | some t => t.default_
  | none => []

/-- Feature input `n` of one block item: the default row, a replica, an LPDDR read here, or a request to the row's home (R361). A row that
is read here stands in the item and is due until its read completes. -/
def State.resolveRow (s : State) (handle : Nat) (x : Query) (b : BlockItem) (n : Nat) (r : FeatureRef) : State × BlockItem × Bool :=
  let code := tableCode x.fields.ns r.table
  match s.featIndex x b.entry.key r.source with
  | none => (s, { b with rowsDue := n :: b.rowsDue }, false)
  | some none => (s.tally 0x2B10 0xB, defaultRow b n (s.defaultOf code), true)
  | some (some row) =>
    match s.rowPlan code row with
    | .default => (s.tally 0x2B10 0xB, defaultRow b n (s.defaultOf code), true)
    | .replica =>
      let value := match s.replicaOf code row with
        | some y => y.value
        | none => []
      let use (y : Replica) : Replica := if y.table = code && y.row = row then { y with readAt := s.time } else y
      ((({ s with exchange := { s.exchange with replicasIn := s.exchange.replicasIn.map use } } : State).tally 0x2B10 0xC).objRead
        s.replicaObj value.length, takenRow b n value, false)
    | .here =>
      match s.table code with
      | some t =>
        let y := s.serveRow s.mgmt.moduleId t row
        (y.1, { b with rowsDue := n :: b.rowsDue, rows := Table.set b.rows n y.2.1 }, false)
      | none => (s, b, false)
    | .ask home => (s.sendRowReq home x.tenant handle r.table x.fields.urgent [row], { b with rowsDue := n :: b.rowsDue }, false)

/-- The feature inputs of one block item; with it, whether one of them took the default row. -/
def State.resolveItem (s : State) (handle : Nat) (x : Query) (refs : List (Nat × FeatureRef)) (b : BlockItem) : State × BlockItem × Bool :=
  refs.foldl (fun (a : State × BlockItem × Bool) f =>
    let r := a.1.resolveRow handle x a.2.1 f.1 f.2
    (r.1, r.2.1, a.2.2 || r.2.2)) (s, b, false)

/-- All feature inputs of a block (R361, R174). -/
def State.resolveRows (s : State) (handle : Nat) (x : Query) (refs : List (Nat × FeatureRef)) (bs : List BlockItem) : State × List BlockItem × Bool :=
  bs.foldl (fun (a : State × List BlockItem × Bool) b =>
    let r := a.1.resolveItem handle x refs b
    (r.1, a.2.1 ++ [r.2.1], a.2.2 || r.2.2)) (s, [], false)

/-- The feature inputs of a query's SCORE program, numbered. -/
def State.featsOf (s : State) (x : Query) : List (Nat × FeatureRef) := match s.imageFor x with
  | some (_, img) => (List.range img.progs.features.length).zip img.progs.features
  | none => []

/-! ## The top-S block and the end of the search -/

/-- Form the top-S block from the first context's ordered output; its payload and row fetches are issued (R155, R172, R361). -/
def State.formBlock (s : State) (q : Nat) (x : Query) : State :=
  let inputs := match s.imageFor x with
    | some (_, img) => (img.scorer.map (·.inputs)).getD 0
    | none => 0
  let (es, dups, bytes) := ctxOutput x.ctx
  let s := (s.count (objKey (0x2430 + x.g) 4) dups).count (objKey (0x2430 + x.g) 2) bytes
  let items : List BlockItem := (es.take x.s).map fun e => { entry := e, payloadDue := bit inputs 2 || bit inputs 3, rowsDue := [] }
  let (s, items, late) := if bit inputs 4 && !s.modelShed then s.resolveRows (s.handleOf q x) x (s.featsOf x) items else (s, items, false)
  let x := if late then addReason x 6 else x
  let x := { x with merged := x.merged + dups, block := items, ctx := { x.ctx with entries := es, runs := [], carry := none, merging := none } }
  if items.isEmpty then s.emitExact q x
  else if s.modelShed then s.emitExact q (addReason x 5)
  else s.requestScore q x

/-- Top-S blocks of a strand that hold a credit of the SELECT to SCORE link (R57). -/
def State.blocksOut (s : State) (g : Nat) : Nat :=
  (s.pipe.queries.filter fun kq => kq.2.g = g && (kq.2.phase == .assembling || kq.2.phase == .scoreWait || kq.2.phase == .scoring)).length

/-- The top-S block of a query forms, or waits for one of the two credits of its strand (R57, R58). -/
def State.sendBlock (s : State) (q : Nat) (x : Query) : State :=
  if s.blocksOut x.g < 2 then s.formBlock q x else s.setQuery q { x with phase := .blockWait }

/-- The query of a strand whose block has waited longest for a credit: the first to arrive (log 81). -/
def State.nextBlock (s : State) (g : Nat) : Option (Nat × Query) :=
  firstBy (fun a b => decide (a.2.seq < b.2.seq)) (s.pipe.queries.filter fun kq => kq.2.g = g && kq.2.phase == .blockWait)

/-- Blocks that wait go out as far as credits have come back (R57, R58). -/
def State.startBlocks (s : State) : State :=
  (List.range 32).foldl (fun s g => if s.blocksOut g < 2 then
    match s.nextBlock g with
      | some (q, x) => s.formBlock q x
      | none => s
    else s) s

/-- When every chosen list is merged or withdrawn: the ordered output, once run merges have finished, goes to EMIT or forms
the top-S block (R153, R155). -/
def State.tryFinish (s : State) (q : Nat) (x : Query) : State :=
  if !(x.phase == .searching) || !listsDone x then s.setQuery q x
  else if x.ctx.store = 2 && (x.ctx.merging.isSome || !x.ctx.runs.isEmpty) then s.setQuery q x
  else if x.s > 0 then s.sendBlock q x
  else s.toEmit q { x with answer := (ctxOutput x.ctx).1.take x.fields.k }

/-- The deadline or a cut-off ends a search: what is merged is ordered, an HBM context by its merge in progress and the final one, and the
query completes DEADLINE (R38, R149, R154). -/
def State.cutSearch (s : State) (q : Nat) (x : Query) : State :=
  let x := giveUpLists x
  let (es, dups, bytes) := ctxOutput x.ctx
  ((s.count (objKey (0x2430 + x.g) 4) dups).count (objKey (0x2430 + x.g) 2) bytes).toEmit q
    { x with deadlineHit := true, answer := es.take x.fields.k, merged := x.merged + dups }

/-- The score cut-off of a query with S > 0 (R173), in network cycles. -/
def State.scoreCutAt (s : State) (x : Query) : Nat :=
  let t := match s.imageFor x with
    | some (_, img) => match img.scorer with
      | some m => s.statedCycles (x.g / 8) (statedNs m x.s)
      | none => 0
    | none => 0
  x.deadlineAt - (orderTime x.ctx (s.clockOf (x.g / 8)) s.time + t + x.scoreMargin * cyclesPerUs)

/-- The deadline passes (R38): the query completes DEADLINE with what it has. -/
def State.expireQuery (s : State) (q : Nat) (x : Query) : State :=
  match x.phase with
  | .placing => s
  | .emitting => s
  | .handedOff => s
  | .searching => s.cutSearch q x
  | .blockWait => s.emitExact q { addReason x 4 with deadlineHit := true }
  | .assembling => s.emitExact q { addReason x 4 with deadlineHit := true }
  | .scoreWait => (s.tally (0x2110 + x.g) 0xA).emitExact q { addReason x 4 with deadlineHit := true }
  | .scoring => (s.tally (0x2510 + x.g / 8) 7).emitExact q { addReason x 4 with deadlineHit := true }
  | .encodeWait => (s.tally (0x2510 + x.g / 8) 6).toEmit q { x with deadlineHit := true, answer := [] }
  | .encoding => (s.tally (0x2510 + x.g / 8) 6).toEmit q { x with deadlineHit := true, answer := [] }
  | _ => s.toEmit q { x with deadlineHit := true, answer := [] }

end Sys2Proof.Machine
end

