-- ==== Sys2Proof/Machine/Admission.lean ====
section
/-! DEFINITION. Queries from their entry to their sketch (R14 to R17, R51, R54, R60, R79 to R82, R170, R171, R392 to R395, R405
to R407): QUERY_ENTRY_ARRIVE, BASIC_QUERY_DESCRIPTOR, QUERY_PLACE, MIN_EPOCH_HOLD_END, TENSOR_GRANT, ENCODE_DEADLINE,
ENCODE_COMPLETE, QUERY_SKETCH. -/
namespace Sys2Proof.Machine

/-- A query taken and read enters the module: metered (R199 n = 0), and REJECTED at once where its own checks fail. -/
def State.newQuery (s : State) (fn pair sqIndex : Nat) (basic : Bool) (f : QueryFields) (cause : Option Nat) : State :=
  let q := s.pipe.nextQuery
  let tenant := (s.fnState fn).tenant
  let x : Query := { fn, pair, sqIndex, basic, fields := f, tenant, seq := q, arrivedAt := s.time }
  let s := ({ s with pipe := { s.pipe with nextQuery := q + 1 } } : State).meter tenant 0 1
  match cause with
  | some c => s.reject q x c
  | none => s.setQuery q x

/-- QUERY_ENTRY_ARRIVE (R386, R391, R394, R395). The bound of R14 on the minimum epoch, the module's open epoch at admission, is tested here,
as one of R539's checks of the entry on its own (DESIGN CHOICE, log 14). -/
def execQueryEntryArrive (fn pair sqIndex : Nat) (entry body : List Byte) (readOk : Bool) (s : State) :
    Host.Outcome State Fault Refusal :=
  .next (let e : TakenEntry := ⟨fn, pair, sqIndex⟩
    if !s.host.taken.contains e || (s.pairOf fn pair).kind ≠ 1 then s
    else
      let s := { s with host := { s.host with taken := s.host.taken.erase e } }
      let f := s.fnNow fn
      let q := parseQuery entry body
      let bodyAddr := field entry 56 8
      let bodyLen := field entry 64 4
      if field entry 0 1 ≠ 1 then s.entryFault fn pair sqIndex 1 q.tag
      else if !(dmaInside f false bodyAddr bodyLen && dmaInside f true q.resultAddr (16 * q.k)) then
        s.entryFault fn pair sqIndex 2 q.tag
      else
        let (s, _) := s.dmaRead fn bodyAddr bodyLen
        if !readOk then s.entryFault fn pair sqIndex 3 q.tag
        else s.newQuery fn pair sqIndex false q (if queryEntryOk entry body s.epochs.open_ then none else some 0x82))

/-- A function's BASIC_INDEX_MAP entry (R407, R408). -/
def State.basicIndex (s : State) (fn sel : Nat) : Nat × Nat :=
  let d := s.dict.domains.getD (objKey 0x2035 (1 + fn)) []
  (field d (8 * sel) 4, field d (8 * sel + 4) 4)

/-- The descriptor at the query ring's head is taken: the head moves on, and a completion entry is reserved for it (R392, R405). -/
def State.takeDescriptor (s : State) (fn : Nat) : State :=
  (s.updFn fn fun f => { f with
    basic := { f.basic with
      qsrHead := if f.basic.qsrHead + 1 ≥ f.basic.qsrSize then 0 else f.basic.qsrHead + 1
      reserved := f.basic.reserved + 1 } }).took fn 0

/-- A basic-level descriptor one of whose ranges fails, or whose vector's read fails, is an entry fault: it is not admitted, not metered and
adds no leaf (R386, R391, R405). The basic level has no FAULT completion, so it completes with STATUS REJECTED (DESIGN CHOICE, log 83). -/
def State.descriptorFault (s : State) (fn sqIndex : Nat) (f : QueryFields) : State :=
  (s.tally (0x2040 + fn) 5).completeBasic
    { fn, pair := 0, sqIndex, basic := true, fields := f, tenant := (s.fnState fn).tenant, seq := 0, arrivedAt := s.time, rejected := some 0x82 }

/-- BASIC_QUERY_DESCRIPTOR (R386, R405 to R407). -/
def execBasicQueryDescriptor (fn : Nat) (desc vec : List Byte) (reads : HostReads) (s : State) : Host.Outcome State Fault Refusal :=
  .next (if s.turn ≠ some (fn, 0) || (s.fnState fn).expert then s
    else
      let b := (s.fnState fn).basic
      let (s, ok) := s.dmaRead fn (b.qsrBase + 64 * b.qsrHead) 64
      if !ok then s.ringFault fn 0 3
      else if !reads.descOk then s.ringFault fn 0 4
      else
        let s := s.takeDescriptor fn
        let m := s.basicIndex fn (field desc 27 1 % 16)
        let f := parseBasicQuery desc vec m.1 m.2
        let len := inputBytes false f.fmt f.len
        if !(dmaInside (s.fnNow fn) false (field desc 8 8) len && dmaInside (s.fnNow fn) true f.resultAddr (16 * f.k)) then
          s.descriptorFault fn b.qsrHead f
        else
          let s := (s.dmaRead fn (field desc 8 8) len).1
          if !reads.dataOk then s.descriptorFault fn b.qsrHead f
          else s.newQuery fn 0 b.qsrHead true f
            (if !basicQueryOk desc vec s.epochs.open_ then some 0x82 else if m.1 = 0 ∧ m.2 = 0 then some 0x81 else none))

/-- The partitions that may hold a query for its minimum epoch: those with its version's image where one is known to have it, else
all (log 14). -/
def State.provisionalParts (s : State) (x : Query) (snap : Nat) : List Nat :=
  match (s.versionAt x.fields.ns x.fields.idx x.fields.version snap).bind fun v => s.imageByDigest v.image with
  | some (_, img) => if img.installed.isEmpty then [0, 1, 2, 3] else img.installed
  | none => [0, 1, 2, 3]

/-- QUERY_PLACE: placement by R51 and admission (R16, R392, R539). A query of orders 2 to 8 that fails before placement completes where it
is; one whose strands have no credit waits. -/
def execQueryPlace (q : Nat) (s : State) : Host.Outcome State Fault Refusal :=
  .next (match s.query q with
    | some x =>
      if !(x.phase == .placing) then s
      else
        let snap := s.usableClosed
        let chk := s.checkAt x snap
        let place (parts : List Nat) : State := match s.placeStrand parts with
          | some g => s.admitQuery q x g snap chk
          | none => s
        if x.fields.minEpoch > snap then place (s.provisionalParts x snap)
        else match chk with
          | .error c => s.reject q x c
          | .ok (_, _, img, _) => if img.installed.isEmpty then s.reject q x 0x86 else place img.installed
    | none => s)

/-- MIN_EPOCH_HOLD_END: the snapshot, the checks at it, and the hand-over to a strand with the image (R17, R51, R539). -/
def execMinEpochHoldEnd (q : Nat) (s : State) : Host.Outcome State Fault Refusal :=
  .next (match s.query q with
    | some x =>
      let snap := s.usableClosed
      if !(x.phase == .minHold) || snap < x.fields.minEpoch then s
      else match s.checkAt x snap with
        | .error c => s.reject q x c
        | .ok r =>
          let parts := r.2.2.1.installed
          if parts.isEmpty || parts.contains (x.g / 8) then s.admitChecked q x snap (.ok r)
          else match s.placeStrand parts with
            | some g => s.admitChecked q { x with g, slot := (s.freeSlot g).getD 0 } snap (.ok r)
            | none => s
    | none => s)

/-- Rows of a query's invocation of a kind: tokens for ENCODE, remaining items for SCORE (R170, R174). -/
def rowsOf (k : TensorKind) (x : Query) : Nat := match k with
  | .encode => x.fields.len
  | _ => (x.block.filter fun b => !b.dropped).length

/-- A request withdrawn at grant: an ENCODE query completes DEADLINE (R170), a SCORE query keeps its exact scores (R56). -/
def State.withdrawRequest (s : State) (q : Nat) (x : Query) (k : TensorKind) : State :=
  match k with
  | .encode => (s.tally (0x2510 + x.g / 8) 6).toEmit q { x with deadlineHit := true, answer := [] }
  | _ => (s.tally (0x2110 + x.g) 0xA).emitExact q (addReason x 4)

/-- TENSOR_GRANT: the head of the queue, once its full tile count is free (R54, R56, R170, R174, R176). A waiting ENCODE request is compared
with its stated time here, at the grant, and at its deadline in ENCODE_DEADLINE (DESIGN CHOICE, log 84). -/
def execTensorGrant (part : Nat) (s : State) : Host.Outcome State Fault Refusal :=
  .next (match (s.pool part).queue with
    | [] => s
    | r :: _ =>
      if (freeTiles (s.pool part)).length < r.tiles then s
      else match s.query r.owner with
        | some x =>
          let late := match s.modelOf r.model with
            | some (m, _) => s.tooLate part x.deadlineAt (statedNs m (rowsOf r.kind x))
            | none => false
          if late then s.withdrawRequest r.owner x r.kind
          else
            let s := s.grantTiles part r (pickTiles (s.pool part) r.model r.tiles)
            s.setQuery r.owner { x with phase := if r.kind == .encode then .encoding else .scoring }
        | none => s.dropTensor part fun y => y.kind != .maint && y.owner = r.owner)

/-- ENCODE_DEADLINE: waiting at the deadline, or running 2 µs before it (R170). -/
def execEncodeDeadline (q t : Nat) (s : State) : Host.Outcome State Fault Refusal :=
  .next (let s := s.advance t
    match s.query q with
    | some x =>
      if (x.phase == .encodeWait && s.time ≥ x.deadlineAt) ||
          (x.phase == .encoding && s.time + 2 * cyclesPerUs ≥ x.deadlineAt) then s.withdrawRequest q x .encode
      else s
    | none => s)

/-- ENCODE_COMPLETE: the encoder's graph runs on the query's tokens (R160 to R164), and its output is the query vector (R171). -/
def execEncodeComplete (q : Nat) (s : State) : Host.Outcome State Fault Refusal :=
  .next (match s.query q with
    | some x =>
      if !(x.phase == .encoding) then s
      else
        let p := x.g / 8
        let out := s.encoderOutput x
        let s := (s.dropTensor p fun r => r.kind == .encode && r.owner = q).tally (0x2510 + p) 4
        if out.any f32NonFinite then (s.tally (0x2510 + p) 0xB).reject q x 0x82
        else s.setQuery q { x with vector := out, phase := .toSketch, restarted := false }
    | none => s)

/-- Queries whose sketch holds a credit of a strand's SKETCH to ROUTE link (R57). -/
def State.sketchesOut (s : State) (g : Nat) : Nat := (s.pipe.queries.filter fun kq => kq.2.g = g && kq.2.phase == .toWalk).length

/-- QUERY_SKETCH: the query's sketches under the generations active at its snapshot (R79 to R82); SKETCH holds it while its link to ROUTE
has no credit (R57, R58). -/
def execQuerySketch (q : Nat) (s : State) : Host.Outcome State Fault Refusal :=
  .next (match s.query q with
    | some x =>
      if !(x.phase == .toSketch) || !s.powered .strand x.g || s.sketchesOut x.g ≥ 32 then s
      else match s.versionOf x.fields.ns x.fields.idx x.version with
        | some v =>
          let vec := if x.fields.tokens then x.vector else x.fields.elements
          let scale := match s.imageByDigest v.image with
            | some (_, img) => img.progs.inputScale
            | none => 0x3F800000
          let (sk, nans) := sketchesAt v (x.snapshot.getD 0) scale vec
          let s := s.count (objKey (0x2318 + x.g / 8) 7) nans
          (s.wake .base (x.g / 8) 2).setQuery q { x with vector := vec, sketches := sk, phase := .toWalk }
        | none => s
    | none => s)

end Sys2Proof.Machine
end

