-- ==== Sys2Proof/Machine/Memory.lean ====
section
/-! DEFINITION. The staging SRAM as bytes by address (R264): a list of cells, addresses rising, no cell equal to what an unlisted address
reads as. The spec gives the content no value after power-on; it reads as zero here (log 44). -/
namespace Sys2Proof.Machine

/-- What an unlisted address reads as. -/
abbrev emptyByte : Byte := 0

/-- Is a memory in its canonical form, all addresses at or above `lo`? -/
def memFrom : Nat → List Host.Cell → Bool
  | _, [] => true
  | lo, c :: cs => lo ≤ c.1 && c.2 ≠ emptyByte && memFrom (c.1 + 1) cs

/-- The canonical form: addresses strictly rising, no cell that holds what an unlisted address reads as. -/
def memWf (m : List Host.Cell) : Bool := memFrom 0 m

/-- Read one byte. -/
def readByte : List Host.Cell → Nat → Byte
  | [], _ => emptyByte
  | c :: cs, a => if c.1 = a then c.2 else readByte cs a

/-- Write one byte, keeping the canonical form. -/
def writeByte : List Host.Cell → Nat → Byte → List Host.Cell
  | [], a, v => if v = emptyByte then [] else [(a, v)]
  | c :: cs, a, v =>
    if c.1 < a then c :: writeByte cs a v
    else if c.1 = a then (if v = emptyByte then cs else (a, v) :: cs)
    else if v = emptyByte then c :: cs else (a, v) :: c :: cs

/-- Read bytes from an address on. -/
def readMem (m : List Host.Cell) (a n : Nat) : List Byte := (List.range n).map fun i => readByte m (a + i)

/-- Write bytes from an address on. -/
def writeMem (m : List Host.Cell) (a : Nat) : List Byte → List Host.Cell
  | [] => m
  | b :: bs => writeMem (writeByte m a b) (a + 1) bs

/-- Clear the addresses from `lo` up to, not including, `hi`. -/
def clearMem (m : List Host.Cell) (lo hi : Nat) : List Host.Cell := m.filter fun c => c.1 < lo || c.1 ≥ hi

end Sys2Proof.Machine
end

