-- ==== Sys2Proof/Machine/ListOps.lean ====
section
/-! DEFINITION. Work on a list's strand: views and visibility (R19 to R21, R87, R88), batches (R52, R62 to R64), the histogram and its summary
(R92, R124), partial results and withdrawn lists (R90, R135, R145, R146). -/
namespace Sys2Proof.Machine

/-! ## Views -/

/-- The segments of a list's view at a snapshot epoch (R87). -/
def viewAt (l : ListData) (e : Nat) : List Nat :=
  (l.segs.filter fun kv => existsAt kv.2.validFrom kv.2.validUntil e).map (·.1)

/-- A segment of a list. -/
def segOf (l : ListData) (seg : Nat) : Option Segment := l.segs.get seg

/-- The delete epoch of a slot under the marks of a view: the earliest mark that targets it (R85, R87). -/
def deleteEpoch (l : ListData) (view : List Nat) (segIndex slot : Nat) : Option Nat :=
  let es := view.flatMap fun k => match segOf l k with
    | some g => (g.marks.filter fun m => m.seg = segIndex && m.slot = slot).map (·.epoch)
    | none => []
  firstBy (fun a b => decide (a < b)) es

/-- Is the entry of a slot visible at a snapshot epoch (R19, R87)? -/
def visibleAt (l : ListData) (view : List Nat) (g : Segment) (slot : Nat) (e : Nat) : Bool :=
  match g.items[slot]? with
  | none => false
  | some i =>
    existsAt (if g.isBase then g.validFrom else i.insert) (deleteEpoch l view g.segIndex slot) e

/-- Visible entries of a list at an epoch (R35). -/
def visibleCount (l : ListData) (e : Nat) : Nat :=
  let view := viewAt l e
  (view.map fun k => match segOf l k with
    | some g => ((List.range g.items.length).filter fun i => visibleAt l view g i e).length
    | none => 0).sum

/-- The version of a batch. -/
def State.batchVersion (s : State) (b : Batch) : Option Version := s.versionOf b.ns b.idx b.version

/-- The programs of a batch's image (R47). -/
def State.batchProgs (s : State) (b : Batch) : ProgSettings :=
  match (s.batchVersion b).bind fun v => s.imageByDigest v.image with
  | some (_, i) => i.progs
  | none => {}

/-- Sketch width of a batch's version in bits. -/
def State.batchWidth (s : State) (b : Batch) : Nat := match s.batchVersion b with
  | some v => widthBits v.width
  | none => 256

/-! ## Batches -/

/-- Does a batch still wait for a scan pass? -/
def unscanned (b : Batch) : Bool := b.closed.isSome && b.passFrom < b.members.length

/-- Queued work of a strand's SCAN input: closed batches not yet scanned (R52; DESIGN CHOICE: the spec gives no measure, log 81). -/
def State.scanQueue (s : State) (g : Nat) : Nat := (s.pipe.batches.filter fun kb => kb.2.g = g && unscanned kb.2).length

/-- The strand for a new batch among the given partitions (R52). Among equals the lowest number is taken (DESIGN CHOICE: the spec names
none; log 81). -/
def State.batchStrand (s : State) (parts : List Nat) : Option Nat :=
  firstBy (fun a b => if s.scanQueue a ≠ s.scanQueue b then s.scanQueue a < s.scanQueue b else a < b)
    (upTo 32 fun g => s.takesWork g && parts.contains (g / 8))

/-- The counter of a close cause (R67); a gig's close has none. -/
def closeCounter : CloseCause → Nat
  | .window => 5
  | .full => 6
  | .urgent => 7
  | .quiesce => 0xB
  | .gig => 0

/-- Close a batch with a cause (R62). -/
def State.closeBatch (s : State) (b : Nat) (c : CloseCause) : State :=
  match s.batch b with
  | some x =>
    if x.closed.isSome then s
    else
      let s := s.setBatch b { x with closed := some c, closedAt := s.time }
      if closeCounter c = 0 then s else s.tally (0x2110 + x.g) (closeCounter c)
  | none => s

/-- Open a batch with its first member on a strand (R62, R63, R64, R66). -/
def State.openBatch (s : State) (handle : Nat) (l : ListData) (view : List Nat) (g : Nat) (gig : Bool) (m : Member) : State :=
  let n := s.pipe.nextBatch
  let (s, ctx) := s.openCtx g m.kSel true
  let b : Batch := { list := handle, ns := l.ns, idx := l.idx, version := l.version, view, g, openedAt := s.time
                     window := s.setting 0x2100 1 100, max := s.setting 0x2100 2 512, gig, members := [{ m with ctx }] }
  let s := ({ s with pipe := { s.pipe with nextBatch := n + 1 } } : State).setBatch n b
  let s := s.wake .strand g 2
  if gig then s.closeBatch n .gig else if b.window = 0 then s.closeBatch n .window else s

/-- A probe joins the open batch of its list view, or opens one (R52, R62, R64, R88). It waits where every partition of the module with
its image is out of service (R74; log 81). -/
def State.joinBatch (s : State) (handle : Nat) (l : ListData) (parts : List Nat) (gig dual : Bool) (m : Member) : State :=
  let view := viewAt l m.snapshot
  let open_ := s.pipe.batches.filter fun kb => kb.2.list = handle && kb.2.closed.isNone
  match if gig then none else open_.find? fun kb => kb.2.view = view with
  | some (n, b) =>
    let (s, ctx) := s.openCtx b.g m.kSel true
    let b := { b with members := b.members ++ [{ m with ctx }] }
    let s := s.setBatch n b
    if b.members.length ≥ b.max then s.closeBatch n .full else s
  | none =>
    match s.batchStrand parts with
    | some g =>
      let s := if !gig && !open_.isEmpty then s.tally (0x2320 + g) 6 else s
      s.openBatch handle l view g gig m
    | none => { s with pipe := { s.pipe with parked := s.pipe.parked ++ [(⟨handle, gig, dual, m⟩ : ParkedProbe)] } }

/-! ## Partial results -/

/-- A piece with no entries: WITHDRAWN, or LAST of an empty partial result (R145, R146). -/
def emptyPiece (handle list : Nat) (withdrawn : Bool) : List Byte :=
  leBytes 8 handle ++ leBytes 4 list ++ leBytes 2 0 ++ leBytes 2 (if withdrawn then 2 else 1) ++ leBytes 16 0

/-- The pieces of a partial result (R145, R146). -/
def piecesOf (handle list size : Nat) (es : List Entry) : List (List Byte) :=
  if es.isEmpty then [emptyPiece handle list false]
  else
    let parts := chunks size es
    (List.range parts.length).map fun i =>
      let p := parts.getD i []
      leBytes 8 handle ++ leBytes 4 list ++ leBytes 2 i ++ leBytes 2 (if i + 1 = parts.length then 1 else 0) ++
        leBytes 4 es.length ++ leBytes 2 p.length ++ leBytes 10 0 ++ p.flatMap entryBytes

/-- The list ID of a list handle. -/
def State.listId (s : State) (handle : Nat) : Nat := match s.list handle with
  | some l => l.listId
  | none => 0

/-- A member gives its HBM work area back (R152). -/
def State.freeMemberArea (s : State) (m : Member) : State :=
  { s with tiers := { s.tiers with poolList := s.tiers.poolList - m.ctx.hbmBytes } }

/-- Everything of a member that is still in the strand's links, holds and fetches is dropped. -/
def State.purgeMember (s : State) (b i : Nat) : State :=
  { s with pipe := { s.pipe with
    scanFifo := s.pipe.scanFifo.mapVals fun q => q.filter fun c => !(c.batch = b && c.member = i)
    rerankFifo := s.pipe.rerankFifo.mapVals fun q => q.filter fun c => !(c.batch = b && c.member = i)
    selectFifo := s.pipe.selectFifo.mapVals fun q => q.filter fun c => !(c.batch = b && c.member = i)
    bounds := s.pipe.bounds.mapVals fun q => q.filter fun c => !(c.1 = b && c.2.1 = i)
    fetches := s.pipe.fetches.keep fun _ f => !(f.cand.batch = b && f.cand.member = i) } }

/-- A list's partial result is withdrawn for a member: one piece with WITHDRAWN goes to the origin, in place of what has not been sent
(R90, R135, R145). -/
def State.withdrawMember (s : State) (b i : Nat) : State :=
  match s.batch b, s.member b i with
  | some bt, some m =>
    if m.withdrawn || m.ended then s
    else
      let s := (s.purgeMember b i).freeMemberArea m
      s.setMember b i { m with withdrawn := true, built := true, held := [], scanned := true, ctx := emptyCtx m.ctx
                               pieces := [emptyPiece m.handle (s.listId bt.list) true] }
  | _, _ => s

/-- Withdraw the list for every member of a batch (R90). -/
def State.withdrawBatch (s : State) (b : Nat) : State :=
  match s.batch b with
  | some bt => (List.range bt.members.length).foldl (fun s i => s.withdrawMember b i) s
  | none => s

/-- A member whose work is discarded where it stands sends nothing more (R61, R347). -/
def State.discardMember (s : State) (b i : Nat) : State :=
  match s.member b i with
  | some m =>
    if m.ended then s
    else
      let s := (s.purgeMember b i).freeMemberArea m
      s.setMember b i { m with withdrawn := true, built := true, ended := true, held := [], scanned := true, pieces := [], ctx := emptyCtx m.ctx }
  | none => s

/-- Is nothing of a member left in the strand's links, holds and fetches? -/
def State.memberIdle (s : State) (b i : Nat) (m : Member) : Bool :=
  let mine (c : Cand) : Bool := c.batch = b && c.member = i
  m.held.isEmpty && !(s.pipe.scanFifo.any fun q => q.2.any mine) && !(s.pipe.rerankFifo.any fun q => q.2.any mine) &&
    !(s.pipe.selectFifo.any fun q => q.2.any fun r => r.batch = b && r.member = i) &&
    !(s.pipe.fetches.any fun f => mine f.2.cand)

/-- When every candidate of the list is scored or dropped for a member, its context's ordered output becomes its partial result
(R145). An HBM context merges its runs first (R149). -/
def State.tryEnd (s : State) (b i : Nat) : State :=
  match s.batch b, s.member b i with
  | some bt, some m =>
    if !m.scanned || m.built || m.ended || m.ctx.poolWait || !s.memberIdle b i m then s
    else if m.ctx.store = 2 && (m.ctx.merging.isSome || !m.ctx.runs.isEmpty || !m.ctx.entries.isEmpty) then
      if m.ctx.entries.isEmpty then s
      else s.setMember b i { m with ctx := { m.ctx with runs := m.ctx.runs ++ [m.ctx.entries], entries := [] } }
    else
      let es := (ctxOutput m.ctx).1
      s.setMember b i { m with built := true
                               pieces := piecesOf m.handle (s.listId bt.list) (s.batchProgs bt).pieceSize (es.take m.kSel) }
  | _, _ => s

/-- The scan summary of a member (R124). -/
def summaryBytes (m : Member) (list w : Nat) : List Byte :=
  let count := (m.hist.map (·.2)).sum
  let lo := if count = 0 then w else match m.hist with
    | (d, _) :: _ => d
    | [] => w
  let hi := if count = 0 then w else m.listBound
  let cum (t : Nat) : Nat := ((m.hist.filter fun kv => kv.1 ≤ t).map (·.2)).sum
  leBytes 8 m.handle ++ leBytes 4 list ++ leBytes 2 lo ++ leBytes 2 hi ++ leBytes 4 count ++ leBytes 4 0 ++
    (if count = 0 then [] else (List.range (hi + 1 - lo)).flatMap fun j => leBytes 4 (cum (lo + j)))

/-- When all blocks are scanned and no candidate of the member waits for FILTER, the strand sends its scan summary (R124). -/
def State.trySummary (s : State) (b i : Nat) : State :=
  match s.batch b, s.member b i with
  | some bt, some m =>
    if !m.scanned || m.summaryAt.isSome || m.withdrawn || m.ended ||
        (s.pipe.scanFifo.getD bt.g []).any (fun c => c.batch = b && c.member = i) then s
    else
      let s := if m.discard then s else s.sendSummary m.origin m.tenant (summaryBytes m (s.listId bt.list) (s.batchWidth bt))
      s.setMember b i { m with summaryAt := some s.time }
  | _, _ => s

/-- The list bound of a histogram (R92). -/
def listBoundOf (hist : Table Nat) (n w : Nat) : Nat :=
  if (hist.map (·.2)).sum < n then w
  else match (hist.map (·.1)).find? fun t => ((hist.filter fun kv => kv.1 ≤ t).map (·.2)).sum ≥ n with
    | some t => t
    | none => w

/-- A batch whose members have all ended leaves. Where its last member ended by sending its partial result, its service time enters the
partition's average (R62). -/
def State.tryEndBatch (s : State) (b : Nat) (sent : Bool) : State :=
  match s.batch b with
  | some bt =>
    if !bt.members.all (·.ended) then s
    else
      let p := bt.g / 8
      let svc := if sent && bt.closed.isSome then s.pipe.svc.set p (((s.time - bt.closedAt) :: s.pipe.svc.getD p []).take 256) else s.pipe.svc
      ({ s with pipe := { s.pipe with batches := s.pipe.batches.erase b, svc } } : State).returnBuffer bt
  | none => s

/-- Work of some members is discarded where it stands, and the batches that this empties leave (R61, R347). -/
def State.discardMembers (s : State) (ms : List (Nat × Nat)) : State :=
  let s := ms.foldl (fun s bi => s.discardMember bi.1 bi.2) s
  ((ms.map (·.1)).eraseDups).foldl (fun s b => s.tryEndBatch b false) s

/-- The members on this module that satisfy a test, by batch and position. -/
def State.membersWhere (s : State) (p : Nat → Batch → Nat → Member → Bool) : List (Nat × Nat) :=
  s.pipe.batches.flatMap fun kb => (upTo kb.2.members.length fun i => match kb.2.members[i]? with
    | some m => p kb.1 kb.2 i m
    | none => false).map fun i => (kb.1, i)

/-- A probe of a context slot has sent its partial result; the slot is free after the last one (R347). -/
def State.probeDone (s : State) (handle : Nat) : State :=
  match s.exchange.qctx.find? fun c => c.2.handle = handle with
  | some (k, c) =>
    let q := if c.done + 1 ≥ c.probes then s.exchange.qctx.erase k else s.exchange.qctx.set k { c with done := c.done + 1 }
    { s with exchange := { s.exchange with qctx := q } }
  | none => s

end Sys2Proof.Machine
end

