-- ==== Sys2Proof/Machine/RerankOps.lean ====
section
/-! DEFINITION. What RERANK does with a candidate (R99, R126 to R136, R198, R259 to R261): the gate test and release, fetches and
tables, exact and estimated scores, and its record to SELECT. -/
namespace Sys2Proof.Machine

/-- The RERANK tile of a member: its merge slot modulo 2 (R57; log 25), or the other one where that tile is retired (R512). -/
def State.tileOf (s : State) (g : Nat) (m : Member) : Nat :=
  let t := bits m.handle 24 17 % 2
  if s.repair.tilesOut.contains (unitTile g 5 t) then 1 - t else t

/-- Candidates that wait in the link to a member's RERANK tile (R57). -/
def State.tileLoad (s : State) (g tile : Nat) : Nat :=
  ((s.pipe.rerankFifo.getD g []).filter fun c => match s.member c.batch c.member with
    | some m => s.tileOf g m = tile
    | none => false).length

/-- A segment of the list of a batch. -/
def State.segAt (s : State) (b : Batch) (seg : Nat) : Option Segment := (s.list b.list).bind fun l => segOf l seg

/-- The entry of a candidate. -/
def State.itemOf (s : State) (b : Batch) (c : Cand) : Option Item := (s.segAt b c.seg).bind fun g => g.items[c.slot]?

/-- Does a member fetch codes: R > 0 on an index whose METRIC is not 3 (R127)? -/
def needsCodes (m : Member) (v : Version) : Bool := m.r > 0 && v.metric ≠ 3

/-- Is the member's query vector present in full (R347)? Work that fetches only keys needs none. -/
def vectorReady (m : Member) (v : Version) : Bool := !needsCodes m v || m.vector.length = v.dim

/-- A member of a batch with its batch and version. -/
def State.memberCtx (s : State) (b i : Nat) : Option (Batch × Member × Version) :=
  match s.batch b, s.member b i with
  | some bt, some m => (s.batchVersion bt).map fun v => (bt, m, v)
  | _, _ => none

/-- Cycle at which a member's remaining deadline reaches RERANK_RESERVE (R133, R137). -/
def State.reserveAt (s : State) (m : Member) : Nat := m.deadlineAt - s.setting 0x2400 2 100 * cyclesPerUs

/-- A degradation reason, or a loss, of a member whose query is this module's own reaches that query (R36). -/
def State.noteOrigin (s : State) (m : Member) (f : Query → Query) : State :=
  let q := (s.queryOf m.handle).getD (handleSerial m.handle)
  if m.discard || m.origin ≠ s.mgmt.moduleId then s
  else match s.query q with
    | some x => if s.handleOf q x = m.handle && x.phase == .searching then s.setQuery q (f x) else s
    | none => s


/-- A payload that a post-filter needed is unreadable (R40, R198): the query completes DATA_LOSS. The origin of a peer's query learns it
from a STATUS item with that code of R6 (DESIGN CHOICE: the spec names no message, log 85). -/
def State.noteLoss (s : State) (m : Member) (list : Nat) : State :=
  if m.discard then s
  else if m.origin = s.mgmt.moduleId then s.noteOrigin m fun q => { q with dataLoss := true }
  else s.addItem m.origin 1 m.tenant false false (statusItem m.handle list 9)

/-- The tables that a tile keeps: most recent first, within 1 MiB (R128). -/
def keepTables (room : Nat) : List (Nat × Nat) → List (Nat × Nat)
  | [] => []
  | t :: ts => if t.2 ≤ room then t :: keepTables (room - t.2) ts else []

/-- A member's look-up table is used, built first where it is not resident: 64 × d bytes for a 4-bit format, 16 × d for RC2;
the 8-bit formats have none (R128, R129, R136). A table depends on the query alone, so the query's members of other lists on the tile
share it (DESIGN CHOICE, log 81). -/
def State.useTable (s : State) (g : Nat) (m : Member) (fmt d : Nat) : State :=
  if codeBits fmt = 8 then s
  else
    let key := 2 * g + s.tileOf g m
    let id := 2 * m.handle + if fmt = 5 then 1 else 0
    let held := s.pipe.tables.getD key []
    let s := if held.any fun t => t.1 = id then s else s.count (objKey (0x2410 + g) 4) (ceilDiv d (if fmt = 5 then 16 else 4))
    let entry := (id, (if fmt = 5 then 16 else 64) * d)
    { s with pipe := { s.pipe with tables := s.pipe.tables.set key (keepTables 1048576 (entry :: held.filter fun t => t.1 ≠ id)) } }

/-- A score enters its fetch: one that came out NaN and an L2 term clamped are counted (R130, R134, R138). -/
def State.scored (s : State) (g : Nat) (f : Fetch) (r : F32 × Bool) : State × Fetch :=
  let s := if f32IsNaN r.1 then s.tally (0x2410 + g) 0xA else s
  (if r.2 then s.tally (0x2410 + g) 0xB else s, { f with codes := .done, score := r.1 })

/-- A candidate takes the estimated score of R134: reason 1 RERANK_FAILED or 2 RERANK_LATE. -/
def State.estimateFetch (s : State) (g : Nat) (bt : Batch) (m : Member) (v : Version) (f : Fetch) (reason : Nat) : State × Fetch :=
  let r := (s.tally (0x2410 + g) (if reason = 1 then 9 else 8)).scored g { f with path := 2, flags := setBit (setBit f.flags 3 false) 2 true }
    (estimateScore v.metric (s.batchWidth bt) (squareSum m.vector) v.normEst f.cand.dist)
  (r.1.noteOrigin m fun q => addReason q reason, r.2)

/-- A late candidate: from the reduced copy where the segment has one, else estimated (R133). -/
def State.lateFetch (s : State) (g : Nat) (bt : Batch) (m : Member) (v : Version) (f : Fetch) : State × Fetch :=
  if v.reduced then (s.useTable g m 5 v.dim, { f with path := 1, tier := 0, codes := .due, flags := setBit f.flags 3 true })
  else s.estimateFetch g bt m v f 2

/-- The tier object of a kind among those of a segment (R248). -/
def State.segObj (s : State) (sg : Segment) (kind : Nat) : Nat :=
  (sg.objs.find? fun n => (s.tiers.objs.get n).any fun o => o.kind = kind).getD 0

/-- The home tier of a segment's code pair: 1 LPDDR where no object lists it (R248, R250). -/
def State.pairTier (s : State) (sg : Segment) : Nat := match s.tiers.objs.get (sg.pairHandle % 2 ^ 28) with
  | some o => o.tier
  | none => 1

/-- Issue the fetches of a released candidate that the gate lets pass (R126, R127, R128, R133, R198). -/
def State.issueFetch (s : State) (bt : Batch) (m : Member) (v : Version) (c : Cand) : State :=
  let late := !m.check && (match m.gate with
    | some t => decide (c.dist > t)
    | none => false)
  if late then s
  else
    let g := bt.g
    let f : Fetch := { cand := c, post := if m.postTerms.isEmpty then .none else .due
                       flags := if m.r = 0 then 0x20 else 0 }
    let (s, f) :=
      if !needsCodes m v then (s, f)
      else if s.time ≥ s.reserveAt m then s.lateFetch g bt m v f
      else
        let tier := match s.segAt bt c.seg with
          | some sg => s.pairTier sg
          | none => 1
        (s.useTable g m v.codeFmt v.dim, { f with codes := .due, tier })
    let n := s.pipe.nextFetch
    { s with pipe := { s.pipe with fetches := s.pipe.fetches.set n f, nextFetch := n + 1 } }

/-- Release what a member holds and a test picks, with their fetches (R126). -/
def State.releaseCands (s : State) (b i : Nat) (p : HeldCand → Bool) : State :=
  match s.memberCtx b i with
  | some (bt, m, v) =>
    let s := s.setMember b i { m with held := m.held.filter fun c => !p c }
    ((m.held.filter p).foldl (fun s c => s.issueFetch bt m v c.cand) s).tryEnd b i
  | none => s

/-- Release everything a member holds; later candidates pass straight through where `open_` says so (R126). -/
def State.releaseMember (s : State) (b i : Nat) (open_ : Bool) : State :=
  match s.member b i with
  | some m => (s.setMember b i { m with released := m.released || open_ }).releaseCands b i fun _ => true
  | none => s

/-- May a member's candidates be released now: a gate is held, or everything of it was released, and its vector is complete (R126,
R347)? -/
def mayRelease (m : Member) (v : Version) : Bool := (m.gate.isSome || m.released) && vectorReady m v

/-- Has a candidate's GATE_HOLD passed since the scan summary of its list was sent (R126)? A hold of 0 passes at once. -/
def State.holdOver (s : State) (m : Member) (us : Nat) : Bool :=
  us = 0 || m.summaryAt.any fun t => decide (s.time ≥ t + us * cyclesPerUs)

/-- The scored record of a candidate whose key, codes and payload are there goes to SELECT, unless the post-filter dropped it
(R57, R198). -/
def State.finishFetch (s : State) (n : Nat) (f : Fetch) : State :=
  let waits : Bool := f.key == .due || f.codes == .due || f.post == .due
  if waits && f.passed then { s with pipe := { s.pipe with fetches := s.pipe.fetches.set n f } }
  else
    let s := { s with pipe := { s.pipe with fetches := s.pipe.fetches.erase n } }
    match s.memberCtx f.cand.batch f.cand.member with
    | some (bt, m, _) =>
      if !f.passed then s.tryEnd f.cand.batch f.cand.member
      else
        let shard := match s.list bt.list with
          | some l => l.shard
          | none => 0
        let e : Entry := ⟨f.keyVal, f.score, if f32IsNaN f.score then setBit f.flags 1 true else f.flags, shard⟩
        let r : Scored := ⟨f.cand.batch, f.cand.member, e, f.cand.dist⟩
        let s := if m.check then s.setMember f.cand.batch f.cand.member { m with records := m.records ++ [(f.cand.dist, e)] } else s
        { s with pipe := { s.pipe with selectFifo := s.pipe.selectFifo.set bt.g (s.pipe.selectFifo.getD bt.g [] ++ [r]) } }
    | none => s

/-- The check digest of a member's run (R501). -/
def checkDigest (m : Member) (list w : Nat) : List Byte :=
  let lim := if (m.hist.map (·.2)).sum = 0 then w else m.listBound
  let es := sortBy entryPrecedes ((m.records.filter fun r => decide (r.1 ≤ lim)).map (·.2))
  shake256 (summaryBytes { m with handle := 0 } list w ++ es.flatMap fun e =>
    let e := writtenEntry e
    leBytes 8 e.key ++ leBytes 4 e.score.toNat ++ leBytes 2 (setBit e.flags 7 false)) 64

end Sys2Proof.Machine
end

