-- ==== Sys2Proof/Machine/SettingsStore.lean ====
section
/-! DEFINITION. The settings store in boot flash: its records and its two areas (R423, R454, R460). -/
namespace Sys2Proof.Machine

/-- The key of the store's MACs (R454). -/
def storeSecret : List Byte := shake256 (Config.pufRoot ++ ascii "ZR96-STORE") 32

/-- The key of the budget counters (R427, R454). -/
def budgetSecret : List Byte := shake256 (Config.pufRoot ++ ascii "ZR96-BUDGET") 32

/-- The fields of a record before its MAC: INDEX, SUB, LENGTH, sequence and value, in the order in which R460 names them (DESIGN CHOICE of
the places: the spec gives no offsets, log 50). -/
def StoreRec.fields (r : StoreRec) : List Byte :=
  leBytes 2 (r.key / 256) ++ leBytes 1 r.key ++ leBytes 4 r.value.length ++ leBytes 8 r.seq ++ r.value

/-- A record as it stands in boot flash, with its MAC (R460). -/
def StoreRec.bytes (r : StoreRec) : List Byte := r.fields ++ shake256 (storeSecret ++ r.fields) 32

/-- Bytes of a record. -/
def StoreRec.size (r : StoreRec) : Nat := 47 + r.value.length

/-- Bytes of one area of the settings store (R460). -/
abbrev storeBytesMax : Nat := 2097152

/-- Do two records hold the same sub-index? A per-tenant object has one for each tenant (R203; log 50). -/
def StoreRec.same (a b : StoreRec) : Bool := a.key = b.key && a.tenant = b.tenant

/-- Is a record the newest of its sub-index among others? -/
def StoreRec.newest (r : StoreRec) (rs : List StoreRec) : Bool := rs.all fun x => !x.same r || x.seq ≤ r.seq

/-- The newest record of each sub-index goes to the other area, which becomes the active one (R460). -/
def State.compactStore (s : State) : State :=
  let live := s.dict.store.filter fun r => r.newest s.dict.store
  { s with dict := { s.dict with store := live, storeArea := 1 - s.dict.storeArea, storeUsed := (live.map (·.size)).sum } }

/-- A record joins the settings store, compacted first where the area would fill (R423, R460). -/
def State.recordStore (s : State) (key tenant : Nat) (value : List Byte) : State :=
  let s := if s.dict.storeUsed + 47 + value.length > storeBytesMax then s.compactStore else s
  let r : StoreRec := ⟨key, tenant, s.dict.storeSeq + 1, value⟩
  { s with dict := { s.dict with store := s.dict.store ++ [r], storeSeq := r.seq, storeUsed := s.dict.storeUsed + r.size } }

/-- A setting takes a value. -/
def State.putSetting (s : State) (key dflt v : Nat) : State :=
  { s with dict := { s.dict with settings := s.dict.settings.put key dflt v } }

/-- A Domain takes its content; all zero is its default. -/
def State.putDomain (s : State) (key : Nat) (b : List Byte) : State :=
  { s with dict := { s.dict with domains := if b.all (· == 0) then s.dict.domains.erase key else s.dict.domains.set key b } }

/-- A module's own action gives a partition's PART_TEMP_CAP a value (R506). -/
def State.writeCap (s : State) (p cap : Nat) : State :=
  (s.recordStore (objKey 0x2C02 (p + 1)) 0 (leBytes 1 cap)).putSetting (objKey 0x2C02 (p + 1)) 95 cap

end Sys2Proof.Machine
end

