-- ==== Sys2Proof/Machine/ResetOps.lean ====
section
/-! DEFINITION. What a reset and a retirement do to work and units (R178, R264, R265, R493, R494, R499, R500, R505, R506, R512): used by every
command that resets, scores or retires a strand, a tile or a partition. -/
namespace Sys2Proof.Machine

/-! ## Absorbing work (R494) -/

/-- A member's list work is absorbed: its origin gets a piece with WITHDRAWN set (R145, R494). -/
def State.absorbMember (s : State) (b i : Nat) : State :=
  match s.batch b, s.member b i with
  | some bt, some m =>
    if m.ended then s
    else
      let s := if m.discard then s else s.sendPiece m.origin m.tenant (emptyPiece m.handle (s.listId bt.list) true)
      let s := s.discardMember b i
      if m.origin = s.mgmt.moduleId || m.discard then s else s.probeDone m.handle
  | _, _ => s

/-- Members of batches that satisfy a test are absorbed; a batch with none left is gone. -/
def State.absorbMembers (s : State) (p : Batch → Member → Bool) : State :=
  let hit := s.membersWhere fun _ b _ m => p b m && !m.ended
  let s := hit.foldl (fun s bi => s.absorbMember bi.1 bi.2) s
  ((hit.map (·.1)).eraseDups).foldl (fun s b => s.tryEndBatch b false) s

/-- Queries at their origin that satisfy a test end with RETRY (R494). -/
def State.absorbQueries (s : State) (p : Query → Bool) : State :=
  ((s.pipe.queries.filter fun kq => kq.2.phase != .placing && kq.2.phase != .handedOff && p kq.2).map (·.1)).foldl (fun s q => s.retryQuery q true) s

/-- Probes of a handle still in flight on this module are discarded, and the batches that this empties leave (R75). -/
def State.discardProbes (s : State) (handle : Nat) : State :=
  let s := s.discardMembers (s.membersWhere fun _ _ _ m => m.handle = handle && !m.ended)
  { s with pipe := { s.pipe with parked := s.pipe.parked.filter fun p => p.member.handle ≠ handle } }

/-! ## Staging banks of a strand (R264 to R266) -/

/-- Bytes of a bank (R264). -/
abbrev bankBytes : Nat := 524288

/-- A strand's staging content is discarded (R493). -/
def State.wipeStaging (s : State) (g : Nat) : State :=
  let lo := bankId (g / 8) (s.physOf g) 0 * bankBytes
  { s with staging := { s.staging with mem := clearMem s.staging.mem lo (lo + 32 * bankBytes) } }

/-- A strand enters service: the bank owners of R264. -/
def State.setBanks (s : State) (g : Nat) : State :=
  (List.range 32).foldl (fun s b => s.giveBank (bankId (g / 8) (s.physOf g) b) (bankOwner0 b)) s

/-! ## Strands -/

/-- Everything a strand holds is absorbed (R494). With `strandScope` the absorbed queries' probes elsewhere are discarded, and
probes inside from other origins are lost (R75). -/
def State.absorbStrand (s : State) (g : Nat) (strandScope : Bool) : State :=
  let handles := (s.pipe.queries.filter fun kq => kq.2.g = g && kq.2.phase != .placing).map fun kq => s.handleOf kq.1 kq.2
  let s := s.absorbQueries fun x => x.g = g
  let s := if strandScope then handles.foldl (fun s h => s.discardProbes h) s else s
  let s := s.absorbMembers fun b _ => b.g = g
  { s with
    pipe := { s.pipe with
      scanFifo := s.pipe.scanFifo.erase g, rerankFifo := s.pipe.rerankFifo.erase g, selectFifo := s.pipe.selectFifo.erase g
      bounds := s.pipe.bounds.erase g, tables := s.pipe.tables.keep fun k _ => k / 2 ≠ g
      gigUsed := s.pipe.gigUsed.keep fun k _ => k / 4 ≠ g }
    repair := { s.repair with campions := s.repair.campions.filter fun c => c.tensor || c.target ≠ g } }

/-- A domain loses power in a reset; it asks for a wake token when it returns (R493). -/
def State.dropPower (s : State) (k : DomainKind) (n : Nat) : State :=
  let key := domainKey ⟨k, n⟩
  { s with power := { s.power with
    doms := s.power.doms.erase key, idleAt := s.power.idleAt.erase key
    requests := s.power.requests.filter fun r => r.dom != ⟨k, n⟩, granted := s.power.granted.filter fun r => r.dom != ⟨k, n⟩ } }

/-- A strand's reset begins: what is left is absorbed, its staging content goes, and it is out of service (R493). -/
def State.strandDown (s : State) (g : Nat) (strandScope : Bool) : State :=
  let s := ((s.absorbStrand g strandScope).wipeStaging g).dropPower .strand g
  { s with repair := { s.repair with strandsOut := if s.repair.strandsOut.contains g then s.repair.strandsOut else g :: s.repair.strandsOut } }

/-- A strand returns to service: bank owners, then a wake token once work reaches it (R264, R493). -/
def State.strandReturn (s : State) (g : Nat) : State :=
  let s := ({ s with repair := { s.repair with strandsOut := s.repair.strandsOut.erase g } } : State).setBanks g
  s.wake .strand g 2

/-! ## Tiles -/

/-- Queries whose origin state lies in a stage tile, by class (R47, R494; log 29). -/
def heldInClass (cls : Nat) (p : QPhase) : Bool := match cls with
  | 0 => p == .minHold || p == .poolWait
  | 1 => p == .toSketch
  | 2 => p == .toWalk
  | 6 => p == .assembling || p == .scoreWait || p == .scoring
  | 7 => p == .searching || p == .blockWait
  | 8 => p == .emitting
  | 9 => p == .encodeWait || p == .encoding
  | _ => false

/-- A stage tile's work is absorbed (R493, R494): FILTER and SELECT hold state of every member of the strand, a RERANK tile that
of its own members. -/
def State.absorbTile (s : State) (g cls idx : Nat) : State :=
  let s := s.absorbQueries fun x => x.g = g && heldInClass cls x.phase
  if cls = 4 ∨ cls = 7 then s.absorbMembers fun b _ => b.g = g
  else if cls = 5 then
    let t := s
    let s := s.absorbMembers fun b m => b.g = g && t.tileOf g m = idx
    { s with pipe := { s.pipe with tables := s.pipe.tables.erase (2 * g + idx) } }
  else s

/-- An invocation on a faulting or reset tile is abandoned; its request re-enters once, and ends its query with RETRY the second
time (R178). A maintenance step is resumed later (R494). -/
def State.restartInvocation (s : State) (p : Nat) (i : Invocation) (tally : Bool) : State :=
  match i.req.kind with
  | .maint =>
    let t := s.pool p
    s.setPool p { t with running := t.running.erase i, suspended := t.suspended ++ [i.req.owner] }
  | k =>
    match s.query i.req.owner with
    | some x =>
      let s := s.endInvocation p i
      if x.restarted then s.retryQuery i.req.owner true
      else
        let s := s.setQuery i.req.owner { x with restarted := true, phase := if k == .encode then .encodeWait else .scoreWait }
        let s := s.request p { i.req with queuedAt := s.time }
        if tally then s.tally (0x2510 + p) 9 else s
    | none => s.endInvocation p i

/-- The invocations that hold a tensor tile are abandoned (R178, R494). -/
def State.absorbTensor (s : State) (p tile : Nat) (tally : Bool) : State :=
  ((s.pool p).running.filter fun i => i.held.contains tile).foldl (fun s i => s.restartInvocation p i tally) s

/-- A tensor tile leaves service for its reset or for good; its weight shares are gone. -/
def State.tensorDown (s : State) (p tile : Nat) : State :=
  let t := s.pool p
  (s.setPool p { t with out := if t.out.contains tile then t.out else tile :: t.out, shares := t.shares.filter fun x => x.tile ≠ tile }).dropPower
    .tensor (16 * p + tile)

/-- A tensor tile returns to service. -/
def State.tensorReturn (s : State) (p tile : Nat) : State :=
  let t := s.pool p
  s.setPool p { t with out := t.out.erase tile }

/-- Tile-scope reset of a tensor tile begins: 20 µs (R493). -/
def State.resetTensor (s : State) (p tile : Nat) (tally : Bool) : State :=
  let s := (s.absorbTensor p tile tally).tensorDown p tile
  let j : ResetJob := { scope := 1, part := p, cls := 10, index := tile, draining := false, startedAt := s.time }
  ({ s with repair := { s.repair with jobs := s.repair.jobs ++ [j] } } : State).tally 0x2D10 2

/-- Queries of a partition's pool end with RETRY, maintenance steps are suspended (R494). -/
def State.absorbPool (s : State) (p : Nat) : State :=
  let t := s.pool p
  let qs := ((t.running.map (·.req)) ++ t.queue).filter fun r => r.kind != .maint
  let s := qs.foldl (fun s r => s.retryQuery r.owner true) s
  let t := s.pool p
  let ms := ((t.running.map (·.req)) ++ t.queue).filter fun r => r.kind == .maint
  s.setPool p { t with running := [], queue := [], shares := [], suspended := t.suspended ++ ms.map (·.owner) }

/-! ## Removing an image from a partition (R74) -/

/-- A partition stops taking new work: its open batches close with cause QUIESCE (R62, R74). -/
def State.quiesce (s : State) (p : Nat) : State :=
  ((s.pipe.batches.filter fun kb => kb.2.g / 8 = p && kb.2.closed.isNone).map (·.1)).foldl (fun s b => s.closeBatch b .quiesce) s

/-- Installation or removal of an image in a partition begins, or waits while a partition is out of service for one (R74). -/
def State.beginInstall (s : State) (p image : Nat) (remove : Bool) (cmd : Option AdminRef) : State :=
  let i : Install := { part := p, image, remove, startedAt := s.time, limitUs := s.setting 0x2100 4 20000, cmd
                       waiting := s.installs.any fun i => !i.waiting }
  let s := { s with installs := s.installs ++ [i] }
  if i.waiting then s else s.quiesce p

/-- The next installation or removal that waits begins (R74). -/
def State.nextInstall (s : State) : State :=
  if s.installs.any fun i => !i.waiting then s
  else match s.installs with
    | [] => s
    | i :: rest =>
      let i := { i with waiting := false, startedAt := s.time, limitUs := s.setting 0x2100 4 20000 }
      ({ s with installs := i :: rest } : State).quiesce i.part

/-! ## Health and retirement (R497 to R500, R512) -/

/-- Strands of a partition in service or in a reset that returns them. -/
def State.strandsLeft (s : State) (p : Nat) : Nat :=
  (upTo 8 fun n => !s.repair.strandsOut.contains (8 * p + n)).length

/-- A unit's record carries RETIRED; UNITS_RETIRED counts (R499, R515). -/
def State.markRetired (s : State) (unit : Nat) : State :=
  let h := s.healthOf unit
  ({ s with repair := { s.repair with health := s.repair.health.set unit { h with retired := true } } } : State).tally 0x2D10 0xC

/-- The key of a retired unit whose coordinate a spare has taken over. -/
def retiredKey (unit : Nat) : Nat := unit + 2 ^ 40

/-- Is a unit the strand g or one of its stage tiles? -/
def inStrand (g unit : Nat) : Bool := (unit % 16 = 2 || unit % 16 = 3) && unitStrand g / 16 % 32 = unit / 16 % 32

/-- Two counter objects change places. -/
def State.swapCounters (s : State) (a b : Nat) : State :=
  let va := (List.range 10).map fun n => s.counter (objKey a (n + 1))
  let vb := (List.range 10).map fun n => s.counter (objKey b (n + 1))
  let fill (t : Table Nat) (x : Nat) (v : List Nat) : Table Nat :=
    (List.range 10).foldl (fun (t : Table Nat) n => t.put (objKey x (n + 1)) 0 (v.getD n 0)) t
  { s with counters := fill (fill s.counters a vb) b va }

/-- A spare strand takes a coordinate: the retired unit's record leaves it, and the object of its coordinate reaches the spare's staging
counters (R46, R277, R499). -/
def State.spareStrandIn (s : State) (g : Nat) : State :=
  let s := s.swapCounters (0x2820 + g) (0x2F00 + g / 8)
  let kept := s.repair.health.filter fun kv => !inStrand g kv.1
  let moved := s.repair.health.filter fun kv => inStrand g kv.1 && kv.2.retired
  { s with repair := { s.repair with
    health := moved.foldl (fun t kv => Table.set t (retiredKey kv.1) kv.2) kept
    tilesOut := s.repair.tilesOut.filter fun u => !inStrand g u
    faults := s.repair.faults.filter fun f => !inStrand g f.unit
    spareStrand := s.repair.spareStrand ++ [g / 8], spareFor := s.repair.spareFor.set (g / 8) (g % 8) } }

/-- The partition is out of service for good: everything in it is absorbed (R499, R512). -/
def State.partitionOut (s : State) (p : Nat) : State :=
  let s := (List.range 8).foldl (fun s n => s.strandDown (8 * p + n) false) s
  let s := s.absorbPool p
  { s with repair := { s.repair with partsOut := if s.repair.partsOut.contains p then s.repair.partsOut else p :: s.repair.partsOut } }

/-- After its reset a retired strand, or a strand with a retired tile, comes back on the spare, on the tiles left, or not at all
(R499, R512). -/
def State.strandReplaced (s : State) (g cls index : Nat) (isTile : Bool) : State :=
  let p := g / 8
  if !s.repair.spareStrand.contains p then (s.spareStrandIn g).strandReturn g
  else
    let left := (upTo (if cls = 3 then 4 else 2) fun n => n ≠ index && !s.repair.tilesOut.contains (unitTile g cls n)).length
    if isTile && (cls = 3 || cls = 5) && left > 0 then
      ({ s with repair := { s.repair with tilesOut := unitTile g cls index :: s.repair.tilesOut } } : State).strandReturn g
    else if s.strandsLeft p = 0 then s.partitionOut p else s

/-- A strand, or a stage tile of it, retires: the strand is reset at strand scope (R499). -/
def State.retireInStrand (s : State) (g cls index : Nat) (isTile : Bool) : State :=
  let j : ResetJob := { scope := 2, part := g / 8, strand := g % 8, cls := if isTile then cls else 15, index, draining := true
                        startedAt := s.time, limit := s.setting 0x2D01 2 2000 * cyclesPerUs, retire := true }
  let others := s.repair.jobs.filter fun x => !(x.scope ≤ 2 && x.part = g / 8 && x.strand = g % 8 && x.cls ≠ 10)
  ({ s with repair := { s.repair with jobs := others ++ [j] } } : State).tally 0x2D10 3

/-- Images whose tile counts the shrunken pool cannot serve are removed from the partition (R512). -/
def State.dropImages (s : State) (p : Nat) : State :=
  let size := 16 - (s.pool p).out.length
  let big := (s.images.filter fun kv => kv.2.installed.contains p && (kv.2.encodeTiles > size || kv.2.scoreTiles > size)).map (·.1)
  big.foldl (fun s i => if s.installs.any fun x => x.part = p && x.image = i then s else s.beginInstall p i true none) s

/-- A tensor tile retires: the spare takes its coordinate, or the pool shrinks (R499, R512). -/
def State.retireTensor (s : State) (p tile unit : Nat) : State :=
  let s := (s.absorbTensor p tile false).tensorDown p tile
  if !s.repair.spareTensor.contains p then
    let h := s.healthOf unit
    ({ s with repair := { s.repair with
        health := (s.repair.health.erase unit).set (retiredKey unit) h, spareTensor := s.repair.spareTensor ++ [p]
        faults := s.repair.faults.filter fun f => f.unit ≠ unit } } : State).tensorReturn p tile
  else ({ s with repair := { s.repair with tilesOut := unit :: s.repair.tilesOut } } : State).dropImages p

/-- The lowest temperature band among a unit's faults. -/
def minBand (fs : List FaultBin) (unit : Nat) : Nat :=
  match (fs.filter fun f => f.unit = unit).map (·.band) with
  | [] => 12
  | b :: bs => bs.foldl min b

/-- A tile's restriction ends with its retirement: the partition's cap returns to its value before, unless another tile's restriction
needs a lower one (R506). -/
def State.liftCap (s : State) (unit : Nat) : State :=
  match s.repair.savedCap.find? fun c => c.2.1 = unit with
  | none => s
  | some (p, _, _) =>
    let mine := s.repair.savedCap.filter fun c => c.1 = p
    let rest := mine.filter fun c => c.2.1 ≠ unit
    let base := (mine.map (·.2.2)).foldl max 0
    let cap := (rest.map fun c => 38 + 5 * minBand s.repair.faults c.2.1).foldl min base
    ({ s with repair := { s.repair with
        savedCap := (s.repair.savedCap.filter fun c => c.1 ≠ p) ++ rest.map fun c => (c.1, c.2.1, base) } } : State).writeCap p cap

/-- Retire one unit that has reached RETIRE (R499). Ports, dies and memory devices retire in their own commands. -/
def State.retireUnit (s : State) (unit : Nat) : State :=
  let ty := unit % 16
  let p := bits unit 5 4
  let g := 8 * p + bits unit 8 6
  if ty = 2 then (s.markRetired unit).retireInStrand g 15 0 false
  else if ty = 3 then ((s.markRetired unit).liftCap unit).retireInStrand g (bits unit 12 9) (bits unit 15 13) true
  else if ty = 4 then ((s.markRetired unit).liftCap unit).retireTensor p (unit / 65536) unit
  else if ty = 1 then (s.markRetired unit).partitionOut p
  else s

/-- Has a unit a spare of its kind left in its partition (R500)? -/
def State.hasSpare (s : State) (unit : Nat) : Bool :=
  let p := bits unit 5 4
  match unit % 16 with
  | 2 => !s.repair.spareStrand.contains p
  | 3 => !s.repair.spareStrand.contains p
  | 4 => !s.repair.spareTensor.contains p
  | _ => false

/-- The module's own level (R500). -/
def State.moduleLevel (s : State) : Nat :=
  let inService := (upTo 32 fun g => s.strandUp g).length
  if s.flash.readOnly || inService < 16 || !s.repair.partsOut.isEmpty then 3
  else if s.repair.health.any fun kv => kv.1 < 2 ^ 40 && (kv.2.retired || (levelOf kv.2.score ≥ 2 && !s.hasSpare kv.1)) then 2
  else min 1 ((s.repair.health.map fun kv => levelOf kv.2.score).foldl max 0)

/-- A change of MODULE_LEVEL is reported to the leader (R500). -/
def State.settleLevel (s : State) : State :=
  let l := s.moduleLevel
  if l = s.repair.level then s
  else ({ s with repair := { s.repair with level := l } } : State).emit (.report 1 [l])

/-- Units that have reached RETIRE are retired, and the module's level follows (R499, R500). -/
def State.settle (s : State) : State :=
  let due := (s.repair.health.filter fun kv => kv.1 < 2 ^ 40 && levelOf kv.2.score = 3 && !kv.2.retired).map (·.1)
  (due.foldl (fun s u => s.retireUnit u) s).settleLevel

/-! ## Fault bins (R505, R506) -/

/-- Temperature band of a temperature in °C (R505). -/
def tempBand (t : F32) : Nat := match f32Val t with
  | .nan => 0
  | .inf neg => if neg then 0 else 12
  | .fin neg m e =>
    let p := scaleUp m e
    if neg then 0 else min 12 ((p.1 - 40 * p.2) / (5 * p.2))

/-- The fault bins of a partition now: band, clock step, load (R505). -/
def State.binsOf (s : State) (p load : Nat) : Nat × Nat × Nat :=
  (tempBand (s.sensors.getD (objKey 0x2CF0 (p + 1)) 0), min 11 ((s.clockOf p - 1000) / 100), load % 3)

/-- A FAULT record with its bins, stage class and handle (R505). -/
def State.logFault (s : State) (index sub unit p stage handle load : Nat) : State :=
  let b := s.binsOf p load
  s.logEvent index sub 2 unit (leBytes 1 b.1 ++ leBytes 1 b.2.1 ++ leBytes 1 b.2.2 ++ leBytes 1 stage ++ leBytes 8 handle ++ leBytes 8 0)

/-- Do all values agree? -/
def allSame (xs : List (Nat × Nat)) : Bool := match xs with
  | [] => true
  | x :: r => r.all fun y => y == x

/-- A fault of a tile enters its history; with three of them it may be bound to a temperature or a pattern (R506). -/
def State.tileFault (s : State) (unit p load : Nat) : State :=
  let b := s.binsOf p load
  let f : FaultBin := ⟨unit, b.1, b.2.1, b.2.2⟩
  let before := minBand s.repair.faults unit
  let s := { s with repair := { s.repair with faults := s.repair.faults ++ [f] } }
  let h := s.healthOf unit
  let mine := s.repair.faults.filter fun x => x.unit = unit
  if h.retired then s
  else if h.tempBound || h.patternBound then (if b.1 < before then s.retireUnit unit else s)
  else if mine.length < 3 then s
  else
    let bmin := minBand s.repair.faults unit
    let temp := match s.repair.passed.get unit with
      | some low => decide (low < bmin)
      | none => false
    let pattern := allSame (mine.map fun x => (x.clock, x.load))
    if !temp && !pattern then s
    else
      let old := s.setting 0x2C02 (p + 1) 95
      let cap := min old (38 + 5 * bmin)
      let s := { s with repair := { s.repair with
        health := s.repair.health.set unit { h with tempBound := temp, patternBound := !temp }
        savedCap := s.repair.savedCap ++ [(p, unit, old)] } }
      if cap < 60 then s.retireUnit unit
      else
        (s.writeCap p cap).tally 0x2D10 0xB

end Sys2Proof.Machine
end

