-- ==== Sys2Proof/Machine/Fabric.lean ====
section
/-! DEFINITION. The commands of the Cuhus ports (R312 to R342): training and identity, flits, admission answers, frames, gates,
shapers, queue sampling. -/
namespace Sys2Proof.Machine

/-- Cycles of a time in ns, rounded up (R473: 1.6 cycles a nanosecond). -/
def nsCycles (ns : Nat) : Nat := ceilDiv (ns * 8) 5

/-! ## Training and identity -/

/-- PORT_ENABLE (R313, R340, R475). -/
def State.portEnable (s : State) (port : Nat) : State :=
  (if port ≥ 32 || (s.healthOf (unitPort port)).retired then s
    else
      let p := s.port port
      let s := s.setPort port { p with enable := true, state := if p.state = 7 then 0 else p.state }
      if p.state = 6 then s else s.wake .port port 2)

/-- The command. -/
def execPortEnable (port : Nat) (s : State) : Host.Outcome State Fault Refusal := .next (s.portEnable port)

/-- The width code of the largest of ×4, ×2, ×1 that `lanes` trained lanes and MAX_WIDTH allow (R313). -/
def widthFor (lanes maxWidth : Nat) : Nat := min (if lanes ≥ 4 then 2 else if lanes ≥ 2 then 1 else 0) maxWidth

/-- The descriptor digest of the loaded common part (R458). -/
def State.descriptorDigest (s : State) : List Byte :=
  digest64 (slice (s.dict.domains.getD (objKey 0x2E0A 1) []) 0 16562)

/-- IDENT content (R314): module ID, port, width, stepping, 3 zero bytes, 8 digest bytes. The layout is the model's (log 22). -/
def State.identContent (s : State) (port : Nat) : List Byte :=
  leBytes 2 s.mgmt.moduleId ++ leBytes 1 port ++ leBytes 1 (s.port port).width ++ leBytes 1 s.pins.stepping ++ leBytes 3 0 ++
    s.descriptorDigest.take 8

/-- PORT_SIGNAL_DETECT: a signal on a lane of an enabled port with a cable (R524) starts its training; at FEC lock the width is that of the
lanes that have trained from lane 0 up, and the port sends its IDENT (R313, R314). -/
def execPortSignalDetect (port lanes : Nat) (s : State) : Host.Outcome State Fault Refusal :=
  .next (let p := s.port port
    if port < 32 ∧ p.enable ∧ p.state = 0 ∧ lanes ≥ 1 ∧ s.pins.cables.contains port ∧ s.powered .port port then
      s.setPort port { p with state := 1, since := s.time, failed := false }
    else if port < 32 ∧ p.state = 1 ∧ lanes ≥ 1 ∧ s.powered .port port then
      (s.setPort port { p with state := 2, width := widthFor lanes p.maxWidth }).sendFlit port 2 false false 0 (s.identContent port)
    else s)

/-- TRAIN_FAILS: a step has not finished within its limit (R313). -/
def execTrainFails (port t : Nat) (s : State) : Host.Outcome State Fault Refusal :=
  .next (let s := s.advance t
    let p := s.port port
    if (p.state = 1 ∧ s.time ≥ p.since + 50 * cyclesPerMs) ∨ (p.state = 2 ∧ s.time ≥ p.since + 56 * cyclesPerMs) then
      (s.setPort port { p with state := 0, since := s.time, failed := true }).tally (0x2A40 + port) 7
    else s)

/-- TRAIN_RETRY: 100 ms after a failure (R313). -/
def execTrainRetry (port t : Nat) (s : State) : Host.Outcome State Fault Refusal :=
  .next (let s := s.advance t
    let p := s.port port
    if p.enable ∧ p.state = 0 ∧ p.failed ∧ s.time ≥ p.since + 100 * cyclesPerMs ∧ s.pins.cables.contains port then
      s.setPort port { p with state := 1, since := s.time, failed := false }
    else s)

/-- This module's entry of the descriptor for a port (R458). -/
def State.portEntry (s : State) (port : Nat) : Nat := field (s.dict.domains.getD (objKey 0x2E0A 2) []) (72 + 4 * port) 4


/-- Does a neighbour's identity match the descriptor's entry for the port (R313, R314)? -/
def State.identMatches (s : State) (port : Nat) (content : List Byte) : Bool :=
  let e := s.portEntry port
  bit e 19 && field content 0 2 = bits e 11 0 && field content 2 1 = bits e 16 12 && slice content 8 8 = s.descriptorDigest.take 8

/-- IDENT: the port becomes UP or MISMATCH, and a changed identity takes an UP port to MISMATCH (R313, R314). -/
def execIdent (port : Nat) (content : List Byte) (s : State) : Host.Outcome State Fault Refusal :=
  .next (let p := s.port port
    if !(p.state = 2 || p.state = 3 || p.state = 5) then s
    else if s.identMatches port content && (p.state ≠ 3 || p.ident = content) then
      if p.state = 3 then s
      else
        (s.setPort port { p with state := 3, ident := content, nbrModule := field content 0 2, nbrPort := field content 2 1 }).routeWaiting
    else if p.state = 5 then s
    else
      let s := s.setPort port { p with state := 5, nbrModule := field content 0 2 % 4096, nbrPort := field content 2 1 % 32 }
      (s.tally (0x2A40 + port) 8).logState (0x2A40 + port) 8 (unitPort port) p.state 5)

/-- A retrain begins: counted and scored (R315, R497). -/
def State.startRetrain (s : State) (port : Nat) : State :=
  let p := s.port port
  if p.state = 3 then
    ((s.setPort port { p with state := 4, since := s.time, replays := 0 }).tally (0x2A40 + port) 6).score (unitPort port) 20
  else s


/-- A received frame's buffers and DEMAND are released. -/
def State.releaseRx (s : State) (port : Nat) (r : RxFrame) : State :=
  if r.accepted then
    let s := s.freeIn port r.cls r.guaranteed r.shared
    { s with fabric := { s.fabric with demand := s.fabric.demand.put r.cls 0 (s.fabric.demand.getD r.cls 0 - r.demand) } }
  else s

/-- The port goes DOWN, or takes another state that is not UP: partial frames are discarded and unacknowledged ones take their route
again (R327). -/
def State.downPort (s : State) (port state : Nat) : State :=
  let p := s.port port
  let s := (p.partial_ ++ p.rx.toList).foldl (fun s r => s.releaseRx port r) s
  let frames := p.flying ++ ([4, 1, 0, 2, 3] : List Nat).flatMap fun c => p.queues.getD c []
  let s := s.setPort port { p with
    state, since := s.time, failed := false, width := 0, txSeq := 0, rxSeq := 0, replay := [], replays := 0, nak := false
    answers := [], queues := [], flying := [], rx := none, partial_ := [], headerFirst := [] }
  frames.foldl (fun s f => (s.freeOut port f.guaranteed f.shared).routeFrame { f with keepTag := true, defers := 0, backoffUntil := 0 }) s

/-- A port whose score has reached RETIRE is DISABLED for good; the module's level follows (R499, R500). -/
def State.settlePort (s : State) (port : Nat) : State :=
  let u := unitPort port
  if levelOf (s.healthOf u).score = 3 && !(s.healthOf u).retired then
    let s := (s.markRetired u).downPort port 7
    (s.setPort port { s.port port with enable := false }).settle
  else s.settle

/-- RETRAIN_TRIGGER: lane loss (0), FEC failures (1) or eight replays of one flit (2) (R315). -/
def execRetrainTrigger (port cause : Nat) (s : State) : Host.Outcome State Fault Refusal :=
  .next (if cause > 2 || (cause = 2 && (s.port port).replays < 8) then s else (s.startRetrain port).settlePort port)

/-- RETRAIN: PORT_CTL.RETRAIN (R340). -/
def execRetrain (port : Nat) (s : State) : Host.Outcome State Fault Refusal := .next ((s.startRetrain port).settlePort port)

/-- PORT_DOWN: the link of a port fails (R327). -/
def execPortDown (port : Nat) (s : State) : Host.Outcome State Fault Refusal :=
  .next (let st := (s.port port).state
    if st = 0 || st = 6 || st = 7 then s else s.downPort port 0)

/-- RETRAIN_COMPLETE: the width its lanes support, or DOWN (R315). -/
def execRetrainComplete (port lanes : Nat) (s : State) : Host.Outcome State Fault Refusal :=
  .next (let p := s.port port
    if p.state ≠ 4 then s
    else if lanes = 0 then s.downPort port 0
    else
      let w := widthFor lanes p.maxWidth
      let s := s.setPort port { p with state := 3, width := w }
      let s := if w < p.width then s.logState (0x2A00 + port) 2 (unitPort port) p.width w else s
      s.routeWaiting)

/-! ## Flits -/

/-- Frames whose LAST flit is acknowledged and which are accepted leave the sender (R326). -/
def State.settleFrames (s : State) (port : Nat) : State :=
  let p := s.port port
  let gone (f : Frame) : Bool := f.accepted && f.sent = 2 && !(p.replay.any fun r => r.1 = f.lastSeq)
  let s := s.setPort port { p with flying := p.flying.filter fun f => !gone f }
  (p.flying.filter gone).foldl (fun s f => s.freeOut port f.guaranteed f.shared) s

/-- Flits up to the acknowledged one leave the replay buffer (R317). -/
def ackReplay (replay : List (Nat × List Byte)) (ack : Nat) : List (Nat × List Byte) :=
  if replay.any fun r => r.1 = ack then (replay.dropWhile fun r => r.1 ≠ ack).drop 1 else replay

/-- Replay every unacknowledged flit in order (R317, R333, R497). -/
def State.replayFlits (s : State) (port : Nat) : State :=
  let p := s.port port
  match p.replay with
  | [] => s
  | _ :: _ =>
    let data := p.replay.filter fun r => field r.2 0 1 % 4 = 1
    let overrun := data.any fun r => match s.windowLeft p (field r.2 0 1 / 16 % 8) with
      | none => true
      | some none => false
      | some (some left) => left * 1000 < p.replay.length * flitMilli (lanesOf p.width)
    let s := p.replay.foldl (fun s r => s.emit (.flit port r.2)) s
    let s := s.count (objKey (0x2A40 + port) 1) (256 * data.length)
    let s := s.tally (0x2A40 + port) 4
    let s := if overrun then s.tally (0x2A40 + port) 0xE else s
    let s := s.setPort port { s.port port with replays := p.replays + 1, replayed := p.replayed + 1 }
    if (p.replayed + 1) % 1000 = 0 then (s.score (unitPort port) 5).settlePort port else s

/-- Take the payload of a DATA flit into its frame (R318, R326). -/
def assemble (p : Port) (first last : Bool) (cls : Nat) (payload : List Byte) : Port :=
  if first then
    let hdr := slice payload 0 32
    let r : RxFrame := { tag := field hdr 0 2, header := hdr, bytes := payload, need := ceilDiv (field hdr 8 2) 256
                         accepted := false, cls, whole := last }
    let older := p.partial_ ++ (p.rx.toList.filter fun r => !r.deferred)
    if last then { p with rx := none, partial_ := older ++ [r] } else { p with rx := some r, partial_ := older }
  else match p.rx with
    | some r =>
      let r := { r with bytes := r.bytes ++ payload, whole := last }
      if last then { p with rx := none, partial_ := if r.deferred then p.partial_ else p.partial_ ++ [r] }
      else { p with rx := some r }
    | none =>
      let grow (r : RxFrame) : RxFrame := { r with bytes := r.bytes ++ payload, whole := last }
      { p with partial_ := replaceFirst (fun r => r.accepted && !r.whole && r.cls = cls) grow p.partial_ }

/-- What a flit with a good CRC acknowledges: its frames leave, and a NAK replays the rest (R317, R326). -/
def State.ackFlit (s : State) (port : Nat) (flit : List Byte) : State :=
  let p := s.port port
  let ackw := field flit 3 2
  let replay := ackReplay p.replay (bits ackw 11 0)
  let s := s.setPort port { p with replay, replays := if replay.length < p.replay.length then 0 else p.replays }
  let s := s.settleFrames port
  if bit ackw 15 then s.replayFlits port else s

/-- A flit in sequence is taken, one out of sequence asks for a replay (R316 to R318). -/
def State.placeFlit (s : State) (port : Nat) (flit : List Byte) : State :=
  let fctl := field flit 0 1
  let ftype := fctl % 4
  let p := s.port port
  if bits (field flit 1 2) 11 0 ≠ p.rxSeq then s.setPort port { p with nak := true }
  else if ftype = 0 || ftype = 3 then s.setPort port { p with nak := false }
  else
    let p := { p with nak := false, rxSeq := (p.rxSeq + 1) % 4096 }
    if ftype = 2 || p.state ≠ 3 then s.setPort port p
    else (s.setPort port (assemble p (bit fctl 2) (bit fctl 3) (bits fctl 6 4) (slice flit 16 (field flit 5 1)))).count
      (objKey (0x2A40 + port) 2) 256

/-- FLIT_RECEIVE: a port whose lanes are locked takes it (R313, R315 to R317). A flit of another length than 256 bytes is no flit. -/
def execFlitReceive (port : Nat) (flit : List Byte) (s : State) : Host.Outcome State Fault Refusal :=
  if flit.length ≠ 256 then .fault (.malformed "FLIT_RECEIVE")
  else .next (let p := s.port port
    if p.state ≤ 1 || p.state = 4 || p.state ≥ 6 then s
    else if crc64 (flit.take 248) ≠ field flit 248 8 then s.setPort port { p with nak := true }
    else (s.ackFlit port flit).placeFlit port flit)

/-! ## The admission answer -/

/-- The classes that a body kind may travel in (R343). -/
def kindClassOk (kind cls : Nat) : Bool :=
  if kind = 1 then cls ≤ 3
  else if 2 ≤ kind ∧ kind ≤ 4 then cls = 1
  else if 5 ≤ kind ∧ kind ≤ 8 then cls = 4 else false

/-- Are the header's fields within range, reserved ones zero, and LENGTH within the class's MAX_FRAME (R318, R323 order 1)? -/
def State.headerOk (s : State) (h : List Byte) (cls : Nat) : Bool :=
  field h 2 2 < 4096 && field h 4 2 < 4096 && field h 6 1 = cls && cls ≤ 4 && 1 ≤ field h 7 1 && field h 7 1 ≤ 8 &&
    32 ≤ field h 8 2 && field h 8 2 ≤ s.maxFrame cls && kindClassOk (field h 10 2) cls &&
    (field h 12 4 = 0 || (cls ≠ 1 && cls ≠ 4)) && (field h 24 2 = 0 || cls ≤ 2) && allZero h 26 6

/-- The decision on a header: the cause of a DEFER, or the buffers of an ACCEPT (R323). -/
def State.decideHeader (s : State) (port : Nat) (r : RxFrame) : Except Nat (Nat × Nat) :=
  let h := r.header
  let dest := field h 2 2
  let here := dest = s.mgmt.moduleId
  if !s.headerOk h r.cls then .error 3
  else if !(s.mgmt.addresses.contains dest && s.mgmt.addresses.contains (field h 4 2)) then .error 2
  else if !here && (field h 7 1 ≤ 1 || s.routeHops dest = 0) then .error 4
  else if here && (r.cls = 0 || r.cls = 2 || r.cls = 3) && s.admissionFree r.cls < field h 12 4 then .error 0
  else match s.splitBuffers port (guaranteedIn r.cls - s.fabric.inBufs.getD (port * 8 + r.cls) 0) r.need with
    | some b => .ok b
    | none => .error 1

/-- Count a DEFER that is sent (R342), and raise the event of R321. -/
def State.countDefer (s : State) (port cause : Nat) : State :=
  match cause with
  | 0 => s.tally (0x2A40 + port) 9
  | 1 => s.tally (0x2A40 + port) 0xA
  | 2 => (s.tally (0x2A40 + port) 0xC).logState (0x2A40 + port) 0xC (unitPort port) 0 0
  | _ => s.tally (0x2A40 + port) 0xD

/-- Replace the first undecided received frame of a port by what a function makes of it. -/
def decideFirst (f : RxFrame → Option RxFrame) (p : Port) : Port :=
  let open_ (r : RxFrame) : Bool := !r.accepted && !r.deferred
  if p.partial_.any open_ then
    { p with partial_ := p.partial_.flatMap fun r =>
        if some r == p.partial_.find? open_ then (f r).toList else [r] }
  else match p.rx with
    | some r => if open_ r then { p with rx := f r } else p
    | none => p

/-- FRAME_HEADER_DECIDE: the oldest undecided header of the port (R323 to R325). -/
def execFrameHeaderDecide (port : Nat) (s : State) : Host.Outcome State Fault Refusal :=
  .next (let p := s.port port
    match (p.partial_ ++ p.rx.toList).find? fun r => !r.accepted && !r.deferred with
    | none => s
    | some r =>
      match s.decideHeader port r with
      | .ok (g, sh) =>
        let demand := if field r.header 2 2 = s.mgmt.moduleId then field r.header 12 4 else 0
        let p := decideFirst (fun r => some { r with accepted := true, guaranteed := g, shared := sh, demand }) p
        let s := (s.setPort port { p with answers := p.answers ++ [r.tag + 0x30000] }).bookIn port r.cls g sh
        { s with fabric := { s.fabric with demand := s.fabric.demand.put r.cls 0 (s.fabric.demand.getD r.cls 0 + demand) } }
      | .error c =>
        let gone := r.whole || p.partial_.contains r
        let p := decideFirst (fun r => if gone then none else some { r with deferred := true }) p
        (s.setPort port { p with answers := p.answers ++ [r.tag + 0x10000 + c * 0x40000] }).countDefer port c)

/-- FRAME_DELIVER: to the exchange inbox, or in transit to its egress queue with one hop less (R322, R339). -/
def execFrameDeliver (port tag : Nat) (s : State) : Host.Outcome State Fault Refusal :=
  .next (let p := s.port port
    match p.partial_.find? fun r => r.tag = tag && r.accepted && r.whole with
    | none => s
    | some r =>
      let s := s.releaseRx port r
      let s := s.setPort port { s.port port with partial_ := p.partial_.erase r }
      let h := r.header
      let body := (r.bytes.take (field h 8 2)).drop 32
      if field h 2 2 = s.mgmt.moduleId then
        s.emit (.inbox (field h 4 2) r.cls (field h 10 2) (field h 24 2) (field h 16 8) body)
      else
        s.routeFrame { tag := 0, dest := field h 2 2, src := field h 4 2, cls := r.cls, hops := field h 7 1 - 1
                       kind := field h 10 2, demand := field h 12 4, mapEpoch := field h 16 8, tenant := field h 24 2, body })

/-- A DEFER reaches the sender of a frame: backoff, and header-first mode for its class and destination (R326). -/
def State.deferFrame (s : State) (port : Nat) (f : Frame) : State :=
  let p := s.port port
  let wait := nsCycles (s.setting 0x2A20 6 2000) * min 64 (2 ^ f.defers)
  let key := f.dest * 8 + f.cls
  (s.setPort port { p with
    flying := replaceFirst (fun x => x.tag = f.tag) (fun x => { x with defers := x.defers + 1, backoffUntil := s.time + wait }) p.flying
    headerFirst := if p.headerFirst.contains key then p.headerFirst else p.headerFirst ++ [key] }).tally (0x2A40 + port) 0xB

/-- ANSWER_RECEIVE: an answer word (R324, R326). -/
def execAnswerReceive (port word : Nat) (s : State) : Host.Outcome State Fault Refusal :=
  .next (let p := s.port port
    if !bit word 16 then s
    else match p.flying.find? fun f => f.tag = bits word 15 0 && !f.accepted && f.backoffUntil = 0 with
      | none => s
      | some f =>
        if bit word 17 then
          (s.setPort port { p with
            flying := replaceFirst (fun x => x.tag = f.tag) (fun x => { x with accepted := true, defers := 0 }) p.flying
            headerFirst := p.headerFirst.filter fun k => k ≠ f.dest * 8 + f.cls }).settleFrames port
        else s.deferFrame port f)

/-- DEFER_BACKOFF: the frame goes to the head of its class queue (R326). -/
def execDeferBackoff (port tag t : Nat) (s : State) : Host.Outcome State Fault Refusal :=
  .next (let s := s.advance t
    let p := s.port port
    match p.flying.find? fun f => f.tag = tag && f.backoffUntil ≠ 0 && f.backoffUntil ≤ s.time with
    | none => s
    | some f =>
      s.setPort port { p with
        flying := p.flying.erase f
        queues := p.queues.set f.cls ({ f with backoffUntil := 0, sent := 0 } :: p.queues.getD f.cls []) })

/-- ANSWER_TIMEOUT: a missing answer counts as DEFER with cause TABLE (R327). -/
def execAnswerTimeout (port tag t : Nat) (s : State) : Host.Outcome State Fault Refusal :=
  .next (let s := s.advance t
    let p := s.port port
    match p.flying.find? fun f => f.tag = tag && !f.accepted && f.backoffUntil = 0 &&
        s.time ≥ f.headerAt + nsCycles f.timeoutNs with
    | none => s
    | some f => s.deferFrame port f)

/-! ## Egress -/

/-- Frames at the head of a class queue outside the address set are dropped before their first flit, each counted and an event
(R321). -/
def State.dropRefused (s : State) (port cls : Nat) : State :=
  let p := s.port port
  let ok (f : Frame) : Bool := s.mgmt.addresses.contains f.dest && s.mgmt.addresses.contains f.src
  let bad := (p.queues.getD cls []).takeWhile fun f => !ok f
  let s := s.setPort port { p with queues := p.queues.put cls [] ((p.queues.getD cls []).drop bad.length) }
  bad.foldl (fun s f => ((s.freeOut port f.guaranteed f.shared).tally (0x2A40 + port) 0xC).logState (0x2A40 + port) 0xC (unitPort port) 0 0) s

/-- The frame of a class that is ready: a continuation, else the first in queue order; a deferred I frame holds every later one to
its destination (R326, R328, R332). -/
def readyFrame (p : Port) (cls : Nat) : Option (Frame × Bool) :=
  match p.flying.find? fun f => f.cls = cls && f.sent = 1 && f.accepted with
  | some f => some (f, true)
  | none =>
    let held := if cls = 2 then (p.flying.filter fun f => f.cls = 2 && !f.accepted).map (·.dest) else []
    ((p.queues.getD cls []).find? fun f => !held.contains f.dest).map fun f => (f, false)

/-- Flits that a start sends: a continuation the rest, a header-first start one, else the whole frame. -/
def startFlits (p : Port) (f : Frame) (cont : Bool) : Nat :=
  if cont then frameFlits f - 1 else if p.headerFirst.contains (f.dest * 8 + f.cls) then 1 else frameFlits f

/-- May the class start its ready frame: gate, tokens and replay buffer (R317, R331, R332, R334)? -/
def State.mayStart (s : State) (port cls : Nat) : Option (Frame × Bool) :=
  let p := s.port port
  match readyFrame p cls with
  | none => none
  | some (f, cont) =>
    let n := startFlits p f cont
    if s.gateOpen p cls && p.tokens.getD cls 0 ≥ 256 * n && p.replay.length + n ≤ 256 then some (f, cont) else none

/-- Send a frame or its continuation (R319, R326, R334). -/
def State.startFrame (s : State) (port : Nat) (f : Frame) (cont : Bool) : State :=
  let p := s.port port
  let n := startFlits p f cont
  let whole := cont || n = frameFlits f
  let f' : Frame := { f with sent := if whole then 2 else 1, headerAt := if cont then f.headerAt else s.time
                             timeoutNs := if cont then f.timeoutNs else s.setting 0x2A20 7 1000
                             lastSeq := (p.txSeq + n - 1) % 4096 }
  let s := s.setPort port { p with
    tokens := p.tokens.put f.cls 0 (p.tokens.getD f.cls 0 - 256 * n)
    queues := if cont then p.queues else p.queues.put f.cls [] ((p.queues.getD f.cls []).erase f)
    flying := if cont then replaceFirst (fun x => x.tag = f.tag) (fun _ => f') p.flying else p.flying ++ [f'] }
  s.sendFlits port f (if cont then 1 else 0) n

/-- FRAME_START: the next frame in the priority C, R, Q, I, M; with none, an IDLE flit (R316, R332). -/
def execFrameStart (port t : Nat) (s : State) : Host.Outcome State Fault Refusal :=
  .next (let s := s.advance t
    if !s.portUp port then s
    else
      let s := ([4, 1, 0, 2, 3] : List Nat).foldl (fun s c => s.dropRefused port c) s
      match ([4, 1, 0, 2, 3] : List Nat).findSome? fun c => s.mayStart port c with
      | some (f, cont) => s.startFrame port f cont
      | none => s.sendFlit port 0 false false 0 [])


/-- The entry that runs at an offset in the gate cycle, and where it began. -/
def gateAtOffset : List Gate → Nat → Nat → Nat → Nat × Nat
  | [], e, at_, _ => (e - 1, at_)
  | g :: gs, e, at_, off =>
    if off < at_ + g.duration * cyclesPerGateUnit ∨ gs.isEmpty then (e, at_)
    else gateAtOffset gs (e + 1) (at_ + g.duration * cyclesPerGateUnit) off

/-- GATE_ENTRY: the entry of the present time; at a cycle start an accepted switch takes effect (R329, R330). -/
def execGateEntry (port t : Nat) (s : State) : Host.Outcome State Fault Refusal :=
  .next (let s := s.advance t
    let p := s.port port
    let start := s.time / gateCycle * gateCycle
    let apply := match p.switchAt with
      | some c => decide (c ≤ start)
      | none => false
    let p := if apply then { p with active := 1 - p.active, switchAt := none } else p
    let (e, off) := gateAtOffset (gateList p p.active) 0 0 (s.time - start)
    s.setPort port { p with gate := e, gateAt := start + off, cycleAt := start })

/-- The windows of a class in a list, in 10 ns; none where it is always open or never (R329). -/
def windowsOf (cls : Nat) (l : List Gate) : List Nat :=
  if l.all fun g => opens g cls then []
  else
    let n := l.length
    let starts := (List.range n).filter fun i =>
      (match l[i]? with
        | some g => opens g cls
        | none => false) &&
      (match l[(i + n - 1) % n]? with
        | some g => !opens g cls
        | none => false)
    starts.map fun i => openRun cls (rotateList i l)

/-- The first failing check of a list bank: 1 GCL_FORMAT, 2 GCL_LENGTH, 3 GCL_STARVE, 4 GCL_WINDOW; 0 for none (R330). -/
def State.gclCheck (s : State) (p : Port) (bank : Nat) : Nat :=
  let n := gateCount p bank
  let l := gateList p bank
  if n < 1 || n > 64 || l.any (fun g => g.duration < 1 || g.duration > 10000) ||
      (List.range n).any (fun e => gateWord p bank e ≥ 0x80000) then 1
  else if (l.map (·.duration)).sum ≠ 10000 then 2
  else if ([0, 1, 4] : List Nat).any fun c => ((l.filter fun g => opens g c).map (·.duration)).sum < 500 then 3
  else if (List.range 5).any fun c =>
      (windowsOf c l).any fun w => w * cyclesPerGateUnit * 1000 < 2 * s.guardMilli c 1 then 4
  else 0

/-- GCL_SWITCH: refused with GCL_STATUS, or in effect at the next cycle start, the one after for the last 1 µs (R330). -/
def State.gclSwitch (s : State) (port t : Nat) : State :=
  (let s := s.advance t
    let p := s.port port
    let c := s.gclCheck p (1 - p.active)
    if c ≠ 0 then s.setPort port { p with gclStatus := c }
    else
      let next := (s.time / gateCycle + 1) * gateCycle
      s.setPort port { p with switchAt := some (if s.time + cyclesPerUs ≥ next then next + gateCycle else next) })

/-- The command. -/
def execGclSwitch (port t : Nat) (s : State) : Host.Outcome State Fault Refusal := .next (s.gclSwitch port t)

/-- RATE and BURST as written (R340). -/
def rateOf (p : Port) (cls : Nat) : Nat := p.rate.getD cls 100000
/-- BURST as written. -/
def burstOf (p : Port) (cls : Nat) : Nat := p.burst.getD cls 16384

/-- One bucket's refill: a value written in this very cycle is not used yet (R334, R335). -/
def refillPort (now : Nat) (p : Port) (cls : Nat) : Port :=
  let rate := if p.wroteAt.get (2 * cls) = some now then p.rateNow.getD cls 100000 else rateOf p cls
  let burst := if p.wroteAt.get (2 * cls + 1) = some now then p.burstNow.getD cls 16384 else burstOf p cls
  { p with tokens := p.tokens.set cls (min burst (p.tokens.getD cls 0 + rate))
           rateNow := p.rateNow.set cls rate, burstNow := p.burstNow.set cls burst }

/-- SHAPER_REFILL: every 1 µs of the timebase (R334). -/
def execShaperRefill (t : Nat) (s : State) : Host.Outcome State Fault Refusal :=
  .next (let s := s.advance t
    if s.time % cyclesPerUs ≠ 0 then s
    else (List.range 32).foldl (fun s n =>
      s.setPort n ((List.range 5).foldl (refillPort s.time) (s.port n))) s)

/-- bin of R336. -/
def binOf (v : Nat) : Nat :=
  if v = 0 then 0
  else
    let e := v.log2
    min 63 (1 + 2 * e + (if e ≥ 1 && bit v (e - 1) then 1 else 0))

/-- Depth in bytes and head delay in ns of a class queue, deferred frames included (R336). -/
def State.sampleOf (s : State) (p : Port) (cls : Nat) : Nat × Nat :=
  let q := (p.flying.filter fun f => f.cls = cls && f.backoffUntil ≠ 0) ++ p.queues.getD cls []
  ((q.map frameLength).sum, match q with
    | [] => 0
    | f :: _ => (s.time - f.queuedAt) * 5 / 8)

/-- QUEUE_SAMPLE: every egress queue of every port, in the first cycle of each 1.024 µs, which are 1,638.4 cycles (R336). -/
def execQueueSample (t : Nat) (s : State) : Host.Outcome State Fault Refusal :=
  .next (let s := s.advance t
    if s.time * 10 % 16384 ≥ 10 then s
    else (List.range 160).foldl (fun s i =>
      let port := i / 5
      let cls := i % 5
      let (d, h) := s.sampleOf (s.port port) cls
      (s.count (binKey port cls 0 (binOf d)) 1).count (binKey port cls 1 (binOf h)) 1) s)

/-- HIST_SNAP (R337). -/
def State.histSnap (s : State) (port : Nat) : State :=
  (if port ≥ 32 then s
    else
      let p := s.port port
      s.setPort port { p with
        histSnap := (List.range 640).map fun i => s.counter (binKey port 0 0 0 + i), histSeq := (p.histSeq + 1) % 2 ^ 32 })

/-- The command. -/
def execHistSnap (port : Nat) (s : State) : Host.Outcome State Fault Refusal := .next (s.histSnap port)

/-- HIST_CLR (R337). -/
def State.histClr (s : State) (port : Nat) : State :=
  (if port ≥ 32 then s
    else { s with counters := s.counters.keep fun k _ => !(binKey port 0 0 0 ≤ k && k < binKey port 0 0 0 + 640) })

/-- The command. -/
def execHistClr (port : Nat) (s : State) : Host.Outcome State Fault Refusal := .next (s.histClr port)

end Sys2Proof.Machine
end

