-- ==== Sys2Proof/Machine/TierOps.lean ====
section
/-! DEFINITION. Tier objects (R247 to R252): their numbers, room in the tiers, the objects of a list's segments and their sizes. -/
namespace Sys2Proof.Machine

/-- 2^30 bytes. -/
abbrev gib : Nat := 1073741824

/-- Bytes of objects whose home is a tier, with what moves have reserved in it or not yet freed there (R255). -/
def State.tierUsed (s : State) (tier : Nat) : Nat :=
  ((s.tiers.objs.map fun kv => if kv.2.tier = tier then kv.2.size else 0).sum) +
    ((s.tiers.moves.map fun m => if m.running && (if m.switched then m.source else m.target) = tier then
      (match s.tiers.objs.get m.obj with
        | some o => o.size
        | none => 0) else 0).sum)

/-- Devices of a tier retired (R263). -/
def State.devicesOut (s : State) (tier : Nat) : Nat := (s.tiers.retired.filter fun d => d / 256 = tier).length

/-- Units of the flash that hold stored vectors and payloads: those mapped beyond the reserved ranges (R247, R282). -/
def State.unitsStored (s : State) : Nat := (s.flash.map.filter fun kv => kv.1 ≥ firstUnit).length

/-- Units that the rows of the flash can hold (R284). -/
def State.unitsMappable (s : State) : Nat := ((List.range 16).map fun r => s.rowMappable r).sum

/-- Bytes of a tier before its objects: 480 GiB of HBM less its fixed regions, 3 TiB of LPDDR less the map, and what the flash can map
less the ranges of the commit log and the placement journal and the units of stored vectors and payloads (R247, R281 to R284). -/
def State.tierSize (s : State) (tier : Nat) : Nat := match tier with
  | 0 => (10 - s.devicesOut 0) * 48 * gib - (128 + 1024 + 1088) * 1048576 - s.setting 0x2450 1 8 * gib
  | 1 => (24 - s.devicesOut 1) * 128 * gib - 128 * gib
  | _ => 4096 * (s.unitsMappable - firstUnit - s.unitsStored)

/-- Room in a tier; a placement call may not draw on the HBM placement reserve (R247, R251). -/
def State.tierRoom (s : State) (tier : Nat) (reserve : Bool) : Nat :=
  s.tierSize tier - s.tierUsed tier - (if tier = 0 && !reserve then s.setting 0x2800 2 16 * gib else 0)

/-- Object numbers that an object, a list, a directory entry of this home, a batch or a waiting probe still holds (R249). -/
def State.heldNumbers (s : State) : List Nat :=
  s.tiers.objs.map (·.1) ++ s.corpus.lists.map (·.1) ++
    (s.corpus.dir.filter fun kv => kv.2.home = s.mgmt.moduleId).map (·.2.handle) ++ s.pipe.batches.map (·.2.list) ++
    s.pipe.parked.map (·.list)

/-- The first number from `n` on that is not 0 and not held, in 28 bits (R249); the fuel is one more than the numbers held, and 0. -/
def freeNumber (held : List Nat) : Nat → Nat → Nat
  | 0, n => n
  | k + 1, n => if n = 0 || held.contains n then freeNumber held k ((n + 1) % 2 ^ 28) else n

/-- A tier object is created (R248, R249). -/
def State.newObj (s : State) (o : TierObj) : State × Nat :=
  let held := s.heldNumbers
  let n := freeNumber held (held.length + 2) s.tiers.nextObj
  ({ s with tiers := { s.tiers with objs := s.tiers.objs.set n o, nextObj := (n + 1) % 2 ^ 28 } }, n)

/-- The code-pair preference of a list (R250). -/
def State.prefOf (s : State) (list : Nat) : Nat := match s.tiers.objs.get list with
  | some o => o.pref
  | none => 1

/-- Has a tier room for a new CODE_PAIR of a size? One without any room has none for an empty pair either (R250). -/
def State.pairFits (s : State) (tier size : Nat) : Bool := decide (max 1 size ≤ s.tierRoom tier false)

/-- The tier in which a CODE_PAIR of a size is created: the preferred one, else LPDDR, else flash, the substitution counted (R250). -/
def State.pairHome (s : State) (list size : Nat) : State × Nat :=
  let p := s.prefOf list
  if s.pairFits p size then (s, p)
  else (s.tally 0x2810 9, if p ≠ 1 && s.pairFits 1 size then 1 else 2)

/-- Byte offset from a segment's header to its block 0: the first multiple of 512 behind the header (R83; DESIGN CHOICE, log 81). -/
abbrev blocksOffset : Nat := 512

/-- Bytes of a segment's SKETCH_SEG object: header, blocks, stamps and marks (R83 to R85). -/
def sketchSegBytes (g : Segment) (w : Nat) : Nat :=
  blocksOffset + ceilDiv g.items.length 64 * (w / 64 + 1) * 512 + (if g.isBase then 0 else 8 * g.items.length) + 16 * g.marks.length

/-- Bytes of HBM that the objects of a new segment take: SKETCH_SEG, KEY_COL and REDUCED (R251). -/
def hbmBytes (v : Version) (g : Segment) : Nat :=
  sketchSegBytes g (widthBits v.width) + 8 * g.items.length + (if v.reduced && v.metric ≠ 3 then redRec v.dim * g.items.length else 0)

/-- Has HBM room, the placement reserve included, for what a fold, split, merge or build makes (R251)? -/
def State.hbmFits (s : State) (v : Version) (gs : List Segment) : Bool := decide ((gs.map (hbmBytes v)).sum ≤ s.tierRoom 0 true)

/-- The objects of a new segment: SKETCH_SEG, KEY_COL, CODE_PAIR and REDUCED as its version has them (R117, R248). Every
segment of a version with REDUCED = 1 has the reduced copy that R117 allows (DESIGN CHOICE, log 81). -/
def State.segObjects (s : State) (handle listId : Nat) (v : Version) (g : Segment) : State × Segment :=
  let mk (s : State) (kind tier size : Nat) : State × Nat := s.newObj { kind, tier, size, list := listId, owner := handle }
  let n := g.items.length
  let (s, a) := mk s 1 0 (sketchSegBytes g (widthBits v.width))
  let (s, b) := mk s 2 0 (8 * n)
  if v.metric = 3 then (s, { g with objs := [a, b] })
  else
    let pair := (codeRec v.codeFmt v.dim + scaleRec v.dim) * n
    let (s, tier) := s.pairHome handle pair
    let (s, c) := mk s 3 tier pair
    if v.reduced then
      let (s, d) := mk s 6 0 (redRec v.dim * n)
      (s, { g with objs := [a, b, c, d], pairHandle := c })
    else (s, { g with objs := [a, b, c], pairHandle := c })

/-- 64 KiB chunks that a change of size from `a` to `b` bytes touches (R255). -/
def touched (a b : Nat) : List Nat := subs (min a b / 65536) (max a b / 65536)

/-- A write to an object under a running move makes the chunks it changes dirty (R255 step 2). -/
def State.dirtyChunks (s : State) (n old new : Nat) : State :=
  let f (m : Move) : Move := if m.obj = n && m.running && !m.switched && old ≠ new then
    { m with dirty := m.dirty ++ (touched old new).filter fun c => !m.dirty.contains c } else m
  { s with tiers := { s.tiers with moves := s.tiers.moves.map f } }

/-- The sizes of a segment's objects follow its content. -/
def State.resizeSeg (s : State) (v : Version) (g : Segment) : State :=
  let n := g.items.length
  let size (kind : Nat) : Nat := match kind with
    | 1 => sketchSegBytes g (widthBits v.width)
    | 2 => 8 * n
    | 3 => (codeRec v.codeFmt v.dim + scaleRec v.dim) * n
    | _ => redRec v.dim * n
  g.objs.foldl (fun s k => match s.tiers.objs.get k with
    | some o => { s.dirtyChunks k o.size (size o.kind) with tiers := { (s.dirtyChunks k o.size (size o.kind)).tiers with
        objs := s.tiers.objs.set k { o with size := size o.kind } } }
    | none => s) s

/-- Calls numbered from here on are those of an object access item (R425). -/
abbrev objectWait : Nat := 2 ^ 40

/-- Answer the owner of a placement call: its administration command, or nobody (R254, R257; MGMT_PLACE was answered on write). -/
def State.answerCall (s : State) (owner : MoveOwner) (status : Nat) : State := match owner with
  | .admin c => s.adminDone c status [] []
  | .mgmt item =>
    if item < objectWait then s.emit (.report 2 [item, status])
    else { s with dict := { s.dict with placed := s.dict.placed ++ [(item, status)] } }
  | .nobody => s

/-- A placement call whose last move has ended completes (R253, R254). -/
def State.endCall (s : State) (call status : Nat) : State :=
  match s.tiers.calls.get call with
  | some c =>
    if s.tiers.moves.any fun m => m.call = call && !m.switched then s
    else ({ s with tiers := { s.tiers with calls := s.tiers.calls.erase call } } : State).answerCall c.owner status
  | none => s

/-- An object is freed; its move ends: a single-object call completes OBJECT_GONE, a LIST call goes on with its others (R257). -/
def State.freeObj (s : State) (n : Nat) : State :=
  let mine := s.tiers.moves.filter fun m => m.obj = n
  let s := { s with tiers := { s.tiers with
    objs := s.tiers.objs.erase n, moves := s.tiers.moves.filter (fun m => m.obj ≠ n)
    repair := s.tiers.repair.filter fun r => r.obj ≠ n } }
  mine.foldl (fun s m => if m.switched then s else s.endCall m.call (match s.tiers.calls.get m.call with
    | some c => if c.handle % 2 ^ 28 = n then 0x402 else 0
    | none => 0)) s

/-- A new list: its LIST object, whose number is its LIST_HANDLE, with a code-pair preference (R249, R250). -/
def State.newList (s : State) (l : ListData) (pref : Nat) : State × Nat :=
  let (s, h) := s.newObj { kind := 0, tier := 0xFF, size := 0, list := l.listId, pref }
  (s.setList h l, h)

end Sys2Proof.Machine
end

