-- ==== Sys2Proof/Machine/IngestOps.lean ====
section
/-! DEFINITION. The commit path of a home (R83 to R87, R210 to R224), where an update is a delete and an insert of one epoch (R20): reading and checking records, placing entries, ordering, segments
and marks, folds' switches, answers and batches (R212, R213, R398, R406). -/
namespace Sys2Proof.Machine

/-! ## Records (R210) -/

/-- Read one ingest record. -/
def parseRecord (b : List Byte) : IngestRec :=
  let fmt := field b 2 1
  let dim := field b 4 2
  let plen := field b 32 4
  let vlen := elemBytes fmt * dim
  let pad := roundUp 8 vlen
  { op := field b 0 1, keepVector := bit (field b 1 1) 0, keepPayload := bit (field b 1 1) 1, fmt, dim, ns := field b 8 4
    idx := field b 12 4, key := field b 16 8, attr := field b 24 8, clientTag := field b 40 8, vector := slice (b.drop 48) 0 vlen
    payload := slice (b.drop (48 + pad)) 0 (min plen 65536), size := 48 + pad + roundUp 8 plen }

/-- The fp32 form of a record's vector (R80). -/
def IngestRec.elements (r : IngestRec) : List F32 := elemsF32 r.fmt r.vector

/-- A record's own fields (R210, R211, R539). -/
def recordFieldsOk (b : List Byte) (r : IngestRec) : Bool :=
  1 ≤ r.op && r.op ≤ 4 && field b 1 1 < 4 && r.fmt ≤ 5 && allZero b 3 1 && allZero b 6 2 && allZero b 36 4 && r.key ≠ voidKey &&
    field b 32 4 ≤ 65536 && (if r.op = 3 || r.keepVector then r.dim = 0 else 1 ≤ r.dim && r.dim ≤ 4096) &&
    (!(r.op = 3 || r.keepPayload) || field b 32 4 = 0) && !((r.op = 1 || r.op = 3) && (r.keepVector || r.keepPayload)) &&
    !r.elements.any f32NonFinite

/-- The bytes of a record as it travels (R210). -/
def recordBytes (r : IngestRec) : List Byte :=
  leBytes 1 r.op ++ leBytes 1 ((if r.keepVector then 1 else 0) + if r.keepPayload then 2 else 0) ++ leBytes 1 r.fmt ++ [0] ++
    leBytes 2 r.dim ++ leBytes 2 0 ++ leBytes 4 r.ns ++ leBytes 4 r.idx ++ leBytes 8 r.key ++ leBytes 8 r.attr ++
    leBytes 4 r.payload.length ++ leBytes 4 0 ++ leBytes 8 r.clientTag ++ padTo 8 r.vector ++ padTo 8 r.payload

/-- The records of a batch: each with its bytes, and the bytes left over. -/
def splitRecords : Nat → List Byte → List (IngestRec × List Byte) × List Byte
  | 0, b => ([], b)
  | n + 1, b =>
    let r := parseRecord b
    if b.length < 48 ∨ b.length < r.size then ([], b)
    else
      let rest := splitRecords n (b.drop r.size)
      ((r, b.take r.size) :: rest.1, rest.2)

/-- A key of one index as one number (R215). -/
def keyCode (ns idx key : Nat) : Nat := (ns * 2 ^ 32 + idx) * 2 ^ 64 + key

/-- Item shards of the composition (R355): the newest map's, else the sealed descriptor's, else one. -/
def State.shardCount (s : State) : Nat := match s.lastMap with
  | some m => max 1 m.shards.length
  | none => if s.mgmt.sealed_ then max 1 (field (s.dict.domains.getD (objKey 0x2E0A 1) []) 22 2) else 1

/-- An item's shard (R355). -/
def State.shardOfKey (s : State) (key : Nat) : Nat := leNat (shake256 (leBytes 8 key) 8) * s.shardCount / 2 ^ 64

/-! ## Answers (R212, R213) -/

/-- An ingest result's 24 bytes. -/
def resultRecord (r : IngestResult) (pos : Nat) : List Byte :=
  leBytes 8 r.clientTag ++ leBytes 8 r.epoch ++ leBytes 1 r.status ++ leBytes 1 r.cause ++ leBytes 2 0 ++ leBytes 4 pos

/-- A batch's reference in RECORD and IRESULT items: the origin's module ID and its batch number (PRESUMED, log 31). -/
def State.batchRef (s : State) (b : Nat) : Nat := s.mgmt.moduleId % 4096 + 4096 * b

/-- Every record of a batch has a result: the results, the completion or the write-back (R212, R398, R406). -/
def State.endBatch (s : State) (b : Nat) (x : IngestBatch) (status : Nat) : State :=
  let rs := x.results.filterMap id
  let com := (rs.filter fun r => r.status = 0).length
  let sup := (rs.filter fun r => r.status = 1).length
  let maxE := ((rs.filter fun r => r.status ≤ 1).map (·.epoch)).foldl max 0
  let s := { s with corpus := { s.corpus with batches := s.corpus.batches.erase b } }
  if x.basic then
    let ok : Bool := status = 0 && com + sup = x.results.length
    let (s, wrote) := s.dmaWrite x.fn (x.descAddr + 19) (leBytes 1 (if ok then 1 else 2) ++ leBytes 4 com)
    if wrote then s.basicIrq x.fn 1 else if (s.fnState x.fn).enabled then s.ringFault x.fn 1 3 else s
  else
    let bytes := ((List.range x.results.length).filterMap fun i => match x.results[i]? with
      | some (some r) => some (resultRecord r i)
      | _ => none).flatten
    let (s, ok) := if status = 0 then s.dmaWrite x.fn x.resultsAddr bytes else (s, true)
    let body := leBytes 1 status ++ leBytes 4 0 ++ leBytes 8 x.tag ++
      (if status = 0 then leBytes 4 com ++ leBytes 4 sup ++ leBytes 4 (rs.length - com - sup) ++ leBytes 4 0 ++ leBytes 8 maxE else leBytes 24 0) ++
      leBytes 24 0
    s.complete x.fn x.pair x.sqIndex 1 (!ok) false body

/-- An ingest result reaches its batch (R212). -/
def State.takeResult (s : State) (b pos : Nat) (r : IngestResult) : State :=
  match s.corpus.batches.get b with
  | some x =>
    match x.results[pos]? with
    | some none =>
      let x := { x with results := x.results.set pos (some r) }
      if x.results.all (·.isSome) then s.endBatch b x 0
      else { s with corpus := { s.corpus with batches := s.corpus.batches.set b x } }
    | _ => s
  | none => s

/-- Answer a write at its origin, counted and metered (R199, R213, R246). -/
def State.answerWrite (s : State) (w : Write) (status cause epoch : Nat) : State :=
  let s := if status = 0 then ((s.tally 0x2710 3).meter w.tenant 20 1).meter w.tenant 21 w.record.size
    else if status = 1 then (s.tally 0x2710 4).meter w.tenant 22 1
    else if status = 6 then s.tally 0x2710 5 else s
  let r : IngestResult := ⟨w.record.clientTag, epoch, status, cause⟩
  if w.batch % 4096 = s.mgmt.moduleId % 4096 then s.takeResult (w.batch / 4096) w.pos r
  else s.addItem (w.batch % 4096) 2 w.tenant false false (drayItem 7 (leBytes 8 w.batch ++ resultRecord r w.pos))

/-! ## Arrival at the home (R221, R307, R479) -/

/-- A record or row write reaches its home's commit path. -/
def State.arriveWrite (s : State) (w : Write) : State :=
  if s.power.step ≥ 4 then s.answerWrite w 7 1 0
  else if s.flash.readOnly then s.answerWrite w 7 2 0
  else
    let w := { w with arrivedAt := s.time, timeoutMs := s.setting 0x2700 3 1000 }
    { s with corpus := { s.corpus with held := s.corpus.held ++ [w] } }

/-! ## Placement (R218) -/

/-- Versions of an index to which a write ordered in an epoch is applied (R237). -/
def State.writeVersions (s : State) (ns idx e : Nat) : List Version :=
  s.catalog.versions.filter fun v => v.ns = ns && v.idx = idx && existsAt v.created v.endEpoch e && !(v.state == .draining)

/-- The most recently activated generation of a version at an epoch (R223). -/
def openGen (v : Version) (e : Nat) : Option Gen :=
  firstBy (fun a b => decide (a.activeFrom > b.activeFrom)) (v.gens.filter fun g => decide (g.activeFrom ≤ e) && g.retiredAt.isNone)

/-- Live directory entries of a version in a shard, homed here: list IDs with their entries. -/
def State.liveLists (s : State) (v : Version) (shard : Nat) : List (Nat × DirEntry) :=
  s.corpus.dir.filter fun kv => kv.2.state = 1 && kv.2.ns = v.ns && kv.2.idx = v.idx && kv.2.version = v.ver && kv.2.shard = shard &&
    kv.2.home = s.mgmt.moduleId

/-- Input scaling of a version's image (R47). -/
def State.scaleOf (s : State) (v : Version) : F32 := match s.imageByDigest v.image with
  | some (_, i) => i.progs.inputScale
  | none => 0x3F800000

/-- Sketch of a vector under a generation by its number. -/
def State.sketchOf (s : State) (v : Version) (gen : Nat) (x : List F32) : Nat :=
  match v.gens.find? fun g => g.num = gen with
  | some g => (sketchUnder v g (s.scaleOf v) x).1
  | none => 0

/-- Hamming distance to a CSKETCH over min(w, 256) bits (R108, R218). -/
def centroidDist (v : Version) (e : DirEntry) (sketch : Nat) : Nat :=
  let n := min (widthBits v.width) 256
  hamming n (e.csketch % 2 ^ n) (sketch % 2 ^ n)

/-- The A live lists nearest a vector (R218): handles. -/
def State.nearestLists (s : State) (v : Version) (shard : Nat) (x : List F32) : List Nat :=
  let ds := (s.liveLists v shard).map fun kv => (centroidDist v kv.2 (s.sketchOf v kv.2.projGen x), kv.1, kv.2.handle)
  ((sortBy (fun a b => decide (a.1 < b.1) || (a.1 == b.1 && decide (a.2.1 < b.2.1))) ds).take v.assign).map fun d => d.2.2

/-- NaN sums met in sketching a vector under some generations of a version (R79). -/
def State.nansUnder (s : State) (v : Version) (gens : List Nat) (x : List F32) : Nat :=
  (gens.eraseDups.map fun n => match v.gens.find? fun g => g.num = n with
    | some g => (sketchUnder v g (s.scaleOf v) x).2
    | none => 0).sum

/-- Generations under which a record is sketched: that of its new entries, and those that the shard's live lists hold (R218). -/
def State.gensFor (s : State) (v : Version) (shard e : Nat) : List Nat :=
  ((openGen v e).map (·.num)).toList ++ (s.liveLists v shard).map (·.2.projGen)

/-- Sketch bits set to 0 because a sum was NaN, outside queries (R79, R114). -/
def State.noteNans (s : State) (n : Nat) : State :=
  if n = 0 then s
  else ({ s with freeCount := s.freeCount + 1 } : State).count (objKey (0x2318 + Config.sketchPart s.freeCount % 4) 7) n

/-- An entry of a record in a version: its sketch under the open generation, codes and scales, reduced copy (R117, R121). -/
def State.makeItem (s : State) (v : Version) (e rec key attr : Nat) (x : List F32) : Item :=
  let gen := match openGen v e with
    | some g => g.num
    | none => 0
  let q := if v.metric = 3 then ([], []) else quantise v.codeFmt v.scaleFmt x
  { key, sketch := s.sketchOf v gen x, attr, codes := q.1, scales := q.2
    reduced := if v.reduced && v.metric ≠ 3 then reduce x else [], insert := e, record := rec }

/-- Is a list a copy that a split or merge has made and not yet put in its parent's place (R227)? -/
def State.pendingChild (s : State) (handle : Nat) : Bool :=
  s.corpus.lists.any fun kl => !kl.2.retired && kl.2.children.any fun c => c.handle = handle

/-- Entries of a record in a version: list handle, generation, entry; those of writes not yet applied included. -/
def State.entriesOf (s : State) (v : Version) (rec : Nat) : List (Nat × Nat × Item) :=
  let lists := s.corpus.lists.filter fun kl => kl.2.ns = v.ns && kl.2.idx = v.idx && kl.2.version = v.ver && !kl.2.retired &&
    !s.pendingChild kl.1
  let here := lists.filterMap fun kl =>
    let found := kl.2.segs.filterMap fun kg => if kg.2.validUntil.isSome then none else
      (kg.2.items.find? fun i => i.record = rec).map fun i => (kl.1, kg.2.gen, i)
    found.head?
  let waiting := (s.corpus.logPending ++ s.corpus.logPages.flatMap (·.2)).flatMap fun w =>
    (w.places.filter fun p => p.1 = v.ver && p.2.2.record = rec).map fun p => (p.2.1, (match openGen v w.epoch with
      | some g => g.num
      | none => 0), p.2.2)
  here ++ waiting.filter fun e => !(here.any fun h => h.1 = e.1)

/-- The de-quantised vector of an entry (R131), or of its record's stored vector where the version keeps no codes. -/
def State.vhat (s : State) (v : Version) (i : Item) : List F32 :=
  if v.metric = 3 then (match s.corpus.records.get i.record with
    | some r => restoreVector r.stored
    | none => [])
  else (List.range v.dim).map (dequant v.codeFmt v.scaleFmt i.codes i.scales)

/-- The entries of a record that keeps its vector (R211, R231, R238): the old record's own, re-stamped, or made from the stored
vector where the building version has not reached that record. -/
def State.keptPlaces (s : State) (v : Version) (shard e rec key attr old : Nat) (stored : List Byte) : List (Nat × Nat × Item) :=
  let es := s.entriesOf v old
  if es.isEmpty then
    let x := restoreVector stored
    let i := s.makeItem v e rec key attr x
    (s.nearestLists v shard x).map fun h => (v.ver, h, i)
  else es.map fun t =>
    let sk := match openGen v e with
      | some g => if g.num = t.2.1 then t.2.2.sketch else s.sketchOf v g.num (s.vhat v t.2.2)
      | none => t.2.2.sketch
    (v.ver, t.1, { t.2.2 with sketch := sk, attr, insert := e, record := rec })

/-- NaN sums met in making the entries of a write in a version (R79, R211, R218). -/
def State.writeNans (s : State) (v : Version) (shard e : Nat) (r : IngestRec) (old : Nat) (stored : List Byte) : Nat :=
  if !r.keepVector then s.nansUnder v (s.gensFor v shard e) r.elements
  else
    let es := s.entriesOf v old
    if es.isEmpty then s.nansUnder v (s.gensFor v shard e) (restoreVector stored)
    else match openGen v e with
      | some g => (es.map fun t => if g.num = t.2.1 then 0 else s.nansUnder v [g.num] (s.vhat v t.2.2)).sum
      | none => 0

/-! ## Ordering (R211, R216, R217) -/

/-- The outcome of a record's checks at the home, in the order of R539, at the open epoch: status and cause, or the versions. -/
def State.checkRecord (s : State) (tenant : Nat) (r : IngestRec) (e : Nat) : Except (Nat × Nat) (List Version × Option Nat) :=
  match s.idxAt r.ns r.idx e, s.nsAt r.ns e with
  | some idx, some n =>
    let old := (s.corpus.keys.getD (keyCode r.ns r.idx r.key) none)
    let vs := s.writeVersions r.ns r.idx e
    if n.owner ≠ tenant then .error (4, 0x80)
    else if vs.isEmpty then .error (4, 0x84)
    else if r.op ≠ 3 && !r.keepVector && r.dim ≠ idx.dim then .error (4, 0x83)
    else if r.op = 1 && old.isSome then .error (2, 0)
    else if (r.op = 2 || r.op = 3) && old.isNone then .error (3, 0)
    else if old.isNone && (r.keepVector || r.keepPayload) then .error (4, 0x82)
    else .ok (vs, old)
  | _, _ => .error (4, 0x81)

/-- A write takes its place in the log queue; an earlier unacknowledged one of the same key and epoch is superseded (R217). -/
def State.queueWrite (s : State) (w : Write) : State :=
  let same (y : Write) : Bool := y.epoch = w.epoch && (match w.row, y.row with
    | none, none => y.record.ns = w.record.ns && y.record.idx = w.record.idx && y.record.key = w.record.key
    | some a, some b => a.table = b.table && a.row = b.row
    | _, _ => false)
  let sup (y : Write) : Write := if same y then { y with superseded := true } else y
  { s with
    corpus := { s.corpus with
      logPending := s.corpus.logPending.map sup ++ [w], logPages := s.corpus.logPages.mapVals fun p => p.map sup }
    epochs := { s.epochs with stamped := max s.epochs.stamped w.epoch } }

/-- A record's stored vector and payload are written to flash, in units of their own; one that keeps its vector shares those of the record
it replaces (R219). -/
def State.storeRec (s : State) (r : Rec) (shared : List Nat) : State × Rec :=
  if !shared.isEmpty then (s, { r with units := shared })
  else
    let (s, us) := s.storeBytes (r.stored ++ r.payload)
    (s, { r with units := us })

/-- Order one item record: its record at the home, its entries in every version, the record it replaces (R211, R218, R219, R238). -/
def State.orderRecord (s : State) (w : Write) : State :=
  let e := s.epochs.open_
  let r := w.record
  match s.checkRecord w.tenant r e with
  | .error c => s.answerWrite w c.1 c.2 0
  | .ok (vs, old) =>
    let code := keyCode r.ns r.idx r.key
    let oldRec := old.bind fun o => s.corpus.records.get o
    let s := match old with
      | some o => { s with corpus := { s.corpus with records := s.corpus.records.alter o fun x => { x with delete := some e } } }
      | none => s
    let deletes := old.toList
    if r.op = 3 then
      ({ s with corpus := { s.corpus with keys := s.corpus.keys.set code none } } : State).queueWrite { w with epoch := e, deletes }
    else
      let n := s.corpus.nextRec
      let x := r.elements
      let stored := match oldRec with
        | some o => if r.keepVector then o.stored else storeVector r.fmt r.vector x
        | none => storeVector r.fmt r.vector x
      let payload := match oldRec with
        | some o => if r.keepPayload then o.payload else r.payload
        | none => r.payload
      let shard := s.shardOfKey r.key
      let places := vs.flatMap fun v =>
        if r.keepVector then s.keptPlaces v shard e n r.key r.attr (old.getD 0) stored
        else
          let i := s.makeItem v e n r.key r.attr x
          (s.nearestLists v shard x).map fun h => (v.ver, h, i)
      let s := s.noteNans ((vs.map fun v => s.writeNans v shard e r (old.getD 0) stored).sum)
      let rec_ : Rec := { ns := r.ns, idx := r.idx, key := r.key, attr := r.attr, stored, payload, insert := e }
      let (s, rec_) := s.storeRec rec_ (match oldRec with
        | some o => if r.keepVector && r.keepPayload then o.units else []
        | none => [])
      ({ s with corpus := { s.corpus with
        keys := s.corpus.keys.set code (some n), records := s.corpus.records.set n rec_, nextRec := n + 1 } } : State).queueWrite
        { w with epoch := e, places, deletes, recId := some n }

/-! ## Segments (R83 to R86, R223) -/

/-- Does a segment's validity reach an epoch (R83)? -/
def livesAt (g : Segment) (e : Nat) : Bool := match g.validUntil with
  | none => true
  | some u => decide (e < u)

/-- The open delta of a list for writes of an epoch under a generation: the delta opened last that views of the epoch include. A list that a
split or merge has replaced takes the writes stamped before that (R223, R227). -/
def openDelta (l : ListData) (gen e : Nat) : Option (Nat × Segment) :=
  firstBy (fun a b => decide (a.2.validFrom > b.2.validFrom) || (a.2.validFrom == b.2.validFrom && decide (a.1 > b.1)))
    (l.segs.filter fun kg => !kg.2.isBase && livesAt kg.2 e && kg.2.gen = gen && decide (kg.2.validFrom ≤ e))

/-- Has a delta room for `n` more entries and marks (R86)? -/
def deltaRoom (g : Segment) (n : Nat) : Bool := g.items.length + n ≤ 1048576 && g.marks.length + n ≤ 65536

/-- Segments in a list's current view. -/
def viewSize (l : ListData) : Nat := (l.segs.filter fun kg => kg.2.validUntil.isNone).length

/-- A SEG_INDEX of a delta that no segment holds in views from an epoch on (R83). -/
def freeIndex (l : ListData) (from_ : Nat) : Option Nat :=
  (subs 1 15).find? fun n => !(l.segs.any fun kg => kg.2.segIndex = n && livesAt kg.2 from_)

/-- A delta segment is opened for a list, while its views hold fewer than 16 (R86, R223, R248). -/
def State.openSegment (s : State) (handle : Nat) (l : ListData) (v : Version) (gen from_ : Nat) : State :=
  match freeIndex l from_ with
  | none => s
  | some i =>
    let n := s.corpus.nextSeg
    let g : Segment := { segIndex := i, isBase := false, gen, validFrom := from_ }
    let (s, g) := s.segObjects handle l.listId v g
    ({ s with corpus := { s.corpus with nextSeg := n + 1 } } : State).setList handle { l with segs := l.segs.set n g }

/-- The generation under which a version's new entries of an epoch are written; 0 without one. -/
def genAt (v : Version) (e : Nat) : Nat := match openGen v e with
  | some g => g.num
  | none => 0

/-- A list has its one open delta for an epoch: it is opened where there is none under the generation of new entries (R223). -/
def State.needDelta (s : State) (handle e : Nat) : State :=
  match s.list handle with
  | some l => match s.versionOf l.ns l.idx l.version with
    | some v => if (openDelta l (genAt v e) e).isSome then s else s.openSegment handle l v (genAt v e) e
    | none => s
  | none => s

/-- Change the open delta of a list for an epoch, opening one where there is none with room (R223). Writes are held ahead of ordering while
neither is possible (R86), so the delta that is changed has room. -/
def State.withDelta (s : State) (handle e : Nat) (f : Segment → Segment) : State :=
  match s.list handle with
  | none => s
  | some l =>
    match s.versionOf l.ns l.idx l.version with
    | none => s
    | some v =>
      let gen := genAt v e
      let ready : Bool := match openDelta l gen e with
        | some (_, g) => deltaRoom g 1
        | none => false
      let s := if ready then s else s.openSegment handle l v gen e
      match s.list handle with
      | none => s
      | some l => match openDelta l gen e with
        | some (k, g) =>
          let g := f g
          (s.setList handle { l with segs := l.segs.set k g }).resizeSeg v g
        | none => s

/-- Every entry of a record among some segments: SEG_INDEX and slot. -/
def slotsOf (segs : List (Nat × Segment)) (rec : Nat) : List (Nat × Nat) :=
  segs.flatMap fun kg => (upTo kg.2.items.length fun n => match kg.2.items[n]? with
    | some i => i.record == rec
    | none => false).map fun n => (kg.2.segIndex, n)

/-- A list's fold switches at F (R224 steps 4 and 5): D′ shares D's entries, its marks retargeted to the base's slots; the old segments
and D end at F. A further delta opened since the fold began goes the same way as D. -/
def State.foldSwitch (s : State) (f : Fold) : State :=
  match f.base, f.switchAt, s.list f.handle with
  | some b, some at_, some l =>
    match s.versionOf l.ns l.idx l.version with
    | some v =>
      let b := { b with validFrom := at_ }
      let nb := s.corpus.nextSeg
      let olds := l.segs.filter fun kg => f.old.contains kg.1
      let ds := l.segs.filter fun kg => !f.old.contains kg.1 && kg.2.validUntil.isNone
      let recAt (m : Mark) : Option Nat := (olds.find? fun kg => kg.2.segIndex = m.seg).bind fun kg => (kg.2.items[m.slot]?).map (·.record)
      let retarget (m : Mark) : List Mark :=
        if olds.all fun kg => kg.2.segIndex ≠ m.seg then [m]
        else match recAt m with
          | some r => (slotsOf [(0, b)] r).map fun t => { m with seg := t.1, slot := t.2 }
          | none => []
      let primed := ds.map fun kg => { kg.2 with marks := kg.2.marks.flatMap retarget, validFrom := at_ }
      let (s, b) := s.segObjects f.handle l.listId v b
      let close (kg : Nat × Segment) : Nat × Segment :=
        if kg.2.validUntil.isNone then (kg.1, { kg.2 with validUntil := some at_ }) else kg
      let segs := ((List.range primed.length).zip primed).foldl (fun (t : Table Segment) p => Table.set t (nb + 1 + p.1) p.2)
        (Table.set (l.segs.map close) nb b)
      let l := { l with segs }
      let dir := s.corpus.dir.alter l.listId fun e => if e.handle = f.handle then { e with items := min 0xFFFFFFFF (visibleCount l at_) } else e
      let s := { s with
        corpus := { s.corpus with nextSeg := nb + 1 + primed.length, dir }
        maint := { s.maint with folds := s.maint.folds.filter fun x => x.handle ≠ f.handle } }
      ((s.setList f.handle l).resizeSeg v b).tally 0x2710 7
    | none => s
  | _, _, _ => s

/-- A fold of the list switches before a write of F or later is appended (R224). -/
def State.foldBefore (s : State) (handle e : Nat) : State :=
  match s.maint.folds.find? fun f => f.handle = handle with
  | some f => match f.switchAt with
    | some at_ => if e ≥ at_ then s.foldSwitch f else s
    | none => s
  | none => s

/-- A routing sketch: the low 256 bits of a centroid's sketch, all 128 at w = 128 (R102). -/
def cutSketch (v : Version) (sk : Nat) : Nat := sk % 2 ^ (min (widthBits v.width) 256)

/-- Bits in which two routing sketches differ, or a sketch and a CSKETCH (R108, R226, R230). -/
def sketchDiff (v : Version) (a b : Nat) : Nat := hamming (min (widthBits v.width) 256) (cutSketch v a) (cutSketch v b)

/-- Squared Euclidean distance of two vectors in fp32, in ascending element order, by its key. The spec does not state the arithmetic of the
2-means (R227; DESIGN CHOICE, log 35). -/
def gapOf (c x : List F32) : Int := f32Key (chainSum (List.zipWith (fun a b => f32Mul (f32Sub a b) (f32Sub a b)) x c))

/-- The list among some, by list ID and centroid, whose fitted centroid is nearer a vector, ties to the lower list ID (R227). -/
def nearerOf (cs : List (Nat × List F32)) (x : List F32) : Option Nat :=
  (firstBy (fun a b => decide (a.1 < b.1) || (a.1 == b.1 && decide (a.2 < b.2))) (cs.map fun c => (gapOf c.2 x, c.1))).map (·.2)

/-- The child that takes an entry of a replaced list (R227): its handle. -/
def State.childFor (s : State) (l : ListData) (v : Version) (i : Item) : Option Nat :=
  match nearerOf (l.children.map fun c => (c.list, c.centroid)) (s.vhat v i) with
  | some k => (l.children.find? fun c => c.list = k).map (·.handle)
  | none => none

/-- Append an entry to a list, and to the list made from it where it has been replaced (R220, R227). -/
def State.appendEntry (s : State) (handle e : Nat) (i : Item) : State :=
  let s := (s.foldBefore handle e).withDelta handle e fun g => { g with items := g.items ++ [i] }
  match s.list handle with
  | some l => match s.versionOf l.ns l.idx l.version with
    | some v => match s.childFor l v i with
      | some c => (s.foldBefore c e).withDelta c e fun g => { g with items := g.items ++ [i] }
      | none => s
    | none => s
  | none => s

/-- Write a delete mark against every entry of a record (R85, R218). -/
def State.markRecord (s : State) (rec e : Nat) : State :=
  let hs := (s.corpus.lists.filter fun kl => kl.2.segs.any fun kg => kg.2.items.any fun i => i.record = rec).map (·.1)
  hs.foldl (fun s h =>
    let s := s.foldBefore h e
    match s.list h with
    | some l => (slotsOf (l.segs.filter fun kg => livesAt kg.2 e) rec).foldl (fun s t =>
        s.withDelta h e fun g => { g with marks := g.marks ++ [⟨t.1, t.2, e⟩] }) s
    | none => s) s

/-! ## Splits and merges start (R227, R228, R232) -/

/-- May maintenance start work: shedding step 2 or later suspends it (R232). -/
def State.maintRuns (s : State) : Bool := s.upkeepRuns

/-- The lowest list IDs whose directory entries are FREE and not reserved for a split or merge. -/
def State.freeEntries (s : State) (n : Nat) : List Nat :=
  let kept := s.maint.reorgs.flatMap (·.reserved)
  ((List.range (s.corpus.dir.length + kept.length + n)).filter fun k => k < 1048576 && !kept.contains k && (match s.corpus.dir.get k with
    | none => true
    | some e => e.state = 0)).take n

/-- Entries a split or merge needs in the directory: child B and the parent's tombstone, or the merged list. -/
def entriesNeeded (isMerge : Bool) : Nat := if isMerge then 1 else 2

/-- Does a fold of one of some lists run? -/
def State.folding (s : State) (lists : List Nat) : Bool :=
  s.maint.folds.any fun f => lists.any fun k => (s.corpus.dir.get k).any fun e => e.handle = f.handle

/-- May a deferred split or merge start: fewer than four run, no fold of its lists does, and its entries may be freed in this sweep period
(R232)? -/
def State.reorgMay (s : State) (g : Reorg) : Bool :=
  s.maintRuns && (s.maint.reorgs.filter fun x => !x.deferred).length < 4 && !s.folding g.sources &&
    g.sources.all fun k => (s.corpus.dir.get k).all fun e => e.frees < 255

/-- A deferred split or merge starts: it reserves its FREE entries, or waits for them, counted in DIR_FULL (R232). -/
def State.admitReorg (s : State) (g : Reorg) : State :=
  if !s.reorgMay g then s
  else
    let free := s.freeEntries (entriesNeeded g.isMerge)
    let wait : Bool := decide (free.length < entriesNeeded g.isMerge)
    let f (x : Reorg) : Reorg := { x with deferred := false, waiting := wait, reserved := if wait then [] else free }
    let s := { s with maint := { s.maint with reorgs := replaceFirst (fun x => x.sources == g.sources) f s.maint.reorgs } }
    if wait then s.tally 0x2710 0xB else s

/-- The deferred splits and merges start as far as the limits allow, in order (R232). -/
def State.admitReorgs (s : State) : State := (s.maint.reorgs.filter (·.deferred)).foldl (fun s g => s.admitReorg g) s

/-- Start a split or merge. A limit that is reached defers it (R232). -/
def State.startReorg (s : State) (sources : List Nat) (isMerge : Bool) : State :=
  if s.maint.reorgs.any fun g => g.sources.any sources.contains then s
  else
    let g : Reorg := { sources, isMerge, deferred := true }
    ({ s with maint := { s.maint with reorgs := s.maint.reorgs ++ [g] } } : State).admitReorg g

/-! ## Starting folds (R225, R232) -/

/-- Does R86 require a fold of the list: has its view or a delta reached 75% of a limit? -/
def foldRequired (l : ListData) : Bool :=
  let cur := l.segs.filter fun kg => kg.2.validUntil.isNone
  cur.length ≥ 12 || cur.any fun kg => !kg.2.isBase && (kg.2.items.length ≥ 786432 || kg.2.marks.length ≥ 49152)

/-- Is a fold of the list due (R225)? -/
def State.foldDue (s : State) (l : ListData) : Bool :=
  let cur := l.segs.filter fun kg => kg.2.validUntil.isNone
  let base := ((cur.filter fun kg => kg.2.isBase).map fun kg => kg.2.items.length).sum
  let entries := ((cur.filter fun kg => !kg.2.isBase).map fun kg => kg.2.items.length).sum
  (entries * 100 > s.setting 0x2701 2 5 * base && entries > 0) || foldRequired l

/-- 75% of the entries that a base may hold (R86). -/
abbrev baseNear : Nat := 25165824

/-- Do splits and merges leave a list to a fold? A fold that R86 requires goes before one that has not been copied (R232). -/
def State.foldMay (s : State) (l : ListData) : Bool :=
  !(s.maint.reorgs.any fun r => r.sources.contains l.listId && (r.effect.isSome || (!r.deferred && !foldRequired l)))

/-- Start a fold: a fresh delta for writes stamped after C, where C is the epoch now open (R224 step 1); a split instead where the base
would pass 75% of its limit (R225). -/
def State.startFold (s : State) (handle : Nat) : State :=
  match s.list handle with
  | none => s
  | some l =>
    match s.versionOf l.ns l.idx l.version with
    | none => s
    | some v =>
      let c := s.epochs.open_
      if l.retired || l.hold || !s.maintRuns || s.pendingChild handle || (s.maint.folds.any fun f => f.handle = handle) then s
      else if visibleCount l c > baseNear then s.startReorg [l.listId] false
      else if s.maint.folds.length ≥ 16 || (freeIndex l (c + 1)).isNone || !s.foldMay l || s.tierRoom 0 true < blocksOffset then s
      else
        let old := (l.segs.filter fun kg => kg.2.validUntil.isNone).map (·.1)
        let n := s.corpus.nextSeg
        let s := s.openSegment handle l v (genAt v (c + 1)) (c + 1)
        { s with maint := { s.maint with folds := s.maint.folds ++ [{ handle, c, delta := n, old }] } }

/-- Start a fold where one is due. -/
def State.checkFold (s : State) (handle : Nat) : State :=
  match s.list handle with
  | some l => if s.foldDue l then s.startFold handle else s
  | none => s

/-- Start the folds that are due, those that R86 requires first (R225, R232). -/
def State.checkFolds (s : State) : State :=
  let need := (s.corpus.lists.filter fun kl => foldRequired kl.2).map (·.1)
  (need ++ s.corpus.lists.map (·.1)).foldl (fun s h => s.checkFold h) s

/-! ## Durability (R220, R222) -/

/-- What the commit log holds of a write: its epoch, then its record or its row. -/
def logImage (w : Write) : List Byte := leBytes 8 w.epoch ++ (match w.row with
  | none => recordBytes w.record
  | some x => leBytes 8 x.table ++ leBytes 8 x.row ++ padTo 8 x.value)

/-- Bytes pending for the commit log: those of the first record that a page already holds are not. -/
def State.logLeft (s : State) : Nat := (s.corpus.logPending.map fun w => (logImage w).length).sum - s.corpus.logSkip

/-- The writes whose records end within the next `room` bytes, those left, and how many bytes of the first one left are within them. -/
def fitLog : Nat → List Write → List Write × List Write × Nat
  | _, [] => ([], [], 0)
  | room, w :: ws =>
    if (logImage w).length ≤ room then
      let r := fitLog (room - (logImage w).length) ws
      (w :: r.1, r.2)
    else ([], w :: ws, room)

/-- Program one page of the commit log: 16 KiB of pending records, or what there is. A record that a page cuts is durable with the page that
ends it. LOG_BYTES counts whole pages (R220, R246). -/
def State.programPage (s : State) : State :=
  let image := (s.corpus.logPending.flatMap logImage).drop s.corpus.logSkip
  let r := fitLog (s.corpus.logSkip + 16384) s.corpus.logPending
  let n := s.corpus.nextPage
  let c := { s.corpus with logPages := s.corpus.logPages.set n r.1, logPending := r.2.1, nextPage := n + 1, logSkip := r.2.2 }
  (({ s with corpus := c } : State).storeLog (slice image 0 16384)).count (objKey 0x2710 1) 16384

/-- Program pages while 16 KiB of records are pending (R220). -/
def State.programFull (s : State) : State := (List.range (s.logLeft / 16384)).foldl (fun s _ => s.programPage) s

/-- Program all pending records, the last page as full as it is: the end of LOG_FLUSH_INTERVAL (R220). -/
def State.programLog (s : State) : State := (List.range (ceilDiv s.logLeft 16384)).foldl (fun s _ => s.programPage) s

/-- A durable write of an item record is applied: marks and entries in its lists' open deltas; the lists it reaches are looked at for a fold
(R220, R225). -/
def State.applyRecord (s : State) (w : Write) : State :=
  let marked := (s.corpus.lists.filter fun kl => kl.2.segs.any fun kg => kg.2.items.any fun i => w.deletes.contains i.record).map (·.1)
  let s := w.deletes.foldl (fun s r => s.markRecord r w.epoch) s
  let s := w.places.foldl (fun s p => s.appendEntry p.2.1 w.epoch p.2.2) s
  (marked ++ w.places.map fun p => p.2.1).foldl (fun s h => s.checkFold h) s

end Sys2Proof.Machine
end

