-- ==== Sys2Proof/Machine/StreamOps.lean ====
section
/-! DEFINITION. The coded stream of a shard (R371) and feature-row writes at their home (R363, R366). -/
namespace Sys2Proof.Machine

/-! ## The coded stream (R371) -/

/-- Multiply by x in GF(2^8) with the polynomial 0x11D. -/
def gfDouble (a : Nat) : Nat := if a ≥ 128 then (2 * a) ^^^ 0x11D else 2 * a

/-- Product in GF(2^8), by the low bits of `b`. -/
def gfMulBits : Nat → Nat → Nat → Nat
  | 0, _, _ => 0
  | n + 1, a, b => (if b % 2 = 1 then a else 0) ^^^ gfMulBits n (gfDouble a) (b / 2)

/-- Product in GF(2^8). -/
def gfMul (a b : Nat) : Nat := gfMulBits 8 a b

/-- Power in GF(2^8). -/
def gfPow (a : Nat) : Nat → Nat
  | 0 => 1
  | n + 1 => gfMul a (gfPow a n)

/-- Inverse in GF(2^8): a^254. -/
def gfInv (a : Nat) : Nat := gfPow a 254

/-- Multiply every byte of a chunk. -/
def gfScale (c : Nat) (bs : List Byte) : List Byte := bs.map fun b => BitVec.ofNat 8 (gfMul c b.toNat)

/-- Coefficient of data chunk `i` in parity chunk `j`. -/
def parityCoeff (j i : Nat) : Nat := gfInv ((8 + j) ^^^ i)

/-- Parity chunk `j` of eight data chunks. -/
def parityChunk (j : Nat) (data : List (List Byte)) : List Byte :=
  ((List.range data.length).zip data).foldl (fun acc p => xorBytes acc (gfScale (parityCoeff j p.1) p.2))
    (List.replicate ((data.headD []).length) 0)

/-- The chunks of a stripe, data then parity: bytes padded with zeros to eight of 64 KiB. -/
def stripeChunks (bytes : List Byte) : List (List Byte) :=
  let data := (List.range 8).map fun i => slice (bytes.drop (65536 * i)) 0 65536
  data ++ [parityChunk 0 data, parityChunk 1 data]

/-- A fragment with its header. -/
def fragmentBytes (shard frag stripe first last : Nat) (chunk : List Byte) : List Byte :=
  leBytes 2 shard ++ leBytes 1 frag ++ [0] ++ leBytes 8 stripe ++ leBytes 8 first ++ leBytes 8 last ++ leBytes 4 0 ++ chunk

/-- A fragment from its header and chunk. -/
def readFragment (b : List Byte) : Fragment :=
  { shard := field b 0 2, frag := field b 2 1, stripe := field b 4 8, firstEpoch := field b 12 8, lastEpoch := field b 20 8, chunk := b.drop 32 }

/-- A member keeps a fragment, each apart; one that comes again replaces the earlier (R373). -/
def State.keepFragment (s : State) (f : Fragment) : State :=
  let others := s.exchange.fragments.filter fun y => !(y.shard = f.shard && y.frag = f.frag && y.stripe = f.stripe)
  { s with exchange := { s.exchange with fragments := others ++ [f] } }

/-- Code group of an item shard in the newest map; all 0xFFFF without one. -/
def State.codeGroup (s : State) (shard : Nat) : List Nat :=
  match s.lastMap.bind fun m => m.shards[shard]? with
  | some e => e.group
  | none => []

/-- Does a shard feed a coded stream here (R371, R373)? -/
def State.feeds (s : State) (shard : Nat) : Bool := (s.codeGroup shard).any fun m => m ≠ 0xFFFF

/-- Close the open stripe of a shard and send its fragments (R371, FRAGMENT_BYTES of R377). -/
def State.closeStripe (s : State) (shard : Nat) : State :=
  match s.exchange.streams.get shard with
  | none => s
  | some c =>
    if c.open_.isEmpty then s
    else
      let cs := stripeChunks c.open_
      let dests := s.codeGroup shard
      let c' : CodedStream := { c with open_ := [], stripe := c.stripe + 1 }
      let s := { s with exchange := { s.exchange with streams := s.exchange.streams.set shard c' } }
      ((List.range 10).zip cs).foldl (fun s p =>
        match dests[p.1]? with
        | some m =>
          let b := fragmentBytes shard p.1 c.stripe c.firstEpoch c.lastEpoch p.2
          if m = 0xFFFF then s
          else if m = s.mgmt.moduleId then s.keepFragment (readFragment b)
          else (s.sendTransfer m 0x0D b).count (objKey 0x2B10 4) b.length
        | none => s) s

/-- Bytes of a stripe's data. -/
abbrev stripeBytes : Nat := 524288

/-- Feed bytes of one epoch into a shard's stream; the fuel bounds how many stripes they fill. -/
def feedFuel : Nat → State → Nat → Nat → List Byte → State
  | 0, s, _, _, _ => s
  | n + 1, s, shard, epoch, bytes =>
    if bytes.isEmpty then s
    else
      let c := s.exchange.streams.getD shard {}
      let room := stripeBytes - c.open_.length
      let fresh := c.open_.isEmpty
      let c' : CodedStream := { c with
        open_ := c.open_ ++ bytes.take room
        firstAt := if fresh then s.time else c.firstAt
        flushMs := if fresh then s.setting 0x2B00 9 10 else c.flushMs
        firstEpoch := if fresh then epoch else min c.firstEpoch epoch
        lastEpoch := if fresh then epoch else max c.lastEpoch epoch }
      let s := { s with exchange := { s.exchange with streams := s.exchange.streams.set shard c' } }
      let s := if c'.open_.length ≥ stripeBytes then s.closeStripe shard else s
      feedFuel n s shard epoch (bytes.drop room)

/-- Feed bytes into a shard's coded stream, where it has a code group. -/
def State.feedStream (s : State) (shard epoch : Nat) (bytes : List Byte) : State :=
  if s.feeds shard then feedFuel (bytes.length / stripeBytes + 2) s shard epoch bytes else s

/-- What a write puts into its shard's stream: epoch, record, stored vector and payload (the layout is the model's own, log 32). -/
def State.streamBytes (s : State) (w : Write) : List Byte :=
  leBytes 8 w.epoch ++ recordBytes w.record ++
    (match w.recId.bind fun n => s.corpus.records.get n with
      | some r => if w.record.keepVector then [] else padTo 8 r.stored
      | none => [])

/-! ## The tier objects of feature rows (R248, R355, R365) -/

/-- A feature shard's object, in LPDDR at creation, where it has none yet. -/
def State.needShard (s : State) (f : Nat) : State :=
  if s.featObj f ≠ 0 then s
  else match shardTable s.exchange.tables f with
    | some (t, first) => (s.newObj { kind := 8, tier := 1, size := min (t.rows - first) (2 ^ t.shardLog) * t.rowBytes, shard := f }).1
    | none => s

/-- Is a feature shard one of a table not yet freed? -/
def State.shardLives (s : State) (f : Nat) : Bool := (shardTable s.exchange.tables f).any fun t => !s.tableGone t.1

/-- Every feature shard homed here has its FEATURE_SHARD object; those of tables that are freed go (R235, R248). -/
def State.syncFeatures (s : State) : State :=
  let count := (s.exchange.tables.map (·.shardCount)).sum
  let want := upTo count fun f => s.shardLives f && (s.featHome f s.epochs.open_).1 = s.mgmt.moduleId
  let old := s.tiers.objs.filter fun kv => kv.2.kind = 8 && !s.shardLives kv.2.shard
  want.foldl (fun s f => s.needShard f) (old.foldl (fun s kv => s.freeObj kv.1) s)

/-- The FEATURE_REPLICA object holds the replicas: it is there, in LPDDR at creation, while there are any, and as large as they are (R365). -/
def State.syncReplicas (s : State) : State :=
  let n := (s.exchange.replicasIn.map fun r => r.value.length).sum
  let k := s.replicaObj
  if k = 0 then (if n = 0 then s else (s.newObj { kind := 9, tier := 1, size := n }).1)
  else if n = 0 then s.freeObj k
  else { s with tiers := { s.tiers with objs := s.tiers.objs.alter k fun o => { o with size := n } } }

/-! ## Row writes at their home (R363) -/

/-- A row write under a running move of its shard's object makes the chunks that hold the row dirty (R255). -/
def State.dirtyRow (s : State) (t : FeatTable) (x : RowWrite) : State :=
  let at_ := x.row % 2 ^ t.shardLog * t.rowBytes
  s.dirtyChunks (s.featObj ((s.featShard x.table x.row).getD 0)) at_ (at_ + t.rowBytes - 1)

/-- A durable row write takes its place behind the row's value; values of closed epochs that a later closed one replaces go. -/
def State.applyRow (s : State) (w : Write) (x : RowWrite) : State :=
  match s.table x.table with
  | none => s
  | some t =>
    let now := s.rowValue t x.row
    let old := match s.exchange.rows.get (rowKey x.table x.row) with
      | some r => r.next
      | none => []
    let r : FeatRow := { value := now.1, version := now.2
                         next := (old.filter fun v => decide (v.2 > s.usableClosed) && v.2 ≠ w.epoch) ++ [(x.value, w.epoch)] }
    let s := s.dirtyRow t x
    { s with exchange := { s.exchange with rows := s.exchange.rows.set (rowKey x.table x.row) r } }

/-- Order one row write (R363): its checks, its stamp, and an invalidation to every holder of the row (R366). -/
def State.orderRow (s : State) (w : Write) (x : RowWrite) : State :=
  let e := s.epochs.open_
  match s.table x.table with
  | none => s.answerWrite w 4 0x82 0
  | some t =>
    if x.row ≥ t.rows || x.value.length ≠ t.rowBytes then s.answerWrite w 4 0x82 0
    else
      let s := s.queueWrite { w with epoch := e }
      let hs := (s.exchange.replicasOut.filter fun r => r.table = x.table && r.row = x.row).map (·.peer)
      let mark (r : Replica) : Replica :=
        if r.table = x.table && r.row = x.row then { r with unacked := r.unacked ++ [e], valid := false } else r
      let s := { s with exchange := { s.exchange with replicasOut := s.exchange.replicasOut.map mark } }
      hs.foldl (fun s p => s.sendInvalidate p [(x.table, x.row, e)]) s

end Sys2Proof.Machine
end

