-- ==== Sys2Proof/Machine/Ingest.lean ====
section
/-! DEFINITION. Ingest from a batch's entry to its writes' durability (R210 to R222, R386, R397, R398, R405 to R407): the commands
INGEST_ENTRY_ARRIVE, BASIC_INGEST_DESCRIPTOR, RECORD_ORDER, COMMIT_TIMEOUT, LOG_FLUSH, LOG_PAGE_DURABLE. -/
namespace Sys2Proof.Machine

/-! ## At the origin -/

/-- The RECORD item of a write (R345). -/
def recordItem (w : Write) : List Byte :=
  drayItem 6 (leBytes 8 w.batch ++ leBytes 4 w.pos ++ leBytes 4 0 ++ recordBytes w.record)

/-- Home and state of an item shard in the newest map; this module without a map. -/
def State.homeNow (s : State) (shard : Nat) : Nat × Nat :=
  match s.lastMap.bind fun m => shardOf m shard with
  | some h => h
  | none => (s.mgmt.moduleId, 0)

/-- Send a record to the home of its key (R214): a REBUILDING shard's waits here, a LOST shard's is answered NOT_WRITABLE (R358). -/
def State.sendRecord (s : State) (w : Write) : State :=
  let h := s.homeNow (s.shardOfKey w.record.key)
  if h.2 = 3 then s.answerWrite w 7 3 0
  else if h.2 = 2 then
    let held : HeldWork := { item := recordItem w, source := s.mgmt.moduleId, cls := 2, tenant := w.tenant, mapEpoch := s.newestMap
                             forwarded := false, since := s.time, waitUs := s.setting 0x2700 3 1000 * 1000 }
    { s with exchange := { s.exchange with held := s.exchange.held ++ [held] } }
  else if h.1 = s.mgmt.moduleId then s.arriveWrite w
  else s.addItem h.1 2 w.tenant false false (recordItem w)

/-- Is a later record of the batch, itself well formed, one of the same key (R215)? -/
def laterSame (rs : List (IngestRec × Bool)) (i : Nat) (r : IngestRec) : Bool :=
  (rs.drop (i + 1)).any fun y => y.2 && y.1.ns = r.ns && y.1.idx = r.idx && y.1.key = r.key

/-- Send a batch's records: refused ones and all but the last of each key are answered here (R211, R213, R215). -/
def State.sendBatch (s : State) (b tenant : Nat) (rs : List (IngestRec × Bool)) : State :=
  let n := rs.length
  ((List.range n).zip rs).foldl (fun s p =>
    let w : Write := { record := p.2.1, tenant, origin := s.mgmt.moduleId, batch := s.batchRef b, pos := p.1, arrivedAt := s.time }
    if !p.2.2 then s.answerWrite w 4 0x82 0
    else if laterSame rs p.1 p.2.1 then s.answerWrite w 1 0 0
    else s.sendRecord w) s

/-- A batch enters the module. -/
def State.newBatch (s : State) (x : IngestBatch) (rs : List (IngestRec × Bool)) : State :=
  let b := s.corpus.nextBatch
  let x := { x with results := rs.map fun _ => none }
  ({ s with corpus := { s.corpus with batches := s.corpus.batches.set b x, nextBatch := b + 1 } } : State).sendBatch b x.tenant rs

/-- The fields of an ingest entry that are not the records' own (R397). -/
def ingestEntryOk (e : List Byte) : Bool :=
  allZero e 1 7 && allZero e 30 2 && allZero e 40 88 && field e 16 8 % 8 = 0 && field e 32 8 % 8 = 0 && field e 24 4 ≤ 33554432 &&
    1 ≤ field e 28 2 && field e 28 2 ≤ 4096

/-- A batch that no record of enters: its completion alone (R398). -/
def State.refuseBatch (s : State) (fn pair sqIndex tag status : Nat) : State :=
  s.complete fn pair sqIndex 1 false false (leBytes 1 status ++ leBytes 4 0 ++ leBytes 8 tag ++ leBytes 48 0)

/-- INGEST_ENTRY_ARRIVE: windows, batch format, tenant, then every record on its way (R386, R397, R398, R539). -/
def execIngestEntryArrive (fn pair sqIndex : Nat) (entry records : List Byte) (readOk : Bool) (s : State) :
    Host.Outcome State Fault Refusal :=
  .next (let e : TakenEntry := ⟨fn, pair, sqIndex⟩
    if !s.host.taken.contains e || (s.pairOf fn pair).kind ≠ 2 then s
    else
      let s := { s with host := { s.host with taken := s.host.taken.erase e } }
      let f := s.fnNow fn
      let tag := field entry 8 8
      let addr := field entry 16 8
      let len := field entry 24 4
      let count := field entry 28 2
      let out := field entry 32 8
      if field entry 0 1 ≠ 2 then s.entryFault fn pair sqIndex 1 tag
      else if !(dmaInside f false addr len && dmaInside f true out (24 * count)) then s.entryFault fn pair sqIndex 2 tag
      else if !ingestEntryOk entry then s.refuseBatch fn pair sqIndex tag 1
      else
        let (s, _) := s.dmaRead fn addr len
        if !readOk then s.entryFault fn pair sqIndex 3 tag
        else
          let body := slice records 0 len
          let parts := splitRecords count body
          if parts.1.length ≠ count || !parts.2.isEmpty then s.refuseBatch fn pair sqIndex tag 1
          else if f.tenant = 0 then s.refuseBatch fn pair sqIndex tag 2
          else
            let x : IngestBatch := { fn, pair, sqIndex, basic := false, tenant := f.tenant, tag, resultsAddr := out, results := [] }
            s.newBatch x (parts.1.map fun p => (p.1, recordFieldsOk p.2 p.1)))

/-! ## The basic level -/

/-- Bytes of a ZR-40 record (R406). -/
def basicRecordSize (b : List Byte) : Nat :=
  24 + roundUp 8 ((if field b 1 1 = 0 then 4 else 1) * field b 2 2)

/-- The expert-level record that a ZR-40 record stands for, of an index, and whether its own fields are right (R407). -/
def basicRecord (ns idx : Nat) (b : List Byte) : IngestRec × Bool :=
  let fmt := field b 1 1
  let op := match field b 0 1 with
    | 1 => 1
    | 2 => 3
    | 3 => 4
    | _ => 0
  let r : IngestRec := { op, keepVector := false, keepPayload := false, fmt := if fmt = 0 then 0 else 5, dim := field b 2 2, ns, idx
                         key := field b 8 8, attr := 0, clientTag := field b 16 8
                         vector := slice (b.drop 24) 0 ((if fmt = 0 then 4 else 1) * field b 2 2), payload := [], size := basicRecordSize b }
  (r, fmt ≤ 1 && allZero b 4 4 && recordFieldsOk (recordBytes r) r)

/-- The records of a basic-level batch, and whether all its bytes are there. -/
def basicRecords (ns idx : Nat) : Nat → List Byte → List (IngestRec × Bool) × Nat
  | 0, _ => ([], 0)
  | n + 1, b =>
    let rest := basicRecords ns idx n (b.drop (basicRecordSize b))
    (basicRecord ns idx b :: rest.1, basicRecordSize b + rest.2)


/-- The descriptor at the ingest ring's head is taken: the head moves on (R405). -/
def State.takeIngest (s : State) (fn : Nat) : State :=
  (s.updFn fn fun f => { f with basic := { f.basic with igrHead := if f.basic.igrHead + 1 ≥ f.basic.igrSize then 0 else f.basic.igrHead + 1 } }).took fn 1

/-- BASIC_INGEST_DESCRIPTOR (R405 to R407): a descriptor out of range, of an unmapped index or of an unbound function is written back
with every record refused. -/
def execBasicIngestDescriptor (fn : Nat) (desc records : List Byte) (reads : HostReads) (s : State) : Host.Outcome State Fault Refusal :=
  .next (if s.turn ≠ some (fn, 1) || (s.fnState fn).expert then s
    else
      let b := (s.fnState fn).basic
      let at_ := b.igrBase + 32 * b.igrHead
      let (s, ok) := s.dmaRead fn at_ 32
      if !ok then s.ringFault fn 1 3
      else if !reads.descOk then s.ringFault fn 1 4
      else
        let s := s.takeIngest fn
        let tenant := (s.fnState fn).tenant
        let count := field desc 16 2
        let sel := field desc 18 1
        let m := s.basicIndex fn (sel % 16)
        let rs := basicRecords m.1 m.2 (min count 4096) records
        let x : IngestBatch := { fn, pair := 0, sqIndex := 0, basic := true, tenant, tag := field desc 0 8, resultsAddr := 0
                                 descAddr := at_, results := [] }
        let formOk : Bool := 1 ≤ count && count ≤ 4096 && sel < 16 && allZero desc 24 8
        let (s, readIn) := if formOk then s.dmaRead fn (field desc 8 8) rs.2 else (s, false)
        if !(readIn && reads.dataOk) then s.endBatch s.corpus.nextBatch x 1
        else if (m.1 = 0 && m.2 = 0) || tenant = 0 then s.newBatch x (rs.1.map fun r => (r.1, false))
        else s.newBatch x rs.1)

/-! ## At the home -/

/-- Writes ordered and not yet applied that put an entry or a mark into a list. -/
def State.waitingFor (s : State) (handle : Nat) : Nat :=
  let held := match s.list handle with
    | some l => l.segs.flatMap fun (kg : Nat × Segment) => kg.2.items.map Item.record
    | none => []
  ((s.corpus.logPending ++ s.corpus.logPages.flatMap (·.2)).filter fun w =>
    (w.places.any fun p => p.2.1 = handle) || w.deletes.any held.contains).length

/-- Would a list's segment limits be passed by one more entry and mark, after those that wait: does the open delta lack the room, and no
further one can be opened (R86)? -/
def State.listFull (s : State) (handle : Nat) : Bool :=
  match s.list handle with
  | none => false
  | some l =>
    let n := s.waitingFor handle + 1
    let e := s.epochs.open_
    let room : Bool := match (s.versionOf l.ns l.idx l.version).bind fun v => openDelta l (genAt v e) e with
      | some kg => deltaRoom kg.2 n
      | none => false
    l.hold || (!room && (decide (n > 65536) || (freeIndex l e).isNone))

/-- The lists that a write of a record would reach: where its entries go and where its old ones are marked, with the copies that a split or
merge is making of them. -/
def State.reaches (s : State) (r : IngestRec) : List Nat :=
  let e := s.epochs.open_
  let vs := s.writeVersions r.ns r.idx e
  let old := match s.corpus.keys.getD (keyCode r.ns r.idx r.key) none with
    | some o => vs.flatMap fun v => (s.entriesOf v o).map (·.1)
    | none => []
  let new := if r.op = 3 || r.keepVector then [] else vs.flatMap fun v => s.nearestLists v (s.shardOfKey r.key) r.elements
  (old ++ new).flatMap fun h => h :: (match s.list h with
    | some l => l.children.map (·.handle)
    | none => [])

/-- Is a shard's last tail being sent, so that its writes are held (R359 step 5)? -/
def State.shardHeld (s : State) (shard : Nat) (feature : Bool) : Bool :=
  s.exchange.moves.any fun m => m.shard = shard && m.feature == feature && m.holding

/-- Has a row reached 3 MiB of unprogrammed write data (R298)? -/
def State.rowLimit (s : State) (r : Nat) : Bool :=
  decide (((s.flash.pages.filter fun kp => kp.2.state < 2 && !kp.2.parity && (keyParts kp.1).1 = r).map fun kp => kp.2.units.length).sum * 4096
    ≥ 3145728)

/-- Does the flash hold new writes: no program slot is theirs, a row is at its limit, or a page of theirs waits for a buffer (R298, R301,
R303)? -/
def State.flashHolds (s : State) : Bool :=
  s.flash.throttle = 0 || (List.range 16).any s.rowLimit ||
    s.flash.pages.any fun kp => kp.2.state = 0 && kp.2.stream = 0 && !kp.2.parity && !kp.2.buffered

/-- Must a held write go on waiting (R86, R209, R221, R359)? -/
def State.writeWaits (s : State) (w : Write) : Bool :=
  !s.epochs.mayStamp || s.flashHolds ||
    (match w.row with
      | some x => (match s.featShard x.table x.row with
        | some n => s.shardHeld n true
        | none => false)
      | none => s.shardHeld (s.shardOfKey w.record.key) false || (s.reaches w.record).any fun h => s.listFull h)

/-- Are two writes of one batch? -/
def sameBatch (w y : Write) : Bool := y.batch = w.batch && y.origin = w.origin

/-- The held writes of the batch to which the first one belongs, those that other batches' stand between included, and the rest (R216). -/
def headRun (held : List Write) : List Write × List Write := match held with
  | [] => ([], [])
  | w :: _ => (held.filter (sameBatch w), held.filter fun y => !sameBatch w y)

/-- Order one write. -/
def State.orderWrite (s : State) (w : Write) : State :=
  (match w.row with
    | some x => s.orderRow w x
    | none => s.orderRecord w).programFull

/-- RECORD_ORDER: the writes of the batch to which the first held one belongs take their order, contiguously and in one epoch (R211, R216 to
R221, R363). The command comes when the batch's records for this home are here (log 31). -/
def execRecordOrder (s : State) : Host.Outcome State Fault Refusal :=
  .next (let r := headRun s.corpus.held
    if r.1.isEmpty || r.1.any fun w => s.writeWaits w then s
    else r.1.foldl (fun s w => s.orderWrite w) { s with corpus := { s.corpus with held := r.2 } })

/-- The writes that this home has held for COMMIT_TIMEOUT are answered TIMEOUT (R221). -/
def State.timeoutWrites (s : State) : State :=
  let late (w : Write) : Bool := decide (s.time ≥ w.arrivedAt + w.timeoutMs * cyclesPerMs)
  (s.corpus.held.filter late).foldl (fun s w => s.answerWrite w 6 0 0)
    { s with corpus := { s.corpus with held := s.corpus.held.filter fun w => !late w } }

/-- The writes that this origin has held for COMMIT_TIMEOUT for a REBUILDING shard are answered TIMEOUT (R358). -/
def State.timeoutHeld (s : State) : State :=
  let own (h : HeldWork) : Bool :=
    h.source = s.mgmt.moduleId && h.snapshot.isNone && itemType h.item = 6 && decide (s.time ≥ h.since + h.waitUs * cyclesPerUs)
  (s.exchange.held.filter own).foldl (fun s h =>
    let w : Write := { record := parseRecord (h.item.drop 24), tenant := h.tenant, origin := s.mgmt.moduleId, batch := field h.item 8 8
                       pos := field h.item 16 4, arrivedAt := h.since }
    s.answerWrite w 6 0 0) { s with exchange := { s.exchange with held := s.exchange.held.filter fun h => !own h } }

/-- COMMIT_TIMEOUT: writes held for COMMIT_TIMEOUT, at their home or at the origin for a REBUILDING shard, are answered TIMEOUT (R221,
R358). -/
def execCommitTimeout (t : Nat) (s : State) : Host.Outcome State Fault Refusal :=
  .next (let s := s.advance t
    s.timeoutWrites.timeoutHeld)

/-- LOG_FLUSH: the interval ends and the pending records start programming (R220). -/
def execLogFlush (t : Nat) (s : State) : Host.Outcome State Fault Refusal :=
  .next (let s := s.advance t
    if s.time ≥ s.corpus.lastFlush + s.corpus.flushUs * cyclesPerUs then
      ({ s with corpus := { s.corpus with lastFlush := s.time, flushUs := s.setting 0x2700 4 200 } } : State).programLog
    else s)

/-- The shadow's copy of a durable record of its set, with its epoch (R508; the form of the item is the model's own, log 33). -/
def shadowItem (w : Write) : List Byte :=
  drayItem 6 (leBytes 8 w.epoch ++ leBytes 4 0xFFFFFFFF ++ leBytes 4 0 ++ recordBytes w.record)


/-- A durable write is applied, fed to its shard's coded stream and sent to the shadow (R207, R217, R220, R371, R508). -/
def State.takeDurable (s : State) (w : Write) : State :=
  let s := match w.row with
    | some x => s.applyRow w x
    | none =>
      let shard := s.shardOfKey w.record.key
      let s := (s.applyRecord w).feedStream shard w.epoch (s.streamBytes w)
      let sh := s.repair.shadow
      if sh.role = 1 && sh.state ≥ 2 && sh.shards.contains shard then s.addItem sh.peer 2 w.tenant false false (shadowItem w) else s
  ({ s with corpus := { s.corpus with durable := s.corpus.durable ++ [w] } } : State).noteSettled w.epoch

/-- A durable write: applied and answered (R213). -/
def State.durableWrite (s : State) (w : Write) : State :=
  let s := s.takeDurable w
  if w.pos = 0xFFFFFFFF then s
  else s.answerWrite w (if w.superseded then 1 else 0) 0 w.epoch

/-- Is every write stamped in an epoch or earlier durable and applied (R207, R220)? -/
def State.writesSettled (s : State) (e : Nat) : Bool :=
  !(s.corpus.logPending.any fun w => decide (w.epoch ≤ e)) && !(s.corpus.logPages.any fun p => p.2.any fun w => decide (w.epoch ≤ e))

/-- Folds whose F has opened switch once every write stamped below F is applied; the folds that were deferred for them start (R224, R232). -/
def State.switchFolds (s : State) : State :=
  let due := s.maint.folds.filter fun f => match f.switchAt with
    | some at_ => decide (at_ ≤ s.epochs.open_) && s.writesSettled (at_ - 1)
    | none => false
  if due.isEmpty then s else (due.foldl (fun s f => s.foldSwitch f) s).checkFolds

/-- LOG_PAGE_DURABLE: the oldest commit-log page that is programming is done (R217, R220). -/
def execLogPageDurable (page : Nat) (s : State) : Host.Outcome State Fault Refusal :=
  .next (match s.corpus.logPages.head? with
    | some (p, ws) =>
      if p ≠ page then s
      else
        let s := { s with corpus := { s.corpus with logPages := s.corpus.logPages.erase p } }
        (ws.foldl (fun s w => s.durableWrite w) s).switchFolds
    | none => s)

end Sys2Proof.Machine
end

