-- ==== Sys2Proof/Machine/Catalog.lean ====
section
/-! DEFINITION. What the catalog's changes do as their epoch opens (R185, R186, R234, R235), and the owner's test of its commands (R400). -/
namespace Sys2Proof.Machine

/-- The epoch F of a catalog change: the first to open at least MAP_LEAD epochs later (R234). -/
def State.catalogEpoch (s : State) : Nat := s.epochs.open_ + s.setting 0x2B00 3 8

/-- Why a command of the owning tenant is refused: NAMESPACE, then NOT_PERMITTED (R400 order 3). -/
def State.ownerFail (s : State) (fn ns : Nat) (idx : Option Nat) : Option Nat :=
  let e := s.epochs.open_
  match s.nsAt ns e with
  | none => some 0x204
  | some n =>
    if (match idx with
      | some i => (s.idxAt ns i e).isNone
      | none => false) then some 0x204
    else if n.owner ≠ (s.fnState fn).tenant then some 1 else none

/-! ## Effects -/

/-- Every held version of an index becomes DRAINING at F (R235). -/
def endVersion (f : Nat) (v : Version) : Version :=
  { v with state := .draining, endEpoch := some (match v.endEpoch with
    | some e => min e f
    | none => f) }

/-- A catalog change takes effect at its epoch F (R185, R186, R234, R235). -/
def State.applyChange (s : State) (f : Nat) (c : CatalogChange) : State :=
  let k := s.catalog
  match c with
  | .nsCreate n => { s with catalog := { k with namespaces := k.namespaces ++ [n] } }
  | .nsDelete ns =>
    { s with
      catalog := { k with
        namespaces := k.namespaces.map fun n => if n.ns = ns && n.deleted.isNone then { n with deleted := some f } else n
        grants := k.grants.map fun g => if g.ns = ns && g.until_.isNone then { g with until_ := some f } else g }
      exchange := { s.exchange with
        tables := s.exchange.tables.map fun t => if t.ns = ns && t.deletedAt.isNone then { t with deletedAt := some f } else t } }
  | .idxCreate i =>
    { s with catalog := { k with indices := (k.indices.filter fun x => !(x.ns = i.ns && x.idx = i.idx && x.discarded)) ++ [i] } }
  | .idxDelete ns idx =>
    { s with catalog := { k with
      indices := k.indices.map fun i => if i.ns = ns && i.idx = idx && i.deleted.isNone then { i with deleted := some f } else i
      versions := k.versions.map fun v => if v.ns = ns && v.idx = idx then endVersion f v else v } }
  | .grantCreate g => { s with catalog := { k with grants := k.grants ++ [g] } }
  | .grantRevoke ns grantee =>
    { s with catalog := { k with
      grants := k.grants.map fun g => if g.ns = ns && g.grantee = grantee && g.until_.isNone then { g with until_ := some f } else g } }
  | .isolation mode => { s with catalog := { k with isolation := (mode, f) :: k.isolation } }

/-- The changes whose epoch has opened take effect and their commands complete with F (R234, R235). -/
def State.openCatalog (s : State) : State :=
  let e := s.epochs.open_
  let due := s.catalog.pending.filter fun p => decide (p.epoch ≤ e)
  let s := { s with catalog := { s.catalog with pending := s.catalog.pending.filter fun p => decide (p.epoch > e) } }
  due.foldl (fun s p =>
    let s := s.applyChange p.epoch p.change
    match p.cmd with
    | some r => s.adminDone r 0 [] (leBytes 8 p.epoch)
    | none => s) s

/-- Tables of deleted namespaces are freed, with their shards' and replicas' objects, once no admitted query holds a snapshot below their
end (R235, R248). -/
def State.freeTables (s : State) : State :=
  let gone := (s.exchange.tables.filter s.tableGone).map (·.code)
  let live := (s.exchange.tables.filter fun t => !s.tableGone t).map (·.code)
  let mine (code : Nat) : Bool := gone.contains code && !live.contains code
  ({ s with exchange := { s.exchange with
    rows := s.exchange.rows.keep fun k _ => !mine (k / 2 ^ 40)
    replicasIn := s.exchange.replicasIn.filter fun r => !mine r.table
    replicasOut := s.exchange.replicasOut.filter fun r => !mine r.table } } : State).syncFeatures.syncReplicas

end Sys2Proof.Machine
end

