-- ==== Sys2Proof/Machine/Versions.lean ====
section
/-! DEFINITION. Lists of a version in the centroid directory (R102 to R107, R218, R538), and index versions (R116, R236 to R239, R536): the
commands VERSION_CREATE, VERSION_BUILD_COMPLETE, VERSION_SWITCH, VERSION_FREE, VERSION_INFO, INDEX_DATA_DISCARD. -/
namespace Sys2Proof.Machine

/-! ## Lists and directory entries -/


/-- A live entry of a list; ENTRY_GEN stays that of the entry it fills. -/
def State.liveEntry (s : State) (v : Version) (c : Child) (shard items : Nat) : DirEntry :=
  let old := s.corpus.dir.getD c.list { csketch := 0, home := 0, handle := 0 }
  { csketch := c.csketch, home := s.mgmt.moduleId, handle := c.handle, entryGen := old.entryGen, projGen := c.gen, state := 1, items
    centroid := c.centroid, ns := v.ns, idx := v.idx, version := v.ver, shard, frees := old.frees }

/-- Write a directory entry in all copies. -/
def State.setEntry (s : State) (list : Nat) (e : DirEntry) : State :=
  { s with corpus := { s.corpus with dir := s.corpus.dir.set list e } }

/-- Connect a live entry: edges to 16 live entries, of its version where there are any, else of its index, those with the fewest edges and
then the lowest IDs, and edges back where they have room; where none has, the first gives its last edge up. Which edges an entry has is the
module's own choice (R538; log 37). -/
def State.linkEntry (s : State) (list : Nat) : State :=
  match s.corpus.dir.get list with
  | none => s
  | some e =>
    let all := s.corpus.dir.filter fun kv => kv.1 ≠ list && kv.2.state = 1 && kv.2.ns = e.ns && kv.2.idx = e.idx
    let own := all.filter fun kv => kv.2.version = e.version
    let live := if own.isEmpty then all else own
    let peers := (sortBy (fun a b => decide (a.2.edges.length < b.2.edges.length) ||
      (a.2.edges.length == b.2.edges.length && decide (a.1 < b.1))) live).take 16
    let s := s.setEntry list { e with edges := peers.map fun kv => (kv.1, kv.2.entryGen) }
    let others (p : DirEntry) : List (Nat × Nat) := p.edges.filter fun t => t.1 ≠ list
    let full := peers.all fun kv => (others kv.2).length ≥ 32
    (peers.filter fun kv => (others kv.2).length < 32 || (full && peers.head?.any fun h => h.1 = kv.1)).foldl (fun s kv =>
      s.setEntry kv.1 { kv.2 with edges := (others kv.2).take 31 ++ [(list, e.entryGen)] }) s

/-- A directory entry is freed: FREE, ENTRY_GEN advanced, its edges unused (R103, R112). -/
def State.freeEntry (s : State) (list : Nat) : State :=
  { s with corpus := { s.corpus with dir := s.corpus.dir.alter list fun e =>
    { e with state := 0, entryGen := (e.entryGen + 1) % 256, edges := [], frees := e.frees + 1, items := 0 } } }

/-- A list leaves the home with its segments' objects and its LIST object. -/
def State.dropList (s : State) (handle : Nat) : State :=
  match s.list handle with
  | none => s
  | some l =>
    let s := (l.segs.flatMap fun kg => kg.2.objs).foldl (fun s n => s.freeObj n) s
    let s := s.freeObj handle
    { s with
      corpus := { s.corpus with lists := s.corpus.lists.erase handle }
      maint := { s.maint with folds := s.maint.folds.filter fun f => f.handle ≠ handle } }

/-! ## Versions -/

/-- Generation numbers in use on an index (R82). -/
def State.gensUsed (s : State) (ns idx : Nat) : List Nat :=
  (s.catalog.versions.filter fun v => v.ns = ns && v.idx = idx).flatMap fun v => v.gens.map (·.num)

/-- The lowest generation number not in use (R536). -/
def State.freeGen (s : State) (ns idx : Nat) : Nat :=
  ((subs 1 255).find? fun n => !(s.gensUsed ns idx).contains n).getD 255

/-- A generation whose centre and matrix are fitted: their elements are free values (R231, R536). -/
def State.fitGen (s : State) (num width dim activeFrom : Nat) : State × Gen :=
  let n := s.freeCount
  let g : Gen := { num, seeded := false, mu := (List.range dim).map (Config.fitted n)
                   rows := (List.range (widthBits width)).map fun j => (List.range dim).map fun i =>
                     Config.fitted n (dim * (j + 1) + i) &&& 0xFFFF0000
                   activeFrom }
  ({ s with freeCount := n + 1 }, g)


/-- The CURRENT version of an index. -/
def State.currentOf (s : State) (ns idx : Nat) : Option Version :=
  s.catalog.versions.find? fun v => v.ns = ns && v.idx = idx && v.state == .current

/-- Lists of a version homed here. -/
def State.versionLists (s : State) (v : Version) : List (Nat × ListData) :=
  s.corpus.lists.filter fun kl => kl.2.ns = v.ns && kl.2.idx = v.idx && kl.2.version = v.ver

/-- Does a version hold an item visible at the latest closed epoch (R536)? Of lists homed elsewhere the directory's ITEMS is what the module
has (log 24). -/
def State.versionHolds (s : State) (v : Version) : Bool :=
  ((s.versionLists v).any fun kl => visibleCount kl.2 s.usableClosed > 0) ||
    s.corpus.dir.any fun kv => kv.2.state = 1 && kv.2.home ≠ s.mgmt.moduleId && kv.2.ns = v.ns && kv.2.idx = v.idx && kv.2.version = v.ver &&
      kv.2.items > 0

/-- Live records of an index homed here. -/
def State.liveRecords (s : State) (ns idx : Nat) : List Nat :=
  (s.corpus.records.filter fun kr => kr.2.ns = ns && kr.2.idx = idx && kr.2.delete.isNone).map (·.1)

/-- Item shards homed here (R355). -/
def State.ownShards (s : State) : List Nat := (List.range s.shardCount).filter fun n => (s.homeNow n).1 = s.mgmt.moduleId

/-- A new version's first list in a shard, with its open delta. How many lists a version starts with, and where their centroids lie, is the
module's own choice (R80, R102, R223; log 34). -/
def State.firstList (s : State) (v : Version) (gen shard : Nat) : State :=
  match s.freeEntries 1 with
  | [] => s
  | id :: _ =>
    let centroid := (List.range v.dim).map (Config.fitted s.freeCount)
    let s := ({ s with freeCount := s.freeCount + 1 } : State).noteNans (s.nansUnder v [gen] centroid)
    let l : ListData := { ns := v.ns, idx := v.idx, version := v.ver, listId := id, shard }
    let (s, h) := s.newList l 1
    let c : Child := ⟨h, id, cutSketch v (s.sketchOf v gen centroid), gen, centroid⟩
    ((s.needDelta h v.created).setEntry id (s.liveEntry v c shard 0)).linkEntry id

/-- A version record as a version (R236). -/
def parseVersion (b : List Byte) (created : Nat) : Version :=
  { ver := field b 0 4, ns := field b 4 4, idx := field b 8 4, width := field b 12 1, assign := field b 13 1, metric := field b 16 1
    codeFmt := field b 17 1, scaleFmt := field b 18 1, assignLimit := field b 19 1, dim := field b 20 2, reduced := bit (field b 22 1) 0
    image := slice (b.drop 32) 0 64, created }

/-- Are a version record's own fields in range and its reserved bytes zero (R116, R236)? -/
def versionFormOk (b : List Byte) : Bool :=
  b.length = 128 && field b 0 4 ≠ 0 && field b 12 1 ≤ 3 && allZero b 14 2 && field b 16 1 ≤ 3 &&
    (field b 16 1 = 3 || field b 17 1 ≤ 4) && field b 18 1 ≤ 1 && 1 ≤ field b 19 1 && field b 19 1 ≤ 4 && 1 ≤ field b 13 1 &&
    field b 13 1 ≤ field b 19 1 && 1 ≤ field b 20 2 && field b 20 2 ≤ 4096 && field b 22 1 ≤ 1 && allZero b 23 1 && allZero b 28 4 &&
    allZero b 112 16

/-- The version record of a version (R116, R236). -/
def versionBytes (v : Version) : List Byte :=
  leBytes 4 v.ver ++ leBytes 4 v.ns ++ leBytes 4 v.idx ++ leBytes 1 v.width ++ leBytes 1 v.assign ++ leBytes 2 0 ++
    leBytes 1 v.metric ++ leBytes 1 v.codeFmt ++ leBytes 1 v.scaleFmt ++ leBytes 1 v.assignLimit ++ leBytes 2 v.dim ++
    leBytes 1 (if v.reduced then 1 else 0) ++ [0] ++ leBytes 4 v.normEst.toNat ++ leBytes 4 0 ++ slice v.image 0 64 ++
    leBytes 8 v.created ++ leBytes 8 v.switchEpoch ++ leBytes 16 0

/-- The state with a new version: its one projection generation, seeded where the index has no CURRENT version or that version holds no vector
and fitted to the CURRENT version otherwise, the records it has to take in, and a first list in every shard this module homes (R236, R536). -/
def State.createVersion (s : State) (v : Version) : State :=
  let num := s.freeGen v.ns v.idx
  let seeded := match s.currentOf v.ns v.idx with
    | some c => !s.versionHolds c
    | none => true
  let p := if seeded then (s, ({ num, seeded := true, activeFrom := v.created } : Gen)) else s.fitGen num v.width v.dim v.created
  let v := { v with gens := [p.2], toBuild := if (p.1.currentOf v.ns v.idx).isSome then p.1.liveRecords v.ns v.idx else [] }
  let s := { p.1 with catalog := { p.1.catalog with versions := p.1.catalog.versions ++ [v] } }
  s.ownShards.foldl (fun s n => s.firstList v num n) s

/-- VERSION_CREATE (R236 to R238, R536). -/
def execVersionCreate (cmd : AdminCmd) (s : State) : Host.Outcome State Fault Refusal :=
  .next (s.adminCommand cmd 0x30 0 true false fun s r =>
    let b := adminInput cmd
    let v := parseVersion b s.epochs.open_
    let held := s.catalog.versions.filter fun x => x.ns = v.ns && x.idx = v.idx
    if !versionFormOk b then s.adminDone r 2 [] []
    else match s.ownerFail cmd.fn v.ns (some v.idx), s.idxAt v.ns v.idx s.epochs.open_ with
      | some c, _ => s.adminDone r c [] []
      | none, none => s.adminDone r 0x204 [] []
      | none, some i =>
        if held.any fun x => x.ver = v.ver then s.adminDone r 2 [] []
        else if i.width ≠ v.width || i.metric ≠ v.metric || i.dim ≠ v.dim then s.adminDone r 0x208 [] []
        else if held.length ≥ 3 || held.any fun x => x.state == .building || x.state == .ready then s.adminDone r 0x200 [] []
        else match s.imageByDigest v.image with
          | none => s.adminDone r 0x109 [] []
          | some (_, img) =>
            if (match img.encoder with
              | some m => decide (m.outDim ≠ v.dim)
              | none => false) then s.adminDone r 0x201 [] []
            else (s.createVersion v).adminDone r 0 [] [])

/-! ## The build (R238) -/

/-- A version as the build takes one record of the CURRENT version into it: the record's entries, sketched under the version's first
generation, with its insert epoch (R238). -/
def State.buildRecord (s : State) (ns idx ver : Nat) (rec : Nat) : State :=
  match s.versionOf ns idx ver, s.corpus.records.get rec with
  | some v, some r =>
    if r.delete.isSome || !(s.entriesOf v rec).isEmpty then s
    else
      let x := restoreVector r.stored
      let e := s.epochs.open_
      let shard := s.shardOfKey r.key
      let i := { s.makeItem v e rec r.key r.attr x with insert := r.insert }
      (s.nearestLists v shard x).foldl (fun s h => s.appendEntry h e i) (s.noteNans (s.nansUnder v (s.gensFor v shard e) x))
  | _, _ => s

/-- Square of an fp32 value times 2^298. -/
def squareScaled (x : F32) : Nat := match f32Val x with
  | .fin _ m e => m * m * 2 ^ (2 * e + 298).toNat
  | _ => 0

/-- The records of a version homed here that are visible at an epoch, each with its entry, once. The version is still being built, and no
view of its segments has been read: an entry counts by its own epochs, whichever epoch its segment was opened in (R19, R116). -/
def State.visibleRecords (s : State) (v : Version) (e : Nat) : List Item :=
  let all := (s.versionLists v).flatMap fun kl =>
    let view := (kl.2.segs.filter fun kg => kg.2.validUntil.isNone).map (·.1)
    view.flatMap fun k => match segOf kl.2 k with
      | some g => ((List.range g.items.length).zip g.items).filterMap fun p =>
          if existsAt p.2.insert (deleteEpoch kl.2 view g.segIndex p.1) e then some p.2 else none
      | none => []
  all.foldl (fun acc i => if acc.any fun j => j.record = i.record then acc else acc ++ [i]) []

/-- NORM_EST: the root of the mean of ‖v̂‖² over all homes, rounded once; 1.0 where count or sum is 0 (R116). -/
def State.normEst (s : State) (v : Version) (reports : List BuildReport) : F32 :=
  let own := s.visibleRecords v s.usableClosed
  let ownSum := ((own.map fun i => ((s.vhat v i).map squareScaled).sum)).sum
  let total := reports.foldl (fun (a : Nat × Nat) r =>
    let p := scaleUp r.sumNum r.sumExp
    (a.1 * p.2 + p.1 * a.2, a.2 * p.2)) (ownSum, 2 ^ 298)
  let count := own.length + (reports.map (·.count)).sum
  if count = 0 || total.1 = 0 then 0x3F800000 else f32Mk false (sqrtMag total.1 (total.2 * count))

/-- Homes of the composition's item shards other than this module. -/
def State.otherHomes (s : State) : List Nat :=
  match s.lastMap with
  | some m => ((m.shards.map (·.home)).filter fun h => h ≠ s.mgmt.moduleId).eraseDups
  | none => []

/-- Bytes of HBM that the entries of a build take at most: sketches, stamps, keys and reduced copies (R251). -/
def buildBytes (v : Version) : Nat :=
  v.toBuild.length * v.assign * ((widthBits v.width / 64 + 1) * 8 + 16 + (if v.reduced && v.metric ≠ 3 then redRec v.dim else 0))

/-- VERSION_BUILD_COMPLETE: this home's build ends, once HBM has room for it and shedding does not suspend it; READY once every home has
reported (R116, R232, R236 to R238, R251). -/
def execVersionBuildComplete (ns idx ver : Nat) (reports : List BuildReport) (s : State) : Host.Outcome State Fault Refusal :=
  .next (match s.versionOf ns idx ver with
    | none => s
    | some v =>
      if !(v.state == .building) || !s.maintRuns || s.tierRoom 0 true < buildBytes v then s
      else
        let s := v.toBuild.foldl (fun s r => s.buildRecord ns idx ver r) s
        let homes := reports.map (·.home)
        let s := s.updVersion ns idx ver fun v => { v with toBuild := [], homesReady := homes }
        if s.otherHomes.all homes.contains then
          let n := s.normEst v (reports.filter fun r => s.otherHomes.contains r.home)
          s.updVersion ns idx ver fun v =>
            let v := { v with state := .ready, normEst := n }
            { v with digest := shake256 ((versionBytes v).take 104) 64 }
        else s)

/-- State code of VERSION_INFO (R400). -/
def vstateCode : VState → Nat
  | .building => 0
  | .ready => 1
  | .current => 2
  | .draining => 3

/-- VERSION_INFO (R400, R401). -/
def execVersionInfo (cmd : AdminCmd) (s : State) : Host.Outcome State Fault Refusal :=
  .next (s.adminCommand cmd 0x32 12 true false fun s r =>
    let ns := field cmd.entry 48 4
    let idx := field cmd.entry 52 4
    match s.ownerFail cmd.fn ns (some idx) with
    | some c => s.adminDone r c [] []
    | none => match s.versionOf ns idx (field cmd.entry 56 4) with
      | none => s.adminDone r 0x20A [] []
      | some v => s.adminDone r 0 (versionBytes v) (leBytes 1 (vstateCode v.state)))

/-- As F opens the new version becomes CURRENT and the one before it DRAINING (R237, R239). -/
def State.openVersions (s : State) : State :=
  let e := s.epochs.open_
  let due := s.catalog.versions.filter fun v => v.state == .ready && v.switchEpoch ≠ 0 && decide (v.switchEpoch ≤ e)
  let s := due.foldl (fun s v =>
    let f (x : Version) : Version :=
      if x.ns = v.ns && x.idx = v.idx then
        if x.ver = v.ver then { x with state := .current }
        else if x.state == .current then { x with state := .draining, endEpoch := some v.switchEpoch } else x
      else x
    { s with catalog := { s.catalog with versions := s.catalog.versions.map f } }) s
  { s with epochs := { s.epochs with switches := s.epochs.switches.filter fun t => decide (t.2.2.2 > e) } }

/-- Does an admitted query hold a snapshot below F on a version (R239)? -/
def State.versionHeld (s : State) (v : Version) (f : Nat) : Bool :=
  (s.pipe.queries.any fun kq => kq.2.fields.ns = v.ns && kq.2.fields.idx = v.idx && kq.2.version = v.ver && (match kq.2.snapshot with
    | some n => decide (n < f)
    | none => false)) ||
    (s.exchange.qctx.any fun kc => kc.2.ns = v.ns && kc.2.idx = v.idx && kc.2.version = v.ver && decide (kc.2.snapshot < f)) ||
    s.pipe.batches.any fun kb => kb.2.ns = v.ns && kb.2.idx = v.idx && kb.2.version = v.ver

/-- Every edge to some entries that are to be freed is rewritten: it is unused from now on (R112, R538). -/
def State.dropEdges (s : State) (lists : List Nat) : State :=
  { s with corpus := { s.corpus with dir := s.corpus.dir.mapVals fun e => { e with edges := e.edges.filter fun t => !lists.contains t.1 } } }

/-- VERSION_FREE: a DRAINING version that no admitted query reads is gone, with its lists and directory entries, once each of these may be
freed in the running sweep period (R112, R235, R237, R239). -/
def execVersionFree (ns idx ver : Nat) (s : State) : Host.Outcome State Fault Refusal :=
  .next (match s.versionOf ns idx ver with
    | none => s
    | some v =>
      let f := v.endEpoch.getD 0
      let mine := (s.corpus.dir.filter fun kv => kv.2.state ≠ 0 && kv.2.ns = ns && kv.2.idx = idx && kv.2.version = ver).map (·.1)
      let spent := mine.any fun k => (s.corpus.dir.get k).any fun e => e.frees ≥ 255
      if !(v.state == .draining) || s.usableClosed < f || s.versionHeld v f || spent then s
      else
        let s := (s.versionLists v).foldl (fun s kl => s.dropList kl.1) s
        let s := mine.foldl (fun s k => s.freeEntry k) (s.dropEdges mine)
        { s with
          catalog := { s.catalog with versions := s.catalog.versions.filter fun x => !(x.ns = ns && x.idx = idx && x.ver = ver) }
          maint := { s.maint with
            reorgs := s.maint.reorgs.filter fun g => !g.sources.any mine.contains
            dirChanges := s.maint.dirChanges.filter fun c => !mine.contains c.list
            projections := s.maint.projections.keep fun _ p => !(p.ns = ns && p.idx = idx && p.ver = ver) } })

/-- This home's records of a deleted index go, with their units, and it reports that (R235). -/
def State.discardIndex (s : State) (ns idx : Nat) : State :=
  let gone := s.corpus.records.filter fun kr => kr.2.ns = ns && kr.2.idx = idx
  let s := s.discardUnits (gone.flatMap fun kr => kr.2.units).eraseDups
  let s := { s with
    corpus := { s.corpus with
      records := s.corpus.records.keep fun _ r => !(r.ns = ns && r.idx = idx)
      keys := s.corpus.keys.keep fun k _ => k / 2 ^ 64 ≠ ns * 2 ^ 32 + idx }
    catalog := { s.catalog with
      indices := replaceFirst (fun x => x.ns = ns && x.idx = idx && !x.discarded) (fun x => { x with reported := true }) s.catalog.indices } }
  s.emit (.report 3 [ns, idx, gone.length])

/-- INDEX_DATA_DISCARD: a deleted index that holds no version loses its stored data, and this home reports it; its ID is free once every home
has (R235). `homes` are those whose reports have reached the leader. -/
def execIndexDataDiscard (index : IndexName) (homes : List Nat) (s : State) : Host.Outcome State Fault Refusal :=
  .next (match s.catalog.indices.find? fun i => i.ns = index.ns && i.idx = index.idx && i.deleted.isSome && !i.discarded with
    | none => s
    | some i =>
      let f := i.deleted.getD 0
      if s.epochs.open_ < f || s.snapBelow f || (s.catalog.versions.any fun v => v.ns = index.ns && v.idx = index.idx) then s
      else
        let s := if i.reported then s else s.discardIndex index.ns index.idx
        if !s.otherHomes.all homes.contains then s
        else { s with catalog := { s.catalog with
          indices := replaceFirst (fun x => x.ns = index.ns && x.idx = index.idx && !x.discarded) (fun x => { x with discarded := true }) s.catalog.indices } })

end Sys2Proof.Machine
end

