-- ==== Sys2Proof/Machine/Transfer.lean ====
section
/-! DEFINITION. The content that modules hand one another in TRANSFER items: shard copies (R359), feature rows (R365), request state
(R369). The spec gives these contents no layout; the ones here are the model's own (log 40). -/
namespace Sys2Proof.Machine

/-! ## Reading -/

/-- Take a little-endian number off the front. -/
def takeNat (n : Nat) (b : List Byte) : Nat × List Byte := (field b 0 n, b.drop n)

/-- Take bytes off the front. -/
def takeBytes (n : Nat) (b : List Byte) : List Byte × List Byte := (b.take n, b.drop n)

/-- Take `n` things off the front. -/
def takeMany {α : Type} (f : List Byte → α × List Byte) : Nat → List Byte → List α × List Byte
  | 0, b => ([], b)
  | n + 1, b =>
    let x := f b
    let rest := takeMany f n x.2
    (x.1 :: rest.1, rest.2)

/-- An optional epoch: all ones for none. -/
def optEpoch : Option Nat → List Byte
  | some e => leBytes 8 e
  | none => leBytes 8 0xFFFFFFFFFFFFFFFF

/-- Read an optional epoch. -/
def readEpoch (n : Nat) : Option Nat := if n = 0xFFFFFFFFFFFFFFFF then none else some n

/-! ## Shard copies -/

/-- An entry. -/
def itemCopy (i : Item) : List Byte :=
  leBytes 8 i.key ++ leBytes 8 i.attr ++ leBytes 8 i.insert ++ leBytes 8 i.record ++ leBytes 128 i.sketch ++
    leBytes 4 i.codes.length ++ leBytes 4 i.scales.length ++ leBytes 4 i.reduced.length ++ i.codes ++ i.scales ++ i.reduced

/-- Read an entry. -/
def readItem (b : List Byte) : Item × List Byte :=
  let nc := field b 160 4
  let ns := field b 164 4
  let nr := field b 168 4
  let r := b.drop 172
  ({ key := field b 0 8, attr := field b 8 8, insert := field b 16 8, record := field b 24 8, sketch := field b 32 128
     codes := r.take nc, scales := (r.drop nc).take ns, reduced := (r.drop (nc + ns)).take nr }, r.drop (nc + ns + nr))

/-- A delete mark. -/
def markCopy (m : Mark) : List Byte := leBytes 4 m.seg ++ leBytes 4 m.slot ++ leBytes 8 m.epoch

/-- Read a delete mark. -/
def readMark (b : List Byte) : Mark × List Byte := (⟨field b 0 4, field b 4 4, field b 8 8⟩, b.drop 16)

/-- A segment. -/
def segmentCopy (g : Segment) : List Byte :=
  leBytes 2 g.segIndex ++ leBytes 1 (if g.isBase then 1 else 0) ++ leBytes 1 g.gen ++ leBytes 8 g.validFrom ++ optEpoch g.validUntil ++
    leBytes 4 g.items.length ++ leBytes 4 g.marks.length ++ g.items.flatMap itemCopy ++ g.marks.flatMap markCopy

/-- Read a segment. -/
def readSegment (b : List Byte) : Segment × List Byte :=
  let items := takeMany readItem (field b 20 4) (b.drop 28)
  let marks := takeMany readMark (field b 24 4) items.2
  ({ segIndex := field b 0 2, isBase := bit (field b 2 1) 0, gen := field b 3 1, items := items.1, marks := marks.1
     validFrom := field b 4 8, validUntil := readEpoch (field b 12 8) }, marks.2)

/-- A list with its segments. -/
def listCopy (l : ListData) : List Byte :=
  leBytes 4 l.ns ++ leBytes 4 l.idx ++ leBytes 4 l.version ++ leBytes 4 l.listId ++ leBytes 2 l.shard ++
    leBytes 2 (if l.retired then 1 else 0) ++ leBytes 4 l.segs.length ++ l.segs.flatMap fun kg => segmentCopy kg.2

/-- Read a list; its segments are numbered from 1. -/
def readList (b : List Byte) : ListData × List Byte :=
  let n := field b 20 4
  let gs := takeMany readSegment n (b.drop 24)
  let segs : Table Segment := ((List.range n).map (· + 1)).zip gs.1
  ({ ns := field b 0 4, idx := field b 4 4, version := field b 8 4, listId := field b 12 4, shard := field b 16 2
     retired := bit (field b 18 2) 0, segs }, gs.2)

/-- A record with its number at the source. -/
def recCopy (kr : Nat × Rec) : List Byte :=
  leBytes 8 kr.1 ++ leBytes 4 kr.2.ns ++ leBytes 4 kr.2.idx ++ leBytes 8 kr.2.key ++ leBytes 8 kr.2.attr ++ leBytes 8 kr.2.insert ++
    optEpoch kr.2.delete ++ leBytes 4 kr.2.stored.length ++ leBytes 4 kr.2.payload.length ++ kr.2.stored ++ kr.2.payload

/-- Read a record. -/
def readRec (b : List Byte) : (Nat × Rec) × List Byte :=
  let n := field b 48 4
  let m := field b 52 4
  let r := b.drop 56
  ((field b 0 8, { ns := field b 8 4, idx := field b 12 4, key := field b 16 8, attr := field b 24 8, insert := field b 32 8
                   delete := readEpoch (field b 40 8), stored := r.take n, payload := (r.drop n).take m }), r.drop (n + m))

/-- Everything of an item shard (R359 steps 2, 3 and 5); `tail` marks the last copy. -/
def State.shardCopy (s : State) (shard : Nat) (tail : Bool) : List Byte :=
  let recs := s.corpus.records.filter fun kr => s.shardOfKey kr.2.key = shard
  let lists := s.corpus.lists.filter fun kl => kl.2.shard = shard
  leBytes 4 shard ++ leBytes 4 (if tail then 1 else 0) ++ leBytes 4 recs.length ++ leBytes 4 lists.length ++ recs.flatMap recCopy ++
    lists.flatMap fun kl => listCopy kl.2

/-- A copied record takes a number here: that of an earlier copy of it, or the next. -/
def State.adoptRec (s : State) (r : Rec) : State × Nat :=
  let same (kr : Nat × Rec) : Bool := kr.2.ns = r.ns && kr.2.idx = r.idx && kr.2.key = r.key && kr.2.insert = r.insert
  let n := match s.corpus.records.find? same with
    | some kr => kr.1
    | none => s.corpus.nextRec
  let (s, r) := s.storeRec r (match s.corpus.records.get n with
    | some o => o.units
    | none => [])
  let keys := if r.delete.isNone then s.corpus.keys.set (keyCode r.ns r.idx r.key) (some n) else s.corpus.keys
  ({ s with corpus := { s.corpus with records := s.corpus.records.set n r, nextRec := max s.corpus.nextRec (n + 1), keys } }, n)

/-- A copied list replaces an earlier copy of it; its entries name the records by their numbers here. -/
def State.adoptList (s : State) (ids : List (Nat × Nat)) (l : ListData) : State :=
  match s.versionOf l.ns l.idx l.version with
  | none => s
  | some v =>
    let old := (s.corpus.lists.filter fun kl => kl.2.ns = l.ns && kl.2.idx = l.idx && kl.2.version = l.version && kl.2.listId = l.listId &&
      kl.2.shard = l.shard && kl.2.retired == l.retired).map (·.1)
    let s := old.foldl (fun s h => s.dropList h) s
    let own (r : Nat) : Nat := ((ids.find? fun p => p.1 = r).map (·.2)).getD r
    let (s, h) := s.newList { l with segs := [] } 1
    let s := l.segs.foldl (fun s kg =>
      let g := { kg.2 with items := kg.2.items.map fun i => { i with record := own i.record } }
      let (s, g) := s.segObjects h l.listId v g
      let n := s.corpus.nextSeg
      let s := { s with corpus := { s.corpus with nextSeg := n + 1 } }
      match s.list h with
      | some l => s.setList h { l with segs := Table.set l.segs n g }
      | none => s) s
    let mine := s.homeNow l.shard
    let reach (e : DirEntry) : DirEntry :=
      if e.state = 1 && e.shard = l.shard && mine.1 = s.mgmt.moduleId && !l.retired then { e with home := s.mgmt.moduleId, handle := h } else e
    { s with corpus := { s.corpus with dir := s.corpus.dir.alter l.listId reach } }

/-- A shard copy is complete at the destination (R359). Answers the shard and whether it was the last tail. -/
def State.installShard (s : State) (b : List Byte) : State × Nat × Bool :=
  let recs := takeMany readRec (field b 8 4) (b.drop 16)
  let lists := takeMany readList (field b 12 4) recs.2
  let a := recs.1.foldl (fun (a : State × List (Nat × Nat)) kr =>
    let r := a.1.adoptRec kr.2
    (r.1, (kr.1, r.2) :: a.2)) (s, [])
  (lists.1.foldl (fun s l => s.adoptList a.2 l) a.1, field b 0 4, bit (field b 4 4) 0)

/-! ## Feature rows -/

/-- A row: the table's number, index, version, value. -/
def rowCopy (t row version : Nat) (value : List Byte) : List Byte :=
  leBytes 8 t ++ leBytes 8 row ++ leBytes 8 version ++ leBytes 8 value.length ++ value

/-- Read a row. -/
def readRow (b : List Byte) : (Nat × Nat × Nat × List Byte) × List Byte :=
  let n := field b 24 8
  ((field b 0 8, field b 8 8, field b 16 8, (b.drop 32).take n), b.drop (32 + n))

/-- Rows for a holder (`move` 0), or of a feature shard that moves: a round (1) or the last tail (2). -/
def rowsContent (move shard : Nat) (rows : List (List Byte)) : List Byte :=
  leBytes 4 move ++ leBytes 4 shard ++ leBytes 4 rows.length ++ leBytes 4 0 ++ rows.flatten

/-- Rows of a feature shard as they stand: readable values, then those of epochs not yet closed. -/
def State.featCopy (s : State) (shard : Nat) (tail : Bool) : List Byte :=
  let mine := s.exchange.rows.filter fun kr => s.featShard (kr.1 / 2 ^ 40) (kr.1 % 2 ^ 40) = some shard
  rowsContent (if tail then 2 else 1) shard (mine.flatMap fun kr =>
    rowCopy (kr.1 / 2 ^ 40) (kr.1 % 2 ^ 40) kr.2.version kr.2.value ::
      kr.2.next.map fun v => rowCopy (kr.1 / 2 ^ 40) (kr.1 % 2 ^ 40) v.2 v.1)

/-- Bytes of the FEATURE_REPLICA object: the replicas held here. -/
def replicaBytes (rs : List Replica) : Nat := (rs.map fun r => r.value.length).sum

/-- Keep replicas within REPLICA_STORE, dropping those read longest ago first (R365). -/
def keepReplicas (room : Nat) (rs : List Replica) : List Replica :=
  let byRead := sortBy (fun a b => decide (a.readAt > b.readAt)) rs
  (byRead.foldl (fun (a : List Replica × Nat) r =>
    if a.2 + r.value.length ≤ room then (r :: a.1, a.2 + r.value.length) else a) ([], 0)).1.reverse

/-- Take copied rows in: replicas of a home's hot rows (R365), or rows of a shard that moves here (R359). -/
def State.installRows (s : State) (src : Nat) (b : List Byte) : State :=
  let rows := (takeMany readRow (field b 8 4) (b.drop 16)).1
  if field b 0 4 = 0 then
    let new : List Replica := rows.map fun r => { table := r.1, row := r.2.1, peer := src, value := r.2.2.2, version := r.2.2.1, readAt := s.time }
    let kept := s.exchange.replicasIn.filter fun r => !(new.any fun y => y.table = r.table && y.row = r.row)
    ({ s with exchange := { s.exchange with replicasIn := keepReplicas (s.setting 0x2B00 7 4096 * 1048576) (kept ++ new) } } : State).syncReplicas
  else
    rows.foldl (fun s r =>
      let k := rowKey r.1 r.2.1
      let old := s.exchange.rows.get k
      let row : FeatRow := match old with
        | some o => if o.version = r.2.2.1 || o.next.any fun v => v.2 = r.2.2.1 then o else { o with next := o.next ++ [(r.2.2.2, r.2.2.1)] }
        | none => { value := r.2.2.2, version := r.2.2.1 }
      { s with exchange := { s.exchange with rows := s.exchange.rows.set k row } }) (s.needShard (field b 4 4))

/-! ## Request state (R369) -/

/-- A chosen list as far as its partial result has come. -/
def chosenCopy (c : ChosenList) : List Byte :=
  leBytes 4 c.list ++ leBytes 4 c.items ++ leBytes 1 (match c.state with
    | .open => 0
    | .reached => 1
    | .notReached => 2) ++ leBytes 1 (if c.reserved then 1 else 0) ++ leBytes 2 (match c.last with
    | some n => n
    | none => 0xFFFF) ++ leBytes 4 c.total ++ leBytes 2 c.pieces.length ++ leBytes 2 0 ++
    c.pieces.flatMap fun p => leBytes 2 p.1 ++ leBytes 2 p.2.length ++ leBytes 4 0 ++ p.2.flatMap entryBytes

/-- Read an entry. -/
def readEntry (b : List Byte) : Entry × List Byte := (⟨field b 0 8, BitVec.ofNat 32 (field b 8 4), field b 12 2, field b 14 2⟩, b.drop 16)

/-- Read a piece. -/
def readPiece (b : List Byte) : (Nat × List Entry) × List Byte :=
  let es := takeMany readEntry (field b 2 2) (b.drop 8)
  ((field b 0 2, es.1), es.2)

/-- Read a chosen list. -/
def readChosen (b : List Byte) : ChosenList × List Byte :=
  let ps := takeMany readPiece (field b 16 2) (b.drop 20)
  ({ list := field b 0 4, items := field b 4 4
     state := if field b 8 1 = 1 then .reached else if field b 8 1 = 2 then .notReached else .open
     reserved := bit (field b 9 1) 0, last := if field b 10 2 = 0xFFFF then none else some (field b 10 2), total := field b 12 4
     pieces := ps.1 }, ps.2)

/-- The merge state of a query: what its successor needs to go on merging and to complete it. -/
def State.queryState (s : State) (handle : Nat) (x : Query) : List Byte :=
  let es := (ctxOutput x.ctx).1
  leBytes 8 handle ++ leBytes 2 x.tenant ++ leBytes 2 ((if x.gig then 1 else 0) + (if x.dataLoss then 2 else 0) + if x.frozen then 4 else 0) ++
    leBytes 4 x.reasons ++ leBytes 4 x.fields.k ++ leBytes 4 x.r ++ leBytes 4 x.s ++ leBytes 4 x.nprobe ++ leBytes 4 x.fields.ns ++
    leBytes 4 x.fields.idx ++ leBytes 4 x.version ++ leBytes 8 (x.snapshot.getD 0) ++ leBytes 8 (x.deadlineAt - s.time) ++
    leBytes 4 x.merged ++ leBytes 4 x.ctx.kSel ++ leBytes 4 x.scoreMargin ++ leBytes 4 x.vector.length ++ leBytes 4 x.chosen.length ++
    leBytes 4 es.length ++ leBytes 4 x.peers.length ++ (x.vector.flatMap fun e => leBytes 4 e.toNat) ++ x.chosen.flatMap chosenCopy ++
    es.flatMap entryBytes ++ x.peers.flatMap (leBytes 2)

/-- Read a query's merge state; it goes on at the successor as a query of its own without a submission entry. -/
def State.readQuery (s : State) (b : List Byte) (q g slot : Nat) : Query × List Entry :=
  let nv := field b 72 4
  let vec := takeMany (fun b => (BitVec.ofNat 32 (field b 0 4), b.drop 4)) nv (b.drop 88)
  let cs := takeMany readChosen (field b 76 4) vec.2
  let es := takeMany readEntry (field b 80 4) cs.2
  let ps := takeMany (takeNat 2) (field b 84 4) es.2
  let f : QueryFields := { ns := field b 32 4, idx := field b 36 4, version := field b 40 4, tokens := false, fmt := 0, len := nv, input := []
                           k := field b 16 4, nprobe := field b 28 4, r := some (field b 20 4), s := some (field b 24 4), deadlineUs := 0
                           urgent := false, minEpoch := 0, inTerms := [], postTerms := [], tag := 0, resultAddr := 0 }
  let flags := field b 10 2
  ({ fn := 0, pair := 0, sqIndex := 0, basic := false, fields := f, tenant := field b 8 2, phase := .searching, seq := q, arrivedAt := s.time
     admittedAt := s.time, deadlineAt := s.time + field b 52 8, g, slot, snapshot := some (field b 44 8), version := field b 40 4
     nprobe := field b 28 4, r := field b 20 4, s := field b 24 4, gig := bit flags 0, dataLoss := bit flags 1, frozen := bit flags 2
     scoreMargin := field b 68 4, vector := vec.1, routed := true, chosen := cs.1, reasons := field b 12 4, merged := field b 60 4
     ctx := { kSel := field b 64 4 }
     peers := ps.1, adopted := some (field b 0 8) }, es.1)

end Sys2Proof.Machine
end

