-- ==== Sys2Proof/Machine/MapOps.lean ====
section
/-! DEFINITION. Composition maps and what their installation moves (R352 to R359, R369, R372, R373): reading a map, the catalog it carries, shards
that change home, queries handed to a drain's successor. -/
namespace Sys2Proof.Machine

/-! ## Leaders (R352) -/

/-- Leader candidates of the sealed descriptor, in rank order. -/
def State.leaderList (s : State) : List Nat :=
  let d := s.dict.domains.getD (objKey 0x2E0A 1) []
  ((List.range 8).map fun i => field d (24 + 2 * i) 2).filter fun m => m ≠ 0xFFFF

/-- A module's rank among the candidates. -/
def State.rankOf (s : State) (module : Nat) : Option Nat := s.leaderList.findIdx? fun m => m = module

/-- Is this module the leader: its own outside a composition (R205)? -/
def State.leads (s : State) : Bool := !s.mgmt.sealed_ || s.epochs.leading

/-! ## Reading a map (R354) -/

/-- A shard entry. -/
def readShard (b : List Byte) : ShardEntry × List Byte := ({ home := bits (field b 0 4) 11 0, state := bits (field b 0 4) 13 12 }, b.drop 4)

/-- A namespace record (R233). -/
def readNs (b : List Byte) : Namespace × List Byte := ({ ns := field b 0 4, owner := field b 4 2, created := field b 8 8 }, b.drop 16)

/-- An index record (R233). -/
def readIdx (b : List Byte) : IndexRec × List Byte :=
  ({ ns := field b 0 4, idx := field b 4 4, metric := field b 8 1, width := field b 9 1, dim := field b 10 2, created := field b 16 8
     deleted := if field b 24 8 = 0 then none else some (field b 24 8) }, b.drop 32)

/-- A grant record (R186). -/
def readGrant (b : List Byte) : Grant × List Byte :=
  ({ ns := field b 0 4, grantee := field b 4 2, groups := field b 8 4, from_ := field b 16 8, until_ := readEpoch (field b 24 8) }, b.drop 32)

/-- A code group: ten module IDs. -/
def readGroup (b : List Byte) : List Nat × List Byte := ((List.range 10).map fun i => field b (2 * i) 2, b.drop 20)

/-- A map from its content. -/
def readMap (b : List Byte) : CompMap :=
  let n := field b 16 2
  let f := field b 18 4
  let shards := takeMany readShard n (b.drop 128)
  let feats := takeMany readShard f shards.2
  let groups := takeMany readGroup n feats.2
  let nss := takeMany readNs (field b 56 2) groups.2
  let idxs := takeMany readIdx (field b 58 2) nss.2
  let grants := takeMany readGrant (field b 60 4) idxs.2
  let drain := (List.range (min 8 (field b 22 2))).map fun i => (bits (field b (24 + 4 * i) 4) 11 0, bits (field b (24 + 4 * i) 4) 23 12)
  { epoch := field b 0 8, prev := field b 8 8, shards := List.zipWith (fun e g => { e with group := g }) shards.1 groups.1
    features := feats.1, drain, namespaces := nss.1, indices := idxs.1, grants := grants.1 }

/-- Bytes that a map's header announces. -/
def mapLength (b : List Byte) : Nat :=
  128 + 24 * field b 16 2 + 4 * field b 18 4 + 16 * field b 56 2 + 32 * field b 58 2 + 32 * field b 60 4

/-- Is a content a map: whole, with its counts in range (R354)? -/
def mapOk (b : List Byte) : Bool :=
  b.length = mapLength b && 1 ≤ field b 16 2 && field b 18 4 ≤ 1048576 && field b 22 2 ≤ 8 && field b 56 2 ≤ 4096 && field b 58 2 ≤ 16384 &&
    field b 60 4 ≤ 1048576

/-! ## Code spread (R373) -/

/-- Rack of a module in the descriptor. -/
def State.rackOf (s : State) (module : Nat) : Nat :=
  let d := s.dict.domains.getD (objKey 0x2E0A 1) []
  match (List.range 4096).find? fun i => bits (field d (64 + 4 * i) 4) 11 0 = module && bit (field d (64 + 4 * i) 4) 31 with
  | some i => bits (field d (64 + 4 * i) 4) 23 12
  | none => 0

/-- The most equal values in a list. -/
def mostEqual (xs : List Nat) : Nat := ((xs.eraseDups).map fun x => (xs.filter (· = x)).length).foldl max 0

/-- CODE_SPREAD of a map: most fragments of a stripe on one module, and in one rack. -/
def State.spreadOf (s : State) (m : CompMap) : Nat :=
  let gs := m.shards.map fun e => e.group.filter (· ≠ 0xFFFF)
  (gs.map mostEqual).foldl max 0 + 256 * (gs.map fun g => mostEqual (g.map s.rackOf)).foldl max 0

/-- The leader publishes the worst spread of the map in force; a change writes one STATE record. -/
def State.publishSpread (s : State) (m : CompMap) : State :=
  let v := s.spreadOf m
  if !s.leads || v = s.exchange.spread then s
  else ({ s with exchange := { s.exchange with spread := v } } : State).logState 0x2B00 0xB unitModule s.exchange.spread v

/-! ## The catalog of a map -/

/-- The catalog changes that a map brings (R186, R234, R354): what it adds, what it ends. -/
def State.mapChanges (s : State) (m : CompMap) : List CatalogChange :=
  let k := s.catalog
  let newNs := m.namespaces.filter fun n => !(k.namespaces.any fun x => x.ns = n.ns && x.created = n.created)
  let goneNs := k.namespaces.filter fun x => x.deleted.isNone && !(m.namespaces.any fun n => n.ns = x.ns)
  let newIdx := m.indices.filter fun i => !(k.indices.any fun x => x.ns = i.ns && x.idx = i.idx && x.created = i.created)
  let goneIdx := k.indices.filter fun x => x.deleted.isNone && (m.indices.any fun i => i.ns = x.ns && i.idx = x.idx && i.deleted.isSome)
  let newG := m.grants.filter fun g => !(k.grants.any fun x => x.ns = g.ns && x.grantee = g.grantee && x.from_ = g.from_)
  let goneG := k.grants.filter fun x => x.until_.isNone && (m.grants.any fun g => g.ns = x.ns && g.grantee = x.grantee && g.from_ = x.from_ && g.until_.isSome)
  newNs.map .nsCreate ++ newIdx.map .idxCreate ++ newG.map .grantCreate ++ (goneG.map fun g => .grantRevoke g.ns g.grantee) ++
    (goneIdx.map fun i => .idxDelete i.ns i.idx) ++ goneNs.map fun n => .nsDelete n.ns

/-- Are two catalog changes the same, their epochs apart? -/
def sameChange : CatalogChange → CatalogChange → Bool
  | .nsCreate a, .nsCreate b => a.ns = b.ns
  | .nsDelete a, .nsDelete b => a = b
  | .idxCreate a, .idxCreate b => a.ns = b.ns && a.idx = b.idx
  | .idxDelete a b, .idxDelete c d => a = c && b = d
  | .grantCreate a, .grantCreate b => a.ns = b.ns && a.grantee = b.grantee
  | .grantRevoke a b, .grantRevoke c d => a = c && b = d
  | _, _ => false

/-- The forwarded changes that a map brings complete their commands with its epoch (R186, R234). -/
def State.completeForwarded (s : State) (f : Nat) (changes : List CatalogChange) : State :=
  let done := s.catalog.forwarded.filter fun p => changes.any (sameChange p.change)
  let s := { s with catalog := { s.catalog with forwarded := s.catalog.forwarded.filter fun p => !(changes.any (sameChange p.change)) } }
  done.foldl (fun s p => match p.cmd with
    | some r => s.adminDone r 0 [] (leBytes 8 f)
    | none => s) s

/-! ## Shards that change home (R356, R359) -/

/-- The home of a shard under a map. -/
def homeUnder (m : Option CompMap) (feature : Bool) (shard : Nat) : Option Nat :=
  (m.bind fun m => (if feature then m.features else m.shards)[shard]?).map (·.home)

/-- Directory entries of a shard name its new home (R107, R356). -/
def State.rehome (s : State) (shard home : Nat) : State :=
  let own := s.corpus.lists.filter fun kl => kl.2.shard = shard && !kl.2.retired
  let moved (k : Nat) (e : DirEntry) : DirEntry :=
    if e.state ≠ 1 || e.shard ≠ shard then e
    else if home = s.mgmt.moduleId then
      match own.find? fun kl => kl.2.listId = k && kl.2.ns = e.ns && kl.2.idx = e.idx && kl.2.version = e.version with
      | some kl => { e with home, handle := kl.1 }
      | none => { e with home }
    else { e with home }
  { s with corpus := { s.corpus with dir := s.corpus.dir.map fun kv => (kv.1, moved kv.1 kv.2) } }

/-- Change the move of a shard. -/
def State.updMove (s : State) (shard : Nat) (feature : Bool) (f : ShardMove → ShardMove) : State :=
  { s with exchange := { s.exchange with moves := replaceFirst (fun m => m.shard = shard && m.feature == feature) f s.exchange.moves } }

/-- Set SHADOW_STATE; a change is one event (R507, R509, R510; log 55). -/
def State.setShadow (s : State) (state : Nat) : State :=
  let s := s.logState 0x2D02 5 unitModule s.repair.shadow.state state
  { s with repair := { s.repair with shadow := { s.repair.shadow with state } } }

/-- The copy of a shadowed set is whole: the shadow phase begins (R507). -/
def State.shadowCopied (s : State) : State :=
  let sh := s.repair.shadow
  let whole (n : Nat) : Bool := s.exchange.moves.any fun m => m.shard = n && !m.feature && m.copied
  if sh.state = 1 && sh.shards.all whole then
    ({ s with repair := { s.repair with shadow := { sh with since := s.time } } } : State).setShadow 2
  else s

/-- A promoted set has moved: shadowing is over (R509). -/
def State.shadowTidy (s : State) : State :=
  let sh := s.repair.shadow
  if sh.state ≥ 2 && !(sh.shards.any fun n => s.exchange.moves.any fun m => m.shard = n && !m.feature) then
    let s := s.setShadow 0
    { s with repair := { s.repair with shadow := {} } }
  else s

/-- The source's switch as F2 opens: the last tail goes out, and held writes of the shard follow it to the new home (R359 steps 5, 6). -/
def State.sourceSwitch (s : State) (shard : Nat) (feature : Bool) (home epoch : Nat) : State :=
  let s := if feature then s.sendTransfer home 0x0C (s.featCopy shard true) else s.sendTransfer home 0x0B (s.shardCopy shard true)
  let s := if s.exchange.moves.any fun m => m.shard = shard && m.feature == feature then s
    else { s with exchange := { s.exchange with
      moves := s.exchange.moves ++ [{ shard, feature, source := s.mgmt.moduleId, dest := home, f1 := epoch }] } }
  let s := s.updMove shard feature fun m => { m with f2 := some epoch, switched := true, dest := home }
  let mine (w : Write) : Bool := !feature && w.row.isNone && s.shardOfKey w.record.key = shard
  let ws := s.corpus.held.filter mine
  let s := { s with corpus := { s.corpus with held := s.corpus.held.filter fun w => !mine w } }
  ws.foldl (fun s w => s.sendRecord w) s

/-- The shards of a map whose home differs from the one before it. -/
def movedShards (old : Option CompMap) (m : CompMap) (feature : Bool) : List (Nat × Nat × Nat) :=
  let es := if feature then m.features else m.shards
  (List.range es.length).filterMap fun n => match homeUnder old feature n, es[n]? with
    | some a, some e => if a ≠ e.home then some (n, a, e.home) else none
    | _, _ => none

/-- One shard's home changes as its map opens. -/
def State.moveShard (s : State) (epoch : Nat) (feature : Bool) (c : Nat × Nat × Nat) : State :=
  let self := s.mgmt.moduleId
  let s := if feature then s else s.rehome c.1 c.2.2
  if c.2.1 = self then s.sourceSwitch c.1 feature c.2.2 epoch
  else if c.2.2 = self then s.updMove c.1 feature fun m => { m with holding := true, f2 := some epoch }
  else { s with exchange := { s.exchange with moves := s.exchange.moves.filter fun m => !(m.shard = c.1 && m.feature == feature) } }

/-! ## Handing queries over (R369) -/

/-- A lease message (R368). -/
def leaseMsg (op holds handle epoch expiryUs : Nat) : List Byte :=
  leBytes 1 op ++ leBytes 1 holds ++ leBytes 6 0 ++ leBytes 8 handle ++ leBytes 8 epoch ++ leBytes 4 expiryUs ++ leBytes 4 0

/-- Send a lease message. -/
def State.sendLease (s : State) (dest op holds handle epoch expiry : Nat) : State :=
  s.sendFrame dest 4 7 0 s.newestMap 0 (leaseMsg op holds handle epoch ((expiry - s.time) / cyclesPerUs)) 0

/-- Send a query's state to the successor, followed by HANDOFF. -/
def State.sendState (s : State) (l : Lease) : State := (s.sendTransfer l.peer 0x0F l.copy).sendLease l.peer 1 0 l.handle l.epoch l.expiry

/-- Hand one query to the successor of a drain. -/
def State.handOff (s : State) (q peer epoch : Nat) : State :=
  match s.query q with
  | none => s
  | some x =>
    if !(x.phase == .searching) || x.adopted.isSome || x.deadlineAt ≤ s.time + cyclesPerMs then s
    else
      let h := s.handleOf q x
      let l : Lease := { handle := h, peer, draining := true, epoch, expiry := x.deadlineAt + s.setting 0x2B00 4 1000 * cyclesPerUs
                         copy := s.queryState h x }
      let s := { s with tiers := { s.tiers with poolOrigin := s.tiers.poolOrigin - x.ctx.hbmBytes } }
      let s := s.setQuery q { x with phase := .handedOff, ctx := { kSel := x.ctx.kSel } }
      ({ s with exchange := { s.exchange with leases := s.exchange.leases ++ [l] } } : State).sendState l

/-- The draining map of this module opens: its queries go to the successor. -/
def State.drainQueries (s : State) (m : CompMap) : State :=
  match m.drain.find? fun d => d.1 = s.mgmt.moduleId with
  | some d => (s.pipe.queries.map (·.1)).foldl (fun s q => s.handOff q d.2 m.epoch) s
  | none => s

/-! ## Installing a map (R356) -/

/-- The oldest snapshot held by an admitted query, of this module or a peer's served here; the latest closed epoch without one. -/
def State.oldestSnapshot (s : State) : Nat :=
  let own := s.pipe.queries.filterMap fun kq => kq.2.snapshot
  let peers := s.exchange.qctx.map fun kc => kc.2.snapshot
  (own ++ peers).foldl min s.usableClosed

/-- Maps that are kept: the newest, and older ones that govern a held snapshot, at most 4. -/
def keepMaps (oldest : Nat) (ms : List CompMap) : List CompMap :=
  let sorted := sortBy (fun a b => decide (a.epoch > b.epoch)) ms
  let newer := (sorted.takeWhile fun m => decide (m.epoch > oldest))
  (newer ++ (sorted.drop newer.length).take 1).take 4

/-- Install a map: its catalog, its shards' homes, its drains (R354 to R359, R369, R373). -/
def State.installMap (s : State) (content : List Byte) : State :=
  let m := readMap content
  let old := s.lastMap
  if s.exchange.maps.any fun x => x.epoch ≥ m.epoch then s
  else
    let changes := s.mapChanges m
    let s := { s with exchange := { s.exchange with maps := keepMaps s.oldestSnapshot (m :: s.exchange.maps) } }
    let s := (changes.foldl (fun s c => s.applyChange m.epoch c) s).completeForwarded m.epoch changes
    let s := (movedShards old m false).foldl (fun s c => s.moveShard m.epoch false c) s
    let s := (movedShards old m true).foldl (fun s c => s.moveShard m.epoch true c) s
    (s.publishSpread m).drainQueries m

/-- The module asks each neighbour in turn for the content of a map (R356); the form of the request is not in the spec (log 41). -/
def State.askNeighbours (s : State) (epoch : Nat) : State :=
  (upTo 32 fun p => s.portUp p).foldl (fun s p => s.emit (.report 5 [epoch, (s.port p).nbrModule])) s

/-- Maps whose MAP_EPOCH has opened are installed, or counted in MAP_LATE (R356). -/
def State.openMaps (s : State) : State :=
  let e := s.epochs.open_
  let due := sortBy (fun a b => decide (a.epoch < b.epoch)) (s.exchange.notices.filter fun n => decide (n.epoch ≤ e) && !n.late)
  due.foldl (fun s n =>
    if n.content.isEmpty then
      ({ s with exchange := { s.exchange with
        notices := replaceFirst (fun x => x.epoch = n.epoch && !x.late) (fun x => { x with late := true }) s.exchange.notices } } : State).tally 0x2B10 0xA
        |>.askNeighbours n.epoch
    else
      ({ s with exchange := { s.exchange with notices := s.exchange.notices.filter fun x => x.epoch ≠ n.epoch } } : State).installMap n.content) s

/-- A MAP_NOTICE body (R356). -/
def noticeBytes (content : List Byte) : List Byte :=
  leBytes 8 (field content 0 8) ++ leBytes 8 (field content 8 8) ++ leBytes 8 content.length ++ shake256 content 64 ++ leBytes 8 0

/-- Send map content to the neighbour of every UP port but one (R356). -/
def State.spreadContent (s : State) (skip : Option Nat) (content : List Byte) : State :=
  (upTo 32 fun p => s.portUp p && some (s.port p).nbrModule != skip).foldl (fun s p => s.sendTransfer (s.port p).nbrModule 0x0E content) s

/-- Map content has arrived whole: it is kept with its notice and relayed on first receipt (R356). -/
def State.takeContent (s : State) (src : Nat) (content : List Byte) : State :=
  let d := shake256 content 64
  match s.exchange.notices.find? fun n => n.digest = d && n.content.isEmpty with
  | none => s
  | some _ =>
    let s := { s with exchange := { s.exchange with
      notices := replaceFirst (fun x => x.digest = d) (fun x => { x with content }) s.exchange.notices } }
    s.spreadContent (some src) content

end Sys2Proof.Machine
end

