-- ==== Sys2Proof/Machine/Composition.lean ====
section
/-! DEFINITION. Composition maps and shard moves (R354 to R359, R372, R373): the commands MAP_ANNOUNCE, MAP_NOTICE, MAP_LATE_INSTALL,
SHARD_MOVE_START, SHARD_COPY_COMPLETE, SHARD_FREE. -/
namespace Sys2Proof.Machine

/-! ## The content of a map (R354) -/

/-- A shard entry's 4 bytes. -/
def shardBytes (e : ShardEntry) : List Byte := leBytes 4 (e.home % 4096 + 4096 * (e.state % 4))

/-- A code group's 20 bytes. -/
def groupBytes (e : ShardEntry) : List Byte := ((List.range 10).map fun i => leBytes 2 (e.group.getD i 0xFFFF)).flatten

/-- A namespace record's 16 bytes. -/
def nsBytes (n : Namespace) : List Byte := leBytes 4 n.ns ++ leBytes 2 n.owner ++ leBytes 2 0 ++ leBytes 8 n.created

/-- An index record's 32 bytes. -/
def idxBytes (i : IndexRec) : List Byte :=
  leBytes 4 i.ns ++ leBytes 4 i.idx ++ leBytes 1 i.metric ++ leBytes 1 i.width ++ leBytes 2 i.dim ++ leBytes 4 0 ++ leBytes 8 i.created ++
    leBytes 8 (i.deleted.getD 0)

/-- A grant record's 32 bytes. -/
def grantBytes (g : Grant) : List Byte :=
  leBytes 4 g.ns ++ leBytes 2 g.grantee ++ leBytes 2 0 ++ leBytes 4 g.groups ++ leBytes 4 0 ++ leBytes 8 g.from_ ++ optEpoch g.until_

/-- A drain entry's 4 bytes. -/
def drainBytes (d : Nat × Nat) : List Byte := leBytes 4 (d.1 % 4096 + 4096 * (d.2 % 4096))

/-- A map's content. -/
def mapBytes (m : CompMap) : List Byte :=
  leBytes 8 m.epoch ++ leBytes 8 m.prev ++ leBytes 2 m.shards.length ++ leBytes 4 m.features.length ++ leBytes 2 m.drain.length ++
    slice (m.drain.flatMap drainBytes) 0 32 ++ leBytes 2 m.namespaces.length ++ leBytes 2 m.indices.length ++ leBytes 4 m.grants.length ++
    leBytes 64 0 ++ m.shards.flatMap shardBytes ++ m.features.flatMap shardBytes ++ m.shards.flatMap groupBytes ++
    m.namespaces.flatMap nsBytes ++ m.indices.flatMap idxBytes ++ m.grants.flatMap grantBytes

/-! ## Code groups (R372, R373) -/

/-- The modules of the sealed composition. -/
def State.moduleList (s : State) : List Nat :=
  let d := s.dict.domains.getD (objKey 0x2E0A 1) []
  if s.mgmt.sealed_ then
    (List.range 4096).filterMap fun i => if bit (field d (64 + 4 * i) 4) 31 then some (bits (field d (64 + 4 * i) 4) 11 0) else none
  else [s.mgmt.moduleId]

/-- Most fragments of a group in one rack: ceil(10 / r), r racks that hold a module other than the home (R373). -/
def State.rackCap (s : State) (others : List Nat) : Nat := ceilDiv 10 (max 1 (others.map s.rackOf).eraseDups.length)

/-- The modules that may be members of a shard's group under R372: while there are at least eleven, not its home. -/
def memberChoices (mods : List Nat) (home : Nat) : List Nat := if mods.length ≥ 11 then mods.filter (· ≠ home) else mods

/-- Racks of some modules, each once. -/
def State.racksOf (s : State) (mods : List Nat) : List Nat := (mods.map s.rackOf).eraseDups

/-- Most members of a group in one rack under R372: one with ten racks or more, two with five to nine; none where R372 gives no limit. -/
def State.memberCap (s : State) (mods : List Nat) : Option Nat :=
  let n := (s.racksOf mods).length
  if n ≥ 10 then some 1 else if n ≥ 5 then some 2 else none

/-- The limit of R372 on a rack, where ten different members can meet it. -/
def State.tenMembers (s : State) (mods : List Nat) (home : Nat) : Option Nat :=
  let from_ := memberChoices mods home
  match s.memberCap mods with
  | some cap => if ((s.racksOf from_).map fun k => min cap (from_.filter fun m => s.rackOf m = k).length).sum ≥ 10 then some cap else none
  | none => none

/-- The modules from which a group takes its members, and the most of them in one rack: by R372 where the composition can meet it, else by
rules 1 and 2 of R373. -/
def State.groupChoices (s : State) (mods : List Nat) (home : Nat) : List Nat × Nat := match s.tenMembers mods home with
  | some cap => (memberChoices mods home, cap)
  | none => (mods.filter (· ≠ home), s.rackCap (mods.filter (· ≠ home)))

/-- Does a group keep R372, or in a composition that cannot meet it rules 1 to 3 of R373? -/
def State.groupOk (s : State) (mods : List Nat) (e : ShardEntry) : Bool :=
  let (from_, cap) := s.groupChoices mods e.home
  let placed := e.group.filter (· ≠ 0xFFFF)
  if (mods.filter (· ≠ e.home)).isEmpty then placed.isEmpty
  else
    let inRack (m : Nat) : Nat := (placed.filter fun x => s.rackOf x = s.rackOf m).length
    let each (m : Nat) : Nat := if (s.tenMembers mods e.home).isSome then 1 else ceilDiv (inRack m) (from_.filter fun x => s.rackOf x = s.rackOf m).length
    placed.all fun m => from_.contains m && decide (inRack m ≤ cap) && decide ((placed.filter (· = m)).length ≤ each m)

/-- The module that takes the next fragment of a group, of which `group` are placed, among those that may, at most `cap` in a rack: rules 2 to
4 of R373, which keep the members of R372 apart; `load` counts the fragments already placed. -/
def State.placeFragment (s : State) (others group : List Nat) (cap : Nat) (load : Nat → Nat) : Option Nat :=
  let inRack (m : Nat) : Nat := (group.filter fun x => s.rackOf x = s.rackOf m).length
  let key (m : Nat) : List Nat := [inRack m, (group.filter (· = m)).length, load m, m]
  firstBy (fun a b => decide (key a < key b)) (others.filter fun m => decide (inRack m < cap))

/-- A group for a home: the members that may stay, and new ones in the places of the others (R372, R373). -/
def State.placeGroup (s : State) (mods : List Nat) (load : Nat → Nat) (e : ShardEntry) : List Nat :=
  let (others, cap) := s.groupChoices mods e.home
  let stays (m : Nat) : Bool := m ≠ 0xFFFF && others.contains m
  ((List.range 10).foldl (fun (a : List Nat × List Nat) f =>
    let m := e.group.getD f 0xFFFF
    if stays m then (a.1 ++ [m], a.2)
    else match s.placeFragment others a.2 cap load with
      | some n => (a.1 ++ [n], a.2 ++ [n])
      | none => (a.1 ++ [0xFFFF], a.2)) ([], e.group.filter stays)).1

/-! ## Announcing (R356) -/

/-- The map announced last, installed or not. -/
def State.announced (s : State) : Option CompMap :=
  firstBy (fun a b => decide (a.epoch > b.epoch))
    ((s.exchange.notices.filter fun n => !n.content.isEmpty).map (fun n => readMap n.content) ++ s.exchange.maps)

/-- MAP_EPOCH of the map announced last; 0 before any. -/
def State.announcedEpoch (s : State) : Nat := max s.newestMap ((s.exchange.notices.map (·.epoch)).foldl max 0)

/-- A notice of a map, with its content where it is held. -/
def noticeOf (content : List Byte) : MapNotice :=
  { epoch := field content 0 8, prev := field content 8 8, bytes := content.length, digest := shake256 content 64, content }

/-- The leader announces a map: the notice and the content go to every neighbour. -/
def State.announceMap (s : State) (content : List Byte) : State :=
  let s := { s with exchange := { s.exchange with notices := s.exchange.notices ++ [noticeOf content] } }
  (s.sendAllPorts none 6 (noticeBytes content)).spreadContent none content

/-- The next map of the leader: the last announced with a change, and the catalog as it stands at its epoch (R354, R356). -/
def State.nextMap (s : State) (change : CompMap → CompMap) : Option CompMap := s.announced.map fun m =>
  let f := max (s.epochs.open_ + s.setting 0x2B00 3 8) (m.epoch + 1)
  let due := s.catalog.pending.filter fun p => decide (p.epoch ≤ f)
  let k := (due.foldl (fun s p => s.applyChange p.epoch p.change) s).catalog
  let keeps (g : Grant) : Bool := match g.until_ with
    | some u => decide (u > s.oldestSnapshot)
    | none => true
  change { m with
    epoch := f, prev := m.epoch
    namespaces := sortBy (fun a b => decide (a.ns < b.ns)) (k.namespaces.filter fun n => n.deleted.isNone)
    indices := sortBy (fun a b => decide (a.ns < b.ns) || (a.ns == b.ns && decide (a.idx < b.idx))) (k.indices.filter fun i => !i.discarded)
    grants := sortBy (fun a b => decide (a.ns < b.ns) || (a.ns == b.ns && (decide (a.grantee < b.grantee) ||
      (a.grantee == b.grantee && decide (a.from_ < b.from_))))) (k.grants.filter keeps) }

/-- The leader announces its next map. -/
def State.announceNext (s : State) (change : CompMap → CompMap) : State := match s.nextMap change with
  | some m => s.announceMap (mapBytes m)
  | none => s

/-- MAP_ANNOUNCE: the leader announces a map, at least MAP_LEAD epochs ahead, whose code groups keep R372 and R373 (R354, R356). -/
def execMapAnnounce (content : List Byte) (s : State) : Host.Outcome State Fault Refusal :=
  .next (
    let m := readMap content
    let sameCount : Bool := match s.announced with
      | some x => x.shards.length = m.shards.length
      | none => true
    if !s.leads || !mapOk content || m.epoch < s.epochs.open_ + s.setting 0x2B00 3 8 || m.epoch ≤ s.announcedEpoch ||
        m.prev ≠ s.announcedEpoch || !sameCount || !(m.shards.all (s.groupOk s.moduleList)) then s
    else s.announceMap content)

/-- MAP_NOTICE: a notice that is new is kept, its content awaited, and it is relayed on first arrival (R353, R356). -/
def execMapNotice (port : Nat) (notice : List Byte) (s : State) : Host.Outcome State Fault Refusal :=
  .next (
    let n : MapNotice := { epoch := field notice 0 8, prev := field notice 8 8, bytes := field notice 16 8, digest := slice (notice.drop 24) 0 64 }
    if notice.length ≠ 96 || n.epoch ≤ s.newestMap || s.exchange.notices.any fun x => x.epoch = n.epoch && x.digest = n.digest then s
    else
      let s := { s with exchange := { s.exchange with notices := s.exchange.notices ++ [n] } }
      s.sendAllPorts (some port) 6 notice)

/-- MAP_LATE_INSTALL: content with the digest of a map counted in MAP_LATE arrives, and the map is installed on receipt (R356). -/
def execMapLateInstall (content : List Byte) (s : State) : Host.Outcome State Fault Refusal :=
  .next (
    let d := shake256 content 64
    match s.exchange.notices.find? fun n => n.late && n.digest = d with
    | none => s
    | some n =>
      if !mapOk content then s
      else
        let s := { s with exchange := { s.exchange with notices := s.exchange.notices.filter fun x => x.epoch ≠ n.epoch } }
        s.installMap content)

/-! ## Shard moves (R359) -/

/-- An entry of a map's item or feature shards is changed. -/
def mapShard (feature : Bool) (n : Nat) (f : ShardEntry → ShardEntry) (m : CompMap) : CompMap :=
  if feature then { m with features := m.features.modify n f } else { m with shards := m.shards.modify n f }

/-- Fragments already placed on a module by a map's groups (R373). -/
def groupLoad (m : CompMap) (module : Nat) : Nat := (m.shards.map fun e => (e.group.filter (· = module)).length).sum

/-- A shard gets a new home, LIVE; a group that would hold a fragment on it places that fragment again. -/
def State.homeTo (s : State) (feature : Bool) (n dest : Nat) (m : CompMap) : CompMap :=
  mapShard feature n (fun e =>
    let e := { e with home := dest, state := 0 }
    if feature || !e.group.contains dest then e else { e with group := s.placeGroup s.moduleList (groupLoad m) e }) m

/-- One copy round of a moving shard goes to its destination (R359 steps 2 and 3). -/
def State.copyRound (s : State) (m : ShardMove) : State :=
  if m.feature then s.sendTransfer m.dest 0x0C (s.featCopy m.shard false) else s.sendTransfer m.dest 0x0B (s.shardCopy m.shard false)

/-- Does a module take part in a move known here? -/
def State.moving (s : State) (module : Nat) : Bool := s.exchange.moves.any fun m => m.source = module || m.dest = module

/-- Row bytes that a module has served in the period. -/
def loadTotal (l : FeatLoad) : Nat := (l.shards.map (·.2)).sum

/-- Is this the feature shard that R364 moves from a home, and where: the home's total exceeds the mean of the reports by more than
FEATURE_IMBALANCE per cent, the shard is its most read, and the destination is the least loaded with LPDDR room for it? Of equals the lowest
number (log 91). -/
def State.unbalanced (s : State) (loads : List FeatLoad) (home shard dest : Nat) : Bool :=
  let size := match shardTable s.exchange.tables shard with
    | some (t, first) => min (t.rows - first) (2 ^ t.shardLog) * t.rowBytes
    | none => 0
  let fits := loads.filter fun l => l.module ≠ home && decide (l.room ≥ size)
  let least := firstBy (fun (a b : FeatLoad) => decide (loadTotal a < loadTotal b) || (loadTotal a == loadTotal b && decide (a.module < b.module))) fits
  match loads.find? fun l => l.module = home with
  | some l =>
    let most := firstBy (fun (a b : Nat × Nat) => decide (a.2 > b.2) || (a.2 == b.2 && decide (a.1 < b.1))) l.shards
    decide (loadTotal l * loads.length * 100 > (loads.map loadTotal).sum * (100 + s.exchange.imbalance)) &&
      most.any (fun p => p.1 = shard) && least.any fun x => x.module = dest
  | none => false

/-- May the leader move a feature shard (R359, R364): its home drains and the destination is its successor, or the load is unbalanced and no
other feature shard of that home moved in this period? -/
def State.featureMoves (s : State) (m : CompMap) (loads : List FeatLoad) (home shard dest : Nat) : Bool :=
  m.drain.contains (home, dest) || s.unbalanced loads home shard dest && !s.exchange.featMoved.contains home

/-- SHARD_MOVE_START: at the leader the shard is marked MOVING in its next map, a feature shard on the grounds of R364, whose reports of the
period are `loads` (none: an index shard); at the source, once that map is installed, the copy starts (R359 steps 1 and 2). -/
def execShardMoveStart (shard dest : Nat) (loads : Option (List FeatLoad)) (s : State) : Host.Outcome State Fault Refusal :=
  .next (
    let self := s.mgmt.moduleId
    let feature := loads.isSome
    let entry := s.lastMap.bind fun m => (if feature then m.features else m.shards)[shard]?
    match entry with
    | none => s
    | some e =>
      let mine := s.exchange.moves.any fun m => m.shard = shard && m.feature == feature
      let excess := s.exchange.overCapacity.filter (· ≠ shard)
      if e.home = dest || e.state ≥ 2 then s
      else if e.state = 1 && e.home = self then
        if mine && !(s.exchange.moves.any fun m => m.shard = shard && m.feature == feature && m.f1 ≤ s.newestMap && !m.copied) then s
        else if !mine && s.moving self then s
        else
          let m : ShardMove := { shard, feature, source := self, dest, f1 := s.newestMap }
          let others := s.exchange.moves.filter fun m => !(m.shard = shard && m.feature == feature)
          ({ s with exchange := { s.exchange with moves := others ++ [m], overCapacity := excess } } : State).copyRound m
      else if e.state = 0 && s.leads && !s.moving e.home && !s.moving dest &&
          (!feature || s.lastMap.any fun m => s.featureMoves m (loads.getD []) e.home shard dest) then
        match s.nextMap (mapShard feature shard fun x => { x with state := 1 }) with
        | some m =>
          let v : ShardMove := { shard, feature, source := e.home, dest, f1 := m.epoch }
          ({ s with exchange := { s.exchange with
            moves := s.exchange.moves ++ [v], overCapacity := excess
            featMoved := if feature then s.exchange.featMoved ++ [e.home] else s.exchange.featMoved } } : State).announceMap (mapBytes m)
        | none => s
      else s)

/-- SHARD_COPY_COMPLETE: the source's rounds end; the leader announces the map that makes the destination the home (R359 steps 3, 4). -/
def execShardCopyComplete (shard : Nat) (s : State) : Host.Outcome State Fault Refusal :=
  .next (match s.exchange.moves.find? fun m => m.shard = shard && !m.copied && m.dest ≠ s.mgmt.moduleId with
    | none => s
    | some m =>
      let marked : Bool := match s.lastMap.bind fun c => (if m.feature then c.features else c.shards)[shard]? with
        | some e => e.state = 1
        | none => false
      if !marked then s
      else
        let s := if m.source = s.mgmt.moduleId then s.copyRound m else s
        let s := (s.updMove shard m.feature fun x => { x with copied := true }).shadowCopied
        if s.leads && !m.shadow then s.announceNext (s.homeTo m.feature shard m.dest) else s)

/-- The source's copy of an item shard leaves it: lists, records, held keys. -/
def State.dropShard (s : State) (shard : Nat) : State :=
  let hs := (s.corpus.lists.filter fun kl => kl.2.shard = shard).map (·.1)
  let s := hs.foldl (fun s h => s.dropList h) s
  let mine := s.corpus.records.filter fun kr => s.shardOfKey kr.2.key = shard
  let gone := mine.map (·.1)
  let s := s.discardUnits (mine.flatMap fun kr => kr.2.units).eraseDups
  { s with
    corpus := { s.corpus with
      records := s.corpus.records.keep fun k _ => !gone.contains k
      keys := s.corpus.keys.keep fun _ v => match v with
        | some n => !gone.contains n
        | none => true }
    exchange := { s.exchange with streams := s.exchange.streams.erase shard } }

/-- The source's copy of a feature shard leaves it. -/
def State.dropFeature (s : State) (shard : Nat) : State :=
  let mine (k : Nat) : Bool := s.featShard (k / 2 ^ 40) (k % 2 ^ 40) = some shard
  ({ s with exchange := { s.exchange with
    rows := s.exchange.rows.keep fun k _ => !mine k
    replicasOut := s.exchange.replicasOut.filter fun r => s.featShard r.table r.row ≠ some shard } } : State).freeObj (s.featObj shard)

/-- SHARD_FREE: the source frees a moved shard when no admitted query holds a snapshot below F2 (R359 step 7). -/
def execShardFree (shard : Nat) (s : State) : Host.Outcome State Fault Refusal :=
  .next (match s.exchange.moves.find? fun m => m.shard = shard && m.switched && m.source = s.mgmt.moduleId with
    | some m =>
      if s.snapBelow (m.f2.getD 0) then s
      else
        let s := if m.feature then s.dropFeature shard else s.dropShard shard
        ({ s with exchange := { s.exchange with
          moves := s.exchange.moves.filter fun x => !(x.shard = shard && x.feature == m.feature) } } : State).shadowTidy
    | none => s)

end Sys2Proof.Machine
end

