-- ==== Sys2Proof/Machine/Leases.lean ====
section
/-! DEFINITION. Leases on request state and replicas of hot rows (R365 to R370): the commands TAKEN, ASK, LEASE_ANSWER, RESEND,
ORPHANED_QUERIES, HOT_ROW_REPLICATE, INVALIDATE, INVALIDATE_ACK, REPLICA_LEASE_EXPIRE. -/
namespace Sys2Proof.Machine

/-! ## Leases (R368 to R370) -/

/-- Change the lease of a handle on one side. -/
def State.updLease (s : State) (handle : Nat) (draining : Bool) (f : Lease → Lease) : State :=
  { s with exchange := { s.exchange with leases := replaceFirst (fun y => y.handle = handle && y.draining == draining) f s.exchange.leases } }

/-- The lease of a handle on one side, with its other module. -/
def State.leaseOf (s : State) (handle peer : Nat) (draining : Bool) : Option Lease :=
  s.exchange.leases.find? fun (l : Lease) => l.handle = handle && l.peer = peer && l.draining == draining

/-- A lease message of an operation: 32 bytes, and the operation. -/
def leaseIs (op : Nat) (msg : List Byte) : Bool := msg.length = 32 && field msg 0 1 = op

/-- TAKEN: the draining module drops its copy (R369). -/
def execTaken (src : Nat) (msg : List Byte) (s : State) : Host.Outcome State Fault Refusal :=
  .next (
    let h := field msg 8 8
    if !leaseIs 2 msg || (s.leaseOf h src true).isNone then s
    else s.updLease h true fun l => { l with taken := true, dropped := true, copy := [] })

/-- What this module holds of a query's state sent by a module: 0 none, 1 incomplete, 2 complete (R368). -/
def State.holdsOf (s : State) (handle peer : Nat) : Nat := match s.leaseOf handle peer false with
  | some l => if l.complete then 2 else 1
  | none => if s.exchange.transfers.any fun kv => kv.1 / 2 ^ 64 = peer * 256 + 0xF then 1 else 0

/-- Is this module the owner of record of a draining module's queries under the newest map (R369, R370)? -/
def State.takesFrom (s : State) (peer : Nat) : Bool := match s.lastMap with
  | some m => m.drain.any fun d => d.1 = peer && d.2 = s.mgmt.moduleId
  | none => false

/-- ASK: the module answers what it holds; a complete copy is taken again, a missing one is asked for by the owner of record (R370). -/
def execAsk (src : Nat) (msg : List Byte) (s : State) : Host.Outcome State Fault Refusal :=
  .next (
    let h := field msg 8 8
    if !leaseIs 3 msg then s
    else
      let holds := s.holdsOf h src
      let expiry := s.time + field msg 24 4 * cyclesPerUs
      let s := s.sendLease src 4 holds h s.newestMap expiry
      if holds = 2 then s.sendLease src 2 0 h s.newestMap expiry
      else if s.takesFrom src then s.sendLease src 5 0 h s.newestMap expiry else s)

/-- ANSWER to an ASK: where the other holds the complete copy, this one is dropped (R370). -/
def execLeaseAnswer (src : Nat) (msg : List Byte) (s : State) : Host.Outcome State Fault Refusal :=
  .next (
    let h := field msg 8 8
    if !leaseIs 4 msg || (s.leaseOf h src true).isNone || field msg 1 1 ≠ 2 then s
    else s.updLease h true fun l => { l with taken := true, dropped := true, copy := [] })

/-- RESEND: the state is sent again while its copy is held (R370). -/
def execResend (src : Nat) (msg : List Byte) (s : State) : Host.Outcome State Fault Refusal :=
  .next (if !leaseIs 5 msg then s
    else match s.leaseOf (field msg 8 8) src true with
      | some l => if l.dropped || l.copy.isEmpty then s else s.sendState l
      | none => s)

/-- Leases of this module that wait for the other side send ASK once per epoch (R370). -/
def State.askLeases (s : State) : State :=
  let e := s.epochs.open_
  (s.exchange.leases.filter fun (l : Lease) => l.draining && decide (l.asked < e)).foldl (fun s l =>
    (s.updLease l.handle true fun x => { x with asked := e }).sendLease l.peer 3 0 l.handle l.epoch l.expiry) s

/-- ORPHANED_QUERIES: at expiry with no answer the stub completes ORPHANED, and each side frees what it holds for the query (R370). -/
def execOrphanedQueries (handle t : Nat) (s : State) : Host.Outcome State Fault Refusal :=
  .next (let s := s.advance t
    match s.exchange.leases.find? fun (l : Lease) => l.handle = handle && decide (s.time ≥ l.expiry) with
    | none => s
    | some l =>
      let s := { s with exchange := { s.exchange with leases := s.exchange.leases.filter fun (y : Lease) => !(y.handle = handle && y.draining == l.draining) } }
      if l.draining then
        match s.queryOf handle with
        | some q => match s.query q with
          | some x => (s.toEmit q { x with orphaned := true, answer := [] }).tally 0x2B10 0xD
          | none => s
        | none => s
      else
        match s.pipe.queries.find? fun kq => kq.2.adopted = some handle with
        | some kq => match (s.toEmit kq.1 kq.2).query kq.1 with
          | some x => (s.toEmit kq.1 kq.2).finishQuery kq.1 x false
          | none => s
        | none => s)

/-! ## Replicas of hot rows (R365 to R367) -/

/-- Is a row's sampled rate in this period above HOT_ROW_RATE: one sample stands for 64 reads (R365)? -/
def State.rowHot (s : State) (table row : Nat) : Bool :=
  let n := s.exchange.sampled.getD (rowKey table row) 0
  n * 64 * cyclesPerS > s.exchange.hotRate * max 1 (s.time - s.maint.periodStart)

/-- The modules that read a row most, by its samples, the most first and of equal ones the lowest: at most 8 (R365; the order of equal
readers is the model's choice, log 91). -/
def State.topReaders (s : State) (table row : Nat) : List Nat :=
  let k := rowKey table row
  let rs := s.exchange.readers.filter fun kv => kv.1 / 4096 = k && kv.1 % 4096 ≠ s.mgmt.moduleId
  ((sortBy (fun a b => decide (a.2 > b.2)) rs).map fun kv => kv.1 % 4096).take 8

/-- HOT_ROW_REPLICATE: the home copies a hot row of a table, named by its namespace and ID, to the modules that read it most, up to 8, with its
VERSION (R365). -/
def execHotRowReplicate (ns table row : Nat) (s : State) : Host.Outcome State Fault Refusal :=
  .next (let table := tableCode ns table
    match s.table table, s.featShard table row with
    | some t, some f =>
      let self := s.mgmt.moduleId
      let waits : Bool := match s.exchange.rows.get (rowKey table row) with
        | some r => r.next.any fun v => decide (v.2 > s.usableClosed)
        | none => false
      let unsettled := waits || s.corpus.logPending.any (fun w => w.row.any fun x => x.table = table && x.row = row) ||
        s.corpus.logPages.any fun p => p.2.any fun w => w.row.any fun x => x.table = table && x.row = row
      if (s.featHome f s.epochs.open_).1 ≠ self || !s.rowHot table row || unsettled then s
      else
        let fresh := s.topReaders table row
        let v := s.rowValue t row
        let kept := s.exchange.replicasOut.filter fun r => !(r.table = table && r.row = row && (fresh.contains r.peer || !r.valid && r.unacked.isEmpty))
        let room := 8 - (kept.filter fun r => r.table = table && r.row = row).length
        let fresh := fresh.take room
        let new : List Replica := fresh.map fun p => { table, row, peer := p, version := v.2 }
        let s := { s with exchange := { s.exchange with replicasOut := kept ++ new } }
        fresh.foldl (fun s p => (s.sendTransfer p 0x0C (rowsContent 0 0 [rowCopy table row v.2 v.1])).sendInvalidate p []) s
    | _, _ => s)

/-- The entries of an INVALIDATE body: table, row, epoch (R366). -/
def invalEntries (body : List Byte) : List (Nat × Nat × Nat) :=
  (chunks 24 body).filterMap fun b => if b.length = 24 then some (field b 0 4, field b 8 8, field b 16 8) else none

/-- INVALIDATE: a holder stops serving the rows, starts the lease anew and echoes the entries (R366, R367). A table's ID stands for every
table with it (log 82). -/
def execInvalidate (src : Nat) (body : List Byte) (s : State) : Host.Outcome State Fault Refusal :=
  .next (
    let es := invalEntries body
    if body.length % 24 ≠ 0 || es.length > 20 then s
    else
      let hit (r : Replica) : Bool := r.peer = src && es.any fun e => e.1 = r.table % 2 ^ 32 && e.2.1 = r.row
      let s := { s with exchange := { s.exchange with
        replicasIn := s.exchange.replicasIn.map fun r => if hit r then { r with valid := false } else r
        invalSeen := s.exchange.invalSeen.set src (s.time, s.setting 0x2B00 5 5000) } }
      if es.isEmpty then s else s.sendFrame src 4 8 0 s.newestMap 0 body 0)

/-- INVALIDATE_ACK: the home takes a holder's echoed entries, an event for which closures wait (R207, R366). -/
def execInvalidateAck (src : Nat) (body : List Byte) (s : State) : Host.Outcome State Fault Refusal :=
  .next (
    let es := invalEntries body
    let ack (r : Replica) : Replica :=
      if r.peer ≠ src then r
      else { r with unacked := r.unacked.filter fun e => !(es.any fun x => x.1 = r.table % 2 ^ 32 && x.2.1 = r.row && x.2.2 = e) }
    es.foldl (fun s x => s.noteSettled x.2.2) { s with exchange := { s.exchange with replicasOut := s.exchange.replicasOut.map ack } })

/-- REPLICA_LEASE_EXPIRE: a holder whose lease has run out drops every replica of that home; the home waits for that holder no longer
(R366, R367). -/
def execReplicaLeaseExpire (peer t : Nat) (s : State) : Host.Outcome State Fault Refusal :=
  .next (let s := s.advance t
    let x := s.exchange
    let lostIn : Bool := match x.invalSeen.get peer with
      | some c => decide (s.time > s.leaseEnd c)
      | none => false
    let lostOut : Bool := (x.replicasOut.any fun r => r.peer = peer) && decide (s.time > s.leaseEnd (x.invalSent.getD peer (0, 0)))
    let s := if lostIn then
        ({ s with exchange := { s.exchange with replicasIn := s.exchange.replicasIn.filter fun r => r.peer ≠ peer } } : State).syncReplicas
      else s
    if lostOut then { s with exchange := { s.exchange with replicasOut := s.exchange.replicasOut.filter fun r => r.peer ≠ peer } } else s)

end Sys2Proof.Machine
end

