-- ==== Sys2Proof/Machine/Maintenance.lean ====
section
/-! DEFINITION. Background maintenance (R88, R104, R112, R224 to R232): folds, splits and merges, re-fits, projection changes, the edge sweep.
The commands MAINT_PERIOD, SPLIT_COPY_COMPLETE, DIR_FULL, FOLD_BUILD_COMPLETE, SEGMENT_FREE, EDGE_SWEEP, MAINT_STEP_COMPLETE. -/
namespace Sys2Proof.Machine

/-! ## Folds (R224) -/

/-- An entry as a fold's base holds it: sketched under the base's generation (R231 step 3). -/
def State.foldItem (s : State) (v : Version) (from_ gen : Nat) (i : Item) : Item :=
  if from_ = gen then i else { i with sketch := s.sketchOf v gen (s.vhat v i) }

/-- The base of a fold: every record visible at C, under the most recently activated generation (R224 step 2, R231 step 3). -/
def State.foldBase (s : State) (l : ListData) (v : Version) (f : Fold) : Segment :=
  let view := viewAt l f.c
  let gen := genAt v s.epochs.open_
  let items := view.flatMap fun k => match segOf l k with
    | some g => (List.range g.items.length).filterMap fun n =>
        if visibleAt l view g n f.c then (g.items[n]?).map (s.foldItem v g.gen gen) else none
    | none => []
  { segIndex := 0, isBase := true, gen, items, validFrom := s.epochs.open_ + 1 }

/-- NaN sums met as a fold sketches the entries of older generations (R79, R231). -/
def State.foldNans (s : State) (l : ListData) (v : Version) (f : Fold) : Nat :=
  let view := viewAt l f.c
  let gen := genAt v s.epochs.open_
  (view.map fun k => match segOf l k with
    | some g => if g.gen = gen then 0 else (((List.range g.items.length).filterMap fun n =>
        if visibleAt l view g n f.c then g.items[n]? else none).map fun i => s.nansUnder v [gen] (s.vhat v i)).sum
    | none => 0).sum

/-- FOLD_BUILD_COMPLETE: once C is closed, B is complete and F is the next epoch to open (R224 steps 2 and 3). B waits while HBM has no
room, and while shedding suspends maintenance (R232, R251). -/
def execFoldBuildComplete (handle : Nat) (s : State) : Host.Outcome State Fault Refusal :=
  .next (match s.maint.folds.find? fun f => f.handle = handle, s.list handle with
    | some f, some l =>
      match s.versionOf l.ns l.idx l.version with
      | some v =>
        let b := s.foldBase l v f
        if f.base.isSome || s.usableClosed < f.c || !s.maintRuns || !s.hbmFits v [b] || b.items.length > 33554432 then s
        else
          let s := s.noteNans (s.foldNans l v f)
          let g (x : Fold) : Fold := { x with base := some b, switchAt := some (s.epochs.open_ + 1) }
          { s with maint := { s.maint with folds := replaceFirst (fun x => x.handle = handle) g s.maint.folds } }
      | none => s
    | _, _ => s)

/-! ## Splits and merges (R227, R228) -/

/-- DIR_FULL: a waiting split or merge goes on once FREE entries exist, which it reserves (R232). -/
def execDirFull (list : Nat) (s : State) : Host.Outcome State Fault Refusal :=
  .next (let ok (g : Reorg) : Bool := g.waiting && g.sources.contains list && (s.freeEntries (entriesNeeded g.isMerge)).length ≥ entriesNeeded g.isMerge
    let f (g : Reorg) : Reorg := { g with waiting := false, reserved := s.freeEntries (entriesNeeded g.isMerge) }
    { s with maint := { s.maint with reorgs := replaceFirst ok f s.maint.reorgs } })

/-- The slots of a segment's items that go to one child, in order. -/
def slotsFor (pick : Item → Bool) (g : Segment) : List Nat :=
  (List.range g.items.length).filter fun n => match g.items[n]? with
    | some i => pick i
    | none => false

/-- Do two segments stand in a view together? -/
def overlap (a b : Segment) : Bool := livesAt a b.validFrom && livesAt b a.validFrom

/-- A list's segments as one child receives them, each with the slots it keeps, in order: code arrays reordered with the entries, marks
retargeted to the segment of that SEG_INDEX in the same view (R227 step 2). -/
def childSegs (l : ListData) (pick : Item → Bool) : List Segment :=
  let kept := l.segs.map fun kg => (kg.2, slotsFor pick kg.2)
  let move (g : Segment) (m : Mark) : Option Mark := match kept.find? fun p => p.1.segIndex = m.seg && overlap g p.1 with
    | some p => (p.2.findIdx? fun n => n = m.slot).map fun n => { m with slot := n }
    | none => none
  kept.map fun p => { p.1 with items := p.2.filterMap fun n => p.1.items[n]?, marks := p.1.marks.filterMap (move p.1), objs := [], pairHandle := 0 }

/-- A new list with copied segments, its objects in the tiers of its first source's preference (R250). -/
def State.copyList (s : State) (l : ListData) (v : Version) (list : Nat) (segs : List Segment) : State × Nat :=
  let pref := match s.tiers.objs.find? fun ko => ko.2.kind = 0 && ko.2.list = l.listId with
    | some ko => ko.2.pref
    | none => 1
  let (s, h) := s.newList { ns := l.ns, idx := l.idx, version := l.version, listId := list, shard := l.shard } pref
  segs.foldl (fun (a : State × Nat) g =>
    let (s, g) := a.1.segObjects h list v g
    let n := s.corpus.nextSeg
    let s := { s with corpus := { s.corpus with nextSeg := n + 1 } }
    (match s.list h with
      | some l => s.setList h { l with segs := Table.set l.segs n g }
      | none => s, h)) (s, h)

/-- Renumber SEG_INDEX of a further source's segments in a merge with numbers that those before it do not use, those of its current view
first: the merged view holds at most 16 segments (R83, R86, R228; log 35). -/
def renumber (taken : List Nat) (gs : List Segment) : List Segment :=
  let olds := (((gs.filter fun g => g.validUntil.isNone) ++ gs).map (·.segIndex)).eraseDups
  let free := (List.range (taken.length + olds.length)).filter fun n => !taken.contains n
  let num (old : Nat) : Nat := match olds.findIdx? fun n => n = old with
    | some k => free.getD k old
    | none => old
  gs.map fun g => { g with segIndex := num g.segIndex, marks := g.marks.map fun m => { m with seg := num m.seg } }

/-- Schedule the children of a reorganisation for the first epoch to open (R227 step 4). -/
def State.scheduleReorg (s : State) (g : Reorg) (children : List Child) (parents : List Nat) : State :=
  let f := s.epochs.open_ + 1
  let s := { s with maint := { s.maint with
    reorgs := replaceFirst (fun x => x.sources == g.sources) (fun x => { x with effect := some f, children }) s.maint.reorgs } }
  parents.foldl (fun s h => match s.list h with
    | some l => s.setList h { l with children }
    | none => s) s

/-- The segments of a list merged from several: those of the first as they are, those of each further one without the entries of records that
an earlier one holds, since a record is in each of its lists in every view (R21, R228). -/
def mergedSegs (l : ListData) (rest : List ListData) : List Segment :=
  (rest.foldl (fun (acc : List Segment) r =>
    let held := acc.flatMap fun g => g.items.map (·.record)
    acc ++ renumber (acc.map (·.segIndex)) (childSegs r fun i => !held.contains i.record)) (childSegs l fun _ => true))

/-- Routing sketch of a fitted centroid under the open generation, with the generation; its NaN sums are counted (R80, R102). -/
def State.centroidSketch (s : State) (v : Version) (c : List F32) : State × (Nat × Nat) :=
  match openGen v s.epochs.open_ with
  | some g => (s.noteNans (s.nansUnder v [g.num] c), (cutSketch v (s.sketchOf v g.num c), g.num))
  | none => (s, (0, 0))

/-- A merge's copies: one list with the segments of every source, and the change scheduled (R227, R228). -/
def State.copyMerge (s : State) (g : Reorg) (l : ListData) (rest : List ListData) (v : Version) (id : Nat) (centroid : List F32) (hs : List Nat) :
    State :=
  let (s, sk) := s.centroidSketch v centroid
  let (s, h) := s.copyList l v id (mergedSegs l rest)
  s.scheduleReorg g [⟨h, id, sk.1, sk.2, centroid⟩] hs

/-- Does an entry go to child A of a split: is its centroid the nearer one to the entry's v̂, ties to the lower list ID (R227 step 2)? -/
def State.toChildA (s : State) (v : Version) (list idB : Nat) (centroidA centroidB : List F32) (i : Item) : Bool :=
  nearerOf [(list, centroidA), (idB, centroidB)] (s.vhat v i) = some list

/-- A split's copies, and the change scheduled (R227). -/
def State.copySplit (s : State) (g : Reorg) (l : ListData) (v : Version) (list idB : Nat) (centroidA centroidB : List F32) (hs : List Nat) : State :=
  let toA := s.toChildA v list idB centroidA centroidB
  let (s, a) := s.centroidSketch v centroidA
  let (s, b) := s.centroidSketch v centroidB
  let (s, hA) := s.copyList l v list (childSegs l toA)
  let (s, hB) := s.copyList l v idB (childSegs l fun i => !toA i)
  s.scheduleReorg g [⟨hA, list, a.1, a.2, centroidA⟩, ⟨hB, idB, b.1, b.2, centroidB⟩] hs

/-- SPLIT_COPY_COMPLETE: the copies are made, the last tail among them, and the directory change is scheduled (R227, R228). They wait for a
fold of a source, for room in HBM, and while shedding suspends maintenance (R232, R251). -/
def execSplitCopyComplete (list : Nat) (centroidA centroidB : List F32) (s : State) : Host.Outcome State Fault Refusal :=
  .next (match s.maint.reorgs.find? fun g => g.sources.head? = some list && !g.deferred && !g.waiting && g.effect.isNone with
    | none => s
    | some g =>
      let hs := g.sources.filterMap fun k => (s.corpus.dir.get k).map (·.handle)
      let ls := hs.filterMap fun h => s.list h
      match ls with
      | [] => s
      | l :: rest =>
        match s.versionOf l.ns l.idx l.version with
        | none => s
        | some v =>
          let idB := g.reserved.headD 0
          let pick := s.toChildA v list idB centroidA centroidB
          let segs := if g.isMerge then mergedSegs l rest else childSegs l pick ++ childSegs l fun i => !pick i
          if ls.length ≠ g.sources.length || !s.maintRuns || s.folding g.sources || !s.hbmFits v segs then s
          else if g.isMerge then s.copyMerge g l rest v idB centroidA hs
          else s.copySplit g l v list idB centroidA centroidB hs)

/-- Rewrite every edge to an old entry of a generation so that it names another (R112). -/
def State.rewriteEdges (s : State) (old oldGen new newGen : Nat) : State :=
  { s with corpus := { s.corpus with dir := s.corpus.dir.mapVals fun e =>
    { e with edges := e.edges.map fun t => if t.1 = old && t.2 = oldGen then (new, newGen) else t } } }

/-- A former list's segments end at F; it stays reachable by its handle until they are freed (R227). -/
def State.retireList (s : State) (handle f : Nat) : State :=
  match s.list handle with
  | some l =>
    let close (g : Segment) : Segment := if g.validUntil.isNone then { g with validUntil := some f } else g
    let s := s.setList handle { l with retired := true, segs := l.segs.mapVals close }
    { s with maint := { s.maint with folds := s.maint.folds.filter fun x => x.handle ≠ handle } }
  | none => s

/-- The directory change of a split or merge takes effect (R105, R227, R228). -/
def State.applyReorg (s : State) (g : Reorg) (f : Nat) : State :=
  let s := { s with maint := { s.maint with reorgs := s.maint.reorgs.filter fun x => !(x.sources == g.sources) } }
  let hs := g.sources.filterMap fun k => (s.corpus.dir.get k).map (·.handle)
  let items (s : State) (h : Nat) : Nat := match s.list h with
    | some l => min 0xFFFFFFFF (visibleCount l f)
    | none => 0
  let verOf := (g.children.head?.bind fun c => s.list c.handle).bind fun l => (s.versionOf l.ns l.idx l.version).map fun v => (v, l.shard)
  match verOf, g.isMerge, g.children with
  | some (v, shard), true, [c] =>
    let s := s.setEntry c.list (s.liveEntry v c shard (items s c.handle))
    let gen := (s.corpus.dir.getD c.list { csketch := 0, home := 0, handle := 0 }).entryGen
    let s := g.sources.foldl (fun s k => { s with corpus := { s.corpus with dir := s.corpus.dir.alter k fun e =>
      { e with state := 2, succA := c.list, succAGen := gen, succB := none } } }) s
    let s := hs.foldl (fun s h => s.retireList h f) s
    (s.linkEntry c.list).tally 0x2710 9
  | some (v, shard), false, [a, b] =>
    match s.corpus.dir.get a.list, g.reserved[1]? with
    | some parent, some tomb =>
      let s := s.freeEntry a.list
      let s := s.setEntry a.list (s.liveEntry v a shard (items s a.handle))
      let s := s.setEntry b.list (s.liveEntry v b shard (items s b.handle))
      let genA := (s.corpus.dir.getD a.list parent).entryGen
      let genB := (s.corpus.dir.getD b.list parent).entryGen
      let old := s.corpus.dir.getD tomb { csketch := 0, home := 0, handle := 0 }
      let t : DirEntry := { parent with
        state := 2, entryGen := old.entryGen, frees := old.frees, succA := a.list, succAGen := genA, succB := some (b.list, genB), items := 0 }
      let s := (s.setEntry tomb t).rewriteEdges a.list parent.entryGen tomb old.entryGen
      let s := hs.foldl (fun s h => s.retireList h f) s
      ((s.linkEntry a.list).linkEntry b.list).tally 0x2710 8
    | _, _ => s
  | _, _, _ => s

/-- Splits and merges whose F has opened, and other directory changes, take effect in all copies (R107); deferred ones start (R232). -/
def State.openDirectory (s : State) : State :=
  let e := s.epochs.open_
  let due := s.maint.reorgs.filter fun g => match g.effect with
    | some f => decide (f ≤ e)
    | none => false
  let s := due.foldl (fun s g => s.applyReorg g (g.effect.getD e)) s
  let cs := s.maint.dirChanges.filter fun c => decide (c.epoch ≤ e)
  let s := { s with maint := { s.maint with dirChanges := s.maint.dirChanges.filter fun c => decide (c.epoch > e) } }
  (cs.foldl (fun (s : State) c => { s with corpus := { s.corpus with dir := s.corpus.dir.alter c.list fun d =>
    if d.state = 1 && d.handle = c.entry.handle then
      { d with csketch := c.entry.csketch, projGen := c.entry.projGen, centroid := c.entry.centroid }
    else d } }) s).admitReorgs

/-! ## Projection changes (R231) -/

/-- Does a segment or a live directory entry of a version still hold a generation? -/
def State.genHeld (s : State) (v : Version) (g : Nat) : Bool :=
  ((s.versionLists v).any fun kl => kl.2.segs.any fun kg => kg.2.gen = g) ||
    s.corpus.dir.any fun kv => kv.2.state ≠ 0 && kv.2.ns = v.ns && kv.2.idx = v.idx && kv.2.version = v.ver && kv.2.projGen = g

/-- The centroid of a list of this home; where it came with a shard from another home, which sends none, its elements are free values
(R230, R359; log 34). -/
def State.centroidOf (s : State) (v : Version) (e : DirEntry) : State × List F32 :=
  if e.centroid.length = v.dim then (s, e.centroid)
  else ({ s with freeCount := s.freeCount + 1 }, (List.range v.dim).map (Config.fitted s.freeCount))

/-- Centroids whose sketch is under an older generation are sketched under the new one, and their entries rewritten at the next epoch (R107,
R231 step 3). -/
def State.resketchCentroids (s : State) (v : Version) (gen : Nat) : State :=
  let mine := s.corpus.dir.filter fun kv => kv.2.state = 1 && kv.2.ns = v.ns && kv.2.idx = v.idx && kv.2.version = v.ver &&
    kv.2.home = s.mgmt.moduleId && kv.2.projGen ≠ gen && !(s.maint.dirChanges.any fun c => c.list = kv.1)
  mine.foldl (fun s kv =>
    let (s, c) := s.centroidOf v kv.2
    let s := s.noteNans (s.nansUnder v [gen] c)
    let e : DirEntry := { kv.2 with csketch := cutSketch v (s.sketchOf v gen c), projGen := gen, centroid := c }
    { s with maint := { s.maint with dirChanges := s.maint.dirChanges ++ [⟨s.epochs.open_ + 1, kv.1, e⟩] } }) s

/-- May an older generation still be held by a segment of another home of the index? No message says so: a free value (R231; log 35). -/
def State.genElsewhere (s : State) : State × Bool :=
  if s.otherHomes.isEmpty then (s, false) else ({ s with freeCount := s.freeCount + 1 }, Config.heldElsewhere s.freeCount)

/-- A projection change goes on: centroids are re-sketched, and once nothing holds an older generation it is retired at the next epoch
(R231 steps 3 and 4). -/
def State.stepProjection (s : State) (n : Nat) (p : Projection) : State :=
  match p.gen, s.versionOf p.ns p.idx p.ver with
  | some g, some v =>
    if !(v.gens.any fun x => x.num = g && decide (x.activeFrom ≤ s.epochs.open_)) then s
    else
      let s := s.resketchCentroids v g
      let olds := v.gens.filter fun x => x.num ≠ g && x.retiredAt.isNone
      if olds.isEmpty then { s with maint := { s.maint with projections := s.maint.projections.erase n } }
      else if olds.any fun x => s.genHeld v x.num then s
      else
        let (s, held) := s.genElsewhere
        if held then s
        else
        let f := s.epochs.open_ + 1
        let end_ (x : Gen) : Gen := if x.num ≠ g && x.retiredAt.isNone then { x with retiredAt := some f } else x
        (s.updVersion p.ns p.idx p.ver fun v => { v with gens := v.gens.map end_ })
  | _, _ => s

/-- Every projection change goes on; a retired generation that no admitted query holds leaves its version, and its number is free (R82). -/
def State.stepProjections (s : State) : State :=
  let s := s.maint.projections.foldl (fun s kp => s.stepProjection kp.1 kp.2) s
  let keep (g : Gen) : Bool := match g.retiredAt with
    | some f => s.usableClosed < f || s.snapBelow f
    | none => true
  { s with catalog := { s.catalog with versions := s.catalog.versions.map fun v => { v with gens := v.gens.filter keep } } }

/-- Start a projection change of an index: its fit runs as a step on the tensor tiles (R231 step 1). -/
def State.startProjection (s : State) (v : Version) : State :=
  let n := s.maint.projections.fresh
  let m := s.maint
  { s with maint := { m with
    projections := m.projections.set n { ns := v.ns, idx := v.idx, ver := v.ver }
    steps := m.steps.set m.nextStep (1, n), nextStep := m.nextStep + 1 } }

/-! ## The period (R226) -/

/-- Read and clear the PROBES counters of all four copies, summed by list; a copy's SAT bit goes with a counter found at its end (R226). -/
def State.takeProbes (s : State) : State × Table Nat :=
  let ks := s.counters.filter fun kv => kv.1 / 0x100000000 = 2
  let sums := ks.foldl (fun (t : Table Nat) kv =>
    let l := kv.1 % 0x100000
    t.put l 0 (t.getD l 0 + min kv.2 eventMax)) []
  let full := (ks.filter fun kv => kv.2 ≥ eventMax).filterMap fun kv => summaryOf kv.1
  ({ s with counters := s.counters.filter fun kv => kv.1 / 0x100000000 ≠ 2 && !full.contains kv.1 }, sums)

/-- A sum as PROBES fields of 4 bytes: pairs that add up to it (R226, R345). -/
def probePairs (kv : Nat × Nat) : List (Nat × Nat) :=
  List.replicate (kv.2 / eventMax) (kv.1, eventMax) ++ (if kv.2 % eventMax = 0 then [] else [(kv.1, kv.2 % eventMax)])

/-- Send probe sums of lists homed elsewhere to their homes, at most 1,144 pairs an item (R226, R345). -/
def State.sendProbes (s : State) (sums : Table Nat) : State :=
  let homes := (sums.filterMap fun kv => (s.corpus.dir.get kv.1).map (·.home)).eraseDups.filter fun h => h ≠ s.mgmt.moduleId
  homes.foldl (fun s h =>
    let mine := (sums.filter fun kv => match s.corpus.dir.get kv.1 with
      | some e => e.home = h
      | none => false).flatMap probePairs
    (chunks 1144 mine).foldl (fun s c => s.addItem h 3 0 false false (drayItem 0x10
      (leBytes 2 c.length ++ leBytes 6 0 ++ (c.map fun kv => leBytes 4 kv.1 ++ leBytes 4 kv.2).flatten))) s) s

/-- A list's drift: the Hamming distances of a sample of 4,096 of its entries from its CSKETCH, of all of them where there are no more
(R226). -/
def State.driftOf (s : State) (e : DirEntry) : Nat × Nat := match s.list e.handle, s.versionOf e.ns e.idx e.version with
  | some l, some v =>
    let view := viewAt l s.usableClosed
    let sks := view.flatMap fun k => match segOf l k with
      | some g => (List.range g.items.length).filterMap fun n =>
          if visibleAt l view g n s.usableClosed then (g.items[n]?).map (·.sketch) else none
      | none => []
    let sample := if sks.length ≤ 4096 then sks
      else (List.range 4096).map fun i => sks.getD (Config.driftSample s.freeCount i % sks.length) 0
    ((sample.map fun k => sketchDiff v k e.csketch).sum, sample.length)
  | _, _ => (0, 0)

/-- Live entries homed here. -/
def State.ownEntries (s : State) : List (Nat × DirEntry) :=
  s.corpus.dir.filter fun kv => kv.2.state = 1 && kv.2.home = s.mgmt.moduleId

/-- Is a split of a list due (R225, R227)? -/
def State.splitDue (s : State) (list : Nat) (e : DirEntry) : Bool :=
  let merge := s.setting 0x2701 4 1000000
  let factor := s.setting 0x2701 5 4
  let shard := s.ownEntries.filter fun kv => kv.2.shard = e.shard && kv.2.ns = e.ns && kv.2.idx = e.idx && kv.2.version = e.version
  let total := (shard.map fun kv => s.maint.sums.getD kv.1 0).sum
  let base := match s.list e.handle with
    | some l => ((l.segs.filter fun kg => kg.2.isBase && kg.2.validUntil.isNone).map fun kg => kg.2.items.length).sum
    | none => 0
  e.items > s.setting 0x2701 3 20000000 || base ≥ 25165824 ||
    (factor > 0 && e.items > 4 * merge && s.maint.sums.getD list 0 * shard.length > factor * total)

/-- The nearest other live list of the same version and shard by CSKETCH, ties to the lower ID (R228). -/
def State.nearestOther (s : State) (v : Version) (list : Nat) (e : DirEntry) : Option Nat :=
  let n := min (widthBits v.width) 256
  let cs := (s.ownEntries.filter fun kv => kv.1 ≠ list && kv.2.shard = e.shard && kv.2.ns = e.ns && kv.2.idx = e.idx &&
    kv.2.version = e.version).map fun kv => (hamming n (kv.2.csketch % 2 ^ n) (e.csketch % 2 ^ n), kv.1)
  (firstBy (fun a b => decide (a.1 < b.1) || (a.1 == b.1 && decide (a.2 < b.2))) cs).map (·.2)

/-- The list that a list merges with, if a merge of the two is due (R228). -/
def State.mergeDue (s : State) (list : Nat) (e : DirEntry) : Option Nat :=
  let merge := s.setting 0x2701 4 1000000
  match s.versionOf e.ns e.idx e.version with
  | none => none
  | some v =>
    match s.nearestOther v list e with
    | none => none
    | some o => match s.corpus.dir.get o with
      | none => none
      | some d =>
        if e.items < merge && d.items < merge && s.nearestOther v o d = some list &&
            2 * (e.items + d.items) < s.setting 0x2701 3 20000000 && list < o then some o else none

/-- Segments of the current views of two lists. -/
def State.viewsOf (s : State) (a b : DirEntry) : Nat :=
  (match s.list a.handle with
    | some l => viewSize l
    | none => 0) +
    match s.list b.handle with
    | some l => viewSize l
    | none => 0

/-- Start the splits and merges that are due, and a re-fit of every live list that has none waiting (R227, R228, R230). -/
def State.evaluateLists (s : State) : State :=
  s.ownEntries.foldl (fun s kv =>
    if s.splitDue kv.1 kv.2 then s.startReorg [kv.1] false
    else match s.mergeDue kv.1 kv.2 with
      | some o => match s.corpus.dir.get o with
        | some d =>
          if s.viewsOf kv.2 d > 16 then (s.startFold kv.2.handle).startFold d.handle else s.startReorg [kv.1, o] true
        | none => s
      | none =>
        if !s.maintRuns || kv.2.items = 0 || s.maint.steps.any fun st => st.2.1 = 0 && st.2.2 = kv.1 then s
        else
          let m := s.maint
          { s with maint := { m with
            steps := m.steps.set m.nextStep (0, kv.1), refitBits := m.refitBits.set m.nextStep (s.setting 0x2701 6 8)
            nextStep := m.nextStep + 1 } }) s

/-- Report the row bytes served for each feature shard in the period to the leader (R364); row sampling starts anew (R365). -/
def State.reportServed (s : State) : State :=
  let r := s.exchange.served.flatMap fun kv => [kv.1, kv.2]
  let s := { s with exchange := { s.exchange with
    served := [], sampled := [], readers := [], featMoved := [], imbalance := s.setting 0x2B00 8 50 } }
  if r.isEmpty then s else s.emit (.report 4 r)

/-- What a maintenance period's end does: probes read, summed and sent, ITEMS counted, folds, splits, merges and re-fits started, tiers and
channels reported, projection changes stepped and started (R225 to R228, R230, R231, R252, R310, R364). -/
def State.runPeriod (s : State) : State :=
  let (s, sums) := s.takeProbes
  let own := sums.filter fun kv => match s.corpus.dir.get kv.1 with
    | some e => e.home = s.mgmt.moduleId
    | none => false
  let total := own.foldl (fun (a : Table Nat) kv => a.put kv.1 0 (a.getD kv.1 0 + kv.2)) s.maint.sums
  let s := { s with maint := { s.maint with sums := total, periodStart := s.time, periodS := s.setting 0x2701 1 10 } }
  let s := s.sendProbes sums
  let count (s : State) (h : Nat) (old : Nat) : Nat := match s.list h with
    | some l => min 0xFFFFFFFF (visibleCount l s.usableClosed)
    | none => old
  let s := s.ownEntries.foldl (fun s kv => s.setEntry kv.1 { kv.2 with items := count s kv.2.handle kv.2.items }) s
  let s : State := { s with
    freeCount := s.freeCount + 1
    maint := { s.maint with drift := s.ownEntries.map fun (kv : Nat × DirEntry) => (kv.1, s.driftOf kv.2) } }
  let s := s.checkFolds.admitReorgs
  let s := s.evaluateLists
  let s := { s with maint := { s.maint with sums := [] } }
  let roll (o : TierObj) : TierObj := { o with readLast := o.readNow, readNow := 0 }
  let s := { s with
    tiers := { s.tiers with objs := s.tiers.objs.mapVals roll }
    flash := { s.flash with levelLast := s.flash.levelNow, levelNow := [] } }
  let s := (s.reportServed.stepProjections).freeTables
  s.catalog.versions.foldl (fun s v =>
    let running := s.maint.projections.any fun kp => kp.2.ns = v.ns && kp.2.idx = v.idx
    let wants := Config.startProjection s.freeCount
    if !(v.state == .current) || running || !s.maintRuns then s
    else
      let s := { s with freeCount := s.freeCount + 1 }
      if wants then s.startProjection v else s) s

/-- MAINT_PERIOD: probes, ITEMS, splits, merges, re-fits, folds, feature balance, projection changes, and what tiers and channels report
of a completed period (R225 to R228, R230, R231, R252, R310, R364). -/
def execMaintPeriod (t : Nat) (s : State) : Host.Outcome State Fault Refusal :=
  .next (let s := s.advance t
    if s.time < s.maint.periodStart + s.maint.periodS * cyclesPerS then s
    else s.runPeriod)

/-- A maintenance step leaves its tensor tiles. -/
def State.dropStep (s : State) (step : Nat) : State :=
  { s with
    pipe := { s.pipe with tensor := s.pipe.tensor.mapVals fun p =>
      { p with running := p.running.filter (fun i => !(i.req.kind == .maint && i.req.owner = step)), suspended := p.suspended.filter (· ≠ step) } }
    maint := { s.maint with steps := s.maint.steps.erase step, refitBits := s.maint.refitBits.erase step } }

/-- A re-fit ends: where the new CSKETCH differs in at least the REFIT_BITS it began with, it takes effect at the next epoch (R230, R245). -/
def State.refitDone (s : State) (list bits : Nat) (centroid : List F32) : State :=
  match s.corpus.dir.get list with
  | some e => match s.versionOf e.ns e.idx e.version with
    | some v => match v.gens.find? fun g => g.num = e.projGen with
      | some g =>
        let s := s.noteNans (s.nansUnder v [g.num] centroid)
        let sk := cutSketch v (s.sketchOf v g.num centroid)
        if e.state = 1 && sketchDiff v sk e.csketch ≥ bits then
          let s := { s with maint := { s.maint with
            dirChanges := s.maint.dirChanges ++ [(⟨s.epochs.open_ + 1, list, { e with csketch := sk, centroid }⟩ : DirChange)] } }
          s.tally 0x2710 0xA
        else s
      | none => s
    | none => s
  | none => s

/-- A projection's fit ends: the version gets the generation, active from the next epoch (R231). -/
def State.fitDone (s : State) (n : Nat) : State :=
  match s.maint.projections.get n with
  | some p => match s.versionOf p.ns p.idx p.ver with
    | some v =>
      let (s, g) := s.fitGen (s.freeGen p.ns p.idx) v.width v.dim (s.epochs.open_ + 1)
      let s := s.updVersion p.ns p.idx p.ver fun v => { v with gens := v.gens ++ [g] }
      { s with maint := { s.maint with projections := s.maint.projections.set n { p with gen := some g.num } } }
    | none => s
  | none => s

/-- MAINT_STEP_COMPLETE: a re-fit's new CSKETCH where it differs in at least REFIT_BITS bits (R230), or the generation that a projection
fit introduces, active from the next epoch (R231). The step must run on tensor tiles. -/
def execMaintStepComplete (step : Nat) (centroid : List F32) (s : State) : Host.Outcome State Fault Refusal :=
  .next (let runs := s.pipe.tensor.any fun kp => kp.2.running.any fun i => i.req.kind == .maint && i.req.owner = step
    match s.maint.steps.get step with
    | some (0, list) =>
      if !runs || !s.maintRuns then s
      else (s.dropStep step).refitDone list (s.maint.refitBits.getD step 8) centroid
    | some (_, n) =>
      if !runs || !s.maintRuns then s
      else (s.dropStep step).fitDone n
    | none => s)

/-! ## Segments and the edge sweep -/

/-- Does a batch refer to a segment? -/
def State.segReferred (s : State) (seg : Nat) : Bool := s.pipe.batches.any fun kb => kb.2.view.contains seg

/-- SEGMENT_FREE: past its VALID_UNTIL, no batch and no admitted query's snapshot needs it; a former list goes with its last segment (R88,
R224, R227). -/
def execSegmentFree (seg : Nat) (s : State) : Host.Outcome State Fault Refusal :=
  .next (match s.corpus.lists.find? fun kl => (kl.2.segs.get seg).isSome with
    | none => s
    | some (h, l) => match l.segs.get seg with
      | none => s
      | some g => match g.validUntil with
        | none => s
        | some u =>
          if s.usableClosed < u || s.segReferred seg || s.snapBelow u || (s.maint.folds.any fun f => f.handle = h && (f.old.contains seg || f.delta = seg)) then s
          else
            let segs := l.segs.erase seg
            let s := (g.objs.filter fun n => !(segs.any fun kg => kg.2.objs.contains n)).foldl (fun s n => s.freeObj n) s
            if l.retired && segs.isEmpty then s.dropList h else s.setList h { l with segs })

/-- The live entries that stand for an edge's target: itself, or a tombstone's successors with matching tags (R105, R112). -/
def State.edgeTargets (s : State) (t : Nat × Nat) : List (Nat × Nat) :=
  match s.corpus.dir.get t.1 with
  | none => []
  | some e =>
    if e.entryGen ≠ t.2 then []
    else if e.state = 1 then [t]
    else if e.state = 2 then (e.succA, e.succAGen) :: (match e.succB with
      | some b => [b]
      | none => [])
    else []

/-- Revalidate the edges of one entry: stale ones go, those to a tombstone name its successors, at most 32 (R112). -/
def State.sweepEdges (s : State) (list : Nat) (e : DirEntry) : DirEntry :=
  { e with edges := ((e.edges.flatMap s.edgeTargets).eraseDups.filter fun t => t.1 ≠ list).take 32 }

/-- Is a tombstone free to go: no edge of this module's table or, as `named` says, of another's names it, and fewer than 255 frees of it in
this period (R112; log 37)? -/
def State.tombstoneFree (s : State) (named : List Nat) (list : Nat) (e : DirEntry) : Bool :=
  e.state = 2 && e.frees < 255 && !named.contains list && !(s.corpus.dir.any fun kv => kv.2.edges.any fun t => t.1 = list)

/-- The edges that the module gives an entry, to live entries of its index other than itself (R106, R538). -/
def State.chosenEdges (s : State) (list : Nat) (targets : List Nat) : Option (List (Nat × Nat)) :=
  match s.corpus.dir.get list with
  | none => none
  | some e =>
    let ok := targets.filterMap fun t => match s.corpus.dir.get t with
      | some d => if t ≠ list && d.state = 1 && d.ns = e.ns && d.idx = e.idx then some (t, d.entryGen) else none
      | none => none
    if e.state ≠ 1 || ok.isEmpty then none else some (ok.eraseDups.take 32)

/-- An edge sweep: every edge revalidated, the given revisions made, and the tombstones that nothing names freed (R112, R538). -/
def State.sweep (s : State) (edges : List (Nat × List Nat)) (named : List Nat) : State :=
  let s := { s with
    maint := { s.maint with sweepStart := s.time, sweepS := s.setting 0x2300 2 10 }
    corpus := { s.corpus with dir := s.corpus.dir.mapVals fun e => { e with frees := 0 } } }
  let s := s.corpus.dir.foldl (fun a kv => a.setEntry kv.1 (a.sweepEdges kv.1 kv.2)) s
  let s := edges.foldl (fun s p => match s.chosenEdges p.1 p.2, s.corpus.dir.get p.1 with
    | some es, some e => s.setEntry p.1 { e with edges := es }
    | _, _ => s) s
  (s.corpus.dir.filter fun kv => s.tombstoneFree named kv.1 kv.2).foldl (fun s kv => s.freeEntry kv.1) s

/-- EDGE_SWEEP: every edge is revalidated, the module's own revisions are made, and eligible tombstones are freed, but for those that the
edge table of another module still names (R112, R538). Shedding step 2 suspends it (R232). -/
def execEdgeSweep (t : Nat) (view : SweepView) (s : State) : Host.Outcome State Fault Refusal :=
  .next (let s := s.advance t
    if s.time < s.maint.sweepStart + s.maint.sweepS * cyclesPerS || !s.maintRuns then s
    else s.sweep view.edges view.named)

end Sys2Proof.Machine
end

