-- ==== Sys2Proof/Machine/Beacons.lean ====
section
/-! DEFINITION. Epochs (R205 to R209, R239, R352, R353): the commands BEACON_EMIT, BEACON_RECEIVE, LEADER_TAKEOVER, EPOCH_CLOSURE_RECORD,
BEACON_GAPS. -/
namespace Sys2Proof.Machine

/-- What a beacon says (R205). -/
structure BeaconBody where
  closed : Nat
  nextLength : Nat
  leader : Nat
  pending : Bool := false
  version : Nat := 0
  switchAt : Nat := 0
  deriving DecidableEq, Repr

/-- The 32 bytes of a beacon. -/
def beaconBytes (b : BeaconBody) : List Byte :=
  leBytes 8 b.closed ++ leBytes 4 b.nextLength ++ leBytes 2 (b.leader % 4096) ++ leBytes 2 (if b.pending then 1 else 0) ++
    leBytes 4 (if b.pending then b.version else 0) ++ leBytes 4 0 ++ leBytes 8 (if b.pending then b.switchAt else 0)

/-- Read a beacon. -/
def parseBeacon (b : List Byte) : BeaconBody :=
  { closed := field b 0 8, nextLength := field b 8 4, leader := bits (field b 12 2) 11 0, pending := bit (field b 14 2) 0
    version := field b 16 4, switchAt := field b 24 8 }

/-- An empty INVALIDATE body to every holder, in every epoch (R367). -/
def State.pingHolders (s : State) : State := s.holders.foldl (fun s p => s.sendInvalidate p []) s

/-- Every list in use has its one open delta under the most recently activated generation, which may just have changed (R223). -/
def State.openDeltas (s : State) : State :=
  ((s.corpus.lists.filter fun kl => !kl.2.retired).map (·.1)).foldl (fun s h => s.needDelta h s.epochs.open_) s

/-- Epoch `closed` + 1 opens: everything scheduled for an epoch takes effect (R107, R206, R227, R234, R237, R356, R359, R369). -/
def State.openEpoch (s : State) (b : BeaconBody) : State :=
  let e := s.epochs
  let s := { s with epochs := { e with
    open_ := b.closed + 1, closing := e.closing ++ [(b.closed, s.time)], nextLength := b.nextLength
    mayStamp := e.mayStamp || decide (b.closed ≥ e.stamped) } }
  let s := (((s.openCatalog.openVersions).openDirectory).switchFolds).openDeltas.syncFeatures
  ((s.openMaps.stepProjections).pingHolders).askLeases

/-- The READY version that a beacon's switch means, by its number alone: one whose switch was asked for here, else the first in the catalog
(R205, R239; log 88). -/
def State.switchMeant (s : State) (ver : Nat) : Option Version :=
  let ready := s.catalog.versions.filter fun v => v.ver = ver && v.state == .ready
  match ready.find? fun v => s.catalog.asked.any fun a => a.2 = (ver, v.ns, v.idx) with
  | some v => some v
  | none => ready.head?

/-- A switch announced in a beacon is remembered until F has opened, so that a new leader repeats it; the command that asked for it here
completes with F (R239, R352). -/
def State.learnSwitch (s : State) (b : BeaconBody) : State :=
  if !b.pending || b.switchAt ≤ s.epochs.open_ then s
  else match s.switchMeant b.version with
    | none => s
    | some v =>
      if s.epochs.switches.any fun t => t.1 = v.ver && t.2.1 = v.ns && t.2.2.1 = v.idx then s
      else
        let s := s.updVersion v.ns v.idx v.ver fun x => { x with switchEpoch := b.switchAt }
        let s := { s with epochs := { s.epochs with switches := s.epochs.switches ++ [(v.ver, v.ns, v.idx, b.switchAt)] } }
        let mine (a : AdminRef × Nat × Nat × Nat) : Bool := a.2 = (v.ver, v.ns, v.idx)
        let done := s.catalog.asked.filter mine
        done.foldl (fun s a => s.adminDone a.1 0 [] (leBytes 8 b.switchAt))
          { s with catalog := { s.catalog with asked := s.catalog.asked.filter fun a => !mine a } }

/-- Cycles of the epoch length in force. -/
def State.epochCycles (s : State) : Nat := s.epochs.nextLength * cyclesPerUs

/-- BEACON_EMIT: the leader closes its open epoch, one epoch length after its last beacon, and announces a pending switch (R205, R239). -/
def execBeaconEmit (t : Nat) (s : State) : Host.Outcome State Fault Refusal :=
  .next (let s := s.advance t
    let e := s.epochs
    if !s.leads || s.time < e.lastEmit + s.epochCycles then s
    else
      let due := firstBy (fun (a b : Nat × Nat × Nat × Nat) => decide (a.2.2.2 < b.2.2.2)) (e.switches.filter fun t => decide (t.2.2.2 > e.open_))
      let b : BeaconBody := { closed := e.open_, nextLength := s.setting 0x2700 1 1000, leader := s.mgmt.moduleId, pending := due.isSome
                              version := (due.map (·.1)).getD 0, switchAt := (due.map (·.2.2.2)).getD 0 }
      let s := if s.mgmt.sealed_ then s.sendAllPorts none 5 (beaconBytes b) else s
      let s := { s with epochs := { s.epochs with
        lastEmit := s.time, lastBeacon := s.time, gap := false, timeoutMs := s.setting 0x2700 2 100, leader := s.mgmt.moduleId } }
      s.openEpoch b)

/-- A beacon's arrival as such: the timeout starts anew, and a leader of lower rank ends this one's leading (R208, R352). -/
def State.noteBeacon (s : State) (b : BeaconBody) : State :=
  let lower : Bool := match s.rankOf s.mgmt.moduleId, s.rankOf b.leader with
    | some mine, some its => decide (its < mine)
    | _, _ => false
  { s with
    epochs := { s.epochs with
      lastBeacon := s.time, gap := false, timeoutMs := s.setting 0x2700 2 100
      lastLower := if lower then s.time else s.epochs.lastLower, leading := s.epochs.leading && !lower
      leader := if s.epochs.leading && !lower then s.epochs.leader else b.leader } }

/-- BEACON_RECEIVE: a beacon opens the epoch after the one it closes, closes every earlier one, and is relayed on every other UP port
(R206, R353). A beacon that closes nothing is discarded. -/
def execBeaconReceive (port : Nat) (beacon : List Byte) (s : State) : Host.Outcome State Fault Refusal :=
  .next (if !s.mgmt.sealed_ || beacon.length ≠ 32 then s
    else
      let b := parseBeacon beacon
      let s := s.noteBeacon b
      if b.closed < s.epochs.open_ then s
      else
        let s := s.learnSwitch b
        (s.sendAllPorts (some port) 5 beacon).openEpoch b)

/-- LEADER_TAKEOVER: the candidate of rank r becomes leader after (r + 1) × BEACON_TIMEOUT without a beacon of a lower rank (R352). -/
def execLeaderTakeover (t : Nat) (s : State) : Host.Outcome State Fault Refusal :=
  .next (let s := s.advance t
    match s.rankOf s.mgmt.moduleId with
    | some r =>
      if !s.mgmt.sealed_ || s.epochs.leading || s.time < s.epochs.lastLower + (r + 1) * s.epochs.timeoutMs * cyclesPerMs then s
      else { s with epochs := { s.epochs with leading := true, leader := s.mgmt.moduleId, lastEmit := s.time - s.epochCycles } }
    | none => s)


/-- Has every holder of a row written in an epoch or earlier acknowledged, or has its lease expired (R207, R366)? -/
def State.replicasSettled (s : State) (e : Nat) : Bool :=
  s.exchange.replicasOut.all fun r => !(r.unacked.any fun x => decide (x ≤ e)) ||
    decide (s.time > s.leaseEnd (s.exchange.invalSent.getD r.peer (0, 0)))

/-- EPOCH_CLOSURE_RECORD: the oldest epoch that a beacon has closed is recorded closed, in the cycle after the last of the three events of
R207; the gap is counted in CLOSE_LAG_CYCLES. -/
def execEpochClosureRecord (s : State) : Host.Outcome State Fault Refusal :=
  .next (match s.epochs.closing with
    | [] => s
    | (e, at_) :: rest =>
      if !s.writesSettled e || !s.replicasSettled e then s
      else
        let last := ((s.epochs.settled.filter fun kv => kv.1 ≤ e).map (·.2)).foldl max at_
        let s := s.advance (last + 1)
        let s := { s with epochs := { s.epochs with
          closing := rest, prevClosed := s.usableClosed, closed := e, closedAt := s.time
          settled := s.epochs.settled.filter fun kv => decide (kv.1 > e) } }
        s.count (objKey 0x2710 2) (s.time - at_))

/-- BEACON_GAPS: no beacon for BEACON_TIMEOUT: counted once, with one STATE record of the latest closed epoch and the open epoch (R208). -/
def execBeaconGaps (t : Nat) (s : State) : Host.Outcome State Fault Refusal :=
  .next (let s := s.advance t
    if s.epochs.gap || s.time < s.epochs.lastBeacon + s.epochs.timeoutMs * cyclesPerMs then s
    else
      let s := ({ s with epochs := { s.epochs with gap := true } } : State).tally 0x2710 6
      s.logState 0x2700 2 unitModule s.epochs.closed s.epochs.open_)

end Sys2Proof.Machine
end

