-- ==== Sys2Proof/Machine/Flash.lean ====
section
/-! DEFINITION. The flash translation layer (R279 to R311): the commands FLASH_UNIT_READ, PAGE_PROGRAM_COMPLETE, DISCARD,
JOURNAL_PAGE_PROGRAM, CHECKPOINT_START, CHECKPOINTS, GC_VICTIM, SB_ERASE, ERASE_COMPLETE, DIES_RETIRED, BUFFER_GRANT. -/
namespace Sys2Proof.Machine

/-! ## Wear (R305) -/

/-- Does a die have a spare block left: 48 as shipped (R281)? -/
def State.spareLeft (s : State) (r c : Nat) : Bool := (s.row r).spares.getD c 0 < 48

/-- A die leaves service: its row narrows, and its superblocks are refreshed (R306, R307). -/
def State.retireDie (s : State) (chan die : Nat) : State :=
  if (s.row die).retired.contains chan then s
  else
    let others := (s.row die).retired
    let (s, _) := s.journal 7 die 0 chan 0 0
    let s := s.updRow die fun w => { w with retired := w.retired ++ [chan] }
    let hit := (s.row die).sbs.filter fun kv => (kv.2.state = 1 || kv.2.state = 2) && bit kv.2.chMask chan
    let both := (hit.filter fun kv => others.any fun c => bit kv.2.chMask c).map (·.1)
    let lost := (s.flash.map.filter fun kv => kv.1 % 16 = die && both.contains (bits kv.2 30 18) &&
      (s.row die).retired.contains ((s.locate kv.1 kv.2).1 % 32)).length
    let s := (hit.map (·.1)).foldl (fun s n => s.updSb die n fun b => { b with refresh := true }) s
    let s := (s.tally 0x2910 0xC).markRetired (unitDie chan die)
    let s := if lost > 0 then s.logEvent 0x2910 0xC 2 (unitDie chan die) (leBytes 8 lost) else s
    (s.checkReadOnly.setThrottle).settle

/-- The block of a superblock on a channel is retired: its superblock is marked for refresh, and a spare takes its place at the next erase.
A die that has no spare left retires (R305, R306). -/
def State.retireBlock (s : State) (r n c : Nat) : State :=
  if (s.sb r n).retire.contains c then s
  else
    let s := s.updSb r n fun b => { b with retire := b.retire ++ [c], refresh := true }
    let s := ((s.tally 0x2910 0xB).score (unitDie c r) 100).settle
    if s.spareLeft r c then s else s.retireDie c r

/-! ## Reads (R285, R289) -/

/-- A read at a retry level: counted, the level noted, the die scored; level 8 or above marks the superblock for refresh. -/
def State.retryRead (s : State) (r n c level : Nat) : State :=
  let s := s.tally (0x2920 + c) 4
  let f := s.flash
  let s := { s with flash := { f with levelNow := f.levelNow.set c (max level (f.levelNow.getD c 0)) } }
  if level ≥ 8 then ((s.updSb r n fun b => { b with refresh := true }).score (unitDie c r) 10).settle
  else
    let k := c * 16 + r
    let m := s.flash.retried.getD k 0 + 1
    let s := { s with flash := { s.flash with retried := s.flash.retried.set k m } }
    if m % 10000 = 0 then (s.score (unitDie c r) 1).settle else s

/-- A unit rebuilt from the wain: rewritten through the GC stream, counted, its die scored; a second one retires the block. -/
def State.rebuildUnit (s : State) (lba entry : Nat) (data : List Byte) (r n c : Nat) : State :=
  let s := ((s.tally 0x2910 5).score (unitDie c r) 50).settle
  let k := (r * rowSbs + n) * 32 + c
  let m := s.flash.rebuilt.getD k 0 + 1
  let s := { s with flash := { s.flash with rebuilt := s.flash.rebuilt.set k m } }
  let s := if m = 2 then s.retireBlock r n c else s
  let others := (maskChannels (s.sb r n).chMask).filter (· ≠ c)
  let s := others.foldl (fun s d => s.count (objKey (0x2920 + d) 1) 4096) s
  s.assignUnit 1 lba data (some entry)

/-- FLASH_UNIT_READ: zeros for an unmapped unit; the buffer for a unit not yet programmed; else the level at which it decoded, a rebuild,
or FAILED (R285, R287, R289, R306). -/
def execFlashUnitRead (lba : Nat) (level : Option Nat) (rebuilt : Bool) (s : State) : Host.Outcome State Fault Refusal :=
  .next (
    let entry := s.flash.map.getD lba 0
    if entry = 0 then s.tally 0x2910 4
    else
      let at_ := s.locate lba entry
      let (r, n, _, c) := keyParts at_.1
      let p := s.flash.pages.getD at_.1 { units := [] }
      let data := match p.units[at_.2]? with
        | some u => u.data
        | none => []
      if p.state < 2 then s
      else
        let s := ((s.wake .onfi c 2).count (objKey (0x2920 + c) 1) 4096).spendCycles (0x2920 + c) 3
        let dead := (s.row r).retired.contains c
        let second := (maskChannels (s.sb r n).chMask).any fun d => d ≠ c && (s.row r).retired.contains d
        match if dead && second then none else level with
        | some l =>
          if dead then s.rebuildUnit lba entry data r n c
          else if l = 0 then s
          else s.retryRead r n c (min 15 l)
        | none =>
          let s := if dead then s else s.retryRead r n c 15
          if rebuilt && !second then s.rebuildUnit lba entry data r n c else (s.tally 0x2910 6).tally 0x2810 6)

/-! ## Programs (R287, R290) -/

/-- A wain's data pages are all programmed: its parity page starts its program (R287). -/
def State.tryParity (s : State) (r n p : Nat) : State :=
  let mask := (s.sb r n).chMask
  let k := pageKey r n p (parityChan mask n p)
  let done := (dataChans mask n p).all fun c => match s.flash.pages.get (pageKey r n p c) with
    | some x => x.state ≥ 2
    | none => false
  match s.flash.pages.get k with
  | some x => if done && x.parity && x.state = 0 && !s.jWaits 2 r n then s.issueProgram k else s
  | none => s

/-- Every page that waits to start its program is tried again: a journal record became durable, or a row's share of slots rose (R294,
R303). -/
def State.startPages (s : State) : State :=
  let waiting := (s.flash.pages.filter fun kp => kp.2.state = 0).map (·.1)
  waiting.foldl (fun s k =>
    let (r, n, w, _) := keyParts k
    (s.tryProgram k).tryParity r n w) s

/-- Counter of programmed data bytes of a stream: DATA, GC, LOG (R309). -/
def progCounter (stream : Nat) : Nat := match stream with
  | 0 => 1
  | 1 => 2
  | _ => 3

/-- The units of a page that could not be programmed are assigned again in the same stream and row, while the map still names them there
(R290). -/
def State.reassign (s : State) (k : Nat) (p : FlashPage) : State :=
  ((List.range 4).zip p.units).foldl (fun s iu =>
    let u := iu.2
    let entry := s.flash.map.getD u.lba 0
    if entry = 0 || s.locate u.lba entry ≠ (k, iu.1) then s
    else if u.gc then s.assignUnit p.stream u.lba u.data (some entry) else s.assignUnit p.stream u.lba u.data none) s

/-- PAGE_PROGRAM_COMPLETE: a page is programmed, or its units are assigned again and its block is retired (R287, R290, R294, R305). -/
def execPageProgramComplete (page : Nat) (ok : Bool) (s : State) : Host.Outcome State Fault Refusal :=
  .next (match s.flash.pages.get page with
    | none => s
    | some p =>
      let (r, n, w, c) := keyParts page
      if p.state ≠ 1 || s.jWaits 2 r n then s
      else
        let s := s.advance p.startAt
        let s := (s.freeBuffers page p).count (objKey (0x2920 + c) 2) 16384
        if ok then
          let s := { s with flash := { s.flash with pages := s.flash.pages.alter page fun p => { p with state := 2 } } }
          let s := if p.parity then s else s.count (objKey 0x2910 (progCounter p.stream)) (4096 * p.units.length)
          ((s.tryParity r n w).freeRow r).setThrottle
        else
          let s := { s with flash := { s.flash with pages := s.flash.pages.alter page fun p => { p with state := 3 } } }
          let s := s.tally 0x2910 9
          let s := if p.parity then s else s.reassign page p
          ((s.retireBlock r n c).tryParity r n w).setThrottle)

/-! ## Discards and the journal (R285, R293) -/

/-- DISCARD: acknowledged when its records are durable. -/
def execDiscard (first count owner : Nat) (s : State) : Host.Outcome State Fault Refusal :=
  .next (if count = 0 || first + count > 2 ^ 35 then s else s.discard first count owner)

/-- A journal page of up to 512 records is programmed: its records are durable, and the discards among them are acknowledged (R285, R293). -/
def State.journalPage (s : State) : State :=
  let f := s.flash
  let done := f.jPending.take 512
  let last := (done.map (·.seq)).foldl max 0
  let acks := f.discards.filter fun (d : Nat × Nat) => decide (d.1 ≤ last)
  let s := { s with flash := { f with
    jPending := f.jPending.drop 512, jDurable := f.jDurable ++ done
    discards := f.discards.filter fun (d : Nat × Nat) => decide (d.1 > last) } }
  let s := s.count (objKey 0x2910 3) 16384
  State.startPages (acks.foldl (fun s d => if d.2 = 0 then s else s.emit (.report 7 [d.2, d.1])) s)

/-- JOURNAL_PAGE_PROGRAM: a page of up to 512 records is programmed, when 16 KiB are pending or 200 µs after the first; what waits for its
records goes on (R285, R293). -/
def execJournalPageProgram (t : Nat) (s : State) : Host.Outcome State Fault Refusal :=
  .next (let s := s.advance t
    let f := s.flash
    match f.jPending with
    | [] => s
    | j :: _ => if f.jPending.length < 512 && s.time < j.madeAt + 200 * cyclesPerUs then s else s.journalPage)

/-! ## Checkpoints (R295) -/

/-- Entries of a map segment. -/
def State.segEntries (s : State) (g : Nat) : List (Nat × Nat) := s.flash.map.filter fun kv => kv.1 / 1024 = g

/-- A checkpoint begins: CKPT_BEGIN, the superblock table, and a copy of every map segment that has changed since its last copy. -/
def State.startCheckpoint (s : State) : State :=
  let c := s.flash.ckpt
  let id := c.id + 1
  let (s, start) := s.journal 8 0 0 0 id 0
  let changed := s.flash.segSeqs.filter fun kv => match s.flash.segCopies.get kv.1 with
    | some x => decide (x.2.1 < kv.2)
    | none => true
  let copies : Table (Nat × Nat × List (Nat × Nat)) := changed.map fun kv => (kv.1, (id, kv.2, s.segEntries kv.1))
  let table : SbTable := s.flash.rows.flatMap fun kr => kr.2.sbs.map fun kb => (kr.1 * rowSbs + kb.1, kb.2)
  { s with flash := { s.flash with
    segNew := copies, tableNew := table
    ckpt := { c with id, running := true, startSeq := start, startedAt := s.time, opened := 0, segSeq := (changed.map (·.2)).foldl max 0 } } }

/-- CHECKPOINT_START: CKPT_INTERVAL after the last one began, or after CKPT_SB_LIMIT superblocks (R295). -/
def execCheckpointStart (t : Nat) (s : State) : Host.Outcome State Fault Refusal :=
  .next (let s := s.advance t
    let c := s.flash.ckpt
    if c.running || (s.time < c.startedAt + s.setting 0x2900 4 30 * cyclesPerS && c.opened < s.setting 0x2900 5 64) then s
    else s.startCheckpoint)

/-- A checkpoint ends: CKPT_END is recorded, and its copies are those that a start reads (R295). -/
def State.endCheckpoint (s : State) : State :=
  let c := s.flash.ckpt
  let s := s.count (objKey 0x2910 3) (16384 * ceilDiv (s.flash.segNew.length + ceilDiv s.flash.tableNew.length 1024) 4)
  let (s, _) := s.journal 9 0 0 0 c.id c.startSeq
  let s := { s with flash := { s.flash with
    segCopies := s.flash.segNew.foldl (fun (t : Table (Nat × Nat × List (Nat × Nat))) (kv : Nat × Nat × Nat × List (Nat × Nat)) => Table.set t kv.1 kv.2) s.flash.segCopies
    segNew := [], tableCopy := s.flash.tableNew, tableNew := [], startSeq := c.startSeq
    ckpt := { c with running := false, lastComplete := c.id } } }
  s.tally 0x2910 0xD

/-- CHECKPOINTS: every copy, and every item up to the highest SEG_SEQ, is durable: CKPT_END is recorded. -/
def execCheckpoints (s : State) : Host.Outcome State Fault Refusal :=
  .next (
    let c := s.flash.ckpt
    let waits := (s.flash.jPending.any fun j => decide (j.seq ≤ c.segSeq)) ||
      s.flash.pages.any fun kp => kp.2.state < 2 && !kp.2.parity && kp.2.units.any fun u => decide (u.seq ≤ c.segSeq)
    if !c.running || waits then s
    else
      s.endCheckpoint)

/-! ## Collection (R302 to R304) -/

/-- The victim of a row: one marked for refresh; every 256th the coldest by wear; else the one with fewest valid units (R304). -/
def State.chooseVictim (s : State) (r : Nat) : Option Nat :=
  let closed := (s.row r).sbs.filter fun kv => kv.2.state = 2
  let byValid (a b : Nat × Superblock) : Bool :=
    let x := s.validUnits r a.1
    let y := s.validUnits r b.1
    decide (x < y) || (x == y && (decide (a.2.erases < b.2.erases) || (a.2.erases == b.2.erases && decide (a.1 < b.1))))
  let marked := closed.filter fun kv => kv.2.refresh
  let highest := ((s.row r).sbs.map fun kv => kv.2.erases).foldl max 0
  let coldest := firstBy (fun (a b : Nat × Superblock) => decide (a.2.erases < b.2.erases) || (a.2.erases == b.2.erases && decide (a.1 < b.1))) closed
  let plain := (firstBy byValid closed).map (·.1)
  if !marked.isEmpty then (firstBy byValid marked).map (·.1)
  else if ((s.row r).victims + 1) % 256 = 0 then
    match coldest with
    | some c => if c.2.erases + s.setting 0x2900 6 200 ≤ highest then some c.1 else plain
    | none => plain
  else plain

/-- Does a row collect: below GC_BG_FREE until 16 above it, or with a superblock to refresh; not from shedding step 2 on (R302, R306)? -/
def State.collects (s : State) (r : Nat) : Bool :=
  let f := s.freeSbs r
  let bg := s.setting 0x2900 1 96
  s.upkeepRuns && !s.flash.flushing &&
    (f < bg || ((s.row r).collecting && f < bg + 16) || (s.row r).sbs.any fun kv => kv.2.state = 2 && kv.2.refresh)

/-- The valid units of a victim are copied through the GC stream (R292, R304). -/
def State.collectSb (s : State) (row n : Nat) : State :=
  let s := s.updRow row fun w => { w with collecting := true, victims := w.victims + 1 }
  let units := s.flash.map.filter fun kv => kv.1 % 16 = row && bits kv.2 30 18 = n
  let s := units.foldl (fun s kv =>
    let at_ := s.locate kv.1 kv.2
    let data := match (s.flash.pages.getD at_.1 { units := [] }).units[at_.2]? with
      | some u => u.data
      | none => []
    let (_, _, _, c) := keyParts at_.1
    (s.count (objKey (0x2920 + c) 1) 4096).assignUnit 1 kv.1 data (some kv.2)) s
  (s.tryFree row n).setThrottle

/-- GC_VICTIM: a row under collection takes a victim and copies its valid units through the GC stream (R292, R302 to R304). -/
def execGcVictim (row : Nat) (s : State) : Host.Outcome State Fault Refusal :=
  .next (
    if row ≥ 16 || !s.collects row then (if row < 16 then s.updRow row fun w => { w with collecting := false } else s)
    else match s.chooseVictim row with
      | none => s
      | some n =>
        s.collectSb row n)

/-- The erase of a superblock starts on its dies, 20 ms after the last erase of any of them at the earliest (R280). -/
def State.startErase (s : State) (row sb : Nat) : State :=
  let b := s.sb row sb
  let dies := (maskChannels b.chMask).map fun c => c * 16 + row
  let at_ := (dies.filterMap fun d => (s.flash.lastErase.get d).map fun c => c + 20 * cyclesPerMs).foldl max s.time
  let s := (maskChannels b.chMask).foldl (fun s c => s.wake .onfi c 4) s
  let s := { s with flash := { s.flash with lastErase := dies.foldl (fun t d => Table.set t d at_) s.flash.lastErase } }
  s.updSb row sb fun b => { b with erasing := true }

/-- SB_ERASE: a freed superblock is erased once SB_FREE is durable, at most one erase on a die in 20 ms (R280, R294). -/
def execSbErase (row sb : Nat) (s : State) : Host.Outcome State Fault Refusal :=
  .next (
    let s := s.tryFree row sb
    let b := s.sb row sb
    if row ≥ 16 || b.state ≠ 3 || b.erasing || s.flash.flushing || s.jWaits 4 row sb then s
    else
      s.startErase row sb)

/-- A retired block is replaced by a spare of its die, or the superblock drops the channel; a die without a spare retires (R305, R306). -/
def State.replaceBlock (s : State) (r n c : Nat) : State :=
  let old := ((s.sb r n).blocks.find? fun b => b.1 = c).map (·.2)
  let block := old.getD n
  let used := (s.row r).spares.getD c 0
  let new := if s.spareLeft r c then 8064 + used else 0xFFFF
  let (s, _) := s.journal 6 r n (c + 65536 * new) block 0
  let s := if s.spareLeft r c then s.updRow r fun w => { w with spares := w.spares.set c (used + 1) } else s
  s.updSb r n fun b => { b with blocks := (b.blocks.filter fun x => x.1 ≠ c) ++ [(c, new)] }

/-- An erase has ended, a block of it possibly failed: retired blocks are replaced and SB_ERASED is recorded (R304, R305). -/
def State.eraseDone (s : State) (row sb : Nat) (failed : Option Nat) : State :=
  let b := s.sb row sb
  let s := s.advance (((maskChannels b.chMask).map fun c => s.flash.lastErase.getD (c * 16 + row) 0).foldl max 0)
  let s := match failed with
    | some c => if bit b.chMask c then (s.tally 0x2910 0xA).retireBlock row sb c else s
    | none => s
  let s := { s with flash := { s.flash with
    pages := s.flash.pages.keep fun k _ => k / 32 / 2048 ≠ row * rowSbs + sb
    rebuilt := s.flash.rebuilt.keep fun k _ => k / 32 ≠ row * rowSbs + sb } }
  let s := (s.sb row sb).retire.foldl (fun s c => s.replaceBlock row sb c) s
  let s := s.updSb row sb fun b => { b with state := 0, erasing := false, erases := b.erases + 1, retire := [], refresh := false, page := 0, slot := 0 }
  let (s, _) := s.journal 5 row sb (b.erases + 1) 0 0
  (s.setThrottle).checkReadOnly.startPages

/-- ERASE_COMPLETE: the superblock is free again and SB_ERASED is recorded; a block that failed is retired, and retired blocks are replaced
(R293, R304, R305). -/
def execEraseComplete (row sb : Nat) (failed : Option Nat) (s : State) : Host.Outcome State Fault Refusal :=
  .next (
    let b := s.sb row sb
    if row ≥ 16 || !b.erasing then s
    else
      s.eraseDone row sb failed)

/-! ## Dies (R306, R307) -/


/-- DIES_RETIRED: a die leaves service: its superblocks are marked for refresh, its row narrows, and the module may become read-only. -/
def execDiesRetired (chan die : Nat) (s : State) : Host.Outcome State Fault Refusal :=
  .next (
    if chan ≥ 32 || die ≥ 16 then s else s.retireDie chan die)

/-! ## Buffers (R301) -/

/-- BUFFER_GRANT: a channel's freed buffers go to the request that has waited longest there. -/
def execBufferGrant (chan : Nat) (write : Bool) (s : State) : Host.Outcome State Fault Refusal :=
  .next (
    let ch := s.flash.chans.getD chan {}
    match ch.writeWait with
    | [] => s
    | k :: rest =>
      if !write then s
      else
        let grant (ch : FlashChan) (shared : Bool) : State := ({ s with flash := { s.flash with
          chans := s.flash.chans.set chan { ch with writeWait := rest }
          pages := s.flash.pages.alter k fun p => { p with shared, buffered := true } } } : State).tryProgram k
        if ch.writeBufs + 4 ≤ 256 then grant { ch with writeBufs := ch.writeBufs + 4 } false
        else if s.sharedFree ≥ 4 && (ch.sharedBufs + 4) * 100 ≤ 47104 * s.setting 0x2900 7 25 then
          grant { ch with sharedBufs := ch.sharedBufs + 4 } true
        else s)

end Sys2Proof.Machine
end

