-- ==== Sys2Proof/Machine/Receipts.lean ====
section
/-! DEFINITION. Receipt periods, trees and proofs (R242 to R244, R402), and the module's identity (R400, R454): the commands
RECEIPT_PERIOD_END, RECEIPT_TREES, RECEIPT_ERASE, RECEIPT_PROOF, IDENTITY. -/
namespace Sys2Proof.Machine

/-! ## The Merkle tree (R242) -/

/-- Hash of a leaf. -/
def leafHash (x : List Byte) : List Byte := shake256 (0 :: x) 64
/-- Hash of two nodes. -/
def nodeHash (a b : List Byte) : List Byte := shake256 (1 :: (a ++ b)) 64

/-- The next level: each adjacent pair, an unpaired last node unchanged. -/
def nextLevel : List (List Byte) → List (List Byte)
  | a :: b :: rest => nodeHash a b :: nextLevel rest
  | xs => xs

/-- The single node left of a level. -/
def rootFuel : Nat → List (List Byte) → List Byte
  | 0, xs => xs.headD []
  | n + 1, xs => if xs.length ≤ 1 then xs.headD [] else rootFuel n (nextLevel xs)

/-- The root of a period's leaves. -/
def merkleRoot (leaves : List (List Byte)) : List Byte :=
  if leaves.isEmpty then shake256 [2] 64 else rootFuel leaves.length (leaves.map leafHash)

/-- The sibling hashes of a position, from level 0 upwards. -/
def siblingsFuel : Nat → List (List Byte) → Nat → List (List Byte)
  | 0, _, _ => []
  | n + 1, xs, i =>
    if xs.length ≤ 1 then []
    else
      let here := if i % 2 = 1 then [xs.getD (i - 1) []] else if i + 1 = xs.length then [] else [xs.getD (i + 1) []]
      here ++ siblingsFuel n (nextLevel xs) (i / 2)

/-- The sibling hashes of a leaf's proof (R244). -/
def proofSiblings (leaves : List (List Byte)) (i : Nat) : List (List Byte) := siblingsFuel leaves.length (leaves.map leafHash) i

/-! ## Keys (R454) -/

/-- The identity key's Ed448 secret. -/
def identitySecret : List Byte := shake256 (Config.pufRoot ++ ascii "ZR96-ID") 57

/-! ## Trees (R243) -/

/-- A tree header but for PREV_DIGEST, which is filled in as it is signed. -/
def State.treeHeader (s : State) (recovered : Bool) : List Byte :=
  let r := s.receipts
  ascii "ZRRCPT01" ++ leBytes 2 (s.mgmt.moduleId % 4096) ++ leBytes 2 0 ++ leBytes 4 (if recovered then 1 else 0) ++ leBytes 8 r.nextTree ++
    leBytes 8 (r.nextLeaf - r.open_.length) ++ leBytes 4 r.open_.length ++ leBytes 4 0 ++ leBytes 8 (r.periodStart * 32768 / cyclesPerS) ++
    leBytes 8 s.epochs.closed ++ merkleRoot r.open_ ++ leBytes 136 0

/-- Cycles of a receipt period: 100 ms. -/
abbrev receiptPeriod : Nat := 160000000

/-- Close the open period: the last unit of its leaves goes to flash, its tree is built and waits for its signature (R242, R243). -/
def State.closePeriod (s : State) (recovered : Bool) (nextStart : Nat) : State :=
  let s := s.receiptWrite (List.replicate ((4096 - s.receipts.buffer.length % 4096) % 4096) 0)
  let r := s.receipts
  let t : Tree := { seq := r.nextTree, first := r.nextLeaf - r.open_.length, leaves := r.open_, header := s.treeHeader recovered
                    periodStart := r.periodStart, units := r.units }
  { s with receipts := { r with open_ := [], units := [], trees := r.trees ++ [t], nextTree := r.nextTree + 1, periodStart := nextStart } }

/-- Sign the header of a tree and write it to the receipt log (R243, R455). -/
def State.sealTree (s : State) (seq : Nat) : State :=
  let r := s.receipts
  match r.trees.find? fun t => t.seq = seq && !t.durable with
  | none => s
  | some t =>
    if r.trees.any fun u => u.seq < seq && !u.durable then s
    else
      let header := t.header.take 120 ++ slice r.prevDigest 0 64 ++ leBytes 72 0
      let sig := edSign (ascii "ZR96RCPT") identitySecret header
      let (s, us) := (s.spendCycles 0x2E0C 8).storeBytes (header ++ sig)
      let u : Tree := { t with header, signature := sig, durable := true, units := t.units ++ us }
      ({ s with receipts := { s.receipts with
        trees := replaceFirst (fun x => x.seq = seq) (fun _ => u) r.trees, prevDigest := shake256 (header ++ sig) 64 } } : State).tally 0x2710 0xC

/-- RECEIPT_PERIOD_END: a 100 ms period of the real-time counter ends (R242). -/
def execReceiptPeriodEnd (t : Nat) (s : State) : Host.Outcome State Fault Refusal :=
  .next (let s := s.advance t
    if s.time ≥ s.receipts.periodStart + receiptPeriod then s.closePeriod false (s.receipts.periodStart + receiptPeriod) else s)

/-- RECEIPT_TREES (R243). -/
def execReceiptTrees (seq : Nat) (s : State) : Host.Outcome State Fault Refusal := .next (s.sealTree seq)

/-- RECEIPT_ERASE: the periods that RECEIPT_RETAIN has passed, oldest first, with what the receipt log holds of them (R244). -/
def execReceiptErase (t : Nat) (s : State) : Host.Outcome State Fault Refusal :=
  .next (let s := s.advance t
    let old (x : Tree) : Bool :=
      x.durable && decide (s.time ≥ x.periodStart + receiptPeriod + s.setting 0x2702 1 24 * 3600 * cyclesPerS)
    let gone := s.receipts.trees.takeWhile old
    ({ s with receipts := { s.receipts with trees := s.receipts.trees.dropWhile old } } : State).discardUnits (gone.flatMap (·.units)))

/-- A leaf by its LEAF_SEQ, with its tree once that is signed. -/
def State.leafAt (s : State) (n : Nat) : Option (List Byte × Option Tree) :=
  let r := s.receipts
  match r.trees.find? fun t => decide (t.first ≤ n) && decide (n < t.first + t.leaves.length) with
  | some t => some (t.leaves.getD (n - t.first) [], if t.durable then some t else none)
  | none =>
    let first := r.nextLeaf - r.open_.length
    if first ≤ n then (r.open_[n - first]?).map fun l => (l, none) else none

/-- RECEIPT_PROOF (R244, R400, R402). -/
def execReceiptProof (cmd : AdminCmd) (s : State) : Host.Outcome State Fault Refusal :=
  .next (s.adminCommand cmd 0x50 8 true false fun s r =>
    let n := field cmd.entry 48 8
    match s.leafAt n with
    | none => s.adminDone r 0x500 [] []
    | some (leaf, tree) =>
      if cmd.fn ≠ 0 && field leaf 20 2 ≠ (s.fnState cmd.fn).tenant then s.adminDone r 1 [] []
      else match tree with
        | none => s.adminDone r 0x501 [] []
        | some t =>
          let sibs := proofSiblings t.leaves (n - t.first)
          s.adminDone r 0 (slice leaf 0 448 ++ slice t.header 0 256 ++ slice t.signature 0 114 ++ leBytes 2 0 ++ leBytes 4 sibs.length ++
            sibs.flatten) [])

/-- IDENTITY (R400): module ID and identity public key. -/
def execIdentity (cmd : AdminCmd) (s : State) : Host.Outcome State Fault Refusal :=
  .next (s.adminCommand cmd 0x51 0 true false fun s r =>
    s.adminDone r 0 (leBytes 2 s.mgmt.moduleId ++ leBytes 6 0 ++ edPublic identitySecret) [])

end Sys2Proof.Machine
end

