-- ==== Sys2Proof/Machine/FnOps.lean ====
section
/-! DEFINITION. A function's work ends and its registers return to reset: Function Level Reset, Bus Master Enable, module reset (R380, R381,
R494). -/
namespace Sys2Proof.Machine

/-- Nobody waits any more for the commands of a function. -/
def State.forgetCommands (s : State) (fn : Nat) : State :=
  let drop (c : Option AdminRef) : Option AdminRef := c.filter fun r => r.fn ≠ fn
  let keep (w : WaitReq) : Bool := match w.owner with
    | .admin r => decide (r.fn ≠ fn)
    | _ => true
  { s with
    dict := { s.dict with waitingReqs := s.dict.waitingReqs.filter keep }
    catalog := { s.catalog with
      pending := s.catalog.pending.map fun p => { p with cmd := drop p.cmd }
      forwarded := s.catalog.forwarded.map fun p => { p with cmd := drop p.cmd }
      asked := s.catalog.asked.filter fun a => a.1.fn ≠ fn }
    installs := s.installs.map fun i => { i with cmd := drop i.cmd }
    tiers := { s.tiers with calls := s.tiers.calls.mapVals fun c => match c.owner with
      | .admin r => if r.fn = fn then { c with owner := .nobody } else c
      | _ => c } }

/-- Is a piece of held work a record or row write of one of this module's own batches that a test picks: one that waits here and has not
been sent to its home (R358)? -/
def State.heldOfBatch (s : State) (p : IngestBatch → Bool) (h : HeldWork) : Bool :=
  h.source = s.mgmt.moduleId && (field h.item 0 1 = 6 || field h.item 0 1 = 9) && (s.corpus.batches.get (field h.item 8 8 / 4096)).any p

/-- Every query and ingest batch of a function that is fetched and not completed ends with RETRY; nothing is delivered, a query's leaf
and metering are made, and records of a batch that wait here go with it (R2, R381). An entry taken and not yet read is not fetched: it is
forgotten. -/
def State.endFnWork (s : State) (fn : Nat) : State :=
  let qs := (s.pipe.queries.filter fun kq => kq.2.fn = fn && kq.2.adopted.isNone).map (·.1)
  let s := qs.foldl (fun s q => s.retryQuery q false) s
  { s.forgetCommands fn with
    exchange := { s.exchange with held := s.exchange.held.filter fun h => !s.heldOfBatch (fun b => b.fn = fn) h }
    corpus := { s.corpus with batches := s.corpus.batches.keep fun _ b => b.fn ≠ fn }
    host := { s.host with taken := s.host.taken.filter fun e => e.fn ≠ fn } }

/-- A Function Level Reset: the work ends, and rings, windows, MSI-X table, event and basic-level registers take their reset values;
level, tenant and the snapshot block stay (R381, R453; log 3). -/
def State.resetFn (s : State) (fn : Nat) : State :=
  let s := s.endFnWork fn
  s.updFn fn fun f => { ({} : FnState) with tenant := f.tenant, expert := f.expert, snap := f.snap }

/-- Clearing Bus Master Enable of an enabled function ends its work and its enable bit; its other registers stay (R380; log 3). -/
def State.clearMaster (s : State) (fn : Nat) : State :=
  let f := s.fnState fn
  if f.enabled then (s.endFnWork fn).updFn fn fun f => { f with
    bme := false, enabled := false, pairs := [], basic := { f.basic with reserved := 0 } }
  else s.setFn fn { f with bme := false }

/-- BUS_MASTER_CLEAR (R380). -/
def execBusMasterClear (fn : Nat) (s : State) : Host.Outcome State Fault Refusal := .next (if fn < 64 then s.clearMaster fn else s)

/-- FUNCTION_LEVEL_RESET (R381). -/
def execFunctionLevelReset (fn : Nat) (s : State) : Host.Outcome State Fault Refusal := .next (if fn < 64 then s.resetFn fn else s)

end Sys2Proof.Machine
end

