-- ==== Sys2Proof/Machine/PlaceOps.lean ====
section
/-! DEFINITION. Placement calls, moves between tiers and what a repair rewrites (R249 to R263). -/
namespace Sys2Proof.Machine

/-! ## Placement calls (R253, R254) -/

/-- Tiers that a kind of object may be in; a LIST's are those of its code pairs (R248, R254). -/
def permitted (kind tier : Nat) : Bool := match kind with
  | 0 => tier ≤ 2
  | 3 => tier ≤ 2
  | 7 => tier ≤ 1
  | 8 => tier ≤ 1
  | 9 => tier ≤ 1
  | _ => tier = 0

/-- The object that a handle names while it is live (R249). -/
def State.liveObj (s : State) (handle : Nat) : Option TierObj :=
  match s.tiers.objs.get (handle % 2 ^ 28) with
  | some o =>
    let kind := bits handle 31 28
    if handle < 2 ^ 32 && (o.kind = kind || (o.kind = 3 && (kind = 4 || kind = 5))) then some o else none
  | none => none

/-- The objects that a placement call moves: a list's code pairs that lie elsewhere, smallest first, or the one object. -/
def State.callObjs (s : State) (n target : Nat) (o : TierObj) : List Nat :=
  if o.kind = 0 then
    (sortBy (fun a b => decide (a.2.size < b.2.size) || (a.2.size == b.2.size && decide (a.1 < b.1)))
      (s.tiers.objs.filter fun kv => kv.2.kind = 3 && kv.2.owner = n && kv.2.tier ≠ target)).map (·.1)
  else if o.tier = target then [] else [n]

/-- Is a move, of the object or of a list's code pairs, running or queued? -/
def State.objMoves (s : State) (n : Nat) (o : TierObj) : List Move :=
  s.tiers.moves.filter fun m => !m.switched && (m.obj = n || (o.kind = 0 && (match s.tiers.objs.get m.obj with
    | some x => x.owner = n
    | none => false)))

/-- Are a placement call's own fields in form: 16 bytes, reserved ones zero, no reserved encoding (R253)? -/
def placeFormOk (b : List Byte) : Bool :=
  b.length = 16 && field b 4 4 = 0 && bits (field b 0 4) 31 28 < 10 && field b 8 1 ≤ 2 && field b 9 1 < 2 && allZero b 10 6

/-- The first refusal of R254 that applies, in its order. -/
def State.placeRefusal (s : State) (vf : Bool) (b : List Byte) : Option Nat :=
  let target := field b 8 1
  let cancel := bit (field b 9 1) 0
  if vf then some 0x400
  else if !placeFormOk b then some 0x401
  else match s.liveObj (field b 0 8) with
    | none => some 0x402
    | some o =>
      let kind := bits (field b 0 4) 31 28
      let n := field b 0 8 % 2 ^ 28
      let os := s.callObjs n target o
      let size := (os.map fun k => match s.tiers.objs.get k with
        | some x => x.size
        | none => 0).sum
      if kind = 4 || kind = 5 then some 0x403
      else if !permitted kind target then some 0x404
      else if cancel then (if (s.objMoves n o).isEmpty then some 0x405 else none)
      else if !(s.objMoves n o).isEmpty then some 0x406
      else if os.isEmpty && (o.kind ≠ 0 || o.pref = target) then some 0x405
      else if size > s.tierRoom target false then some 0x407
      else if (s.tiers.moves.filter fun m => !m.running).length ≥ 1024 then some 0x406
      else none

/-- A call leaves with a status. -/
def State.dropCall (s : State) (call status : Nat) : State := match s.tiers.calls.get call with
  | some c => ({ s with tiers := { s.tiers with calls := s.tiers.calls.erase call } } : State).answerCall c.owner status
  | none => s

/-- Running and queued moves are abandoned; their calls complete MOVE_ABORTED (R254, R257). -/
def State.cancelMoves (s : State) (ms : List Move) : State :=
  let gone (m : Move) : Bool := ms.any fun x => x.obj = m.obj && !m.switched
  let s := { s with tiers := { s.tiers with moves := s.tiers.moves.filter fun m => !gone m } }
  let s := s.count (objKey 0x2810 4) ms.length
  ((ms.map (·.call)).eraseDups).foldl (fun s c => s.dropCall c 0x408) s

/-- The queued move of an object to a tier, of the call that comes next. -/
def State.queuedMove (s : State) (target k : Nat) : Move := { obj := k, target, call := s.tiers.nextCall, source := match s.tiers.objs.get k with
  | some x => x.tier
  | none => 1 }

/-- A placement call: the refusal it is answered with at once, or its moves queued; a cancelling call, and one with nothing left to move,
completes DONE at once (R253, R254). -/
def State.placeCall (s : State) (vf : Bool) (owner : MoveOwner) (b : List Byte) : State :=
  match s.placeRefusal vf b, s.liveObj (field b 0 8) with
  | some c, _ => (s.tally 0x2810 8).answerCall owner c
  | none, none => s
  | none, some o =>
    let n := field b 0 8 % 2 ^ 28
    let target := field b 8 1
    if bit (field b 9 1) 0 then (s.cancelMoves (s.objMoves n o)).answerCall owner 0
    else
      let os := s.callObjs n target o
      let call := s.tiers.nextCall
      let new : List Move := os.map (s.queuedMove target)
      let objs := if o.kind = 0 then s.tiers.objs.set n { o with pref := target } else s.tiers.objs
      let s := { s with tiers := { s.tiers with
        objs, moves := s.tiers.moves ++ new, calls := s.tiers.calls.set call ⟨field b 0 8, owner⟩, nextCall := call + 1 } }
      if os.isEmpty then s.dropCall call 0 else s

/-! ## Descriptors (R252) -/

/-- Bytes held by a list's objects. -/
def State.objSize (s : State) (n : Nat) (o : TierObj) : Nat :=
  if o.kind = 0 then ((s.tiers.objs.filter fun kv => kv.2.kind ≠ 0 && kv.2.owner = n).map fun kv => kv.2.size).sum else o.size

/-- An object's state: HOME, MOVING, REPAIR. -/
def State.objState (s : State) (n : Nat) (o : TierObj) : Nat :=
  if (s.tiers.repair.any fun r => r.obj = n) || (o.kind = 1 && s.tiers.unheld.contains o.owner) then 2
  else if s.tiers.moves.any fun m => m.obj = n && m.running && !m.switched then 1
  else 0

/-- The 32 bytes of an object descriptor. -/
def State.descriptor (s : State) (n : Nat) (o : TierObj) : List Byte :=
  leBytes 8 (n + 2 ^ 28 * o.kind) ++ leBytes 1 o.tier ++ leBytes 1 (s.objState n o) ++ leBytes 2 0 ++ leBytes 4 o.list ++
    leBytes 8 (s.objSize n o) ++ leBytes 8 o.readLast

/-! ## Moves (R255 to R258) -/

/-- May moves run: shedding step 2 or later pauses them, and a move into flash waits in its throttle (R257)? -/
def State.movesRun (s : State) (m : Move) : Bool := s.upkeepRuns && !(m.target = 2 && s.flash.throttle = 0)

/-- Change the move of an object. -/
def State.updTierMove (s : State) (n : Nat) (f : Move → Move) : State :=
  { s with tiers := { s.tiers with moves := replaceFirst (fun m => m.obj = n && !m.switched) f s.tiers.moves } }

/-- Bytes that TIER_MOVE_BW copies in 50 µs. -/
def State.tailBytes (s : State) : Nat := 50 * s.setting 0x2800 1 50 * 1000

/-- The switch of a move: the destination becomes the home, and the switch is journalled (R255 step 5, R258). -/
def State.switchMove (s : State) (m : Move) : State :=
  let s := (s.updTierMove m.obj fun x => { x with switched := true, switchedAt := s.time, dirty := [] }).tally 0x2810 3
  let s := { s with tiers := { s.tiers with
    objs := s.tiers.objs.alter m.obj fun o => { o with tier := m.target }, journal := (m.obj, m.target) :: s.tiers.journal } }
  s.endCall m.call 0

/-- A move whose destination write failed, or that a reset meets before its switch, is abandoned (R257). -/
def State.failMove (s : State) (m : Move) (status : Nat) : State :=
  let s := ({ s with tiers := { s.tiers with moves := s.tiers.moves.filter fun x => !(x.obj = m.obj && !x.switched) } } : State).tally 0x2810 4
  s.dropCall m.call status

/-- Is a read of a move's object, issued while the source was its home, still in progress (R255 step 6): a code fetch, or the weights of
an invocation that runs? A feature row is read in the step that asks for it. -/
def State.sourceReads (s : State) (m : Move) : Bool :=
  (s.pipe.tensor.any fun kp => kp.2.running.any fun i => decide (i.startedAt ≤ m.switchedAt) && (match s.modelOf i.req.model with
    | some (x, _) => x.weights.contains m.obj
    | none => false)) ||
  s.pipe.fetches.any fun kf =>
    let f := kf.2
    f.codes == .due && f.path = 0 && f.tier = m.source && (match s.list f.cand.list with
      | some l => match l.segs.get f.cand.seg with
        | some g => g.pairHandle = m.obj
        | none => false
      | none => false)

/-! ## Repair (R262) -/

/-- Entries of a segment whose part of an object lies in a page of it: `bytes` for each entry, `head` before them. -/
def inPage (page size head bytes i : Nat) : Bool :=
  let lo := 4096 * (page % max 1 (ceilDiv size 4096))
  head + bytes * i < lo + 4096 && lo < head + bytes * (i + 1)

/-- An entry made again from its record's stored vector: sketch under its own generation, codes and scales, reduced copy. -/
def State.regenItem (s : State) (v : Version) (gen kind : Nat) (i : Item) : Item :=
  match s.corpus.records.get i.record with
  | none => i
  | some r =>
    let x := restoreVector r.stored
    match kind with
    | 1 => { i with sketch := s.sketchOf v gen x }
    | 3 =>
      let q := quantise v.codeFmt v.scaleFmt x
      { i with codes := q.1, scales := q.2 }
    | 6 => { i with reduced := reduce x }
    | _ => i

/-- A page of an object is regenerated: the entries with a part in it are made again (R262). -/
def State.regenPage (s : State) (n page : Nat) : State :=
  match s.tiers.objs.get n with
  | none => s
  | some o =>
    match s.list o.owner with
    | none => s
    | some l =>
      match s.versionOf l.ns l.idx l.version with
      | none => s
      | some v =>
        let w := widthBits v.width
        let hit (i : Nat) : Bool := match o.kind with
          | 1 => inPage page o.size blocksOffset ((w / 64 + 1) * 512) (i / 64)
          | 3 => inPage page o.size 0 (codeRec v.codeFmt v.dim + scaleRec v.dim) i
          | 6 => inPage page o.size 0 (redRec v.dim) i
          | _ => false
        let f (g : Segment) : Segment :=
          if !g.objs.contains n then g
          else { g with items := g.items.mapIdx fun i x => if hit i then s.regenItem v g.gen o.kind x else x }
        s.setList o.owner { l with segs := l.segs.mapVals f }

end Sys2Proof.Machine
end

