-- ==== Sys2Proof/Machine/Origin.lean ====
section
/-! DEFINITION. A query's partial results at its origin (R50) and the end of its search (R38, R61, R145 to R155) and the scoring model's
block (R56, R160 to R164, R172 to R175): PIECE_RECEIVE, PIECE_RESERVATION_GRANT, LIST_MERGE_COMPLETE, CUTOFF, QUERY_DEADLINE, SCORE_CUTOFF,
SCORE_INPUT_ASSEMBLE, SCORE_WITHDRAWN, SCORE_ABANDONED, SCORE_COMPLETE. -/
namespace Sys2Proof.Machine

/-- A parsed partial-result piece (R146). -/
structure Piece where
  handle : Nat
  list : Nat
  num : Nat
  last : Bool
  withdrawn : Bool
  total : Nat
  entries : List Entry
  deriving DecidableEq, Repr

/-- A result entry from its 16 bytes (R31). -/
def parseEntry (b : List Byte) : Entry := ⟨field b 0 8, BitVec.ofNat 32 (field b 8 4), field b 12 2, field b 14 2⟩

/-- Read a piece (R146). -/
def parsePiece (b : List Byte) : Piece :=
  { handle := field b 0 8, list := field b 8 4 % 0x100000, num := field b 12 2, last := bit (field b 14 2) 0
    withdrawn := bit (field b 14 2) 1, total := field b 16 4, entries := (chunks 16 (b.drop 32)).map parseEntry }

/-- Is a piece without reserved encodings and with COUNT entries (R146)? An entry's FLAGS [15:8] are reserved (R31, R33). -/
def pieceOk (b : List Byte) : Bool :=
  field b 8 4 < 0x100000 && field b 14 2 < 4 && allZero b 22 10 && field b 20 2 ≤ 512 && b.length = 32 + 16 * field b 20 2 &&
    (chunks 16 (b.drop 32)).all fun e => field e 12 2 < 256

/-- The chosen list of a query by its ID. -/
def chosenOf (x : Query) (list : Nat) : Option ChosenList := x.chosen.find? fun c => c.list = list

/-- Change a chosen list of a query. -/
def updChosen (x : Query) (list : Nat) (f : ChosenList → ChosenList) : Query :=
  { x with chosen := replaceFirst (fun c => c.list = list) f x.chosen }

/-- Entries of the partial-run area of an HBM context: its runs, with those that a merge in progress still reads (R147, R149). -/
def runEntries (c : SelCtx) : Nat := entryCount c.runs + entryCount (c.merging.getD [])

/-- Bytes of piece buffer that the reservations of a query hold, with the runs of an HBM context (R147, R149). -/
def bufferBytes (x : Query) : Nat :=
  16 * ((x.chosen.map fun c => if c.reserved then c.total else 0).sum + (if x.ctx.store = 2 then runEntries x.ctx else 0))

/-- Does a reservation of a total of entries fit (R147)? A context that waits for the spill store takes none (R141). -/
def State.pieceRoom (s : State) (x : Query) (total : Nat) : Bool :=
  if x.ctx.spillWait then false
  else if x.ctx.store = 2 then bufferBytes x + 16 * total ≤ 32 * x.ctx.kSel
  else
    let used := (s.pipe.queries.map fun kq => if kq.2.g = x.g && kq.2.ctx.store ≠ 2 then bufferBytes kq.2 else 0).sum
    used + 16 * total ≤ 2097152

/-- A query whose context waits for the spill store asks for it (R141). -/
def State.askSpill (s : State) (x : Query) : Query := { x with ctx := s.retrySpill x.g x.ctx }

/-- The degradation reasons that a piece's entries show (R36). For an ESTIMATED entry of a peer the reason is a free value. -/
def State.pieceReasons (s : State) (x : Query) (own : Bool) (es : List Entry) : State × Query :=
  let x := if es.any fun e => bit e.flags 3 then addReason x 3 else x
  let x := if es.any fun e => bit e.flags 6 then addReason x 6 else x
  if !own && es.any fun e => bit e.flags 2 then
    ({ s with freeCount := s.freeCount + 1 }, addReason x (if Config.estimateFailed s.freeCount then 1 else 2))
  else (s, x)

/-- Take a piece whose reservation is held or made now (R147); the list's final bound may seed later probes (R96). -/
def State.takePiece (s : State) (q : Nat) (x : Query) (src : Nat) (p : Piece) : State :=
  let x := updChosen x p.list fun c => { c with
    reserved := true, total := p.total, sender := some src, pieces := (p.num, p.entries) :: c.pieces
    last := if p.last then some p.num else c.last }
  let n := if x.r > 0 then x.r else x.fields.k
  let x := match x.summaries.find? fun m => m.list = p.list && m.count ≥ n with
    | some m => { x with seed := some (min m.dHi (x.seed.getD m.dHi)) }
    | none => x
  let (s, x) := s.pieceReasons x (src == s.mgmt.moduleId) p.entries
  s.setQuery q { x with peers := if x.peers.contains src then x.peers else src :: x.peers }

/-- A chosen list counts as not reached (R35). -/
def State.listLost (s : State) (q : Nat) (x : Query) (list : Nat) : State :=
  s.tryFinish q (updChosen x list fun c =>
    if c.state == .open then { c with state := .notReached, reserved := false, pieces := [], waiting := [] } else c)

/-- A piece of a list of a query in its search. A piece of a second partial result, from another module than the one whose result is merged
or reserved, is discarded, and its partial is counted once, with its last piece (R148). A malformed or WITHDRAWN piece loses the list
(R145, R146). -/
def State.receivePiece (s : State) (q : Nat) (x : Query) (src : Nat) (piece : List Byte) (p : Piece) (c : ChosenList) : State :=
  let again : State := if p.last || p.withdrawn then s.tally (0x2430 + x.g) 5 else s
  if c.reserved && c.sender != some src then again
  else if !pieceOk piece || p.withdrawn then s.listLost q x p.list
  else if c.reserved && c.pieces.any fun y => y.1 = p.num then again
  else
    let x := s.askSpill x
    if c.waiting.isEmpty && (c.reserved || s.pieceRoom x p.total) then s.takePiece q x src p
    else s.setQuery q (updChosen x p.list fun c => { c with waiting := c.waiting ++ [(src, piece)] })

/-- PIECE_RECEIVE (R38, R146 to R148). -/
def execPieceReceive (src : Nat) (piece : List Byte) (s : State) : Host.Outcome State Fault Refusal :=
  .next (let p := parsePiece piece
    let q := (s.queryOf p.handle).getD (handleSerial p.handle)
    let done := p.last || p.withdrawn
    let late (tenant : Nat) : State := if done then s.count (lateKey tenant) 1 else s
    match s.query q with
    | none =>
      match s.pipe.doneTenant.get q with
      | some t => late t
      | none => s
    | some x =>
      if s.handleOf q x ≠ p.handle then s
      else match chosenOf x p.list with
        | none => s
        | some c =>
          if x.phase == .handedOff then
            match s.exchange.leases.find? fun l => l.handle = p.handle && l.draining with
            | some l => s.sendFrame l.peer 1 2 0 s.newestMap x.tenant piece 0
            | none => s
          else if c.state == .reached then if done then s.tally (0x2430 + x.g) 5 else s
          else if !(x.phase == .searching) then late x.tenant
          else if c.state == .notReached then s
          else s.receivePiece q x src piece p c)

/-- PIECE_RESERVATION_GRANT: the waiting pieces of a list are taken once its whole partial result fits: those of the module whose piece has
waited longest; pieces of another are discarded, each partial counted with its last piece (R147, R148). -/
def execPieceReservationGrant (q list : Nat) (s : State) : Host.Outcome State Fault Refusal :=
  .next (match s.query q with
    | some x =>
      match chosenOf x list with
      | some c =>
        match c.waiting with
        | [] => s
        | (src, b) :: _ =>
          let x := s.askSpill x
          if !(x.phase == .searching) || !s.pieceRoom x (parsePiece b).total then s
          else
            let mine := c.waiting.filter fun w => w.1 = src
            let others := (c.waiting.filter fun w => w.1 ≠ src && (parsePiece w.2).last).length
            let s := s.count (objKey (0x2430 + x.g) 5) others
            let s := s.setQuery q (updChosen x list fun c => { c with waiting := [] })
            mine.foldl (fun s w => match s.query q with
              | some x => s.takePiece q x w.1 (parsePiece w.2)
              | none => s) s
      | none => s
    | none => s)

/-- The entries of a list's partial result once every piece to the last is present (R148). -/
def wholePartial (c : ChosenList) : Option (List Entry) :=
  match c.last with
  | some n =>
    if (List.range (n + 1)).all fun i => c.pieces.any fun p => p.1 = i then
      some ((List.range (n + 1)).flatMap fun i => match c.pieces.find? fun p => p.1 = i with
        | some p => p.2
        | none => [])
    else none
  | none => none

/-- LIST_MERGE_COMPLETE (R148, R149, R153). -/
def execListMergeComplete (q list : Nat) (s : State) : Host.Outcome State Fault Refusal :=
  .next (match s.query q with
    | some x =>
      match chosenOf x list with
      | some c =>
        match wholePartial c with
        | some es =>
          if !(x.phase == .searching) || !(c.state == .open) || s.emitStalled x.g then s
          else
            let (s, ctx, dups) := s.mergePartial x.g x.ctx es
            let x := updChosen x list fun c => { c with state := .reached, reserved := false, pieces := [] }
            s.tryFinish q { x with ctx, merged := x.merged + dups }
        | none => s
      | none => s
    | none => s)

/-- CUTOFF: the completion deadline less the ordering time (R154). -/
def execCutoff (q t : Nat) (s : State) : Host.Outcome State Fault Refusal :=
  .next (let s := s.advance t
    match s.query q with
    | some x =>
      if x.phase == .searching && x.s = 0 && !listsDone x &&
          s.time + orderTime x.ctx (s.clockOf (x.g / 8)) s.time ≥ x.deadlineAt then
        (s.tally (0x2430 + x.g) 9).cutSearch q x
      else s
    | none => s)

/-- Has a member work that stalls for want of a credit or of room: its context waits for a store, one of its candidates or records stands
beyond a link's credits, or FILTER holds one because the link to its RERANK tile is full (R57, R58, R61)? -/
def State.memberStalled (s : State) (b : Nat) (bt : Batch) (i : Nat) (m : Member) : Bool :=
  let mine (c : Cand) : Bool := c.batch = b && c.member = i
  m.ctx.poolWait || m.ctx.spillWait || ((s.pipe.scanFifo.getD bt.g []).drop 2048).any mine ||
    ((s.pipe.selectFifo.getD bt.g []).drop 1024).any (fun r => r.batch = b && r.member = i) ||
    ((s.pipe.scanFifo.getD bt.g []).any mine && s.tileLoad bt.g (s.tileOf bt.g m) ≥ 2048)

/-- List-side work of a query that is stalled on this module is discarded where it stands, with probes that have found no strand (R61). -/
def State.dropStalled (s : State) (handle : Nat) : State :=
  let s := { s with pipe := { s.pipe with parked := s.pipe.parked.filter fun p => p.member.handle ≠ handle } }
  s.discardMembers (s.membersWhere fun b bt i m => m.handle = handle && !m.ended && s.memberStalled b bt i m)

/-- QUERY_DEADLINE (R17, R38, R61, R152). -/
def execQueryDeadline (q t : Nat) (s : State) : Host.Outcome State Fault Refusal :=
  .next (let s := s.advance t
    match s.query q with
    | some x =>
      if x.phase == .placing || s.time < x.deadlineAt then s else (s.dropStalled (s.handleOf q x)).expireQuery q x
    | none => s)

/-- A payload of the block is unreadable: the item is dropped, with DATA_LOSS and its record (R172, R451). -/
def State.blockLoss (s : State) (q item : Nat) (x : Query) (b : BlockItem) : State :=
  (s.readFailed.logLoss b.entry.key b.entry.shard x.fields.ns x.version).requestScore q
    { x with dataLoss := true, block := x.block.set item { b with payloadDue := false, dropped := true } }

/-- The default row of a feature input of a query. -/
def State.defaultFor (s : State) (x : Query) (n : Nat) : List Byte := match (s.featsOf x)[n]? with
  | some f => s.defaultOf (tableCode x.fields.ns f.2.table)
  | none => []

/-- Feature row `n` of an item is missing or late: the default row stands for it (R261, R361). -/
def State.blockDefault (s : State) (q item n : Nat) (x : Query) (b : BlockItem) : State :=
  (s.tally 0x2B10 0xB).requestScore q (addReason { x with block := x.block.set item (defaultRow b n (s.defaultFor x n)) } 6)

/-- The rows that are still due of an item and that a test picks take the default row; with it, how many did. -/
def State.defaultRows (s : State) (x : Query) (p : BlockItem → Nat → Bool) (b : BlockItem) : BlockItem × Nat :=
  let due := if b.dropped then [] else b.rowsDue.filter (p b)
  (due.foldl (fun b n => defaultRow b n (s.defaultFor x n)) b, due.length)

/-- Rows of a block that a test picks are replaced by default rows (R261, R361); `late` for those that count as late reads (R259). -/
def State.defaultBlock (s : State) (q : Nat) (x : Query) (p : BlockItem → Nat → Bool) (late : Bool) : State :=
  let r := x.block.map (s.defaultRows x p)
  let n := (r.map (·.2)).sum
  if n = 0 then s
  else ((s.count (objKey 0x2810 5) (if late then n else 0)).count (objKey 0x2B10 0xB) n).requestScore q
    (addReason { x with block := r.map (·.1) } 6)

/-- Rows that the score cut-off of a query meets unanswered are LATE: the cut-off is their useful-by cycle (R259, R261). -/
def State.lateBlock (s : State) (q : Nat) (x : Query) : State := s.defaultBlock q x (fun _ _ => true) true

/-- Is a row of an item due from another module? -/
def State.rowAsked (s : State) (x : Query) (b : BlockItem) (n : Nat) : Bool := match (s.featsOf x)[n]? with
  | some f => match s.featIndex x b.entry.key f.2.source with
    | some (some row) => match s.rowPlan (tableCode x.fields.ns f.2.table) row with
      | .ask _ => true
      | _ => false
    | _ => true
  | none => false

/-- SCORE_CUTOFF: the first context is frozen and the block forms from it (R173); rows of a block that are still due are LATE (R259). -/
def execScoreCutoff (q t : Nat) (s : State) : Host.Outcome State Fault Refusal :=
  .next (let s := s.advance t
    match s.query q with
    | some x =>
      if x.s = 0 || s.time < s.scoreCutAt x then s
      else if x.phase == .assembling then s.lateBlock q x
      else if x.phase == .searching && !listsDone x then
        let x := giveUpLists { x with frozen := true, deadlineHit := true }
        if (ctxOutput x.ctx).1.isEmpty then s.toEmit q { x with answer := [] } else s.sendBlock q x
      else s
    | none => s)

/-- SCORE_INPUT_ASSEMBLE: an unreadable payload drops the item; a missing row is replaced by the default row (R172, R261). A
payload read is one flash unit of 4,096 bytes (R198, R199 n = 16). -/
def execScoreInputAssemble (q item : Nat) (source : InputSource) (ok : Bool) (s : State) : Host.Outcome State Fault Refusal :=
  .next (match s.query q with
    | some x =>
      match x.block[item]? with
      | some b =>
        if !(x.phase == .assembling) || b.dropped then s
        else match source with
          | .payload =>
            if !b.payloadDue then s
            else if ok then
              (s.meter x.tenant 16 4096).requestScore q
                { x with block := x.block.set item { b with payloadDue := false } }
            else s.blockLoss q item x b
          | .row n =>
            if !b.rowsDue.contains n then s
            else if ok then s.requestScore q { x with block := x.block.set item { b with rowsDue := b.rowsDue.erase n } }
            else s.blockDefault q item n x b
      | none => s
    | none => s)

/-- SCORE_WITHDRAWN: the remaining deadline falls below the stated time before the grant (R56). -/
def execScoreWithdrawn (q t : Nat) (s : State) : Host.Outcome State Fault Refusal :=
  .next (let s := s.advance t
    match s.query q with
    | some x =>
      match (s.imageFor x).bind fun i => i.2.scorer with
      | some m =>
        if x.phase == .scoreWait &&
            s.tooLate (x.g / 8) x.deadlineAt (statedNs m (x.block.filter fun b => !b.dropped).length) then
          (s.tally (0x2110 + x.g) 0xA).emitExact q (addReason x 4)
        else s
      | none => s
    | none => s)

/-- SCORE_ABANDONED: an invocation unfinished 8 µs before the deadline (R174). -/
def execScoreAbandoned (q t : Nat) (s : State) : Host.Outcome State Fault Refusal :=
  .next (let s := s.advance t
    match s.query q with
    | some x =>
      if x.phase == .scoring && s.time + 8 * cyclesPerUs ≥ x.deadlineAt then
        (s.tally (0x2510 + x.g / 8) 7).emitExact q (addReason x 4)
      else s
    | none => s)

/-- An entry with a model score: MODEL set, DEFAULT_ROW and DUP_MERGED kept (R155, R175). -/
def modelEntry (e : Entry) (score : F32) : Entry := { e with score, flags := e.flags &&& 0xC0 ||| 0x10 }

/-- The rows of an item as the model reads them: the elements of each feature row in the order of the SCORE program's inputs. Which elements
the bytes of a row stand for is the compiled program's, and a free value here (R172, R361; log 10). A row whose bytes this module has not
seen, its index being in another module's payload, comes with the command (log 39). -/
def State.rowInputs (s : State) (x : Query) (b : BlockItem) (i : ItemInput) : List (List F32) :=
  (s.featsOf x).map fun f => match b.rows.get f.1 with
    | some row => Config.rowElements row
    | none => i.rows.getD f.1 []

/-- SCORE_COMPLETE: the model's graph runs on each item left in the block, with the rows fetched for it; its outputs, scaled, go to a second
context that keeps the k best of them (R155, R160 to R164, R172, R175). -/
def execScoreComplete (q : Nat) (inputs : List ItemInput) (s : State) : Host.Outcome State Fault Refusal :=
  .next (match s.query q with
    | some x =>
      let live := x.block.filter fun b => !b.dropped
      if !(x.phase == .scoring) || inputs.length ≠ live.length then s
      else
        let out := List.zipWith (fun b i => s.scorerOutput x { i with rows := s.rowInputs x b i }) live inputs
        let p := x.g / 8
        let s := (s.dropTensor p fun r => r.kind == .score && r.owner = q).tally (0x2510 + p) 5
        let (a, b) := match s.imageFor x with
          | some (_, img) => (img.progs.scaleA, img.progs.scaleB)
          | none => (0x3F800000, 0)
        let es := List.zipWith (fun i y => modelEntry i.entry (f32Add (f32Mul a y) b)) live out
        let s := s.count (objKey (0x2510 + p) 0xB) ((es.filter fun e => f32IsNaN e.score).length)
        let c := s.openCtx x.g x.fields.k false
        let r := c.1.offerEach x.g c.2 es
        r.1.toEmit q { x with answer := r.2.1.entries }
    | none => s)

end Sys2Proof.Machine
end

