-- ==== Sys2Proof/Machine/Rerank.lean ====
section
/-! DEFINITION. The commands of the rerank gate, RERANK and SELECT on a list's strand: X and the exact scores of R22, never fewer than the R best (R24) (R50, R99, R124 to R135, R140 to R152, R198, R259). -/
namespace Sys2Proof.Machine

/-- Read a scan summary (R124). -/
def parseSummary (b : List Byte) : Summary :=
  { list := field b 8 4 % 0x100000, dLo := field b 12 2, dHi := field b 14 2, count := field b 16 4
    cum := (chunks 4 (b.drop 24)).map leNat }

/-- cum(L, t) of R125. -/
def cumAt (m : Summary) (t : Nat) : Nat :=
  if m.count = 0 || t < m.dLo then 0 else if t > m.dHi then m.cum.getD (m.dHi - m.dLo) 0 else m.cum.getD (t - m.dLo) 0

/-- gate(q) of R125. -/
def gateOf (ms : List Summary) (limit n w : Nat) : Option Nat :=
  (List.range (w + 1)).find? fun t => decide ((ms.map fun m => cumAt m t).sum / max 1 limit ≥ n)

/-- A gate message (R125). -/
def gateBytes (handle gate : Nat) : List Byte := leBytes 8 handle ++ leBytes 2 gate ++ leBytes 6 0

/-- The gate has fallen: a message to every strand here, and to every peer with lists still open, that works for the query. -/
def State.sendGates (s : State) (handle tenant gate : Nat) (x : Query) : State :=
  let gs := upTo 32 fun g => s.pipe.batches.any fun kb =>
    kb.2.g = g && kb.2.members.any fun m => m.handle = handle && m.origin = s.mgmt.moduleId && !m.ended
  let s := gs.foldl (fun s g => s.sendGate s.mgmt.moduleId g tenant (gateBytes handle gate)) s
  let peers := ((x.chosen.filter fun c => c.state == .open).filterMap fun c => match s.corpus.dir.get c.list with
    | some e => match (s.homeAt e.shard (x.snapshot.getD 0)).1 with
      | p => if p = s.mgmt.moduleId then none else some p
    | none => none).eraseDups
  peers.foldl (fun s p => s.sendGate p 0 tenant (gateBytes handle gate)) s

/-- One more scan summary of a query: the gate is recomputed, and where it falls its messages go out (R125). -/
def State.takeSummary (s : State) (q : Nat) (x : Query) (v : Version) (m : Summary) (handle : Nat) : State :=
  let ms := x.summaries ++ [m]
  let gate := gateOf ms v.assignLimit (if x.r > 0 then x.r else x.fields.k) (widthBits v.width)
  let falls : Bool := match gate, x.gate with
    | some g, some o => decide (g < o)
    | some _, none => true
    | none, _ => false
  let x := { x with summaries := ms, gate := if falls then gate else x.gate }
  let s := s.setQuery q x
  match gate with
  | some g => if falls then s.sendGates handle x.tenant g x else s
  | none => s

/-- SCAN_SUMMARY_RECEIVE: the gate is recomputed (R124, R125). -/
def execScanSummaryReceive (_src : Nat) (summary : List Byte) (s : State) : Host.Outcome State Fault Refusal :=
  .next (let handle := field summary 0 8
    let q := (s.queryOf handle).getD (handleSerial handle)
    let m := parseSummary summary
    match s.query q with
    | none => s
    | some x =>
      match s.versionOf x.fields.ns x.fields.idx x.version with
      | none => s
      | some v =>
        if s.handleOf q x ≠ handle || !(x.phase == .searching) || (chosenOf x m.list).isNone || x.summaries.any (fun y => y.list = m.list) then s
        else s.takeSummary q x v m handle)

/-- The smallest gate is kept for each member of the handle on a strand, and what it holds is released (R125, R126). -/
def State.applyGate (s : State) (g handle gate : Nat) : State :=
  let mine := s.pipe.batches.flatMap fun kb =>
    if kb.2.g = g then (upTo kb.2.members.length fun i => match kb.2.members[i]? with
      | some m => m.handle = handle && !m.ended && !m.withdrawn
      | none => false).map fun i => (kb.1, i)
    else []
  mine.foldl (fun s bi => match s.memberCtx bi.1 bi.2 with
    | some (_, m, v) =>
      let m := { m with gate := some (min gate (m.gate.getD gate)) }
      let s := s.setMember bi.1 bi.2 m
      if mayRelease m v then s.releaseMember bi.1 bi.2 false else s
    | none => s) s

/-- GATE_MESSAGE_RECEIVE (R125, R126). -/
def execGateMessageReceive (g : Nat) (msg : List Byte) (s : State) : Host.Outcome State Fault Refusal :=
  .next (s.applyGate g (field msg 0 8) (field msg 8 2))

/-- What the members of a RERANK tile hold: batch, member, the cycle since which its first candidate is held, and how many (R126). -/
def State.heldOn (s : State) (g tile : Nat) : List (Nat × Nat × Nat × Nat) :=
  (s.membersWhere fun _ b _ m => b.g = g && s.tileOf g m = tile).filterMap fun bi => match s.member bi.1 bi.2 with
    | some m => m.held.head?.map fun c => (bi.1, bi.2, c.since, m.held.length)
    | none => none

/-- The member of a tile whose candidates have been held longest, its vector complete, with the number held on the tile (R126, R347). Of
two held since the same cycle it is the one of the lower batch, then of the lower place in it (DESIGN CHOICE: the spec names neither; log
81). -/
def State.oldestHeld (s : State) (g tile : Nat) : Option (Nat × Nat) × Nat :=
  let hs := s.heldOn g tile
  let ready := hs.filter fun h => match s.memberCtx h.1 h.2.1 with
    | some (_, m, v) => vectorReady m v
    | none => false
  ((firstBy (fun a b => decide (a.2.2.1 < b.2.2.1)) ready).map fun h => (h.1, h.2.1), (hs.map fun h => h.2.2.2).sum)

/-- A candidate enters its member's hold buffer, or passes straight through: a gate is there, everything was released, or its hold is over
as it comes (R126, R137). -/
def State.holdCand (s : State) (g : Nat) (c : Cand) : State :=
  match s.memberCtx c.batch c.member with
  | none => s
  | some (bt, m, v) =>
    let us := s.setting 0x2400 1 20
    if mayRelease m v then s.issueFetch bt m v c
    else if s.holdOver m us && vectorReady m v then (s.tally (0x2410 + g) 5).issueFetch bt m v c
    else s.setMember c.batch c.member { m with held := m.held ++ [⟨c, s.time, us⟩] }

/-- Does a RERANK tile hold a record for which the link to SELECT has no credit (R57, R58)? The first 1,024 records are in the link. -/
def State.rerankStalled (s : State) (g tile : Nat) : Bool :=
  ((s.pipe.selectFifo.getD g []).drop 1024).any fun r => match s.member r.batch r.member with
    | some m => s.tileOf g m = tile
    | none => false

/-- RERANK_CANDIDATE_RECEIVE: the head of the FILTER to RERANK link; a full buffer releases the member held longest (R126). A tile that
stalls on its own link takes nothing in (R58), and neither does a full buffer with no member to release. -/
def execRerankCandidateReceive (g : Nat) (s : State) : Host.Outcome State Fault Refusal :=
  .next (match s.pipe.rerankFifo.getD g [] with
    | [] => s
    | c :: rest =>
      let pop : State := { s with pipe := { s.pipe with rerankFifo := s.pipe.rerankFifo.put g [] rest } }
      match s.member c.batch c.member with
      | none => pop
      | some m =>
        if m.withdrawn || m.ended then pop
        else if s.rerankStalled g (s.tileOf g m) then s
        else match s.oldestHeld g (s.tileOf g m) with
          | (some (b, i), n) =>
            let s := if n ≥ 8192 then (pop.tally (0x2410 + g) 6).releaseMember b i false else pop
            (s.holdCand g c).tryEnd c.batch c.member
          | (none, n) => if n ≥ 8192 then s else (pop.holdCand g c).tryEnd c.batch c.member)

/-- RELEASE_HOLD: GATE_HOLD has passed since the list's scan summary for the member was sent; each candidate has the GATE_HOLD that was in
force when it was held (R126, R137). -/
def execReleaseHold (batch member t : Nat) (s : State) : Host.Outcome State Fault Refusal :=
  .next (let s := s.advance t
    match s.memberCtx batch member with
    | some (bt, m, v) =>
      if !vectorReady m v || !(m.held.any fun c => s.holdOver m c.us) then s
      else (s.tally (0x2410 + bt.g) 5).releaseCands batch member fun c => s.holdOver m c.us
    | none => s)

/-- Outstanding code fetches of a member are abandoned as late (R133). -/
def State.abandonFetches (s : State) (g : Nat) (bt : Batch) (m : Member) (v : Version) (b i : Nat) : State :=
  let mine := s.pipe.fetches.filter fun f => f.2.cand.batch = b && f.2.cand.member = i && f.2.codes == .due && f.2.path = 0
  mine.foldl (fun s f => match s.pipe.fetches.get f.1 with
    | some x =>
      let r := s.lateFetch g bt m v x
      r.1.finishFetch f.1 r.2
    | none => s) s

/-- RELEASE_LATE (R126, R133). -/
def execReleaseLate (batch member t : Nat) (s : State) : Host.Outcome State Fault Refusal :=
  .next (let s := s.advance t
    match s.memberCtx batch member with
    | some (bt, m, v) =>
      if m.withdrawn || m.ended || !vectorReady m v || s.time < s.reserveAt m then s
      else (s.abandonFetches bt.g bt m v batch member).releaseMember batch member true
    | none => s)

/-- The tier object of a kind of a segment of a batch's list (R248). -/
def State.objAt (s : State) (bt : Batch) (seg kind : Nat) : Nat := match s.segAt bt seg with
  | some sg => s.segObj sg kind
  | none => 0

/-- KEY_FETCH_COMPLETE (R25, R99, R127, R135, R260). -/
def execKeyFetchComplete (fetch : Nat) (ok : Bool) (s : State) : Host.Outcome State Fault Refusal :=
  .next (match s.pipe.fetches.get fetch with
    | none => s
    | some f =>
      match s.memberCtx f.cand.batch f.cand.member with
      | none => s
      | some (bt, m, v) =>
        let obj := s.objAt bt f.cand.seg 2
        let r := s.tierRead obj ok
        if !(f.key == .due) then s
        else if !ok then ((s.withdrawBatch f.cand.batch).markRepair 0 obj).readFailed
        else if !r.2 then (r.1.withdrawBatch f.cand.batch).readFailed
        else
          let s := ((r.1.count (objKey (0x2410 + bt.g) 3) 8).meter m.tenant 15 8).objRead obj 8
          let key := match s.itemOf bt f.cand with
            | some it => it.key
            | none => voidKey
          let f := { f with key := .done, keyVal := key }
          if needsCodes m v then s.finishFetch fetch f
          else (s.count (objKey (0x2410 + bt.g) 4) 1).finishFetch fetch { f with score := hammingScore f.cand.dist })


/-- The object that a fetch's codes are read from: the reduced copy's, or the home pair's (R133, R248). -/
def State.codeObj (s : State) (bt : Batch) (f : Fetch) : Nat := s.objAt bt f.cand.seg (if f.path = 1 then 6 else 3)

/-- A fetch's codes are scored from its home pair or from the reduced copy (R130, R133, R136). -/
def State.scoreFetch (s : State) (bt : Batch) (m : Member) (v : Version) (f : Fetch) (it : Item) : State × Fetch :=
  let g := bt.g
  let fmt := if f.path = 1 then 5 else v.codeFmt
  let n := if f.path = 1 then redRec v.dim else codeRec v.codeFmt v.dim + scaleRec v.dim
  let s := (s.count (objKey (0x2410 + g) (if f.path = 0 && f.tier = 1 then 1 else 2)) n).meter m.tenant 15 n
  let s := s.count (objKey (0x2410 + g) 4) (ceilDiv v.dim (if codeBits fmt = 8 then 32 else 64))
  let s := s.objRead (s.codeObj bt f) n
  if f.path = 1 then
    ((s.tally (0x2410 + g) 7).noteOrigin m fun q => addReason q 3).scored g f
      (rerankScore v.metric 5 0 m.vector (it.reduced.take (8 * groupsOf v.dim)) (it.reduced.drop (8 * groupsOf v.dim)))
  else s.scored g f (rerankScore v.metric v.codeFmt v.scaleFmt m.vector it.codes it.scales)

/-- CODE_FETCH_COMPLETE (R130, R132, R260, R261). -/
def execCodeFetchComplete (fetch : Nat) (ok : Bool) (s : State) : Host.Outcome State Fault Refusal :=
  .next (match s.pipe.fetches.get fetch with
    | none => s
    | some f =>
      match s.memberCtx f.cand.batch f.cand.member with
      | none => s
      | some (bt, m, v) =>
        if !(f.codes == .due) || !vectorReady m v then s
        else match s.itemOf bt f.cand with
          | some it =>
            let (s, read) := s.tierRead (s.codeObj bt f) ok
            if read then
              let r := s.scoreFetch bt m v f it
              r.1.finishFetch fetch r.2
            else
              let s := if !ok && f.tier ≤ 1 then s.markRepair f.tier (s.codeObj bt f) else s
              let r := s.readFailed.estimateFetch bt.g bt m v f 1
              r.1.finishFetch fetch r.2
          | none => s)

/-- TIER_READ_LATE: a code fetch takes the reduced copy or an estimate, a feature row the default row (R133, R259, R261). -/
def execTierReadLate (read : ReadRef) (s : State) : Host.Outcome State Fault Refusal :=
  .next (match read with
    | .code fetch =>
      match s.pipe.fetches.get fetch with
      | none => s
      | some f =>
        match s.memberCtx f.cand.batch f.cand.member with
        | none => s
        | some (bt, m, v) =>
          if !(f.codes == .due) || f.path ≠ 0 || !vectorReady m v then s
          else
            let r := (s.tally 0x2810 5).lateFetch bt.g bt m v f
            r.1.finishFetch fetch r.2
    | .row q item n =>
      match s.query q with
      | none => s
      | some x =>
        match x.block[item]? with
        | none => s
        | some b =>
          if !(x.phase == .assembling) || b.dropped || !b.rowsDue.contains n then s
          else (s.tally 0x2810 5).blockDefault q item n x b)

/-- POSTFILTER_READ_COMPLETE (R196 to R198, R261). -/
def execPostfilterReadComplete (fetch : Nat) (ok : Bool) (s : State) : Host.Outcome State Fault Refusal :=
  .next (match s.pipe.fetches.get fetch with
    | none => s
    | some f =>
      match s.memberCtx f.cand.batch f.cand.member with
      | none => s
      | some (bt, m, v) =>
        if !(f.post == .due) then s
        else match s.itemOf bt f.cand with
          | none => s
          | some it =>
            if ok then
              let payload := match s.corpus.records.get it.record with
                | some r => r.payload
                | none => []
              let (pass, absent) := passesPost m.postTerms payload
              let s := (s.count (objKey (0x2610 + bt.g) 7) absent).meter m.tenant 16 4096
              let s := if pass then s else (s.tally (0x2610 + bt.g) 6).meter m.tenant 17 1
              s.finishFetch fetch { f with post := .done, passed := pass }
            else
              let shard := match s.list bt.list with
                | some l => l.shard
                | none => 0
              let s := (s.readFailed.logLoss it.key shard bt.ns v.ver).noteLoss m (s.listId bt.list)
              s.finishFetch fetch { f with post := .done, passed := false })

/-- SELECT_ENTRY_OFFER: the head of the RERANK to SELECT link (R57, R142 to R145, R150 to R152). -/
def execSelectEntryOffer (g : Nat) (s : State) : Host.Outcome State Fault Refusal :=
  .next (match s.pipe.selectFifo.getD g [] with
    | [] => s
    | r :: rest =>
      let pop : State := { s with pipe := { s.pipe with selectFifo := s.pipe.selectFifo.put g [] rest } }
      match s.member r.batch r.member with
      | none => pop
      | some m =>
        let c := s.retrySpill g m.ctx
        if m.withdrawn || m.ended then pop
        else if m.ctx.poolWait || c.spillWait || s.emitStalled g then s
        else
          let (s, ctx, n) := pop.offer g c r.entry
          let s := s.setMember r.batch r.member { m with ctx }
          (s.noteOrigin m fun q => { q with merged := q.merged + n }).tryEnd r.batch r.member)

/-- After a checked member's last piece its digest is kept for the comparison: both runs of a dual-strand check, or a shadowed probe and its
mirror (R504, R508). -/
def State.checkPiece (s : State) (bt : Batch) (m : Member) : State :=
  let list := s.listId bt.list
  if m.check && !m.withdrawn then
    let d := checkDigest m list (s.batchWidth bt)
    if s.repair.duals.any fun x => x.handle = m.handle && x.list = list then
      { s with repair := { s.repair with duals := s.repair.duals.map fun x =>
        if x.handle = m.handle && x.list = list then
          (if m.discard then { x with d2 := some d } else { x with d1 := some d }) else x } }
    else if m.discard then s.emit (.digest s.repair.shadow.peer m.handle list d)
    else { s with repair := { s.repair with shadow := { s.repair.shadow with
      waiting := s.repair.shadow.waiting ++ [ShadowWait.mk m.handle list d bt.g m.deadlineAt 0] } } }
  else s

/-- A member's last piece has gone: its area is free, it has ended, and a probe for another module is done (R60, R347). -/
def State.lastPiece (s : State) (batch member : Nat) (m : Member) : State :=
  let s := (s.freeMemberArea m).setMember batch member { m with pieces := [], ended := true, ctx := freeCtx m.ctx }
  let s := if m.origin = s.mgmt.moduleId then s else s.probeDone m.handle
  s.tryEndBatch batch true

/-- PIECE_SEND: a member's next piece goes to its origin; after the last one the member has ended (R60, R145, R146, R347, R504,
R508). -/
def execPieceSend (batch member : Nat) (s : State) : Host.Outcome State Fault Refusal :=
  .next (match s.batch batch, s.member batch member with
    | some bt, some m =>
      if !m.built || m.ended then s
      else match m.pieces with
        | [] => s
        | p :: rest =>
          let s := if m.discard then s else s.sendPiece m.origin m.tenant p
          if !rest.isEmpty then s.setMember batch member { m with pieces := rest }
          else (s.checkPiece bt m).lastPiece batch member m
    | _, _ => s)

/-! ## Contexts in HBM -/

/-- A merge of a context starts: it reads the carry run and up to 15 runs, or 16 runs (R149). -/
def mergeStart (c : SelCtx) (now : Nat) : SelCtx :=
  { c with merging := some (c.runs.take (mergeWidth c)), runs := c.runs.drop (mergeWidth c), mergeAt := now }

/-- Is a merge of an HBM context due: enough runs, or a final or forced one (R149)? -/
def mergeDue (c : SelCtx) (forced : Bool) : Bool :=
  c.store = 2 && c.merging.isNone && !c.runs.isEmpty && (c.runs.length ≥ mergeWidth c || forced)

/-- Does a strand's SELECT tile run a merge? It runs one at a time (R149). -/
def State.tileMerges (s : State) (g : Nat) : Bool := (s.ctxsOn g).any fun c => c.merging.isSome

/-- RUN_MERGE_START (R149). -/
def execRunMergeStart (ctx : CtxRef) (s : State) : Host.Outcome State Fault Refusal :=
  .next (match ctx with
    | .origin q =>
      match s.query q with
      | some x =>
        let full := x.chosen.any fun c => !c.waiting.isEmpty
        if mergeDue x.ctx (full || listsDone x) && !s.tileMerges x.g then s.setQuery q { x with ctx := mergeStart x.ctx s.time } else s
      | none => s
    | .member b i =>
      match s.batch b, s.member b i with
      | some bt, some m =>
        let final := m.scanned && s.memberIdle b i m && m.ctx.entries.isEmpty
        if mergeDue m.ctx final && !s.tileMerges bt.g then s.setMember b i { m with ctx := mergeStart m.ctx s.time } else s
      | _, _ => s)

/-- A merge's resolved duplicates and the bytes it read are counted on its strand (R149, R157). -/
def State.mergeCounts (s : State) (g : Nat) (r : SelCtx × Nat × Nat) : State :=
  (s.count (objKey (0x2430 + g) 4) r.2.1).count (objKey (0x2430 + g) 2) r.2.2

/-- The output of a list-side context whose merges are done becomes its partial result (R145, R149). -/
def State.memberOutput (s : State) (b i : Nat) (bt : Batch) (m : Member) (es : List Entry) : State :=
  if m.scanned && !m.built && m.ctx.runs.isEmpty && m.ctx.entries.isEmpty && s.memberIdle b i m then
    s.setMember b i { m with built := true, pieces := piecesOf m.handle (s.listId bt.list) (s.batchProgs bt).pieceSize (es.take m.kSel) }
  else s.setMember b i m

/-- RUN_MERGE_COMPLETE (R149, R150, R153). -/
def execRunMergeComplete (ctx : CtxRef) (s : State) : Host.Outcome State Fault Refusal :=
  .next (match ctx with
    | .origin q =>
      match s.query q with
      | some x =>
        if x.ctx.merging.isNone then s
        else
          let r := mergeEnd x.ctx
          (s.mergeCounts x.g r).tryFinish q { x with ctx := r.1, merged := x.merged + r.2.1 }
      | none => s
    | .member b i =>
      match s.batch b, s.member b i with
      | some bt, some m =>
        if m.ctx.merging.isNone then s
        else
          let r := mergeEnd m.ctx
          ((s.mergeCounts bt.g r).noteOrigin m fun q => { q with merged := q.merged + r.2.1 }).memberOutput b i bt { m with ctx := r.1 }
            (r.1.carry.getD [])
      | _, _ => s)

/-- POOL_WAIT: the selection pool has room for the context's work area (R152). -/
def execPoolWait (ctx : CtxRef) (s : State) : Host.Outcome State Fault Refusal :=
  .next (match ctx with
    | .origin q =>
      match s.query q with
      | some x =>
        match s.imageFor x with
        | some (slot, img) => if x.phase == .poolWait then s.reserveOrigin q x slot img else s
        | none => s
      | none => s
    | .member b i =>
      match s.member b i with
      | some m =>
        let need := listArea m.ctx.kSel
        if m.ctx.poolWait && s.tiers.poolList + need ≤ s.poolHalf then
          let ctx := { m.ctx with poolWait := false, store := 2, runs := [m.ctx.entries], entries := [], hbmBytes := need }
          (({ s with tiers := { s.tiers with poolList := s.tiers.poolList + need } } : State).setMember b i { m with ctx }).tryEnd b i
        else s
      | none => s)

end Sys2Proof.Machine
end

