-- ==== Sys2Proof/Machine/RouteOps.lean ====
section
/-! DEFINITION. Routing (R102 to R111): the Yarrow walk over the centroid directory; and the dispatch of the probes it chooses (R52,
R346, R357, R358), with the second runs of checks and shadows (R501, R504, R508). -/
namespace Sys2Proof.Machine

/-! ## The walk -/

/-- What a walk keeps: the front and the kept lists by distance and list ID, the lists seen, and its counts (R108, R114). -/
structure WalkState where
  front : List (Nat × Nat) := []
  kept : List (Nat × Nat) := []
  seen : List Nat := []
  stale : Nat := 0
  forwards : Nat := 0
  limits : Nat := 0
  hops : Nat := 0
  deriving DecidableEq, Repr

/-- What a walk is given: the directory, the namespace, index and version whose lists it may choose, the query's sketches, the compared
bits, beam and FORWARD_DEPTH. -/
structure WalkEnv where
  dir : Table DirEntry
  ns : Nat
  idx : Nat
  ver : Nat
  sketches : List (Nat × Nat)
  width : Nat
  beam : Nat
  depth : Nat
  deriving DecidableEq, Repr

/-- The walk's order: ascending distance, then ascending list ID (R108). -/
def walkBefore (a b : Nat × Nat) : Bool := if a.1 ≠ b.1 then a.1 < b.1 else a.2 < b.2

/-- May a walk keep an entry as a list: live, and of the version that its query uses (R108, R237; DEDUCED, log 37)? -/
def WalkEnv.keeps (v : WalkEnv) (e : DirEntry) : Bool :=
  e.state = 1 && e.ns = v.ns && e.idx = v.idx && e.version = v.ver

/-- consider of R108. The fuel is above FORWARD_DEPTH. -/
def consider (v : WalkEnv) : Nat → WalkState → Nat → Option Nat → Nat → WalkState
  | 0, w, _, _, _ => w
  | fuel + 1, w, t, tag, depth =>
    if w.seen.contains t then w
    else match v.dir.get t with
      | none => { w with stale := w.stale + 1 }
      | some e =>
        let badTag := match tag with
          | some g => e.entryGen != g
          | none => false
        if e.state = 0 || badTag then { w with stale := w.stale + 1 }
        else
          let d := hamming (min v.width 256) e.csketch (sketchFor v.sketches e.projGen)
          let w := { w with seen := t :: w.seen, front := insertBy walkBefore (d, t) w.front }
          if e.state = 1 then
            (if v.keeps e then { w with kept := (insertBy walkBefore (d, t) w.kept).take v.beam } else w)
          else if depth = v.depth then { w with limits := w.limits + 1 }
          else
            let w := consider v fuel { w with forwards := w.forwards + 1 } e.succA (some e.succAGen) (depth + 1)
            match e.succB with
            | some (b, bg) => consider v fuel w b (some bg) (depth + 1)
            | none => w

/-- The loop of R108, with the hop limit as its fuel. -/
def walkLoop (v : WalkEnv) : Nat → WalkState → WalkState
  | 0, w => w
  | fuel + 1, w =>
    match w.front with
    | [] => w
    | c :: rest =>
      let w := { w with front := rest }
      let stop := w.kept.length = v.beam && (match w.kept.getLast? with
        | some l => c.1 > l.1
        | none => false)
      if stop then w
      else
        let edges := match v.dir.get c.2 with
          | some e => e.edges
          | none => []
        let w := edges.foldl (fun w e => consider v (v.depth + 2) w e.1 (some e.2) 0) w
        walkLoop v fuel { w with hops := w.hops + 1 }

/-- The default entry points: the live entries of the index with the eight lowest list IDs (R111). -/
def defaultEntries (dir : Table DirEntry) (ns idx : Nat) : List Nat :=
  ((dir.filter fun kv => kv.2.state = 1 && kv.2.ns = ns && kv.2.idx = idx).map (·.1)).take 8

/-- The walk of a query: its final state; the chosen lists are the first nprobe of `kept` (R108, R110, R111). -/
def State.walkOf (s : State) (x : Query) (v : Version) (p : ProgSettings) : WalkState × Nat :=
  let env : WalkEnv := { dir := s.corpus.dir, ns := v.ns, idx := v.idx, ver := v.ver, sketches := x.sketches, width := widthBits v.width
                         beam := max (p.beam.getD x.nprobe) x.nprobe, depth := s.setting 0x2300 1 4 }
  let entries := if p.entryPoints.isEmpty then defaultEntries s.corpus.dir v.ns v.idx else p.entryPoints
  let w0 := entries.foldl (fun w e => consider env (env.depth + 2) w e none 0) {}
  let limit := p.hopLimit.getD 16384
  (walkLoop env limit w0, limit)

/-! ## Serving a probe on this module -/

/-- The member that a probe becomes (R52, R91, R93). `seed` is the scan bound it carries. -/
def memberOf (handle origin tenant ns snap : Nat) (sketches : List (Nat × Nat)) (vector : List F32) (n r kSel seed w : Nat)
    (inT : List InTerm) (postT : List PostTerm) (forced deadline : Nat) (check discard : Bool) : Member :=
  { handle, origin, tenant, ns, snapshot := snap, sketches, vector, n, r, kSel, bound := if check then w else min seed w
    inTerms := inT, postTerms := postT, forced, deadlineAt := deadline, listBound := w, released := check
    ctx := { kSel := kSel }, check, discard }

/-- The other strand of a dual-strand check: of another partition with the image, else of the same one (R504). -/
def State.otherStrand (s : State) (parts : List Nat) (g : Nat) : Option Nat :=
  match s.batchStrand (parts.filter fun p => p ≠ g / 8) with
  | some h => some h
  | none => firstBy (fun a b => if s.scanQueue a ≠ s.scanQueue b then s.scanQueue a < s.scanQueue b else a < b)
      (upTo 32 fun h => s.takesWork h && h / 8 = g / 8 && h ≠ g)

/-- The strand on which a member of a query's handle runs for a list. -/
def State.strandOf (s : State) (list handle : Nat) : Option Nat :=
  (s.pipe.batches.find? fun kb => kb.2.list = list && kb.2.members.any fun m => m.handle = handle && !m.discard).map fun kb => kb.2.g

/-- Serve a probe on this module: it joins a batch, or is answered WITHDRAWN where no partition has the image (R52). With `dual` it
runs a second time on another strand, for the comparison only (R504). -/
def State.serveProbe (s : State) (listHandle : Nat) (l : ListData) (m : Member) (gig dual : Bool) : State :=
  let parts := match s.versionOf l.ns l.idx l.version with
    | some v => match s.imageByDigest v.image with
      | some (_, i) => i.installed
      | none => []
    | none => []
  if parts.isEmpty then
    (s.tally 0x2B10 0x10).sendPiece m.origin m.tenant (emptyPiece m.handle l.listId true)
  else
    let s := s.joinBatch listHandle l parts gig dual m
    if !dual then s
    else match s.strandOf listHandle m.handle with
      | some g1 => match s.otherStrand parts g1 with
        | some g2 =>
          let s := ({ s with repair := { s.repair with
            duals := s.repair.duals ++ [(⟨m.handle, l.listId, g1, g2, none, none⟩ : DualCheck)] } } : State).spendCycles 0x2D10 1
          s.openBatch listHandle l (viewAt l m.snapshot) g2 true { m with discard := true }
        | none => s
      | none => s

/-- The probes that wait for a partition with their image are tried again, oldest first (R52, R74; log 81). -/
def State.unpark (s : State) : State :=
  s.pipe.parked.foldl (fun s p => match s.list p.list with
    | some l => s.serveProbe p.list l p.member p.gig p.dual
    | none => s) { s with pipe := { s.pipe with parked := [] } }

/-! ## Items to a peer -/

/-- An in-scan term in its 8 bytes (R192). -/
def inTermBytes (t : InTerm) : List Byte :=
  leBytes 1 t.op ++ leBytes 1 (t.clause + if t.negate then 4 else 0) ++ leBytes 2 0 ++ leBytes 4 t.arg

/-- A post-filter term in its 16 bytes (R196). -/
def postTermBytes (t : PostTerm) : List Byte :=
  leBytes 2 t.off ++ leBytes 1 t.ty ++ leBytes 1 t.op ++ leBytes 1 (t.clause + if t.negate then 4 else 0) ++ leBytes 3 0 ++
    leBytes 8 t.const

/-- The content of a QCTX item; BUDGET_US is stamped as the dray closes (R346). -/
def qctxContent (handle snap ver ns idx n kSel forced dim : Nat) (sketches : List (Nat × Nat)) (w : Nat) (inT : List InTerm)
    (postT : List PostTerm) (urgent : Bool) (probes : Nat) : List Byte :=
  let gens := sketches.map (·.1)
  leBytes 8 handle ++ leBytes 8 snap ++ leBytes 4 ver ++ leBytes 4 ns ++ leBytes 4 idx ++ leBytes 4 0 ++ leBytes 4 n ++
    leBytes 4 kSel ++ leBytes 4 forced ++ leBytes 2 dim ++ leBytes 1 gens.length ++ leBytes 1 (gens.getD 0 0) ++
    leBytes 1 (gens.getD 1 0) ++ leBytes 1 inT.length ++ leBytes 1 postT.length ++ leBytes 1 (if urgent then 1 else 0) ++
    leBytes 2 probes ++ leBytes 2 0 ++ (sketches.flatMap fun g => leBytes (w / 8) g.2) ++ inT.flatMap inTermBytes ++
    postT.flatMap postTermBytes

/-- The QVEC items of a vector, each within a frame of class Q (R345, R346). -/
def State.qvecItems (s : State) (handle : Nat) (vec : List F32) : List (List Byte) :=
  let n := max 1 (min 2286 ((s.maxFrame 0 - 72) / 4))
  let parts := chunks n vec
  (List.range parts.length).map fun i =>
    let p := parts.getD i []
    drayItem 2 (leBytes 8 handle ++ leBytes 2 (i * n) ++ leBytes 2 p.length ++ leBytes 4 0 ++ p.flatMap fun e => leBytes 4 e.toNat)

/-- A PROBE item (R345). -/
def probeItem (handle list seed listHandle : Nat) : List Byte :=
  drayItem 3 (leBytes 8 handle ++ leBytes 4 list ++ leBytes 2 seed ++ leBytes 2 0 ++ leBytes 8 listHandle)

/-- The context of a query for a peer, and its vector. A query with R = 0 needs no vector there: its context carries DIM 0, by which the
peer tells it from one with R = N, and no QVEC follows (R22, R346; DESIGN CHOICE: the spec gives R no field, log 11). -/
def State.ctxItems (s : State) (r dim : Nat) (vector : List F32) (handle : Nat) (ctx : Nat → List Byte) : List (List Byte) :=
  drayItem 1 (ctx (if r = 0 then 0 else dim)) :: (if r = 0 then [] else s.qvecItems handle vector)

/-- Mirror a probe to the shadow with its context and vector (R508). -/
def State.mirrorProbe (s : State) (l : ListData) (listHandle : Nat) (m : Member) (seed dim : Nat) (urgent : Bool) : State :=
  let sh := s.repair.shadow
  if sh.state = 2 && sh.role = 1 && sh.shards.contains l.shard then
    let w := match s.versionOf l.ns l.idx l.version with
      | some v => widthBits v.width
      | none => 256
    let ctx (d : Nat) := qctxContent m.handle m.snapshot l.version l.ns l.idx m.n m.kSel m.forced d m.sketches w m.inTerms m.postTerms urgent 1
    (s.ctxItems m.r dim m.vector m.handle ctx ++ [probeItem m.handle l.listId seed listHandle]).foldl
      (fun s i => s.addItem sh.peer 0 m.tenant false urgent i) s
  else s

/-- Is a query one of the mirrored queries that run in check mode: one in SHADOW_SAMPLE (R508)? -/
def State.shadowChecked (s : State) (l : ListData) (handle : Nat) : Bool :=
  let sh := s.repair.shadow
  sh.state = 2 && sh.role ≠ 0 && sh.shards.contains l.shard && handleSerial handle % s.setting 0x2D02 3 8 = 0

/-! ## Dispatch -/

/-- A probe's target: local, a peer module, or none to be had (R357, R358). -/
inductive Target where
  | here
  | peer (module : Nat)
  | lost
  deriving DecidableEq, Repr

/-- Where a chosen list is probed: its shard's home under the map that governs the snapshot; with no map in force, its directory
entry's home (R103, R357, R358). -/
def State.targetOf (s : State) (e : DirEntry) (snap : Nat) : Target :=
  match (s.mapAt snap).bind fun m => shardOf m e.shard with
  | some (home, st) => if st ≥ 2 then .lost else if home = s.mgmt.moduleId then .here else .peer home
  | none => if e.home = s.mgmt.moduleId then .here else .peer e.home

/-- Where each chosen list of a query is probed at its snapshot (R52, R104). -/
def State.walkTargets (s : State) (x : Query) (lists : List Nat) : List (Nat × Target) :=
  lists.map fun t => match s.corpus.dir.get t with
    | some e => (t, s.targetOf e (x.snapshot.getD 0))
    | none => (t, Target.lost)

/-- The seed that a probe of a query is dispatched with: under CARRIED the smallest list bound received up to now (R96). -/
def seedOf (x : Query) (w : Nat) (carried : Bool) : Nat := if carried then min w (x.seed.getD w) else w

/-- A chosen list counts as not reached (R35, R41). -/
def loseList (x : Query) (list : Nat) : Query :=
  { x with chosen := replaceFirst (fun c => c.list = list) (fun c => { c with state := .notReached }) x.chosen }

/-- Send a probe of a query to a peer, with the query's context and vector before the first one (R346). -/
def State.probePeer (s : State) (q : Nat) (x : Query) (v : Version) (p list handle seed : Nat) : State :=
  let qh := s.handleOf q x
  let probes := ((s.walkTargets x (x.chosen.map (·.list))).filter fun t => t.2 = .peer p).length
  let ctx (d : Nat) := qctxContent qh (x.snapshot.getD 0) x.version x.fields.ns x.fields.idx (if x.r > 0 then x.r else x.fields.k)
    x.ctx.kSel x.forced d x.sketches (widthBits v.width) x.fields.inTerms x.fields.postTerms x.gig probes
  let items := (if x.ctxSent.contains p then [] else s.ctxItems x.r v.dim x.vector qh ctx) ++ [probeItem qh list seed handle]
  items.foldl (fun s i => s.addItem p 0 x.tenant false x.gig i)
    (s.setQuery q { x with ctxSent := if x.ctxSent.contains p then x.ctxSent else p :: x.ctxSent })

/-- Dispatch the probe of one chosen list of a query: to its batch here, to its home, or nowhere (R52, R96, R346, R357, R358). -/
def State.dispatchList (s : State) (q : Nat) (x : Query) (v : Version) (list : Nat) (carried : Bool) : State :=
  let w := widthBits v.width
  let seed := seedOf x w carried
  match s.corpus.dir.get list with
  | some e =>
    match s.targetOf e (x.snapshot.getD 0), s.list e.handle with
    | .peer p, _ => s.probePeer q x v p list e.handle seed
    | .here, some l =>
      let qh := s.handleOf q x
      let m := memberOf qh s.mgmt.moduleId x.tenant x.fields.ns (x.snapshot.getD 0) x.sketches x.vector
        (if x.r > 0 then x.r else x.fields.k) x.r x.ctx.kSel seed w x.fields.inTerms x.fields.postTerms x.forced x.deadlineAt
        (x.dual || s.shadowChecked l qh) false
      ((s.setQuery q x).mirrorProbe l e.handle m seed v.dim x.gig).serveProbe e.handle l m x.gig x.dual
    | _, _ => s.tryFinish q (loseList x list)
  | none => s.tryFinish q (loseList x list)

/-- The chosen lists of a query whose probes stand in the link to the dispatch, or are held by ROUTE for a credit (R57). -/
def undispatched (x : Query) : List Nat :=
  if x.phase == .searching then (x.chosen.filter fun c => !c.sent && c.state == .open).map (·.list) else []

/-- Does ROUTE of a strand hold probes beyond the 1,024 credits of its link to the dispatch? It then takes no walk (R57, R58). -/
def State.routeStalled (s : State) (g : Nat) : Bool :=
  ((s.pipe.queries.filter fun kq => kq.2.g = g).map fun kq => (undispatched kq.2).length).sum > 1024

/-- The probe of a partition that is dispatched next: that of the query which arrived first (R57; log 81). -/
def State.nextProbe (s : State) (part : Nat) : Option (Nat × Query × Nat) :=
  match firstBy (fun a b => decide (a.2.seq < b.2.seq)) (s.pipe.queries.filter fun kq => kq.2.g / 8 = part && !(undispatched kq.2).isEmpty) with
  | some (q, x) => (undispatched x).head?.map fun list => (q, x, list)
  | none => none

/-- The version of a query, with the seed policy of its SCAN program (R96). -/
def State.seedPolicy (s : State) (v : Version) : Bool := match s.imageByDigest v.image with
  | some (_, i) => i.progs.seedCarried
  | none => true

/-- The dispatch of a partition takes up to a number of probes out of the links from ROUTE (R52, R57). -/
def State.dispatchProbes (part : Nat) : Nat → State → State
  | 0, s => s
  | n + 1, s => match s.nextProbe part with
    | none => s
    | some (q, x, list) =>
      let x := { x with chosen := replaceFirst (fun c => c.list = list) (fun c => { c with sent := true }) x.chosen }
      State.dispatchProbes part n (match s.versionOf x.fields.ns x.fields.idx x.version with
        | some v => s.dispatchList q x v list (s.seedPolicy v)
        | none => s.tryFinish q (loseList x list))

end Sys2Proof.Machine
end

