-- ==== Sys2Proof/Machine/Exchange.lean ====
section
/-! DEFINITION. Drays and the work they carry (R18, R52, R187, R344 to R350, R357, R361 to R363, R369): the commands DRAY_CLOSE_WINDOW,
DRAY_ROUTE_DROP, DRAY_RECEIVE, PEER_SNAPSHOT_HOLD_END, QCTX_BUDGET_EXPIRE, MAP_WORK_HOLD_END, QUERY_COMPLETION_WRITE. -/
namespace Sys2Proof.Machine

/-! ## Items -/

/-- The class of an item type; none for a reserved one (R345). -/
def itemClass : Nat → Option Nat
  | 1 => some 0
  | 2 => some 0
  | 3 => some 0
  | 4 => some 0
  | 5 => some 1
  | 6 => some 2
  | 7 => some 2
  | 8 => some 1
  | 9 => some 2
  | 0xA => some 1
  | 0xB => some 3
  | 0xC => some 3
  | 0xD => some 3
  | 0xE => some 3
  | 0xF => some 3
  | 0x10 => some 3
  | _ => none

/-- The items of a dray, and the bytes left over. -/
def splitItems : Nat → List Byte → List (List Byte) × List Byte
  | 0, b => ([], b)
  | n + 1, b =>
    let len := field b 2 2
    if len < 8 ∨ len % 8 ≠ 0 ∨ len > 9168 ∨ len > b.length then ([], b)
    else
      let rest := splitItems n (b.drop len)
      (b.take len :: rest.1, rest.2)

/-- A dray's items where it is well formed: its items fill it exactly, are as many as ITEM_COUNT, of known types and of its class. -/
def drayItems (cls : Nat) (body : List Byte) : Option (List (List Byte)) :=
  let n := field body 8 2
  let p := splitItems n (body.drop 16)
  if body.length < 16 || n = 0 || n > 1024 || p.1.length ≠ n || !p.2.isEmpty || field body 10 2 > 3 || !allZero body 12 4 ||
      p.1.any fun i => itemClass (itemType i) != some cls then none
  else some p.1

/-! ## Repeats (R348) -/

/-- Key of a source and class. -/
def rxKey (src cls : Nat) : Nat := src * 8 + cls

/-- Is a sequence number a repeat? -/
def isRepeat (cls n inc : Nat) (r : RxSeq) : Bool :=
  inc < r.incarnation || inc = r.incarnation &&
    (if cls = 2 then decide (n ≤ r.highest) else n = r.highest && r.highest ≠ 0 || r.seen.contains n || decide (n + 1024 ≤ r.highest))

/-- Record a sequence number; a higher incarnation clears the source's state. -/
def State.recordSeq (s : State) (src cls n inc : Nat) : State :=
  let r := s.exchange.rxSeqs.getD (rxKey src cls) {}
  let cleared := inc > r.incarnation
  let base := if cleared then s.exchange.rxSeqs.keep (fun k _ => k / 8 ≠ src) else s.exchange.rxSeqs
  let r : RxSeq := if cleared then { incarnation := inc } else r
  let hi := max r.highest n
  let seen := ((if n > r.highest then r.highest :: r.seen else n :: r.seen).filter fun k => k < hi && hi < k + 1025)
  { s with exchange := { s.exchange with rxSeqs := base.set (rxKey src cls) { r with highest := hi, seen := if cls = 2 then [] else seen } } }

/-! ## Answers to work that is not served (R357) -/

/-- Answer STALE_MAP to a probe or a row request. -/
def State.staleStatus (s : State) (src tenant handle list : Nat) : State :=
  (s.tally 0x2B10 9).addItem src 1 tenant false false (statusItem handle list 4)

/-- Answer STALE_MAP to a record or a row write, at the batch's origin. -/
def State.staleWrite (s : State) (w : Write) : State := (s.tally 0x2B10 9).answerWrite w 5 0 0

/-- Where work of a shard that is not served here goes: the LIVE home elsewhere in the newest map, once. -/
def State.forwardTo (s : State) (feature : Bool) (shard : Nat) (fwd : Bool) : Option Nat :=
  match s.lastMap.bind fun m => (if feature then m.features else m.shards)[shard]? with
  | some e => if !fwd && e.state = 0 && e.home ≠ s.mgmt.moduleId then some e.home else none
  | none => none

/-! ## Contexts (R346, R347) -/

/-- Read in-scan terms (R192). -/
def readInTerm (b : List Byte) : InTerm × List Byte :=
  ({ op := field b 0 1, clause := field b 1 1 % 4, negate := bit (field b 1 1) 2, arg := field b 4 4 }, b.drop 8)

/-- Read post-filter terms (R196). -/
def readPostTerm (b : List Byte) : PostTerm × List Byte :=
  ({ off := field b 0 2, ty := field b 2 1, op := field b 3 1, clause := field b 4 1 % 4, negate := bit (field b 4 1) 2, const := field b 8 8 }, b.drop 16)

/-- A context from its item. -/
def State.readQctx (s : State) (i : List Byte) (src tenant : Nat) : QCtx :=
  let c := i.drop 8
  let ns := field c 20 4
  let idx := field c 24 4
  let ver := field c 16 4
  let w := match s.versionOf ns idx ver with
    | some v => widthBits v.width
    | none => 256
  let gens := (if field c 46 1 ≥ 2 then [field c 47 1, field c 48 1] else [field c 47 1])
  let sk := takeMany (takeNat (w / 8)) gens.length (c.drop 56)
  let ins := takeMany readInTerm (field c 49 1) sk.2
  let posts := takeMany readPostTerm (field c 50 1) ins.2
  { handle := field c 0 8, source := src, tenant, snapshot := field c 8 8, version := ver, ns, idx
    budgetEnd := s.time + field c 28 4 * cyclesPerUs, n := field c 32 4, kSel := field c 36 4, forced := field c 40 4, dim := field c 44 2
    sketches := gens.zip sk.1, inTerms := ins.1, postTerms := posts.1, urgent := bit (field c 51 1) 0, probes := field c 52 2 }

/-- The context of a source and handle. -/
def State.ctxOf (s : State) (src handle : Nat) : Option (Nat × QCtx) := s.exchange.qctx.find? fun kc => kc.2.source = src && kc.2.handle = handle

/-- The vector of a context once every chunk is present. -/
def QCtx.vector (c : QCtx) : List F32 :=
  let es := (sortBy (fun a b => decide (a.1 < b.1)) c.chunks).flatMap (·.2)
  if es.length = c.dim then es else []

/-- A QCTX item takes a context slot (R346, R347). -/
def State.onQctx (s : State) (i : List Byte) (src tenant : Nat) : State :=
  let c := s.readQctx i src tenant
  if (s.ctxOf src c.handle).isSome then s
  else { s with exchange := { s.exchange with qctx := s.exchange.qctx.set s.exchange.qctx.fresh c } }

/-- A QVEC item: a chunk of the vector, for the context and for the probes of it that wait in RERANK; the last chunk lets go what a gate
has released (R126, R346, R347). -/
def State.onQvec (s : State) (i : List Byte) (src : Nat) : State :=
  let handle := field i 8 8
  match s.ctxOf src handle with
  | none => s
  | some (k, c) =>
    let n := field i 18 2
    let es := (takeMany (fun b => (BitVec.ofNat 32 (field b 0 4), b.drop 4)) n (i.drop 24)).1
    let first := field i 16 2
    let c := { c with chunks := (c.chunks.filter fun x => x.1 ≠ first) ++ [(first, es)] }
    let s := { s with exchange := { s.exchange with qctx := s.exchange.qctx.set k c } }
    let s := c.forwardedTo.foldl (fun s d => s.addItem d 0 c.tenant true c.urgent i) s
    let vec := c.vector
    if vec.isEmpty then s
    else
      let give (m : Member) : Member := if m.handle = handle && m.vector.isEmpty then { m with vector := vec } else m
      let s : State := { s with pipe := { s.pipe with
        batches := s.pipe.batches.mapVals fun b => { b with members := b.members.map give }
        parked := s.pipe.parked.map fun p => { p with member := give p.member } } }
      (s.membersWhere fun _ _ _ m => m.handle = handle).foldl (fun s bi => match s.memberCtx bi.1 bi.2 with
        | some (_, m, v) => if mayRelease m v then s.releaseMember bi.1 bi.2 false else s
        | none => s) s

/-! ## Probes (R52, R97, R187, R357) -/

/-- Work that waits for a newer map or for its snapshot's closure. -/
def State.holdWork (s : State) (i : List Byte) (src cls tenant mapEpoch : Nat) (fwd : Bool) (snapshot : Option Nat) : State :=
  let h : HeldWork := { item := i, source := src, cls, tenant, mapEpoch, forwarded := fwd, since := s.time, waitUs := s.setting 0x2B00 2 2000, snapshot }
  { s with exchange := { s.exchange with held := s.exchange.held ++ [h] } }

/-- The list that a probe names here: by its LIST_HANDLE, or by its list ID where the shard has moved since. -/
def State.probedList (s : State) (c : QCtx) (list handle : Nat) : Option (Nat × ListData) :=
  let fits (l : ListData) : Bool := l.listId = list && l.ns = c.ns && l.idx = c.idx && l.version = c.version
  match s.list (handle % 2 ^ 28) with
  | some l => if fits l then some (handle % 2 ^ 28, l) else s.corpus.lists.find? fun kl => fits kl.2 && !kl.2.retired
  | none => s.corpus.lists.find? fun kl => fits kl.2 && !kl.2.retired

/-- Forward a probe once to the new home of its shard; its context goes ahead of the first (R357). -/
def State.forwardProbe (s : State) (i : List Byte) (k : Nat) (c : QCtx) (dest : Nat) : State :=
  let s := s.tally 0x2B10 8
  let w := match s.versionOf c.ns c.idx c.version with
    | some v => widthBits v.width
    | none => 256
  let add (s : State) (i : List Byte) : State := s.addItem dest 0 c.tenant true c.urgent i
  let s := if c.forwardedTo.contains dest then s
    else
      let ctx := drayItem 1 (qctxContent c.handle c.snapshot c.version c.ns c.idx c.n c.kSel c.forced c.dim c.sketches w c.inTerms c.postTerms c.urgent c.probes)
      let vecs := if c.vector.isEmpty then [] else s.qvecItems c.handle c.vector
      let s := (ctx :: vecs).foldl add s
      { s with exchange := { s.exchange with qctx := s.exchange.qctx.set k { c with forwardedTo := dest :: c.forwardedTo } } }
  (add s i).probeDone c.handle

/-- Serve a probe here: tenant test, then its list's batch, as a gig while the gig path is open (R52, R64, R187, R508). A context with DIM 0
is that of a query with R = 0 (R22; log 11). -/
def State.servePeerProbe (s : State) (c : QCtx) (handle : Nat) (l : ListData) (seed : Nat) : State :=
  let w := match s.versionOf l.ns l.idx l.version with
    | some v => widthBits v.width
    | none => 256
  let g := ((s.batchStrand [0, 1, 2, 3]).getD 0)
  if seed > w then (s.tally (0x2320 + g) 7).probeDone c.handle
  else if (s.tenantTest c.tenant c.ns c.snapshot).isNone then (s.tally (0x2610 + g) 5).probeDone c.handle
  else
    let sh := s.repair.shadow
    let mirrored := sh.role = 2 && c.source = sh.peer
    let m := memberOf c.handle (c.handle % 4096) c.tenant c.ns c.snapshot c.sketches c.vector c.n (if c.dim = 0 then 0 else c.n) c.kSel seed w c.inTerms
      c.postTerms c.forced c.budgetEnd (s.shadowChecked l c.handle) mirrored
    s.serveProbe handle l m (c.urgent && s.pipe.gigShare > 0) false

/-- A PROBE item (R18, R52, R347, R357). -/
def State.onProbe (s : State) (i : List Byte) (src cls tenant mapEpoch : Nat) (fwd : Bool) : State :=
  let handle := field i 8 8
  let list := field i 16 4 % 2 ^ 20
  match s.ctxOf src handle with
  | none => s.tally 0x2B10 7
  | some (k, c) =>
    if mapEpoch > s.newestMap then s.holdWork i src cls tenant mapEpoch fwd none
    else
      let shard := (s.corpus.dir.getD list { csketch := 0, home := 0, handle := 0 }).shard
      let home := (s.homeAt shard c.snapshot).1
      let mirrored := s.repair.shadow.role = 2 && src = s.repair.shadow.peer
      match s.probedList c list (field i 24 8), (home = s.mgmt.moduleId || mirrored : Bool) with
      | some (h, l), true =>
        if c.snapshot > s.usableClosed then s.holdWork i src cls tenant mapEpoch fwd (some c.snapshot)
        else s.servePeerProbe c h l (field i 20 2)
      | _, _ => match s.forwardTo false shard fwd with
        | some d => s.forwardProbe i k c d
        | none => (s.staleStatus src tenant handle list).probeDone handle

/-! ## Feature rows (R361, R362) -/

/-- A row of a ROWS item. -/
def rowItem (row version : Nat) (dflt : Bool) (value : List Byte) : List Byte :=
  leBytes 8 row ++ leBytes 8 version ++ leBytes 2 (if dflt then 1 else 0) ++ leBytes 6 0 ++ value

/-- Serve the rows of a request that are homed here, in ROWS items within a frame of class R. -/
def State.serveRows (s : State) (src tenant handle : Nat) (t : FeatTable) (rows : List Nat) : State :=
  let per := max 1 ((s.maxFrame 1 - 72) / (24 + t.rowBytes))
  (chunks (min per 1024) rows).foldl (fun s c =>
    let a := c.foldl (fun (a : State × List Byte) row =>
      if row ≥ t.rows then (a.1, a.2 ++ rowItem row 0 true t.default_)
      else
        let r := a.1.serveRow src t row
        (r.1, a.2 ++ rowItem row r.2.2 false r.2.1)) (s, [])
    a.1.addItem src 1 tenant false false
      (drayItem 5 (leBytes 8 handle ++ leBytes 4 t.table ++ leBytes 2 c.length ++ leBytes 2 t.rowBytes ++ a.2))) s

/-- A ROWREQ item: served here, forwarded once, or answered STALE_MAP (R357, R361). -/
def State.onRowReq (s : State) (i : List Byte) (src cls tenant mapEpoch : Nat) (fwd : Bool) : State :=
  let handle := field i 8 8
  let table := s.tableNamed tenant (field i 16 4)
  let rows := (takeMany (takeNat 8) (field i 20 2) (i.drop 24)).1
  if mapEpoch > s.newestMap then s.holdWork i src cls tenant mapEpoch fwd none
  else match s.table table with
    | none => s.staleStatus src tenant handle 0xFFFFFFFF
    | some t =>
      let homeOf (r : Nat) : Nat := (s.featHome ((s.featShard table r).getD 0) s.epochs.open_).1
      let here := rows.filter fun r => r ≥ t.rows || homeOf r = s.mgmt.moduleId
      let away := rows.filter fun r => !here.contains r
      let s := if here.isEmpty then s else s.serveRows src tenant handle t here
      away.foldl (fun s r => match s.forwardTo true ((s.featShard table r).getD 0) fwd with
        | some d => (s.tally 0x2B10 8).addItem d 0 tenant true false
            (drayItem 4 (leBytes 8 handle ++ leBytes 4 t.table ++ leBytes 2 1 ++ leBytes 2 0 ++ leBytes 8 r))
        | none => s.staleStatus src tenant handle 0xFFFFFFFF) s

/-- The rows of a ROWS item. -/
def readRowAnswer (n : Nat) (b : List Byte) : (Nat × Bool × List Byte) × List Byte :=
  ((field b 0 8, bit (field b 16 2) 0, slice b 24 n), b.drop (24 + n))

/-- The inputs of an item that wait for a row of a table. -/
def State.inputsFor (s : State) (x : Query) (b : BlockItem) (table row : Nat) : List Nat :=
  if b.dropped then []
  else ((s.featsOf x).filter fun f => b.rowsDue.contains f.1 && f.2.table = table &&
    s.featIndex x b.entry.key f.2.source = some (some row)).map (·.1)

/-- One requested row arrives for the items of a block that wait for it (R361, R362). -/
def State.takeRow (s : State) (q table : Nat) (r : Nat × Bool × List Byte) : State :=
  match s.query q with
  | none => s
  | some x =>
    if !(x.phase == .assembling) then s
    else if r.2.1 then s.defaultBlock q x (fun b n => (s.inputsFor x b table r.1).contains n) false
    else s.requestScore q { x with block := x.block.map fun b => (s.inputsFor x b table r.1).foldl (fun b n => takenRow b n r.2.2) b }

/-- A ROWS item. -/
def State.onRows (s : State) (i : List Byte) : State :=
  match s.queryOf (field i 8 8) with
  | none => s
  | some q => ((takeMany (readRowAnswer (field i 22 2)) (field i 20 2) (i.drop 24)).1).foldl (fun s r => s.takeRow q (field i 16 4) r) s

/-- A STATUS item: STALE_MAP completes the query at once, but as the answer to a row request it gives the rows asked for their default
(R42, R357, R361; log 59); DATA_LOSS tells of a payload that was unreadable for a peer's work (R40, R198; log 85). -/
def State.onStatus (s : State) (i : List Byte) : State :=
  match s.queryOf (field i 8 8) with
  | none => s
  | some q => match s.query q with
    | some x =>
      let code := field i 20 1
      if x.phase == .emitting || x.phase == .handedOff then s
      else if code = 9 then s.setQuery q { x with dataLoss := true }
      else if code ≠ 4 then s
      else if field i 16 4 ≠ 0xFFFFFFFF then s.toEmit q { x with stale := true, answer := [] }
      else if x.phase == .assembling then s.defaultBlock q x (s.rowAsked x) false
      else s
    | none => s

/-! ## Ingest (R214, R357, R363) -/

/-- The write of a RECORD or ROWWRITE item. -/
def writeOf (i : List Byte) (src tenant at_ : Nat) : Write :=
  if itemType i = 6 then
    { record := parseRecord (i.drop 24), tenant, origin := src, batch := field i 8 8, pos := field i 16 4, arrivedAt := at_ }
  else
    let value := i.drop 32
    let r : IngestRec := { op := 4, keepVector := false, keepPayload := false, fmt := 0, dim := 0, ns := 0, idx := 0, key := field i 24 8, attr := 0
                           clientTag := 0, vector := [], payload := [], size := i.length }
    { record := r, row := some ⟨field i 20 4, field i 24 8, value⟩, tenant, origin := src, batch := field i 8 8, pos := field i 16 4, arrivedAt := at_ }

/-- A record that the partner of a shadow has made durable: logged and applied with its epoch, answered to no host (R508). -/
def State.shadowRecord (s : State) (w : Write) : State :=
  let r := w.record
  let vs := s.writeVersions r.ns r.idx w.batch
  let code := keyCode r.ns r.idx r.key
  let old := s.corpus.keys.getD code none
  let s := match old with
    | some o => { s with corpus := { s.corpus with records := s.corpus.records.alter o fun x => { x with delete := some w.batch } } }
    | none => s
  if r.op = 3 then
    ({ s with corpus := { s.corpus with keys := s.corpus.keys.set code none } } : State).queueWrite { w with epoch := w.batch, deletes := old.toList }
  else
    let n := s.corpus.nextRec
    let oldRec := old.bind fun o => s.corpus.records.get o
    let stored := match oldRec with
      | some o => if r.keepVector then o.stored else storeVector r.fmt r.vector r.elements
      | none => storeVector r.fmt r.vector r.elements
    let payload := match oldRec with
      | some o => if r.keepPayload then o.payload else r.payload
      | none => r.payload
    let shard := s.shardOfKey r.key
    let places := vs.flatMap fun v =>
      if r.keepVector then s.keptPlaces v shard w.batch n r.key r.attr (old.getD 0) stored
      else
        let i := s.makeItem v w.batch n r.key r.attr r.elements
        (s.nearestLists v shard r.elements).map fun h => (v.ver, h, i)
    let rec_ : Rec := { ns := r.ns, idx := r.idx, key := r.key, attr := r.attr, stored, payload, insert := w.batch }
    let (s, rec_) := s.storeRec rec_ []
    ({ s with corpus := { s.corpus with
      keys := s.corpus.keys.set code (some n), records := s.corpus.records.set n rec_, nextRec := n + 1 } } : State).queueWrite
      { w with epoch := w.batch, places, deletes := old.toList, recId := some n }

/-- A RECORD or ROWWRITE item: to the commit path, forwarded once, or answered STALE_MAP (R214, R357, R363). -/
def State.onWrite (s : State) (i : List Byte) (src cls tenant mapEpoch : Nat) (fwd : Bool) : State :=
  let w := writeOf i src tenant s.time
  if mapEpoch > s.newestMap then s.holdWork i src cls tenant mapEpoch fwd none
  else if w.pos = 0xFFFFFFFF then
    if s.repair.shadow.role = 2 && src = s.repair.shadow.peer then s.shadowRecord w else s
  else
    let feature := w.row.isSome
    let shard := match w.row with
      | some x => (s.featShard (s.tableNamed tenant x.table) x.row).getD 0
      | none => s.shardOfKey w.record.key
    let h := if feature then s.featHome shard s.epochs.open_ else s.homeAt shard s.epochs.open_
    if h.1 = s.mgmt.moduleId && h.2 ≤ 1 then
      let w := match w.row, w.row.bind fun x => s.table (s.tableNamed tenant x.table) with
        | some x, some t => { w with row := some { x with
            table := t.code, value := x.value.take (if x.value.length < t.rowBytes + 8 then t.rowBytes else x.value.length) } }
        | _, _ => w
      s.arriveWrite w
    else match s.forwardTo feature shard fwd with
      | some d => (s.tally 0x2B10 8).addItem d 2 tenant true false i
      | none => s.staleWrite w

/-- An IRESULT item (R212). -/
def State.onResult (s : State) (i : List Byte) : State :=
  let ref := field i 8 8
  let r : IngestResult := { clientTag := field i 16 8, epoch := field i 24 8, status := field i 32 1, cause := field i 33 1 }
  if ref % 4096 = s.mgmt.moduleId % 4096 then s.takeResult (ref / 4096) (field i 36 4) r else s

/-- A PROBE_COUNTS item: sums of lists homed here (R226). -/
def State.onCounts (s : State) (i : List Byte) : State :=
  let ps := (takeMany (fun b => ((field b 0 4 % 2 ^ 20, field b 4 4), b.drop 8)) (field i 8 2) (i.drop 16)).1
  ps.foldl (fun s p => match s.corpus.dir.get p.1 with
    | some e => if e.home = s.mgmt.moduleId then { s with maint := { s.maint with sums := s.maint.sums.put p.1 0 (s.maint.sums.getD p.1 0 + p.2) } } else s
    | none => s) s

/-! ## Request state (R369) -/

/-- The whole state of a query has arrived: it goes on here, and TAKEN is sent. -/
def State.takeOver (s : State) (src : Nat) (content : List Byte) : State :=
  let handle := field content 0 8
  if (s.queryOf handle).isSome || content.length < 88 then s
  else
    let g := (s.placeStrand [0, 1, 2, 3]).getD 0
    let slot := (s.freeSlot g).getD 0
    let q := s.pipe.nextQuery
    let (x, es) := s.readQuery content q g slot
    let (s, ctx) := ({ s with pipe := { s.pipe with nextQuery := q + 1 } } : State).openCtx g x.ctx.kSel false
    let (s, ctx, _) := es.foldl (fun (a : State × SelCtx × Nat) e => let r := a.1.offer g a.2.1 e; (r.1, r.2.1, a.2.2 + r.2.2)) (s, ctx, 0)
    let l : Lease := { handle, peer := src, draining := false, epoch := s.newestMap, expiry := x.deadlineAt + s.setting 0x2B00 4 1000 * cyclesPerUs
                       complete := true, taken := true }
    let s := { s with exchange := { s.exchange with leases := (s.exchange.leases.filter fun (y : Lease) => y.handle ≠ handle) ++ [l] } }
    (s.tryFinish q { x with ctx }).sendLease src 2 0 handle s.newestMap l.expiry

/-- The ANSWER items of a query completed here for a draining module: at most 512 entries each, the first with the completion block. -/
def State.sendAnswer (s : State) (dest handle : Nat) (x : Query) : State :=
  let es := validEntries x
  let n := 400
  let parts := if es.isEmpty then [([] : List Entry)] else chunks n es
  let block := leBytes 1 (statusOf x) ++ leBytes 1 (reasonOf x) ++ leBytes 2 0 ++ leBytes 4 es.length ++ leBytes 4 (coverageOf x) ++
    leBytes 4 (min 0xFFFFFFFF x.merged) ++ slice (s.nodeSetDigest x) 0 64
  (List.range parts.length).foldl (fun s i =>
    let p := parts.getD i []
    s.addItem dest 1 x.tenant false false (drayItem 0xA (leBytes 8 handle ++ leBytes 4 (i * n) ++ leBytes 2 p.length ++
      leBytes 2 (if i + 1 = parts.length then 1 else 0) ++ (if i = 0 then block else []) ++ p.flatMap entryBytes))) s

/-- QUERY_COMPLETION_WRITE: EMIT writes the answer of a query that has reached it (R396); one taken over in a drain sends it to the
draining module (R369). -/
def execQueryCompletionWrite (q : Nat) (s : State) : Host.Outcome State Fault Refusal :=
  .next (State.startBlocks <| match s.query q with
    | some x =>
      if !(x.phase == .emitting) then s
      else match x.adopted with
        | some h =>
          let dest := match s.exchange.leases.find? fun l => l.handle = h && !l.draining with
            | some l => l.peer
            | none => h % 4096
          let s := s.sendAnswer dest h x
          let s := { s with exchange := { s.exchange with leases := s.exchange.leases.filter fun l => !(l.handle = h && !l.draining) } }
          s.finishQuery q x false
        | none => s.finishQuery q x true
    | none => s)

/-- The entries of an answer whose items have all come, in order. -/
def answerParts : Nat → Nat → List (Nat × List Entry) → Option (List Entry)
  | 0, _, _ => none
  | f + 1, first, ps =>
    match ps.find? fun p => p.1 = first with
    | none => none
    | some p => if ps.any fun y => y.1 > first && y.1 ≥ first + p.2.length && p.2.length > 0 then (answerParts f (first + p.2.length) ps).map (p.2 ++ ·) else some p.2

/-- The last item of an answer that has come ends the stub: X writes the completion and the leaf from the answer (R369). -/
def State.endStub (s : State) (l : Lease) : State :=
  match s.queryOf l.handle, answerParts (l.parts.length + 1) 0 l.parts with
  | some q, some es =>
    match s.query q with
    | some x =>
      if !l.last || l.block.isEmpty || es.length ≠ field l.block 4 4 then s
      else
        let g : Given := { status := field l.block 0 1, reason := field l.block 1 1, coverage := field l.block 8 4, nodeSet := slice (l.block.drop 16) 0 64 }
        let s := { s with exchange := { s.exchange with leases := s.exchange.leases.filter fun (y : Lease) => !(y.handle = l.handle && y.draining) } }
        s.finishQuery q { x with answer := es, merged := field l.block 12 4, given := some g } true
    | none => s
  | _, _ => s

/-- An ANSWER item at the draining module; a late one of a completed stub is discarded (R369, R370). -/
def State.onAnswer (s : State) (i : List Byte) : State :=
  let handle := field i 8 8
  let first := field i 16 4
  let n := field i 20 2
  let body := i.drop 24
  let es := (takeMany readEntry n (if first = 0 then body.drop 80 else body)).1
  match s.exchange.leases.find? fun l => l.handle = handle && l.draining with
  | none => s
  | some l =>
    let l := { l with
      parts := (l.parts.filter fun p => p.1 ≠ first) ++ [(first, es)], block := if first = 0 then body.take 80 else l.block
      last := l.last || bit (field i 22 2) 0, taken := true }
    let s := { s with exchange := { s.exchange with leases := replaceFirst (fun y => y.handle = handle && y.draining) (fun _ => l) s.exchange.leases } }
    s.endStub l

/-! ## TRANSFER items (R345) -/

/-- Content that has arrived whole. -/
def State.onContent (s : State) (src ty : Nat) (content : List Byte) : State :=
  match ty with
  | 0xB =>
    let (s, shard, tail) := s.installShard content
    let known := s.exchange.moves.any fun m => m.shard = shard && !m.feature
    let s := if known then s
      else { s with exchange := { s.exchange with
        moves := s.exchange.moves ++ [{ shard, source := src, dest := s.mgmt.moduleId, f1 := s.newestMap, copied := true }] } }
    if tail then
      let s := s.rehome shard (s.homeNow shard).1
      ({ s with exchange := { s.exchange with
        moves := s.exchange.moves.filter fun m => !(m.shard = shard && !m.feature && m.dest = s.mgmt.moduleId) } } : State).shadowTidy
    else s.shadowCopied
  | 0xC =>
    let s := s.installRows src content
    let shard := field content 4 4
    if field content 0 4 = 2 then
      { s with exchange := { s.exchange with moves := s.exchange.moves.filter fun m => !(m.shard = shard && m.feature && m.dest = s.mgmt.moduleId) } }
    else if field content 0 4 = 1 && !(s.exchange.moves.any fun m => m.shard = shard && m.feature) then
      { s with exchange := { s.exchange with
        moves := s.exchange.moves ++ [{ shard, feature := true, source := src, dest := s.mgmt.moduleId, f1 := s.newestMap, copied := true }] } }
    else s
  | 0xD =>
    s.keepFragment (readFragment content)
  | 0xE => s.takeContent src content
  | _ => s.takeOver src content

/-- The content of a transfer's parts, once they cover it. -/
def wholeContent (total : Nat) (parts : List (Nat × List Byte)) : Option (List Byte) :=
  let ps := sortBy (fun a b => decide (a.1 < b.1)) parts
  let joined := ps.foldl (fun (a : Option (List Byte)) p => a.bind fun b =>
    if p.1 = b.length then some (b ++ p.2.take (total - b.length)) else none) (some [])
  match joined with
  | some b => if b.length = total then some b else none
  | none => none

/-- A TRANSFER item is stored; the last of its content hands it on. -/
def State.onTransfer (s : State) (i : List Byte) (src : Nat) : State :=
  let ty := itemType i
  let key := src * 2 ^ 72 + ty * 2 ^ 64 + field i 8 8
  let off := field i 16 8
  let total := field i 24 8
  let t := s.exchange.transfers.getD key (total, [])
  let parts := (t.2.filter fun p => p.1 ≠ off) ++ [(off, (i.drop 32).take (total - off))]
  match wholeContent total parts with
  | some c => ({ s with exchange := { s.exchange with transfers := s.exchange.transfers.erase key } } : State).onContent src ty c
  | none => { s with exchange := { s.exchange with transfers := s.exchange.transfers.set key (total, parts) } }

/-! ## Drays -/

/-- One item of a dray (R345, R357). -/
def State.onItem (s : State) (i : List Byte) (src cls tenant mapEpoch : Nat) (fwd : Bool) : State :=
  match itemType i with
  | 1 => s.onQctx i src tenant
  | 2 => s.onQvec i src
  | 3 => s.onProbe i src cls tenant mapEpoch fwd
  | 4 => s.onRowReq i src cls tenant mapEpoch fwd
  | 5 => s.onRows i
  | 6 => s.onWrite i src cls tenant mapEpoch fwd
  | 7 => s.onResult i
  | 8 => s.onStatus i
  | 9 => s.onWrite i src cls tenant mapEpoch fwd
  | 0xA => s.onAnswer i
  | 0x10 => s.onCounts i
  | _ => s.onTransfer i src

/-- DRAY_RECEIVE (R344, R345, R348). -/
def execDrayReceive (src cls tenant mapEpoch : Nat) (body : List Byte) (s : State) : Host.Outcome State Fault Refusal :=
  .next (match drayItems cls body with
    | none => s.tally 0x2B10 5
    | some items =>
      let seq := field body 0 8
      let n := seq % 2 ^ 40
      let inc := seq / 2 ^ 40
      if isRepeat cls n inc (s.exchange.rxSeqs.getD (rxKey src cls) {}) then s.tally 0x2B10 6
      else
        let s := (s.recordSeq src cls n inc).count (objKey 0x2B10 2) body.length
        items.foldl (fun s i => s.onItem i src cls tenant mapEpoch (bit (field body 10 2) 1)) s)

/-- DRAY_CLOSE_WINDOW (R349). -/
def execDrayCloseWindow (dest cls tenant t : Nat) (s : State) : Host.Outcome State Fault Refusal :=
  .next (let s := s.advance t
    match s.exchange.drays.find? fun d => d.dest = dest && d.cls = cls && d.tenant = tenant && decide (s.time ≥ d.openedAt + nsCycles d.windowNs) with
    | some d => s.closeDray d
    | none => s)

/-- The lists of this module's own queries whose probes a dropped dray carried count as not reached (R350). -/
def State.loseProbes (s : State) (f : Frame) : State :=
  match drayItems 0 f.body with
  | none => s
  | some items => (items.filter fun i => itemType i = 3).foldl (fun s i =>
      match s.queryOf (field i 8 8) with
      | some q => match s.query q with
        | some x => s.listLost q x (field i 16 4 % 2 ^ 20)
        | none => s
      | none => s) s

/-- DRAY_ROUTE_DROP: Q drays that wait for an UP port past the budget of every query they carry (R350). -/
def execDrayRouteDrop (t : Nat) (s : State) : Host.Outcome State Fault Refusal :=
  .next (let s := s.advance t
    let late (f : Frame) : Bool := f.cls = 0 && decide (s.time ≥ f.budgetEnd) && (s.routePort f.dest 0).isNone
    let gone := s.exchange.waiting.filter late
    let s := { s with exchange := { s.exchange with waiting := s.exchange.waiting.filter fun f => !late f } }
    gone.foldl (fun s f => s.loseProbes f) s)

/-- PEER_SNAPSHOT_HOLD_END: work held for a snapshot that has closed here (R18). -/
def execPeerSnapshotHoldEnd (s : State) : Host.Outcome State Fault Refusal :=
  .next (let ok (h : HeldWork) : Bool := match h.snapshot with
      | some n => decide (n ≤ s.usableClosed)
      | none => false
    let hs := s.exchange.held.filter ok
    let s := { s with exchange := { s.exchange with held := s.exchange.held.filter fun h => !ok h } }
    hs.foldl (fun s h => s.onItem h.item h.source h.cls h.tenant h.mapEpoch h.forwarded) s)

/-- The context slot `k` of a query of a peer is free, and what it still has to do here is discarded (R347). -/
def State.expireCtx (s : State) (src handle k : Nat) : State :=
  let s := { s with exchange := { s.exchange with
    qctx := s.exchange.qctx.erase k
    held := s.exchange.held.filter fun h => !(h.source = src && itemType h.item = 3 && field h.item 8 8 = handle) } }
  let s := { s with pipe := { s.pipe with parked := s.pipe.parked.filter fun p => !(p.member.handle = handle && p.member.origin = src) } }
  s.discardMembers (s.membersWhere fun _ _ _ m => m.handle = handle && m.origin ≠ s.mgmt.moduleId)

/-- QCTX_BUDGET_EXPIRE: the slot is free and the query's remaining work is discarded (R347). -/
def execQctxBudgetExpire (src handle t : Nat) (s : State) : Host.Outcome State Fault Refusal :=
  .next (let s := s.advance t
    match s.ctxOf src handle with
    | none => s
    | some (k, c) =>
      if s.time < c.budgetEnd then s
      else s.expireCtx src handle k)

/-- Answer held work STALE_MAP (R357). -/
def State.staleWork (s : State) (h : HeldWork) : State :=
  match itemType h.item with
  | 3 => (s.staleStatus h.source h.tenant (field h.item 8 8) (field h.item 16 4 % 2 ^ 20)).probeDone (field h.item 8 8)
  | 4 => s.staleStatus h.source h.tenant (field h.item 8 8) 0xFFFFFFFF
  | _ => s.staleWrite (writeOf h.item h.source h.tenant h.since)

/-- Does held work wait here at its origin, for a REBUILDING shard (R358)? -/
def State.heldHere (s : State) (h : HeldWork) : Bool := h.snapshot.isNone && h.source = s.mgmt.moduleId

/-- May held work go on: its map is installed, or its shard is no longer REBUILDING (R357, R358)? -/
def State.heldReady (s : State) (h : HeldWork) : Bool :=
  (h.snapshot.isNone && h.source ≠ s.mgmt.moduleId && decide (h.mapEpoch ≤ s.newestMap)) ||
    (s.heldHere h && (s.homeNow (s.shardOfKey (parseRecord (h.item.drop 24)).key)).2 ≠ 2)

/-- Has held work of a peer waited for its map for MAP_WAIT (R357)? -/
def State.heldLate (s : State) (h : HeldWork) : Bool :=
  h.snapshot.isNone && h.source ≠ s.mgmt.moduleId && !s.heldReady h && decide (s.time ≥ h.since + h.waitUs * cyclesPerUs)

/-- Held work that may go on is served or sent, and work held too long is answered STALE_MAP (R357, R358). -/
def State.releaseHeld (s : State) : State :=
  let a := { s with exchange := { s.exchange with held := s.exchange.held.filter fun h => !s.heldReady h && !s.heldLate h } }
  let a := (s.exchange.held.filter s.heldReady).foldl (fun a h =>
    if s.heldHere h then a.sendRecord (writeOf h.item h.source h.tenant h.since)
    else a.onItem h.item h.source h.cls h.tenant h.mapEpoch h.forwarded) a
  (s.exchange.held.filter s.heldLate).foldl (fun a h => a.staleWork h) a

/-- MAP_WORK_HOLD_END: work held for a map that is installed now is served; at MAP_WAIT it is answered STALE_MAP (R357). A record that
waits at this origin for a REBUILDING shard leaves once the newest map has its shard LIVE or LOST (R358). -/
def execMapWorkHoldEnd (t : Nat) (s : State) : Host.Outcome State Fault Refusal :=
  .next (let s := s.advance t
    s.releaseHeld)

end Sys2Proof.Machine
end

