-- ==== Sys2Proof/Machine/Images.lean ====
section
/-! DEFINITION. Pipeline images (R68 to R77, R165 to R168, R541) and the tensor pool's faults and maintenance (R55, R177, R178):
IMAGE_SUBMIT, IMAGE_REMOVE, IMAGE_INSTALL, IMAGE_UNINSTALL, INSTALL_DRAIN_END, INSTALL_DRAIN_LIMIT, INSTALL_WRITE_COMPLETE,
IMAGE_INFO, TILE_RESTARTS, MAINT_TENSOR_GRANT, MAINT_YIELDS. -/
namespace Sys2Proof.Machine

/-- A section table entry (R70). -/
structure Section where
  ty : Nat
  stage : Nat
  off : Nat
  len : Nat
  reserved : Bool
  deriving DecidableEq, Repr

/-- The section table of an image (R70). -/
def imageSections (b : List Byte) : List Section :=
  (List.range (min 64 (field b 16 4))).map fun i =>
    let e := slice (b.drop (256 + 32 * i)) 0 32
    ⟨field e 0 2, field e 2 2, field e 8 8, field e 16 8, allZero e 4 4 && allZero e 24 8⟩

/-- The bytes of a section. -/
def sectionBytes (b : List Byte) (x : Section) : List Byte := (b.drop x.off).take x.len

/-- Do no two of some ranges overlap? -/
def disjoint : List (Nat × Nat) → Bool
  | [] => true
  | r :: rs => rs.all (fun q => decide (r.1 + r.2 ≤ q.1 ∨ q.1 + q.2 ≤ r.1)) && disjoint rs

/-- The model sections, with their bytes. -/
def modelSections (b : List Byte) : List (Section × List Byte) :=
  ((imageSections b).filter fun x => x.ty = 2).map fun x => (x, sectionBytes b x)

/-- The weight sections that a model section names (R165). -/
def modelWeights (b m : List Byte) : List Section := ((imageSections b).drop (field m 40 2)).take (field m 42 2)

/-- Is a model section's header well formed: MAGIC, ROLE agreeing with STAGE, reserved fields (R165)? -/
def modelFormOk (b : List Byte) (x : Section) (m : List Byte) : Bool :=
  let role := field m 4 1
  m.take 4 = ascii "AMG1" && ((role = 1 && x.stage = 9 && field m 6 2 = 1) || (role = 2 && x.stage = 6 && field m 6 2 < 32)) &&
    allZero m 44 4 && allZero m 80 48 && m.length ≥ 128 && field m 42 2 ≤ 63 &&
    (modelWeights b m).length = field m 42 2 && (modelWeights b m).all fun w => w.ty = 3

/-- Limits of R168, for a stage of `tiles` tiles. A scoring model whose OUT_DIM is not 1, or that has a SEQ_MAX and no token input, fails them
too: R72 names no status for it (DESIGN CHOICE, log 80). -/
def modelLimitsOk (m : List Byte) (tiles : Nat) : Bool :=
  let enc := field m 4 1 = 1
  let seq := field m 12 2
  let inputs := field m 6 2
  let tokens := enc || bit inputs 0 || bit inputs 2
  1 ≤ field m 8 4 && field m 8 4 ≤ 65536 &&
    (if enc then 1 ≤ seq && seq ≤ 2048 else if tokens then 1 ≤ seq && seq ≤ 1024 else seq = 0) &&
    (if enc then 1 ≤ field m 14 2 && field m 14 2 ≤ 4096 else field m 14 2 = 1) &&
    1 ≤ field m 16 2 && field m 16 2 ≤ 16384 && 1 ≤ field m 18 2 && field m 18 2 ≤ 128 &&
    field m 24 4 ≤ 2097152 && field m 28 4 ≤ 16777216 * tiles

/-- Order 1 of R72, with R159, R166 and R167. -/
def imageFormOk (b : List Byte) (f : ImageFacts) : Bool :=
  let n := field b 16 4
  let ss := imageSections b
  let last := b.length - 114
  let enc := (modelSections b).filter fun m => m.1.stage = 9
  let sco := (modelSections b).filter fun m => m.1.stage = 6
  b.take 8 = ascii "AMITAPI1" && field b 8 2 = 1 && allZero b 20 4 && field b 124 4 < 1024 && allZero b 160 96 &&
    1 ≤ n && n ≤ 64 && field b 24 8 = b.length && 256 + 32 * n + 114 ≤ b.length &&
    ss.all (fun x => x.reserved && 1 ≤ x.ty && x.ty ≤ 4 && (x.stage ≤ 9 || x.stage = 0xFFFF) && x.off % 4096 = 0 &&
      x.off + x.len ≤ last) &&
    disjoint ((0, 256 + 32 * n) :: ss.map fun x => (x.off, x.len)) &&
    (modelSections b).all (fun m => modelFormOk b m.1 m.2) && field b 120 2 ≤ 16 && field b 122 2 ≤ 16 &&
    enc.length = (if field b 120 2 = 0 then 0 else 1) && sco.length = (if field b 122 2 = 0 then 0 else 1) &&
    (modelSections b).all fun m => graphOk (if m.1.stage = 9 then f.encoder else f.scorer) (field m.2 18 2)

/-- The constants of an image's programs lie in their ranges: input scale (R79), beam, hop limit and entry points (R111), plane order and
arrangement (R100), terms (R192, R196), piece size (R145), output scaling (R175). -/
def progsInRange (p : ProgSettings) : Bool :=
  f32Lt f32Zero p.inputScale && p.beam.all (fun n => 1 ≤ n && n ≤ 4096) && p.hopLimit.all (fun n => 1 ≤ n && n ≤ 16384) &&
    decide (p.entryPoints.length ≤ 64) && p.planeOrder.all (fun n => n < 16) && decide p.planeOrder.Nodup &&
    [0, 4, 8, 16, 32, 64].contains p.arrangement && decide (p.filterTerms.length ≤ 16) && decide (p.postTerms.length ≤ 16) &&
    decide (64 ≤ p.pieceSize ∧ p.pieceSize ≤ 512) && !f32IsZero p.scaleA && !f32NonFinite p.scaleA && !f32NonFinite p.scaleB

/-- Order 3 of R72, with R48, R168 and R175. -/
def imageSizeOk (b : List Byte) (f : ImageFacts) : Bool :=
  let ss := imageSections b
  field b 32 8 ≤ 17179869184 && field b 32 8 = ((ss.filter fun x => x.ty = 3).map (·.len)).sum &&
    ss.all (fun x => (x.ty ≠ 1 || x.len ≤ 32768) && (x.ty ≠ 4 || x.len ≤ 8192)) && f.progsOk && progsInRange f.progs &&
    (modelSections b).all fun m => modelLimitsOk m.2 (if m.1.stage = 9 then field b 120 2 else field b 122 2)

/-- The 80-byte slots of IMAGE_SIGNERS (R457). -/
def State.imageSigners (s : State) : List (List Byte) := chunks 80 (slice (s.dict.domains.getD (objKey 0x2E09 2) []) 0 640)

/-- The public key of a signer with a USE bit (R457). -/
def State.signerKey (s : State) (id : List Byte) (use : Nat) : Option (List Byte) :=
  (s.imageSigners.find? fun k => k.take 16 = id && bit (field k 73 1) use).map fun k => slice k 16 57

/-- Order 5 of R72: the signer and the signature over the header (R71, R455). -/
def State.imageSignedOk (s : State) (b : List Byte) : Bool :=
  match s.signerKey (slice b 40 16) 0 with
  | some pk => edVerify (ascii "ZR96IMG") pk (b.take 256) (b.drop (b.length - 114))
  | none => false

/-- The image digest (R71). -/
def imageDigest (b : List Byte) : List Byte := digest64 (b.take (b.length - 114))

/-- The status of R72: the first check that fails. -/
def State.imageStatus (s : State) (b : List Byte) (f : ImageFacts) : Nat :=
  if !imageFormOk b f then 0x100
  else if field b 10 2 ≠ 0x96 then 0x101
  else if !imageSizeOk b f then 0x102
  else if digest64 ((b.take (b.length - 114)).drop 256) ≠ slice b 56 64 then 0x103
  else if !s.imageSignedOk b then 0x104
  else if field b 12 4 < s.setting 0x2E02 1 0 then 0x105
  else if s.images.length ≥ 8 && (s.imageByDigest (imageDigest b)).isNone then 0x106
  else 0

/-- The model of a section, its weight sections becoming tier objects in HBM (R73, R165, R166, R248). -/
def State.loadModel (s : State) (b m : List Byte) (x : Section) (g : Graph) : State × Model :=
  let ws := modelWeights b m
  let (s, objs) := ws.foldl (fun (a : State × List Nat) w =>
    let r := a.1.newObj { kind := 7, tier := 0, size := w.len }
    (r.1, a.2 ++ [r.2])) (s, ([] : List Nat))
  (s, { role := field m 4 1, inputs := field m 6 2, seqMax := field m 12 2, outDim := field m 14 2, vocab := field m 20 4
        baseNs := field m 32 4, rowNs := field m 36 4
        digest := digest64 (sectionBytes b x ++ ws.flatMap (sectionBytes b))
        tileMem := field m 24 4, weightBytes := (ws.map (·.len)).sum, weights := objs, graph := g })

/-- The model of a stage, where the image has one. -/
def State.loadStage (s : State) (b : List Byte) (stage : Nat) (g : Graph) : State × Option Model :=
  match (modelSections b).find? fun m => m.1.stage = stage with
  | some m => let r := s.loadModel b m.2 m.1 g; (r.1, some r.2)
  | none => (s, none)

/-- An image becomes resident (R73). -/
def State.loadImage (s : State) (b : List Byte) (f : ImageFacts) : State :=
  let (s, enc) := s.loadStage b 9 f.encoder
  let (s, sco) := s.loadStage b 6 f.scorer
  let img : Image := { digest := imageDigest b, security := field b 12 4, encodeTiles := field b 120 2, scoreTiles := field b 122 2
                       stageMask := field b 124 4, progs := f.progs, encoder := enc, scorer := sco }
  { s with images := s.images.set ((List.range 8).find? (fun n => (s.images.get n).isNone) |>.getD s.images.fresh) img }

/-- IMAGE_SUBMIT (R72, R73): a refused image leaves only its log record. -/
def execImageSubmit (cmd : AdminCmd) (facts : ImageFacts) (s : State) : Host.Outcome State Fault Refusal :=
  .next (s.adminCommand cmd 0x20 0 true true fun s r =>
    let b := adminInput cmd
    let st := s.imageStatus b facts
    if st ≠ 0 then (s.logEvent 0 0 1 unitModule []).adminDone r st [] []
    else if (s.imageByDigest (imageDigest b)).isSome then s.adminDone r 0 (imageDigest b) []
    else if r.outLen < 64 then s.adminDone r 0 (imageDigest b) []
    else (s.loadImage b facts).adminDone r 0 (imageDigest b) [])

/-- Is an image named by a version that the module holds (R73)? -/
def State.imageHeld (s : State) (digest : List Byte) : Bool := s.catalog.versions.any fun v => v.image = digest

/-- IMAGE_REMOVE (R73). -/
def execImageRemove (cmd : AdminCmd) (s : State) : Host.Outcome State Fault Refusal :=
  .next (s.adminCommand cmd 0x21 64 true true fun s r =>
    match s.imageByDigest (slice cmd.entry 48 64) with
    | none => s.adminDone r 0x109 [] []
    | some (slot, img) =>
      if s.imageHeld img.digest then s.adminDone r 0x107 [] []
      else
        let objs := (img.encoder.toList ++ img.scorer.toList).flatMap (·.weights)
        let s := objs.foldl (fun (s : State) o => s.freeObj o) s
        let keep (t : TensorPool) : TensorPool := { t with shares := t.shares.filter fun x => x.model / 2 ≠ slot }
        ({ s with images := s.images.erase slot, pipe := { s.pipe with tensor := s.pipe.tensor.mapVals keep } } : State).adminDone r 0 [] [])

/-- The command IMAGE_INSTALL by its ACTION: 1 install, 2 remove (R74, R400). -/
def State.installCommand (s : State) (cmd : AdminCmd) : State :=
  s.adminCommand cmd 0x22 66 (field cmd.entry 112 1 < 4 && 1 ≤ field cmd.entry 113 1 && field cmd.entry 113 1 ≤ 2) true fun s r =>
    match s.imageByDigest (slice cmd.entry 48 64) with
    | none => s.adminDone r 0x109 [] []
    | some (slot, _) => s.beginInstall (field cmd.entry 112 1) slot (field cmd.entry 113 1 = 2) (some r)

/-- IMAGE_INSTALL: ACTION 1 (R74). -/
def execImageInstall (cmd : AdminCmd) (s : State) : Host.Outcome State Fault Refusal := .next (s.installCommand cmd)

/-- IMAGE_UNINSTALL: ACTION 2 (R74). -/
def execImageUninstall (cmd : AdminCmd) (s : State) : Host.Outcome State Fault Refusal := .next (s.installCommand cmd)

/-- The installation that runs in a partition. -/
def State.installIn (s : State) (part : Nat) : Option Install := s.installs.find? fun i => i.part = part && !i.waiting

/-- Replace the installation that runs in a partition. -/
def State.setInstall (s : State) (part : Nat) (x : Install) : State :=
  { s with installs := replaceFirst (fun i => i.part = part && !i.waiting) (fun _ => x) s.installs }

/-- Is work still in flight in a partition: a query with its origin there, or a batch (R74)? -/
def State.partBusy (s : State) (p : Nat) : Bool :=
  s.pipe.queries.any (fun kq => kq.2.g / 8 = p && kq.2.phase != .placing) || s.pipe.batches.any fun kb => kb.2.g / 8 = p

/-- INSTALL_DRAIN_END: all in-flight work has ended, and the slots are written (R74). -/
def execInstallDrainEnd (part : Nat) (s : State) : Host.Outcome State Fault Refusal :=
  .next (match s.installIn part with
    | some i => if i.drained || s.partBusy part then s else s.setInstall part { i with drained := true }
    | none => s)

/-- A partition is reset at strand scope: every strand absorbed at once (R75, R493). -/
def State.resetStrandsOf (s : State) (p : Nat) : State :=
  let gs := (List.range 8).map (· + 8 * p) |>.filter fun g => s.strandUp g
  gs.foldl (fun s g =>
    let j : ResetJob := { scope := 2, part := p, strand := g % 8, cls := 15, draining := false, startedAt := s.time }
    let s := s.strandDown g true
    ({ s with repair := { s.repair with jobs := s.repair.jobs ++ [j] } } : State).tally 0x2D10 3) s

/-- INSTALL_DRAIN_LIMIT: work still in flight at SWAP_DRAIN_LIMIT (R75). -/
def execInstallDrainLimit (part t : Nat) (s : State) : Host.Outcome State Fault Refusal :=
  .next (let s := s.advance t
    match s.installIn part with
    | some i =>
      if i.drained || !s.partBusy part || s.time < i.startedAt + i.limitUs * cyclesPerUs then s
      else (s.resetStrandsOf part).setInstall part { i with drained := true }
    | none => s)

/-- The partition resumes and the command completes; its service times begin anew, and probes that waited for it go on (R52, R62, R74,
R76). -/
def State.endInstall (s : State) (i : Install) (status : Nat) : State :=
  let s := { s with installs := s.installs.filter fun x => !(x.part = i.part && !x.waiting) }
  let s := if status ≠ 0 then s
    else { s with images := s.images.alter i.image fun m => { m with
      installed := if i.remove then m.installed.erase i.part else if m.installed.contains i.part then m.installed else i.part :: m.installed } }
  let s := match i.cmd with
    | some c => s.adminDone c status [] []
    | none => s
  ({ s with pipe := { s.pipe with svc := s.pipe.svc.erase i.part } } : State).unpark.nextInstall

/-- INSTALL_WRITE_COMPLETE: the readback digest is compared; a mismatch is retried once and scores its tile (R74, R76, R497). -/
def execInstallWriteComplete (part : Nat) (digestOk : Bool) (unit : Nat) (s : State) : Host.Outcome State Fault Refusal :=
  .next (match s.installIn part with
    | some i =>
      if !i.drained then s
      else if digestOk then s.endInstall i 0
      else
        let s := s.score unit 250
        let s := if i.retried then s.endInstall i 0x108 else s.setInstall part { i with retried := true }
        s.settle
    | none => s)

/-- IMAGE_INFO (R541). -/
def execImageInfo (cmd : AdminCmd) (s : State) : Host.Outcome State Fault Refusal :=
  .next (s.adminCommand cmd 0x23 64 true false fun s r =>
    match s.imageByDigest (slice cmd.entry 48 64) with
    | none => s.adminDone r 0x109 [] []
    | some (_, img) =>
      let dig (m : Option Model) : List Byte := match m with
        | some m => slice m.digest 0 64
        | none => zero64
      s.adminDone r 0 (slice img.digest 0 64 ++ dig img.encoder ++ dig img.scorer ++ leBytes 4 img.security ++
        leBytes 1 ((img.installed.map fun p => 2 ^ p).sum) ++ leBytes 3 0) [])

/-! ## Tensor tiles -/

/-- The weight object whose read failed for an invocation: which of its model's objects is a free value (R178; log 28). -/
def State.readWeight (s : State) (i : Invocation) : Nat := match s.modelOf i.req.model with
  | some (m, _) => m.weights.getD (Config.failedWeight s.freeCount % max 1 m.weights.length) 0
  | none => 0

/-- TILE_RESTARTS: a fault of a tile that an invocation holds (R178, R493, R497, R505). -/
def execTileRestarts (part tile : Nat) (weightRead : Bool) (s : State) : Host.Outcome State Fault Refusal :=
  .next (match (s.pool part).running.find? fun i => i.held.contains tile with
    | none => s
    | some i =>
      let unit := unitTensor part tile
      let s :=
        if weightRead then
          let o := s.readWeight i
          (match s.tiers.objs.get o with
            | some t => if t.tier ≤ 1 then ({ s with freeCount := s.freeCount + 1 } : State).markRepair t.tier o else s
            | none => s).readFailed
        else
          let residue := Config.residueFault s.freeCount
          let load := Config.loadBin (s.freeCount + 1)
          let s := { s with freeCount := s.freeCount + 2 }
          if residue then
            ((s.logFault (0x2510 + part) 9 unit part 10 i.req.owner load).tileFault unit part load).score unit 250
          else s.score unit 200
      (s.resetTensor part tile true).settle)

/-- Tiles that maintenance holds in a partition. -/
def maintTiles (t : TensorPool) : Nat := ((t.running.filter fun i => i.req.kind == .maint).map (·.held.length)).sum

/-- MAINT_TENSOR_GRANT: with the queue empty, room under MAINT_TILE_CAP and the model stages not shed (R177, R179). -/
def execMaintTensorGrant (part step tiles : Nat) (s : State) : Host.Outcome State Fault Refusal :=
  .next (let t := s.pool part
    let waits := (s.maint.steps.get step).isSome && !(s.pipe.tensor.any fun kp => kp.2.running.any fun i => i.req.kind == .maint && i.req.owner = step)
    if !waits || !t.queue.isEmpty || s.modelShed || !s.upkeepRuns || tiles = 0 || (freeTiles t).length < tiles ||
        maintTiles t + tiles > s.setting 0x2500 2 8 then s
    else
      let s := { s with pipe := { s.pipe with tensor := s.pipe.tensor.mapVals fun p => { p with suspended := p.suspended.filter (· ≠ step) } } }
      let r : TensorReq := { kind := .maint, owner := step, tiles, deadlineAt := 0, strand := 0, model := 0, queuedAt := s.time }
      s.grantTiles part r ((freeTiles t).take tiles))

/-- A maintenance invocation yields: its state moves to its scratch slice (R55, R177). -/
def State.yieldMaint (s : State) (p : Nat) (i : Invocation) : State :=
  let t := s.pool p
  (s.setPool p { t with running := t.running.erase i, suspended := t.suspended ++ [i.req.owner] }).tally (0x2510 + p) 0xA

/-- The invocations that must yield so that maintenance stays within a cap, newest first. -/
def overCap (cap : Nat) : List Invocation → List Invocation
  | [] => []
  | i :: is => if i.held.length + (is.map (·.held.length)).sum > cap then i :: overCap cap is else []

/-- MAINT_YIELDS: every step while a query request waits, and those above MAINT_TILE_CAP (R55, R177, R180). -/
def execMaintYields (part : Nat) (s : State) : Host.Outcome State Fault Refusal :=
  .next (let t := s.pool part
    let ms := (t.running.filter fun i => i.req.kind == .maint).reverse
    let out := if t.queue.isEmpty then overCap (s.setting 0x2500 2 8) ms else ms
    out.foldl (fun s i => s.yieldMaint part i) s)

end Sys2Proof.Machine
end

