-- ==== Sys2Proof/Machine/PortOps.lean ====
section
/-! DEFINITION. The register block of a port (R340) as registers and objects write it, and what of it and of the composition descriptor
(R458) a start loads (R487). -/
namespace Sys2Proof.Machine

/-- The common part of the descriptor. -/
def State.descCommon (s : State) : List Byte := slice (s.dict.domains.getD (objKey 0x2E0A 1) []) 0 16562

/-- The port part of the descriptor. -/
def State.descPorts (s : State) : List Byte := slice (s.dict.domains.getD (objKey 0x2E0A 2) []) 0 330

/-- The valid modules of a common part. -/
def descModules (common : List Byte) : List Nat :=
  ((List.range 4096).map fun i => field common (64 + 4 * i) 4).filterMap fun e => if bit e 31 then some (e % 4096) else none

/-- The leaders of a common part. -/
def descLeaders (common : List Byte) : List Nat := ((List.range 8).map fun i => field common (24 + 2 * i) 2).filter (· ≠ 0xFFFF)

/-- The connected entries of a port part. -/
def descConnected (ports : List Byte) : List (Nat × Nat) :=
  ((List.range 32).map fun p => (p, field ports (72 + 4 * p) 4)).filter fun pe => bit pe.2 19

/-- Smallest BURST of a class: its largest frame in whole flits of 256 bytes (R335). -/
def State.burstMin (s : State) (cls : Nat) : Nat := ceilDiv (s.maxFrame cls) 232 * 256

/-- A register of a port's block (R340); offsets that are not listed read zero. The histogram area is `State.histBins`. -/
def Port.reg (p : Port) (off : Nat) : Nat :=
  if off = 0 then (if p.enable then 1 else 0) + 4 * p.maxWidth
  else if off = 4 then p.state + 8 * p.width + 32 * p.nbrModule + 131072 * p.nbrPort
  else if off = 8 then p.active + 4 * p.gclStatus
  else if off = 0xC then p.countA + 256 * p.countB
  else if 0x100 ≤ off && off < 0x200 then p.bankA.getD ((off - 0x100) / 4) 0
  else if 0x200 ≤ off && off < 0x300 then p.bankB.getD ((off - 0x200) / 4) 0
  else if 0x300 ≤ off && off < 0x328 then (if off % 8 = 0 then rateOf p ((off - 0x300) / 8) else burstOf p ((off - 0x300) / 8))
  else if off = 0x404 then p.histSeq
  else 0

/-- Would a write of a port's register be taken: 0 yes, 6 out of range, 7 read only in the present state, 3 read only (R335, R340)? -/
def State.portRegStatus (s : State) (port off value : Nat) : Nat :=
  let p := s.port port
  if off = 0 then (if bits value 3 2 = 3 then 6 else 0)
  else if off = 8 || off = 0xC || off = 0x400 then 0
  else if 0x100 ≤ off && off < 0x200 then (if p.active = 0 then 7 else 0)
  else if 0x200 ≤ off && off < 0x300 then (if p.active = 1 then 7 else 0)
  else if 0x300 ≤ off && off < 0x328 then
    (if off % 8 = 0 then (if 1 ≤ value && value ≤ 100000 then 0 else 6)
    else if s.burstMin ((off - 0x300) / 8) ≤ value && value ≤ 1048576 then 0 else 6)
  else 3

/-- PORT_CTL: ENABLE, RETRAIN and MAX_WIDTH. A port whose ENABLE falls is DISABLED; one that has retired stays so (R313, R340, R499). -/
def State.writePortCtl (s : State) (port value : Nat) : State :=
  let on := bit value 0 && !(s.healthOf (unitPort port)).retired
  let s := s.setPort port { s.port port with maxWidth := bits value 3 2 }
  let was := (s.port port).enable
  let s := if on && !was then s.portEnable port
    else if !on && was then
      let shed := (s.port port).state = 6
      let s := if shed then s else s.downPort port 7
      s.setPort port { s.port port with enable := false, state := 7 }
    else s
  if bit value 1 then (s.startRetrain port).settlePort port else s

/-- A write to a port's register that `portRegStatus` allows (R330, R335, R337, R340). -/
def State.writePortReg (s : State) (port off value : Nat) : State :=
  let p := s.port port
  if off = 0 then s.writePortCtl port value
  else if off = 8 then (if bit value 1 then s.gclSwitch port s.time else s)
  else if off = 0xC then
    s.setPort port { p with countA := if p.active = 0 then p.countA else bits value 6 0
                            countB := if p.active = 1 then p.countB else bits value 14 8 }
  else if 0x100 ≤ off && off < 0x200 then s.setPort port { p with bankA := p.bankA.put ((off - 0x100) / 4) 0 (value % 2 ^ 32) }
  else if 0x200 ≤ off && off < 0x300 then s.setPort port { p with bankB := p.bankB.put ((off - 0x200) / 4) 0 (value % 2 ^ 32) }
  else if 0x300 ≤ off && off < 0x328 then
    let c := (off - 0x300) / 8
    if off % 8 = 0 then s.setPort port { p with rate := p.rate.put c 100000 value, wroteAt := p.wroteAt.set (2 * c) s.time }
    else s.setPort port { p with burst := p.burst.put c 16384 value, wroteAt := p.wroteAt.set (2 * c + 1) s.time }
  else if off = 0x400 then
    let s := if bit value 2 then ({ s with counters := s.counters.erase (binKey port 0 0 0 + 1023) } : State) else s
    let s := if bit value 0 then s.histSnap port else s
    if bit value 1 then s.histClr port else s
  else s

/-- Offset of the register that a sub-index of 0x2A00 + p mirrors, .05 and .06 being the banks (R341). -/
def portOffset (sub : Nat) : Nat :=
  if sub ≤ 4 then 4 * (sub - 1) else if sub = 5 then 0x100 else if sub = 6 then 0x200 else 0x300 + 4 * (sub - 7)

/-- A bank as 64 words, entry 0 first (R341). -/
def bankOfBytes (b : List Byte) : Table Nat :=
  (List.range 64).foldl (fun t e => Table.put t e 0 (field b (4 * e) 4)) []

/-- The ports take their stored settings (R423), and those that DESC_PORTS lists as CONNECTED are enabled (R487). -/
def State.loadPorts (s : State) : State :=
  let con := if s.mgmt.sealed_ then (descConnected s.descPorts).map (·.1) else []
  (List.range 32).foldl (fun s n =>
    let key := objKey (0x2A00 + n)
    let p := s.port n
    let word (sub dflt : Nat) : Nat := s.dict.settings.getD (key sub) dflt
    let ctl := word 1 8
    let counts := word 4 1
    let rate := (List.range 5).foldl (fun t c => Table.put t c 100000 (word (7 + 2 * c) 100000)) []
    let burst := (List.range 5).foldl (fun t c => Table.put t c 16384 (word (8 + 2 * c) 16384)) []
    let bankA := match s.dict.domains.get (key 5) with
      | some b => bankOfBytes b
      | none => p.bankA
    let bankB := match s.dict.domains.get (key 6) with
      | some b => bankOfBytes b
      | none => p.bankB
    let p' : Port := { p with maxWidth := bits ctl 3 2, countA := bits counts 6 0, countB := bits counts 14 8, rate, burst, bankA, bankB }
    let s := s.setPort n p'
    if (bit ctl 0 || con.contains n) && !(s.healthOf (unitPort n)).retired then s.portEnable n else s) s

/-- Does a port fail the topology check: in MISMATCH, or listed as CONNECTED and not UP to its neighbour at its minimum width (R491)? -/
def State.portFails (s : State) (port : Nat) : Bool :=
  let p := s.port port
  let e := field s.descPorts (72 + 4 * port) 4
  p.state = 5 || (bit e 19 && !(p.state = 3 && p.nbrModule = bits e 11 0 && p.nbrPort = bits e 16 12 && bits e 18 17 ≤ p.width))

end Sys2Proof.Machine
end

