-- ==== Sys2Proof/Machine/PowerOps.lean ====
section
/-! DEFINITION. Shedding steps and what they do (R179, R478 to R480), the loss of what power feeds, and the ceiling on the load (R474). -/
namespace Sys2Proof.Machine

/-! ## Voltages and temperatures -/

/-- Mean of the last 20 samples, mV (R478). -/
def filteredMv (volts : List Nat) : Nat :=
  let v := volts.take 20
  v.sum / max 1 v.length

/-- Filtered input voltage now, mV; none before the first sample. -/
def State.filtered (s : State) : Option Nat := s.power.filtered.head?

/-- Thresholds of R478 in mV: below which a step is entered, and above which it is left. -/
def shedEnter : Nat → Nat
  | 1 => 40000
  | 2 => 39000
  | 3 => 38000
  | 4 => 37000
  | 5 => 36000
  | 6 => 34000
  | _ => 0

/-- See `shedEnter`. -/
def shedLeave : Nat → Nat
  | 1 => 41000
  | 2 => 40500
  | 3 => 40000
  | 4 => 39500
  | 5 => 39000
  | _ => 0

/-- Is a temperature at or above a number of °C? -/
def tempGe (t : F32) (deg : Nat) : Bool := match f32Val t with
  | .nan => false
  | .inf neg => !neg
  | .fin neg m e =>
    let p := scaleUp m e
    !neg && decide (p.1 ≥ deg * p.2)

/-- Is a temperature below a number of °C? A NaN is neither at or above nor below (R449). -/
def tempBelow (t : F32) (deg : Nat) : Bool := match f32Val t with
  | .nan => false
  | _ => !tempGe t deg

/-- Ceiling of the load in µW: POWER_CAP or 48 A times the input voltage (R474). -/
def State.ceilingUw (s : State) (mv : Nat) : Nat := min (s.setting 0x2C00 1 1900 * 1000000) (48000 * mv)

/-! ## F (R473, R474, R482, R484) -/

/-- Set a partition's arithmetic clock, MHz. -/
def State.setClock (s : State) (p mhz : Nat) : State := { s with power := { s.power with f := s.power.f.put p 2100 mhz } }

/-- F_MAX takes effect: a lower value steps F down at once (R484). -/
def State.applyFMax (s : State) : State :=
  (List.range 4).foldl (fun s p => if s.clockOf p > s.setting 0x2C00 4 2100 then s.setClock p (s.setting 0x2C00 4 2100) else s) s

/-! ## Entering and leaving a step (R179, R479, R480) -/

/-- Step 1: the pools stop every invocation and empty their queues (R179). -/
def State.shedModels (s : State) : State :=
  (List.range 4).foldl (fun s p =>
    let t := s.pool p
    let s := (t.running.filter fun i => i.req.kind == .maint).foldl (fun s i => s.yieldMaint p i) s
    let runs := t.running.filter fun i => i.req.kind != .maint
    let s := s.count (objKey (0x2510 + p) 8) runs.length
    ((runs.map (·.req)) ++ t.queue).foldl (fun s r =>
      match r.kind, s.query r.owner with
      | .encode, some x => s.reject r.owner x 0x85
      | .score, some x => s.emitExact r.owner (addReason x 5)
      | _, _ => s) s) s

/-- Step 2: maintenance on the tensor tiles yields (R232). -/
def State.shedUpkeep (s : State) : State :=
  (List.range 4).foldl (fun s p => ((s.pool p).running.filter fun i => i.req.kind == .maint).foldl (fun s i => s.yieldMaint p i) s) s

/-- Gate a powered domain off under shedding: a request of class 1 (R476). -/
def State.gateShed (s : State) (d : DomainId) : State :=
  let requests := s.power.requests.filter fun r => r.dom != d
  if s.domain d == .powered then
    { s with power := { s.power with requests := requests ++ [({ dom := d, cls := 1, off := true, at_ := s.time } : TokenReq)] } }
  else { s with power := { s.power with requests } }

/-- Step 4: every write held ahead of ordering is answered NOT_WRITABLE with cause 0x01 (R479). -/
def State.shedIngest (s : State) : State :=
  let held := s.corpus.held
  let late := s.exchange.held.filter fun h => itemType h.item = 6 || itemType h.item = 9
  let s := { s with
    corpus := { s.corpus with held := [] }
    exchange := { s.exchange with held := s.exchange.held.filter fun h => itemType h.item ≠ 6 && itemType h.item ≠ 9 } }
  let s := held.foldl (fun s w => s.answerWrite w 7 1 0) s
  late.foldl (fun s h => s.answerWrite (writeOf h.item h.source h.tenant h.since) 7 1 0) s

/-- Step 5: for each neighbour the lowest UP port to it stays; every other enabled port enters SHED (R479; log 46). -/
def State.shedPorts (s : State) : State :=
  let ups := (List.range 32).filter s.portUp
  let stay := ups.filter fun p => !(ups.any fun q => q < p && (s.port q).nbrModule = (s.port p).nbrModule)
  let go := (List.range 32).filter fun p => (s.port p).enable && !stay.contains p
  let s := go.foldl (fun s p => (s.downPort p 6).gateShed ⟨.port, p⟩) s
  s.routeWaiting

/-- On leaving step 5 shed ports train again (R479). -/
def State.restorePorts (s : State) : State :=
  (List.range 32).foldl (fun s p =>
    let x := s.port p
    if x.state = 6 then (s.setPort p { x with state := 0, since := s.time, failed := true }).wake .port p 2 else s) s

/-- Undo the ordering of a write that never became durable (R480, R494): its record goes and the one it replaced stays. -/
def State.unorder (s : State) (w : Write) : State :=
  match w.row with
  | some _ => s
  | none =>
    let code := keyCode w.record.ns w.record.idx w.record.key
    let records := w.deletes.foldl (fun t o => t.alter o fun x => if x.delete = some w.epoch then { x with delete := none } else x)
      (match w.recId with
      | some n => s.corpus.records.erase n
      | none => s.corpus.records)
    let fresh := w.record.op = 3 || w.recId.isSome
    { s with corpus := { s.corpus with records, keys := if fresh then s.corpus.keys.set code w.deletes.head? else s.corpus.keys } }

/-- Writes ordered and not in a log page are undone, newest first. -/
def State.loseWrites (s : State) : State :=
  let s := s.corpus.logPending.reverse.foldl (fun s w => s.unorder w) s
  { s with corpus := { s.corpus with held := [], logPending := [], logSkip := 0, batches := [] } }

/-- What the search die, the port dies and the memories lose with their power: queries, tensor work, staged data, links, contexts and
copies held for others. What flash and the boot flash hold stays (R480, R494). -/
def State.dropVolatile (s : State) : State :=
  let s := s.loseWrites
  { s with
    pipe := { nextQuery := s.pipe.nextQuery, nextBatch := s.pipe.nextBatch, nextFetch := s.pipe.nextFetch, admitted := s.pipe.admitted
              tensor := s.pipe.tensor.mapVals fun t => { out := t.out } }
    installs := []
    images := s.images.mapVals fun i => { i with installed := [] }
    staging := { s.staging with mem := [], owner := [], handed := [], seq := [], hb := s.staging.hb.mapVals fun h => { h with active := false, save := [] } }
    tiers := { s.tiers with moves := [], calls := [], objs := s.tiers.objs.filter fun ko => ko.2.kind ≠ 9 }
    exchange := { s.exchange with
      drays := [], waiting := [], seqs := [], rxSeqs := [], qctx := [], held := [], transfers := [], replicasOut := [], replicasIn := []
      leases := [], invalSeen := [], invalSent := [], sampled := [], readers := [], featMoved := []
      moves := (s.exchange.moves.filter fun m => !m.shadow).map fun m => { m with copied := false, holding := false } }
    repair := { s.repair with shadow := {} }
    corpus := { s.corpus with lists := s.corpus.lists.mapVals fun l => { l with hold := false } }
    maint := { s.maint with folds := [], reorgs := s.maint.reorgs.filter fun r => r.effect.isSome, steps := [] }
    power := { s.power with
      doms := s.power.doms.filter fun kd => kd.1 / 256 = 4, idleAt := [], pllAt := [], requests := [], granted := [] } }

/-- Every port loses its link and its registers; the ports' counters stay. -/
def State.portsOff (s : State) : State :=
  { s with fabric := { s.fabric with ports := [], demand := [], inBufs := [], outBufs := [], sharedIn := [] } }

/-- The PCIe link and every function's work and registers go; tenant bindings and levels captured at the last enable stay readable. -/
def State.hostOff (s : State) : State :=
  { s with host := { s.host with
      fns := s.host.fns.mapVals fun f => { ({} : FnState) with tenant := f.tenant, expert := f.expert, snap := f.snap }
      linkGen := 0, linkWidth := 0, vfEnable := false, taken := [] } }

/-- Step 6: the flush signal rises, admission stops, the search die, the memories, the PCIe link and the ports lose their power (R480). -/
def State.enterFlush (s : State) : State :=
  let s := ((s.dropVolatile).portsOff).hostOff
  { s with
    flash := { s.flash with flushing := true }
    repair := { s.repair with ready := false, jobs := [], campions := [], duals := [], started := false }
    power := { s.power with flushing := true } }

/-- The actions of one step on entering it (R478). -/
def State.enterStep (s : State) (n : Nat) : State := match n with
  | 1 => s.shedModels
  | 2 => s.shedUpkeep
  | 3 => (List.range 4).foldl (fun s p => (subs 8 15).foldl (fun s t => s.gateShed ⟨.tensor, 16 * p + t⟩) s) s
  | 4 => s.shedIngest
  | 5 => s.shedPorts
  | 6 => s.enterFlush
  | _ => s

/-- The step that the voltage, SHED_FORCE and the limiter call for (R474, R478). -/
def State.stepDue (s : State) : Nat :=
  max s.power.voltStep (max (s.setting 0x2C00 6 0) (if s.power.limiterOn then 3 else 0))

/-- The step in force becomes the next higher one: its record, its event, the cause bit and its actions; an entry into step 1 is counted
(R478, R485). -/
def State.stepUp (s : State) (n : Nat) : State :=
  let s := { s with power := { s.power with step := n } }
  let s := ((s.logState 0x2C00 5 unitModule (n - 1) n).causeAll 2)
  (if n = 1 then s.tally 0x2C20 6 else s).enterStep n

/-- The step in force becomes the next lower one: its record, its event and the cause bit; on leaving step 5 the shed ports train again
(R478, R479). -/
def State.stepDown (s : State) (n : Nat) : State :=
  let s := { s with power := { s.power with step := n } }
  let s := ((s.logState 0x2C00 5 unitModule (n + 1) n).causeAll 2)
  if n = 4 then s.restorePorts else s

/-- The step in force follows what calls for it: each step is entered in turn, and each is left in turn (R478). -/
def State.settleShed (s : State) : State :=
  let old := s.power.step
  let new := s.stepDue
  if old = 6 then s
  else if old ≤ new then (subs (old + 1) new).foldl (fun (s : State) n => s.stepUp n) s
  else (List.range (old - new)).foldl (fun (s : State) i => s.stepDown (old - 1 - i)) s

/-- Entry into step 6 by anything but the voltage: PRESENT_N, overvoltage, a trip (R482, R518, R526). -/
def State.forceFlush (s : State) : State := ({ s with power := { s.power with voltStep := 6 } } : State).settleShed

/-- The unit that a temperature sensor watches (R449, R450). -/
def sensorUnit (sub : Nat) : Nat :=
  if 1 ≤ sub ∧ sub ≤ 4 then unitPart (sub - 1)
  else if 7 ≤ sub ∧ sub ≤ 0x10 then unitStack (sub - 7)
  else if 0x11 ≤ sub ∧ sub ≤ 0x28 then unitPackage (sub - 0x11)
  else if 0x29 ≤ sub ∧ sub ≤ 0x48 then unitChannel (sub - 0x29)
  else unitModule

/-- The unit of a sensor, temperature or electrical, given by its key (R449, R450). -/
def sensorUnitOf (key : Nat) : Nat :=
  if key / 256 = 0x2CF0 then sensorUnit (key % 256)
  else if 4 ≤ key % 256 ∧ key % 256 ≤ 7 then unitPart (key % 256 - 4)
  else unitModule

end Sys2Proof.Machine
end

