-- ==== Sys2Proof/Machine/RepairOps.lean ====
section
/-! DEFINITION. Partial resets (R493 to R496): what a request may reset, its drain, its reset and its return. -/
namespace Sys2Proof.Machine

/-- The eight bytes of a reset request (R496). -/
def resetBytes (scope : Nat) (r : ResetReq) : List Byte :=
  leBytes 1 scope ++ leBytes 1 r.part ++ leBytes 1 r.strand ++ leBytes 1 r.cls ++ leBytes 1 r.index ++ leBytes 3 0

/-- Is a request's form right: a scope, fields in range, and zero where the scope does not use them (R496)? -/
def resetFormOk (b : List Byte) : Bool :=
  let scope := field b 0 1
  let part := field b 1 1
  let strand := field b 2 1
  let cls := field b 3 1
  let index := field b 4 1
  1 ≤ scope && scope ≤ 4 && allZero b 5 3 && part ≤ 3 && strand ≤ 7 && cls ≤ 10 &&
    (match scope with
    | 1 => if cls = 10 then strand = 0 && index < 16 else true
    | 2 => cls = 0 && index = 0
    | 3 => strand = 0 && cls = 0 && index = 0
    | _ => part = 0 && strand = 0 && cls = 0 && index = 0)

/-- Tiles of a stage class in a strand (R45): ROUTE and ENCODE have none. -/
def tilesOf : Nat → Nat
  | 2 => 0
  | 3 => 4
  | 5 => 2
  | 9 => 0
  | _ => 1

/-- A strand that is out of service with no reset that will return it. -/
def State.strandGone (s : State) (g : Nat) : Bool :=
  s.repair.strandsOut.contains g &&
    !(s.repair.jobs.any fun j => j.part = g / 8 && ((j.scope = 2 && j.strand = g % 8) || (j.scope = 3 && j.back.contains g)))

/-- Does a request name a unit with a coordinate in service or in a reset that returns it (R496)? -/
def State.resetUnitOk (s : State) (b : List Byte) : Bool :=
  let part := field b 1 1
  let g := 8 * part + field b 2 1
  let cls := field b 3 1
  let index := field b 4 1
  let partOk := !s.repair.partsOut.contains part || s.repair.jobs.any fun j => j.scope = 3 && j.part = part
  match field b 0 1 with
  | 1 =>
    if cls = 10 then partOk && !s.repair.tilesOut.contains (unitTensor part index)
    else partOk && index < tilesOf cls && !s.strandGone g && !s.repair.tilesOut.contains (unitTile g cls index)
  | 2 => partOk && !s.strandGone g
  | 3 => partOk
  | _ => true

/-- Does a reset that runs cover the unit of a request (R495)? -/
def covers (b : List Byte) (j : ResetJob) : Bool :=
  let scope := field b 0 1
  let part := field b 1 1
  let strand := field b 2 1
  let cls := field b 3 1
  let index := field b 4 1
  match j.scope with
  | 4 => true
  | 3 => scope ≤ 3 && j.part = part
  | 2 => scope ≤ 2 && j.part = part && j.strand = strand && !(scope = 1 && cls = 10)
  | _ => scope = 1 && j.part = part && j.cls = cls && j.index = index && j.strand = strand

/-- Is a partition out of service for an installation or a reset, other than one (R495)? -/
def State.otherPartBusy (s : State) (p : Nat) : Bool :=
  s.installs.any (fun i => !i.waiting && i.part ≠ p) || s.repair.jobs.any fun j => j.scope = 3 && j.part ≠ p && !j.waiting

/-- A job joins; the smaller ones inside it are absorbed, but for a retirement, which goes on after it (R495, R499). -/
def State.addJob (s : State) (j : ResetJob) : State :=
  let inside (x : ResetJob) : Bool := match j.scope with
    | 4 => x.scope ≤ 3
    | 3 => x.part = j.part && x.scope ≤ 2
    | 2 => x.scope = 1 && x.part = j.part && x.strand = j.strand && x.cls ≠ 10
    | _ => false
  let kept := s.repair.jobs.filterMap fun x =>
    if !inside x then some x else if x.retire && j.scope ≠ 4 then some { x with draining := true, limit := 0 } else none
  { s with repair := { s.repair with jobs := kept ++ [j] } }

/-- Begin the reset of a request that has been accepted (R493 to R495). -/
def State.beginReset (s : State) (b : List Byte) : State :=
  let part := field b 1 1
  let strand := field b 2 1
  let cls := field b 3 1
  let index := field b 4 1
  match field b 0 1 with
  | 1 =>
    if cls = 10 then s.resetTensor part index false
    else
      let s := s.absorbTile (8 * part + strand) cls index
      let j : ResetJob := { scope := 1, part, strand, cls, index, draining := false, startedAt := s.time }
      (s.addJob j).tally 0x2D10 2
  | 2 =>
    let installing := s.installs.any fun i => i.part = part && !i.waiting
    let j : ResetJob := { scope := 2, part, strand, cls := 15, draining := true, startedAt := s.time
                          limit := if installing then 0 else s.setting 0x2D01 2 2000 * cyclesPerUs }
    (s.addJob j).tally 0x2D10 3
  | 3 =>
    let j : ResetJob := { scope := 3, part, draining := true, startedAt := s.time, limit := s.setting 0x2D01 3 20000 * cyclesPerUs
                          waiting := s.otherPartBusy part }
    (s.addJob j).tally 0x2D10 4
  | _ =>
    let j : ResetJob := { scope := 4, part := 0, draining := true, startedAt := s.time, limit := s.setting 0x2D01 4 100 * cyclesPerMs }
    (s.addJob j).tally 0x2D10 5

/-- RESET_REQUEST is written: its DETAIL at once, or none when the unit must first return to service (R496). -/
def State.requestReset (s : State) (b : List Byte) : State × Option Nat :=
  if !resetFormOk b then (s, some 0x801)
  else if !s.resetUnitOk b then (s, some 0x803)
  else if s.repair.jobs.any (covers b) then (s, some 0x802)
  else (s.beginReset b, none)

/-- Has the unit of a request returned to service? -/
def State.resetDone (s : State) (b : List Byte) : Bool := !(s.repair.jobs.any (covers b))

/-- Is everything drained that a job waits for (R493)? -/
def State.drained (s : State) (j : ResetJob) : Bool := match j.scope with
  | 2 => !s.strandWork (8 * j.part + j.strand)
  | 3 => !s.partBusy j.part && (s.pool j.part).running.isEmpty && (s.pool j.part).queue.isEmpty
  | _ => s.pipe.queries.isEmpty && s.pipe.batches.isEmpty && s.corpus.held.isEmpty && s.corpus.logPending.isEmpty &&
      s.corpus.logPages.isEmpty && s.corpus.batches.isEmpty && s.pipe.tensor.all fun kp => kp.2.running.isEmpty && kp.2.queue.isEmpty

/-- A partition's reset: every strand and the pool are absorbed; the strands that were in service return with it (R493, R494). -/
def State.partitionDown (s : State) (p : Nat) : State × List Nat :=
  let back := upTo 32 fun g => g / 8 = p && s.strandUp g
  let s := back.foldl (fun s g => s.strandDown g false) s
  let s := s.absorbPool p
  let s := (List.range 16).foldl (fun s t => s.dropPower .tensor (16 * p + t)) s
  (s.dropPower .base p, back)

/-- Every write of this home's commit path and of this origin's batches that is not durable ends with RETRY; a batch of which no record
has left is NOT_SENT (R494). -/
def State.absorbIngest (s : State) : State :=
  let ordered := s.corpus.logPending ++ s.corpus.logPages.flatMap fun kp => kp.2
  let held := s.corpus.held
  let s := { s with corpus := { s.corpus with logPages := [] } }
  let s := ordered.reverse.foldl (fun s w => s.unorder w) s
  let s := { s with corpus := { s.corpus with held := [], logPending := [], logSkip := 0 } }
  let s := (held ++ ordered).foldl (fun s w => s.answerWrite w 8 0 0) s
  (s.corpus.batches.filter fun kb => kb.2.sent = 0).foldl (fun s kb => s.endBatch kb.1 kb.2 3) s

/-- Every move not yet switched that a module reset meets is abandoned, and its call completes MOVE_ABORTED (R257). -/
def State.abortMoves (s : State) : State := s.cancelMoves (s.tiers.moves.filter fun m => !m.switched)

/-- A module reset clears the free-running counters, and nothing else does (R10). -/
def State.clearRunning (s : State) : State := { s with counters := s.counters.keep fun k _ => !isFreeRunning k }

/-- A module reset at the end of its drain: what is left is absorbed, every function returns to its state after a Function Level Reset,
and the start sequence goes on from phase 2 (R493, R494). -/
def State.moduleDown (s : State) : State :=
  let s := s.absorbQueries fun _ => true
  let s := s.absorbMembers fun _ _ => true
  let s := s.absorbIngest.abortMoves
  let s := (s.host.fns.map (·.1)).foldl (fun s fn => s.resetFn fn) s
  let s := s.dropVolatile.portsOff.clearRunning
  let s := (s.repair.jobs.filter (·.retire)).foldl (fun s j =>
    s.strandReplaced (8 * j.part + j.strand) (if j.cls = 15 then 0 else j.cls) j.index (j.cls ≠ 15)) s
  let s := ({ s with
    repair := { s.repair with
      jobs := [], campions := [], duals := [], phase := 2, ready := false, phasesDone := false, cold := false
      strandsOut := s.repair.strandsOut.filter s.strandGone }
    epochs := { s.epochs with mayStamp := false, leading := false } } : State)
  (List.range 4).foldl (fun s p => s.wake .base p 2) s.loadPorts

/-- A drain has ended: what is left is absorbed and the reset itself begins (R493, R494). -/
def State.endDrain (s : State) (j : ResetJob) : State :=
  let set (s : State) (f : ResetJob → ResetJob) : State :=
    { s with repair := { s.repair with jobs := replaceFirst (fun x => x == j) f s.repair.jobs } }
  match j.scope with
  | 2 => set (s.strandDown (8 * j.part + j.strand) false) fun x => { x with draining := false, startedAt := s.time }
  | 3 =>
    let r := s.partitionDown j.part
    set r.1 fun x => { x with draining := false, startedAt := s.time, back := r.2 }
  | _ => s.moduleDown

/-- A partition trips: it is reset at partition scope, absorbed at once, without waiting for another (R482, R493, R495). -/
def State.tripPartition (s : State) (p : Nat) : State :=
  if s.repair.partsOut.contains p then s
  else
    let s := { s with repair := { s.repair with jobs := s.repair.jobs.filter fun j => !(j.scope = 3 && j.part = p) } }
    let j : ResetJob := { scope := 3, part := p, draining := true, startedAt := s.time, thermal := true }
    ((s.addJob j).tally 0x2D10 4).endDrain j

/-- Cycles that a reset takes before its unit can return (R493). -/
def resetCycles : Nat → Nat
  | 1 => 20 * cyclesPerUs
  | 2 => 100 * cyclesPerUs
  | _ => 2 * cyclesPerMs

/-- A unit returns to service, and so does what waited for it; a partition's service times begin anew (R52, R62, R482, R493, R495,
R499). -/
def State.returnUnit (s : State) (j : ResetJob) : State :=
  let s := { s with repair := { s.repair with jobs := s.repair.jobs.erase j } }
  let s := match j.scope with
    | 1 => if j.cls = 10 then s.tensorReturn j.part j.index else s
    | 2 =>
      let g := 8 * j.part + j.strand
      if j.retire then s.strandReplaced g (if j.cls = 15 then 0 else j.cls) j.index (j.cls ≠ 15) else s.strandReturn g
    | _ =>
      let s : State := j.back.foldl (fun s g => s.strandReturn g) s
      { s with pipe := { s.pipe with svc := s.pipe.svc.erase j.part } }
  let go (x : ResetJob) : ResetJob :=
    if x.scope = 3 && x.waiting && !s.otherPartBusy x.part then { x with waiting := false, startedAt := s.time } else x
  ({ s with repair := { s.repair with jobs := s.repair.jobs.map go } } : State).unpark.settle

end Sys2Proof.Machine
end

