-- ==== Sys2Proof/Machine/MgmtOps.lean ====
section
/-! DEFINITION. What the management complex does (15): mailboxes, firmware images and slots, the seal, boot rounds, the slot-status pins, and
the start of the module (R441 to R466, R487, R523). -/
namespace Sys2Proof.Machine

/-! ## Slot-status pins (R523) -/

/-- The value that STAT reports now, by precedence (R523). A start condition fails while the bank or an input that feeds the always-on domain
is too low; a module that qualifies for its start reads as BOOTING, and one without input as UNPOWERED, whatever charge its bank still
holds; phase 9 reads as STARTING (DESIGN CHOICE, log 48). -/
def State.statNow (s : State) : Nat :=
  let bankBad := s.pins.bankMv ≠ 0 && (s.pins.bankMv < 70000 || s.pins.bankMj < 9000)
  let input := s.power.volts.headD 0
  let fed := input ≥ 20000
  match s.mgmt.boot with
  | .noIdentity => 0
  | b =>
    if (s.power.flushing && !s.power.busOff) || (fed && s.power.step = 6) || (b == .off && (bankBad || (fed && input < 42000))) then 1
    else match b with
      | .recovery _ => 2
      | .recovered => 2
      | .off => if fed then 6 else 7
      | _ =>
        if s.repair.ready then 4
        else if s.repair.phase = 15 then 3
        else if s.repair.phase ≤ 1 then 6
        else 5

/-- The pins follow the state. -/
def State.settleStat (s : State) : State :=
  if s.statNow = s.pins.stat then s
  else ({ s with pins := { s.pins with stat := s.statNow } } : State).emit (.stat s.statNow)

/-! ## Mailboxes (R441 to R448) -/

/-- Listed sender of a channel: NS0 to NS15 are 0 to 15, S0 to S15 are 16 to 31 (R441). -/
def senderOk (master channel : Nat) : Bool :=
  if channel ≤ 3 then master = 0x100
  else if channel ≤ 7 then master = 1
  else if channel ≤ 11 then master = 0x10 + channel - 8
  else if channel = 12 then master = 0x20
  else if channel = 13 then master = 0x21
  else if channel = 14 then master = 0x30
  else if channel = 15 then master = 1
  else if channel ≤ 19 then master = 1
  else if channel ≤ 23 then master = 2
  else if channel = 24 then master = 0x40
  else if channel = 25 then master = 2
  else if channel = 26 then master = 0x41
  else if channel = 27 then master = 2
  else if channel = 28 then master = 2
  else false

/-- Store a message in a channel with room; an outbound channel that was empty sets EVT_CAUSE.MAILBOX (R443, R447). -/
def State.storeMessage (s : State) (master channel : Nat) (bytes : List Byte) : State :=
  let q := s.channel channel
  let m := slice bytes 0 6 ++ leBytes 2 master ++ slice (bytes.drop 8) 0 56
  let s := ({ s with mbx := { s.mbx with slots := s.mbx.slots.set channel (q ++ [m]) } } : State).emit (.mailbox channel)
  if q.isEmpty && 4 ≤ channel && channel ≤ 7 then s.cause 0 4 else s

/-- Remove the head of a channel. -/
def State.popMessage (s : State) (channel : Nat) : State :=
  { s with mbx := { s.mbx with slots := s.mbx.slots.put channel [] (s.channel channel).tail } }

/-- Answer at once the messages at the head of a host channel whose type the firmware does not serve (R448). The fuel is the channel's
depth. -/
def serveUnknown : Nat → State → Nat → State
  | 0, s, _ => s
  | f + 1, s, c =>
    match s.channel c with
    | [] => s
    | m :: _ =>
      let ty := field m 0 2
      if ty = 0x100 || ty = 0x101 || ty = 0x300 then s
      else serveUnknown f ((s.popMessage c).hostMessage (c + 4) 0xFFFF (leBytes 2 ty)) c

/-- The firmware, once it runs, looks at the four host channels. -/
def State.serveHost (s : State) : State :=
  if s.mgmt.serverUp then ([0, 1, 2, 3] : List Nat).foldl (fun s c => serveUnknown 8 s c) s else s

/-- The first host channel whose oldest message has a type, with that message (R448). -/
def State.hostRequest (s : State) (ty : Nat) : Option (Nat × List Byte) :=
  ([0, 1, 2, 3] : List Nat).findSome? fun c => match s.channel c with
    | m :: _ => if field m 0 2 = ty then some (c, m) else none
    | [] => none

/-! ## Firmware images (R464, R465) -/

/-- Largest firmware image: 16 MiB (R464). -/
abbrev fwMax : Nat := 16777216

/-- Form of a firmware image of a KIND (R464). -/
def fwFormOk (kind : Nat) (b : List Byte) : Bool :=
  let n := field b 20 4
  370 ≤ b.length && b.length ≤ fwMax && b.take 8 = ascii "ZRFWIMG1" && field b 8 2 = 1 && field b 10 2 = kind &&
    1 ≤ n && n ≤ 8 && field b 24 8 = b.length && allZero b 112 16 &&
    (List.range 8).all fun i =>
      let o := 128 + 16 * i
      if i < n then
        1 ≤ field b o 2 && field b o 2 ≤ 4 && allZero b (o + 2) 2 && allZero b (o + 12) 4 && 256 ≤ field b (o + 4) 4 &&
          field b (o + 4) 4 + field b (o + 8) 4 ≤ b.length - 114
      else allZero b o 16

/-- The public key of a ROM firmware signer. -/
def romKey (id : List Byte) : Option (List Byte) :=
  (([0, 1, 2, 3] : List Nat).map Config.romSigner).findSome? fun k => if k.1 = id then some k.2 else none

/-- The checks of step 1 of R462, in the order of the statuses of R465: 0, or the first that fails. -/
def State.fwStatus (s : State) (kind : Nat) (b : List Byte) : Nat :=
  if !fwFormOk kind b then 0x701
  else if digest64 ((b.take (b.length - 114)).drop 256) ≠ slice b 48 64 then 0x702
  else match romKey (slice b 32 16) with
    | none => 0x703
    | some pk =>
      if !edVerify (ascii "ZR96FW") pk (b.take 256) (b.drop (b.length - 114)) then 0x703
      else if field b 12 4 < s.setting 0x2E02 1 0 then 0x704
      else 0

/-- Has an image a PART component? -/
def hasPart (b : List Byte) : Bool := (List.range (min 8 (field b 20 4))).any fun i => field b (128 + 16 * i) 2 = 4

/-- A slot: 0 A, 1 B. -/
def State.slot (s : State) (n : Nat) : FwSlot := if n = 0 then s.mgmt.slotA else s.mgmt.slotB

/-- Replace a slot. -/
def State.setSlot (s : State) (n : Nat) (x : FwSlot) : State :=
  { s with mgmt := if n = 0 then { s.mgmt with slotA := x } else { s.mgmt with slotB := x } }

/-- BEGIN: an update of a length opens (R465). -/
def State.fwOpen (s : State) (length : Nat) : State × Nat :=
  if s.mgmt.update.isSome then (s, 0x708)
  else if length < 370 || length > fwMax then (s, 0x701)
  else ({ s with mgmt := { s.mgmt with update := some (length, []), committed := false } }, 0)

/-- FW_DATA: 64 KiB at the next offset (R465). -/
def State.fwMore (s : State) (bytes : List Byte) : State × Nat :=
  match s.mgmt.update with
  | some (len, got) =>
    if got.length ≥ len then (s, 0x705)
    else ({ s with mgmt := { s.mgmt with update := some (len, (got ++ bytes).take len) } }, 0)
  | none => (s, 0x705)

/-- COMMIT: the checks of step 1; the image fills the slot that is not preferred. A failing image ends the update (R465; log 49). -/
def State.fwCheck (s : State) : State × Nat :=
  match s.mgmt.update with
  | some (len, got) =>
    if got.length < len || s.mgmt.committed then (s, 0x705)
    else
      let st := s.fwStatus 1 got
      if st ≠ 0 then ({ s with mgmt := { s.mgmt with update := none } }, st)
      else
        let other := 1 - s.mgmt.preferred
        (({ s with mgmt := { s.mgmt with committed := true } } : State).setSlot other
          { valid := true, image := got, version := field got 16 4, security := field got 12 4 }, 0)
  | none => (s, 0x705)

/-- ABORT: the open update ends (R465). -/
def State.fwEnd (s : State) : State × Nat :=
  match s.mgmt.update with
  | some _ => ({ s with mgmt := { s.mgmt with update := none, committed := false } }, 0)
  | none => (s, 0x705)

/-- The management complex restarts alone: the object server goes down and the slot starts (R465 to R467). -/
def State.restartMgmt (s : State) (slot : Nat) : State :=
  ({ s with mgmt := { s.mgmt with boot := .running slot s.time, serverUp := false } } : State).settleStat

/-- ACTIVATE: the slot that is not preferred becomes preferred, in TRIAL, and the management complex restarts (R465). -/
def State.fwSwitch (s : State) : State × Nat :=
  if s.mgmt.update.isNone || !s.mgmt.committed then (s, 0x705)
  else
    let other := 1 - s.mgmt.preferred
    let part := hasPart (s.slot other).image
    (({ s with mgmt := { s.mgmt with
      previous := s.mgmt.preferred, preferred := other, trial := true, update := none, committed := false
      partPending := part, rounds := 0 } } : State).restartMgmt other, 0)

/-! ## Boot rounds (R462) -/

/-- Does a slot pass step 1: a verified image whose SECURITY_VERSION reaches the floor (R462)? -/
def State.slotOk (s : State) (n : Nat) : Bool := (s.slot n).valid && (s.slot n).security ≥ s.setting 0x2E02 1 0

/-- A failed step writes a LIFECYCLE record (R462). -/
def State.bootFails (s : State) : State := s.logEvent 0x2E05 3 4 unitModule []

/-- Step 2: the other slot, then recovery (R462). -/
def State.bootOther (s : State) : State :=
  let other := 1 - s.mgmt.preferred
  if s.slotOk other then { s with mgmt := { s.mgmt with boot := .running other s.time, serverUp := false } }
  else
    let s := s.bootFails
    { s with mgmt := { s.mgmt with boot := .recovery s.time, serverUp := false, recStatus := 0, update := none } }

/-- Step 1: the preferred slot (R462). -/
def State.bootRound (s : State) : State :=
  if s.slotOk s.mgmt.preferred then { s with mgmt := { s.mgmt with boot := .running s.mgmt.preferred s.time, serverUp := false } }
  else s.bootFails.bootOther

/-! ## The descriptor and the seal (R458, R459) -/

/-- The checks of the descriptor engine (R459). -/
def State.descriptorOk (s : State) : Bool :=
  let c := s.descCommon
  let p := s.descPorts
  let modules := descModules c
  let signed (b : List Byte) (idAt n : Nat) : Bool := match s.signerKey (slice b idAt 16) 1 with
    | some pk => edVerify (ascii "ZR96DESC") pk (b.take n) (slice b n 114)
    | none => false
  signed c 40 16448 && signed p 200 216 && p.take 64 = digest64 c && modules.contains (field p 64 2) &&
    field c 20 2 = modules.length && (descConnected p).all (fun pe => modules.contains (pe.2 % 4096)) &&
    (descLeaders c).all fun m => modules.contains m

/-- Route entry over direct links: up to four ports in ascending order, one hop (R350). -/
def directRoute (ports : List Nat) : Nat :=
  let ps := ports.take 4
  ps.getD 0 0 + 32 * ps.getD 1 0 + 1024 * ps.getD 2 0 + 32768 * ps.getD 3 0 + 1048576 * (ps.length - 1) + 4194304

/-- The management firmware writes the route table from the descriptor and the topology it has discovered (R350, R440). -/
def State.writeRoutes (s : State) : State :=
  let con := descConnected s.descPorts
  let routes := (s.mgmt.addresses.filter (· ≠ s.mgmt.moduleId)).map fun m =>
    let ports := (con.filter fun pe => pe.2 % 4096 = m).map (·.1)
    (m, if ports.isEmpty then Config.discoveredRoute s.freeCount m % 2 ^ 26 else directRoute ports)
  { s with freeCount := s.freeCount + 1, fabric := { s.fabric with routes := routes.foldl (fun t r => Table.set t r.1 r.2) [] } }

/-- The seal takes effect: the address set is loaded, the module ID set (R321, R459). -/
def State.seal (s : State) : State :=
  ({ s with mgmt := { s.mgmt with
    sealed_ := true, moduleId := field s.descPorts 64 2 % 4096, addresses := descModules s.descCommon } } : State).writeRoutes

/-- The seal is lifted: the address set is cleared (R459). -/
def State.unseal (s : State) : State :=
  { s with mgmt := { s.mgmt with sealed_ := false, moduleId := 0, addresses := [] } }

/-! ## The field network's HELLO (R433, R434) -/

/-- The module's serial number is written at manufacture. -/
def State.serial (s : State) : List Byte := slice (s.dict.domains.getD (objKey 0x1018 4) []) 0 16

/-- A frame of the module: KIND, FSTATUS, INCARNATION, SEQ, body and signature under the identity key (R433). -/
def State.oapFrame (s : State) (magic : String) (kind fstatus seq : Nat) (body : List Byte) : List Byte :=
  let b := ascii magic ++ [1] ++ leBytes 1 kind ++ [0xFF] ++ leBytes 1 fstatus ++ leBytes 2 s.mgmt.moduleId ++ leBytes 2 0 ++
    leBytes 4 body.length ++ leBytes 8 s.dict.incarnation ++ leBytes 8 seq ++ body
  b ++ edSign (ascii "ZR96OAP") identitySecret b

/-- A signed frame goes out at a UDP port (R433, R455). -/
def State.sendOap (s : State) (port : Nat) (magic : String) (kind fstatus seq : Nat) (body : List Byte) : State :=
  (s.spendCycles 0x2E0C 8).emit (.oap port (s.oapFrame magic kind fstatus seq body))

/-- HELLO to every node (R434). -/
def State.sendHello (s : State) : State :=
  let body := leBytes 2 s.mgmt.moduleId ++ leBytes 6 0 ++ s.serial ++ leBytes 8 0
  ({ s with dict := { s.dict with lastHello := s.time } } : State).sendOap s.mgmt.oapPort "SZOA" 3 0 0 body

/-! ## The start sequence (R487) -/

/-- HEALTHY in a start: the ports that DESC_PORTS lists as CONNECTED are enabled, the routes written, and the rails of the search die ask
for their wake tokens (R476, R487). A firmware update's PART component is then installed one partition at a time (R466). -/
def State.startRails (s : State) : State :=
  let s := (if s.mgmt.sealed_ then s.writeRoutes else s).loadPorts
  let s := (List.range 4).foldl (fun s p => s.wake .base p 2) s
  { s with repair := { s.repair with phase := 2 } }

end Sys2Proof.Machine
end

