-- ==== Sys2Proof/Machine/ObjectTable.lean ====
section
/-! DEFINITION. The object dictionary's definitions: index, sub-index, type, access, default and range of every object (R410 to R414), from
the tables of R66, R113, R137, R156, R180, R203, R245, R275, R308, R311, R340 to R342, R376, R408, R432, R437, R457, R458, R469, R484, R486,
R513. Counters follow their class and come from `counterShape`. -/
namespace Sys2Proof.Machine

/-- Access of an object (R414): the codes RO, RW, WO and RWL, and the classes event counter and group summary. -/
inductive ObjAccess where
  | ro
  | rw
  | wo
  | rwl
  | event
  | summary
  deriving DecidableEq, Repr

/-- Objects of one definition: indices `i0` to `i1`, sub-indices `s0` to `s1`, type code and bytes (R412), access, default, range. A range
may also admit 0, and only multiples of `step`. -/
structure ObjRow where
  i0 : Nat
  i1 : Nat
  s0 : Nat
  s1 : Nat
  ty : Nat
  len : Nat
  access : ObjAccess
  dflt : Nat := 0
  lo : Nat := 0
  hi : Nat := 2 ^ 64 - 1
  step : Nat := 1
  zero : Bool := false
  deriving DecidableEq, Repr

/-- Bytes of a scalar type (R412). -/
def tySize : Nat → Nat
  | 1 => 1
  | 2 => 2
  | 3 => 4
  | 4 => 8
  | 5 => 4
  | 6 => 8
  | _ => 4

/-- A setting of one sub-index. -/
def rwObj (index sub ty dflt lo hi : Nat) : ObjRow := ⟨index, index, sub, sub, ty, tySize ty, .rw, dflt, lo, hi, 1, false⟩
/-- A value of one sub-index that can only be read. -/
def roObj (index sub ty : Nat) : ObjRow := ⟨index, index, sub, sub, ty, tySize ty, .ro, 0, 0, 0, 1, false⟩
/-- Values of several sub-indices that can only be read. -/
def roObjs (i0 i1 s0 s1 ty : Nat) : ObjRow := ⟨i0, i1, s0, s1, ty, tySize ty, .ro, 0, 0, 0, 1, false⟩
/-- A sub-index that is only written. -/
def woObj (index sub ty lo hi : Nat) : ObjRow := ⟨index, index, sub, sub, ty, tySize ty, .wo, 0, lo, hi, 1, false⟩
/-- A Domain of some bytes. -/
def domObj (index sub len : Nat) (access : ObjAccess) : ObjRow := ⟨index, index, sub, sub, 8, len, access, 0, 0, 0, 1, false⟩

/-- Identity (R437). -/
def rowsIdentity : List ObjRow := [
  roObj 0x1000 1 3, domObj 0x1008 1 16 .ro, domObj 0x1009 1 4 .ro, roObj 0x100A 1 3, domObj 0x1018 1 16 .ro, domObj 0x1018 4 16 .ro]

/-- Tenants, functions and the host interface (R203, R66, R202, R408). -/
def rowsTenants : List ObjRow := [
  rwObj 0x2030 1 2 1 1 0xFFFE, rwObj 0x2030 2 1 0 0 1, roObj 0x2030 3 2, woObj 0x2030 4 2 1 0xFFFE,
  roObj 0x2031 1 2, rwObj 0x2031 2 3 50000 50 10000000, rwObj 0x2031 3 3 2048 1 8192, rwObj 0x2031 4 3 1000 0 100000,
  ⟨0x2032, 0x2032, 1, 0x40, 2, 2, .rw, 0, 0, 0xFFFE, 1, false⟩,
  woObj 0x2033 1 1 1 1, roObj 0x2033 2 3, roObj 0x2033 3 4, roObjs 0x2033 0x2033 0x10 0x27 4,
  ⟨0x2034, 0x2034, 1, 0x40, 1, 1, .rw, 1, 0, 1, 1, false⟩,
  ⟨0x2035, 0x2035, 1, 0x40, 8, 128, .rw, 0, 0, 0, 1, false⟩,
  rwObj 0x2036 1 1 31 1 31]

/-- The query path (R66, R113, R137, R156, R180). -/
def rowsPath : List ObjRow := [
  ⟨0x2100, 0x2100, 1, 1, 3, 4, .rw, 100, 10, 1000, 1, true⟩, ⟨0x2100, 0x2100, 2, 2, 2, 2, .rw, 512, 64, 512, 64, false⟩,
  rwObj 0x2100 3 1 25 0 50, rwObj 0x2100 4 3 20000 1000 200000, roObj 0x2100 5 1,
  rwObj 0x2300 1 1 4 1 8, rwObj 0x2300 2 3 10 1 3600,
  ⟨0x2318, 0x231B, 8, 8, 3, 4, .summary, 0, 0, 0, 1, false⟩,
  rwObj 0x2400 1 2 20 0 200, rwObj 0x2400 2 3 100 10 10000,
  rwObj 0x2450 1 2 8 4 64,
  rwObj 0x2500 1 3 150 10 5000, rwObj 0x2500 2 1 8 0 16]

/-- Epochs, maintenance, receipts, tiers and staging (R245, R275, R278). -/
def rowsData : List ObjRow := [
  rwObj 0x2700 1 3 1000 100 100000, rwObj 0x2700 2 3 100 10 10000, rwObj 0x2700 3 3 1000 10 10000, rwObj 0x2700 4 2 200 50 1000,
  rwObj 0x2701 1 2 10 1 600, rwObj 0x2701 2 1 5 1 50, rwObj 0x2701 3 3 20000000 1000000 25165824, rwObj 0x2701 4 3 1000000 0 6291456,
  rwObj 0x2701 5 1 4 0 64, rwObj 0x2701 6 1 8 1 64, rwObj 0x2701 7 1 10 1 50,
  rwObj 0x2702 1 2 24 1 2160, roObj 0x2702 2 4,
  rwObj 0x2800 1 2 50 1 400, rwObj 0x2800 2 2 16 4 96, rwObj 0x2800 3 3 24000 1 1000000, rwObj 0x2800 4 1 1 0 1,
  roObjs 0x2800 0x2800 5 7 3, roObj 0x2800 8 2, domObj 0x2800 9 16 .wo,
  roObjs 0x2840 0x2843 6 6 3]

/-- Flash and the ports (R308, R310, R311, R340 to R342). The spec names no type for the levels and sizes of `0x2920` and `0x2940`, the
registers of `0x2A00` and the requests of `0x2A60` (log 51). -/
def rowsFlash : List ObjRow := [
  rwObj 0x2900 1 2 96 0 1024, rwObj 0x2900 2 2 48 24 1023, rwObj 0x2900 3 1 20 0 50, rwObj 0x2900 4 2 30 5 600, rwObj 0x2900 5 2 64 16 256,
  rwObj 0x2900 6 2 200 50 1000, rwObj 0x2900 7 1 25 5 100, roObj 0x2900 8 1, roObj 0x2900 9 4, roObj 0x2900 0xA 4, roObj 0x2900 0xB 1,
  roObj 0x2900 0xC 1, roObjs 0x2920 0x293F 5 6 3, roObjs 0x2940 0x294F 1 2 3, roObjs 0x2940 0x294F 3 4 4, roObjs 0x2940 0x294F 5 6 3,
  ⟨0x2A00, 0x2A1F, 1, 1, 3, 4, .rw, 8, 0, 2 ^ 32 - 1, 1, false⟩, roObjs 0x2A00 0x2A1F 2 2 3,
  ⟨0x2A00, 0x2A1F, 3, 3, 3, 4, .rw, 0, 0, 2 ^ 32 - 1, 1, false⟩, ⟨0x2A00, 0x2A1F, 4, 4, 3, 4, .rw, 1, 0, 2 ^ 32 - 1, 1, false⟩,
  ⟨0x2A00, 0x2A1F, 5, 6, 8, 256, .rw, 0, 0, 0, 1, false⟩, ⟨0x2A00, 0x2A1F, 7, 0x10, 3, 4, .rw, 0, 0, 2 ^ 32 - 1, 1, false⟩,
  rwObj 0x2A20 1 2 9216 1024 9216, rwObj 0x2A20 2 2 9216 8256 9216, rwObj 0x2A20 3 2 9216 1024 9216, rwObj 0x2A20 4 2 9216 1024 9216,
  rwObj 0x2A20 5 2 512 256 2048, rwObj 0x2A20 6 3 2000 100 100000, rwObj 0x2A20 7 3 1000 200 100000, rwObj 0x2A20 8 1 10 2 100,
  ⟨0x2A60, 0x2A7F, 1, 1, 1, 1, .wo, 0, 1, 1, 1, false⟩, roObjs 0x2A60 0x2A7F 2 2 3, ⟨0x2A60, 0x2A7F, 0x10, 0x10, 8, 2560, .ro, 0, 0, 0, 1, false⟩]

/-- The composition, power and thermal objects (R376, R449, R484, R486). -/
def rowsPower : List ObjRow := [
  rwObj 0x2B00 1 3 2000 0 50000, rwObj 0x2B00 2 3 2000 100 100000, rwObj 0x2B00 3 2 8 4 1000, rwObj 0x2B00 4 3 1000 100 100000,
  rwObj 0x2B00 5 3 5000 1000 200000, rwObj 0x2B00 6 3 10000 100 10000000, rwObj 0x2B00 7 3 4096 0 65536, rwObj 0x2B00 8 2 50 10 200,
  rwObj 0x2B00 9 2 10 1 1000, roObj 0x2B00 0xA 4, roObj 0x2B00 0xB 2, domObj 0x2B20 1 16384 .rw,
  rwObj 0x2C00 1 2 1900 600 1900, rwObj 0x2C00 2 3 50 5 100000, rwObj 0x2C00 3 3 1000 20 1000000,
  ⟨0x2C00, 0x2C00, 4, 4, 2, 2, .rw, 2100, 1000, 2100, 100, false⟩, roObj 0x2C00 5 1, rwObj 0x2C00 6 1 0 0 5, roObjs 0x2C01 0x2C01 1 4 2,
  ⟨0x2C02, 0x2C02, 1, 4, 1, 1, .rw, 95, 60, 95, 1, false⟩,
  woObj 0x2C30 1 1 1 1, roObj 0x2C30 2 3, ⟨0x2C30, 0x2C30, 3, 3, 3, 4, .summary, 0, 0, 0, 1, false⟩, woObj 0x2C30 4 1 1 1,
  domObj 0x2C30 0x10 256 .ro, roObjs 0x2CF0 0x2CF0 1 0x4A 7, roObjs 0x2CF1 0x2CF1 1 0xC 7]

/-- Bring-up and repair (R513). -/
def rowsRepair : List ObjRow := [
  rwObj 0x2D00 1 1 0 0 1, rwObj 0x2D00 2 1 1 0 1, rwObj 0x2D00 3 2 600 10 3600, roObj 0x2D00 4 1, roObj 0x2D00 5 3, roObj 0x2D00 6 1,
  roObj 0x2D00 7 3, domObj 0x2D01 1 8 .wo, rwObj 0x2D01 2 3 2000 100 100000, rwObj 0x2D01 3 3 20000 1000 200000,
  rwObj 0x2D01 4 2 100 10 10000, rwObj 0x2D02 1 3 50000 1000 10000000, rwObj 0x2D02 2 3 600 60 86400, rwObj 0x2D02 3 2 8 1 1024,
  rwObj 0x2D02 4 1 3 1 255, roObjs 0x2D02 0x2D02 5 6 1, roObj 0x2D02 7 2, roObj 0x2D02 8 4, roObj 0x2D02 9 3,
  rwObj 0x2D03 1 2 168 1 8760, roObj 0x2D03 2 1, roObj 0x2D03 3 2, domObj 0x2D03 4 32768 .ro,
  rwObj 0x2D04 1 2 64 0 1024, rwObj 0x2D04 2 1 1 0 1, roObjs 0x2D05 0x2D05 1 5 1]

/-- Identity keys, seal, security, the field network, this server and the log (R428, R429, R432, R437, R457, R458, R469). -/
def rowsManagement : List ObjRow := [
  roObj 0x2E00 1 2, domObj 0x2E00 2 57 .ro, domObj 0x2E00 3 512 .ro, rwObj 0x2E01 1 1 0 0 1, rwObj 0x2E02 1 3 0 0 0xFFFFFFFF, rwObj 0x2E03 1 1 0 0 2,
  rwObj 0x2E03 2 2 10 1 3600, roObjs 0x2E04 0x2E04 1 4 2, domObj 0x2E05 1 16 .wo, domObj 0x2E05 2 65536 .wo, roObj 0x2E05 3 1,
  rwObj 0x2E05 4 2 120 30 600, woObj 0x2E06 1 1 1 1, roObj 0x2E07 1 1, ⟨0x2E07, 0x2E07, 2, 2, 2, 2, .rwl, 23190, 1024, 65535, 1, false⟩,
  domObj 0x2E07 3 8 .ro, roObj 0x2E07 4 1, domObj 0x2E09 1 1280 .rwl, domObj 0x2E09 2 640 .rwl, domObj 0x2E0A 1 16562 .rwl,
  domObj 0x2E0A 2 330 .rwl, domObj 0x2E0A 3 64 .ro, roObjs 0x2E0B 0x2E0B 1 2 4, rwObj 0x2E0B 3 4 0 0 (2 ^ 64 - 1),
  domObj 0x2E0B 4 65536 .ro, rwObj 0x2E0B 5 1 2 0 5]

/-- Every object that is no counter. -/
def objRows : List ObjRow :=
  rowsIdentity ++ rowsTenants ++ rowsPath ++ rowsData ++ rowsFlash ++ rowsPower ++ rowsRepair ++ rowsManagement

/-- The highest sub-index defined at an index; none where the index is not defined (R410, R411). -/
def highestSub (index : Nat) : Option Nat :=
  let rows := (objRows.filter fun r => r.i0 ≤ index && index ≤ r.i1).map (·.s1)
  let counters := match counterShape index with
    | some c => c.summary :: (c.free ++ c.event)
    | none => []
  let all := rows ++ counters
  if all.isEmpty then none else some (all.foldl max 0)

/-- The definition of a sub-index (R411, R412, R414). -/
def objDef (index sub : Nat) : Option ObjRow :=
  if sub = 0 then (highestSub index).map fun _ => roObj index 0 1
  else match objRows.find? fun r => r.i0 ≤ index && index ≤ r.i1 && r.s0 ≤ sub && sub ≤ r.s1 with
    | some r => some r
    | none => match counterShape index with
      | some c =>
        if c.free.contains sub then some (roObj index sub 4)
        else if c.event.contains sub then some ⟨index, index, sub, sub, 3, 4, .event, 0, 0, 0, 1, false⟩
        else if c.summary ≠ 0 && sub = c.summary then some ⟨index, index, sub, sub, 3, 4, .summary, 0, 0, 0, 1, false⟩
        else none
      | none => none

/-- Is a value inside a row's range? -/
def ObjRow.admits (r : ObjRow) (v : Nat) : Bool := (r.zero && v = 0) || (r.lo ≤ v && v ≤ r.hi && v % r.step = 0)

/-- The budget of an object and its place in the table of R428. -/
def budgetOf (index sub : Nat) : Option (Nat × Nat) :=
  if index = 0x2030 && sub = 2 then some (0, 4)
  else if index = 0x2E01 && sub = 1 then some (1, 16)
  else if index = 0x2E02 && sub = 1 then some (2, 64)
  else if index = 0x2E03 && sub = 1 then some (3, 8)
  else none

/-- The budgeted objects in the order of R428. -/
def budgetKeys : List Nat := [objKey 0x2030 2, objKey 0x2E01 1, objKey 0x2E02 1, objKey 0x2E03 1]

/-! ## Rights (R415, R416) -/

/-- May an accessor read an object? -/
def mayRead (who : Accessor) (index : Nat) : Bool := match who with
  | .fn 0 => index ≠ 0x2033 && !(0x2610 ≤ index && index ≤ 0x262F) && !(0x2041 ≤ index && index ≤ 0x207F)
  | .fn n => (0x1000 ≤ index && index ≤ 0x1FFF) || index = 0x2031 || index = 0x2040 + n
  | _ => true

/-- May an accessor write an object of a class? -/
def mayWrite (who : Accessor) (index sub : Nat) (a : ObjAccess) : Bool := match who with
  | .mgmt => true
  | .operator => true
  | .reader => false
  | .fn 0 =>
    if index = 0x2031 then sub = 2 || sub = 5 || sub = 6
    else (a == .rw || a == .wo) && 0x2100 ≤ index && index ≤ 0x2BFF
  | .fn _ => index = 0x2031 && sub = 2

/-- The access of an object as an accessor meets it: ROUTE_TABLE is RO but for the management firmware and the field network (R376, R416). -/
def accessFor (who : Accessor) (index sub : Nat) (a : ObjAccess) : ObjAccess := match who with
  | .fn _ => if index = 0x2B20 && sub = 1 then .ro else a
  | _ => a

end Sys2Proof.Machine
end

