-- ==== Sys2Proof/Machine/StoreLoad.lean ====
section
/-! DEFINITION. What a start takes from the settings store and the budget counters (R423, R427, R460). -/
namespace Sys2Proof.Machine

/-- The default of a sub-index: an arbitration register of a port has its own (R340). -/
def ObjRow.default (d : ObjRow) (index sub : Nat) : Nat :=
  if 0x2A00 ≤ index && index ≤ 0x2A1F && 7 ≤ sub then (if sub % 2 = 1 then 100000 else 16384) else d.dflt

/-- The bytes of an object's default. -/
def ObjRow.defaultBytes (d : ObjRow) (index sub : Nat) : List Byte :=
  if d.ty = 8 then List.replicate d.len 0 else leBytes d.len (d.default index sub)

/-- A route table's bytes take their places (R350, R376). -/
def routesOf (b : List Byte) : Table Nat := (List.range 4096).foldl (fun t m => Table.put t m 0 (field b (4 * m) 4)) []

/-- A sub-index takes a value from the store at a start: nothing but the value moves (R460). -/
def State.takeStored (s : State) (key tenant : Nat) (d : ObjRow) (value : List Byte) : State :=
  let index := key / 256
  let sub := key % 256
  let v := leNat value
  if d.ty = 8 then
    if index = 0x2B20 then { s with fabric := { s.fabric with routes := routesOf value } } else s.putDomain key value
  else if index = 0x2031 then match s.tenants.get tenant with
    | some x => { s with tenants := s.tenants.set tenant (match sub with
        | 2 => { x with deadlineUs := v }
        | 3 => { x with inflightCap := v }
        | _ => { x with gigQuota := v }) }
    | none => s
  else
    let s := s.putSetting key (d.default index sub) v
    if index = 0x2E01 then (if v = 1 then s.seal else s.unseal)
    else if index = 0x2030 && sub = 2 then { s with catalog := { s.catalog with isolation := [(v, 0)] } }
    else s

/-- The records that fail, and those of the sub-indices that have no other record. -/
def State.storeFaults (s : State) (c : StoreCheck) : List StoreRec :=
  let failed := s.dict.store.filter fun r => c.bad.contains r.seq
  failed ++ failed.filter fun r => r.newest failed && !s.dict.store.any fun x => x.same r && !c.bad.contains x.seq

/-- Each sub-index with a failed record takes the value of its newest record whose MAC checks, or else its default; a budget whose counter
fails is spent (R427, R460). -/
def State.loadStore (s : State) (c : StoreCheck) : State :=
  let failed := s.dict.store.filter fun r => c.bad.contains r.seq
  let good := s.dict.store.filter fun r => !c.bad.contains r.seq
  let s := { s with dict := { s.dict with
    store := good, spent := (s.dict.spent ++ c.budgets.filterMap (budgetKeys[·]?)).eraseDups } }
  failed.foldl (fun (s : State) r => match objDef (r.key / 256) (r.key % 256) with
    | some d =>
      let value := match good.find? fun x => x.same r && x.newest good with
        | some x => x.value
        | none => d.defaultBytes (r.key / 256) (r.key % 256)
      s.takeStored r.key r.tenant d value
    | none => s) s

/-- The log records of what a start found: a FAULT record for each record that fails and for each sub-index left at its default, and a BUDGET
record for each counter that fails (R427, R460; log 50). -/
def State.logStore (s : State) (faults : List StoreRec) (budgets : List Nat) : State :=
  let s := faults.foldl (fun (s : State) r => s.logEvent (r.key / 256) (r.key % 256) 2 unitModule []) s
  (budgets.filterMap (budgetKeys[·]?)).foldl (fun (s : State) k => s.logEvent (k / 256) (k % 256) 6 unitModule []) s

end Sys2Proof.Machine
end

