-- ==== Sys2Proof/Machine/Mgmt.lean ====
section
/-! DEFINITION. The commands of the management complex (15), the pins (18) and the field network's link (14): mailboxes, firmware update, boot,
event log, sensors, power events at the connectors. -/
namespace Sys2Proof.Machine

/-! ## Mailboxes (R443 to R448) -/

/-- An access outside the world or the channel's roles: a bus error, a count and a SECURITY record (R446). -/
def State.refuseSecure (s : State) (master channel : Nat) : State :=
  ((s.tally 0x2E0C 5).logEvent 0x2E0C 5 3 unitModule (leBytes 8 master ++ leBytes 8 channel)).emit (.busError master)

/-- MBX_PUSH (R443 to R446, R448). -/
def execMbxPush (master channel : Nat) (path : PushPath) (bytes : List Byte) (s : State) : Host.Outcome State Fault Refusal :=
  .next (
    let host := path != .onDie
    if !host then
      if channel ≥ 32 || !senderOk master channel || master = 0x100 then s.refuseSecure master channel
      else if (s.channel channel).length ≥ 8 then (s.tally 0x2E0C 4).emit (.busError master)
      else s.storeMessage master channel bytes
    else if channel > 3 then s
    else if bytes.length ≠ 64 then
      let s := ({ s with mbx := { s.mbx with format := setBit s.mbx.format channel true } } : State).cause 0 4
      if path == .deferrable then s.emit .completerAbort else s
    else if (s.channel channel).length ≥ 8 then
      let s := s.tally 0x2E0C 4
      if path == .deferrable then s.emit .completerAbort
      else ({ s with mbx := { s.mbx with overrun := setBit s.mbx.overrun channel true } } : State).cause 0 4
    else (s.storeMessage 0x100 channel bytes).serveHost)

/-- NOTICES_LOST: a slot of NS4 is free again and notices have been dropped (R452). -/
def State.reportDropped (s : State) : State :=
  if s.log.dropped = 0 || (s.channel 4).length ≥ 8 then s
  else
    let n := s.log.dropped
    ({ s with log := { s.log with dropped := 0 } } : State).hostMessage 4 0x0201 (leBytes 4 n)

/-- MBX_POP: bit c - 4 removes the head of NSc (R447). -/
def execMbxPop (mask : Nat) (s : State) : Host.Outcome State Fault Refusal :=
  .next (([4, 5, 6, 7] : List Nat).foldl (fun s c => if bit mask (c - 4) then s.popMessage c else s) s)

/-- NOTICES_LOST (R452). -/
def execNoticesLost (s : State) : Host.Outcome State Fault Refusal := .next s.reportDropped

/-- Answer FW_RESULT to a host request: STATUS, SLOT (R448). -/
def State.fwResult (s : State) (c status slot : Nat) : State := s.hostMessage (c + 4) 0x0102 (leBytes 2 status ++ leBytes 1 slot)

/-- The image of a fetch request `m` of host channel `c` is read, from a range in the PF's windows, and answered (R448, R465). -/
def State.takeImage (s : State) (c : Nat) (m image : List Byte) : State :=
  let addr := field m 8 8
  let len := field m 16 4
  let slot := 1 - s.mgmt.preferred
  if !dmaInside (s.fnNow 0) false addr len then s.fwResult c 0x706 slot
  else
    let (s, _) := s.dmaRead 0 addr len
    match s.mgmt.update with
    | some (want, got) =>
      if !got.isEmpty || want ≠ len then s.fwResult c 0x705 slot
      else ({ s with mgmt := { s.mgmt with update := some (want, image.take want) } } : State).fwResult c 0 slot
    | none =>
      let (s, st) := s.fwOpen len
      if st ≠ 0 then s.fwResult c st slot
      else ({ s with mgmt := { s.mgmt with update := some (len, image.take len) } } : State).fwResult c 0 slot

/-- FW_FETCH: the oldest request's range must lie in the PF's windows; the image read fills the open update, or opens one (R448, R465). -/
def execFwFetch (image : List Byte) (s : State) : Host.Outcome State Fault Refusal :=
  .next (match s.hostRequest 0x100 with
    | some (c, m) =>
      if !s.mgmt.serverUp then s
      else
        let s := s.popMessage c
        (s.takeImage c m image).serveHost
    | none => s)

/-- FW_ACTIVATE: the message runs COMMIT where that is still to do, and ACTIVATE (R448, R465; log 49). -/
def execFwActivate (s : State) : Host.Outcome State Fault Refusal :=
  .next (match s.hostRequest 0x101 with
    | some (c, _) =>
      if !s.mgmt.serverUp then s
      else
        let s := (s.popMessage c).serveHost
        let slot := 1 - s.mgmt.preferred
        let (s, st) := if s.mgmt.committed then (s, 0) else s.fwCheck
        if st ≠ 0 then s.fwResult c st slot
        else
          let (s', st) := s.fwSwitch
          if st ≠ 0 then s.fwResult c st slot else s'.fwResult c 0 slot
    | none => s)

/-- The key of an enrolment message `m` of host channel `c` (R448, R457). -/
def State.enrolKey (s : State) (c : Nat) (m record : List Byte) : State :=
  let keys := slice (s.dict.domains.getD (objKey 0x2E09 1) []) 0 1280
  let slots := chunks 80 keys
  let addr := field m 8 8
  let free := slots.findIdx? fun k => field k 0 1 = 0
  if s.sealedNow || slots.any (fun k => field k 0 1 = 2) || !dmaInside (s.fnNow 0) false addr 80 then
    s.hostMessage (c + 4) 0xFFFF (leBytes 2 0x300)
  else
    let (s, _) := s.dmaRead 0 addr 80
    match free with
    | some n =>
      if field record 0 1 ≠ 2 then s.hostMessage (c + 4) 0xFFFF (leBytes 2 0x300)
      else
        let list := keys.take (80 * n) ++ slice record 0 80 ++ keys.drop (80 * n + 80)
        (s.recordStore (objKey 0x2E09 1) 0 list).putDomain (objKey 0x2E09 1) list
    | none => s.hostMessage (c + 4) 0xFFFF (leBytes 2 0x300)

/-- KEY_ENROL: the first OPERATOR key, while the list holds none and the composition is unsealed (R448, R457). -/
def execKeyEnrol (record : List Byte) (s : State) : Host.Outcome State Fault Refusal :=
  .next (match s.hostRequest 0x300 with
    | some (c, m) =>
      if !s.mgmt.serverUp then s
      else
        let s := s.popMessage c
        (s.enrolKey c m record).serveHost
    | none => s)

/-! ## Log and sensors (R449 to R452) -/

/-- The oldest `count` waiting records are copied (R451). -/
def State.copyLog (s : State) (count : Nat) : State :=
  let n := min count s.log.waiting
  let recs := (s.log.ring.drop (s.log.ring.length - s.log.waiting)).take n
  let l := s.log
  let l := if l.flashReady then
      let f := l.flash ++ l.boot ++ recs
      { l with flash := f.drop (f.length - 1048576), boot := [], waiting := l.waiting - n }
    else
      let b := l.boot ++ recs
      { l with boot := b.drop (b.length - 16384), waiting := l.waiting - n }
  let lost := l.lost
  let s := { s with log := l }
  if lost > 0 && l.waiting < 4096 then ({ s with log := { l with lost := 0 } } : State).logState 0x2E0C 2 unitModule 0 lost else s

/-- LOG_COPY: the firmware copies the oldest waiting records to the ring on flash, or before flash is ready to the boot log; once there is
room, records lost are reported (R451). -/
def execLogCopy (count : Nat) (s : State) : Host.Outcome State Fault Refusal :=
  .next (if !s.mgmt.serverUp then s
    else
      s.copyLog count)

/-- The sensors of the hub (R449). -/
def sensorKeys : List Nat := (subs 1 0x4A).map (objKey 0x2CF0 ·) ++ (subs 1 0xC).map (objKey 0x2CF1 ·)

/-- A NaN: what a sensor that does not answer reads (R449). -/
abbrev f32Silent : F32 := 0x7FC00000

/-- Since when each partition at 1.0 GHz has been above its cap (R483). -/
def State.watchCaps (s : State) : State :=
  (List.range 4).foldl (fun s p =>
    let t := s.sensors.getD (objKey 0x2CF0 (p + 1)) 0
    let cap := s.setting 0x2C02 (p + 1) 95
    let above := match f32Val t with
      | .nan => false
      | .inf neg => !neg
      | .fin neg m e => let r := scaleUp m e
        !neg && decide (r.1 > cap * r.2)
    if above && s.clockOf p = 1000 then
      (match s.power.capSince.get p with
        | some _ => s
        | none => { s with power := { s.power with capSince := s.power.capSince.set p s.time } })
    else { s with power := { s.power with capSince := s.power.capSince.erase p, capCounted := s.power.capCounted.filter (· ≠ p) } }) s

/-- SENSOR_SAMPLE: every 10 ms each sensor's value, a NaN for one that does not answer, whose first failure since the start writes a FAULT
record (R449; log 92). -/
def execSensorSample (t : Nat) (values : List (Nat × Nat × F32)) (s : State) : Host.Outcome State Fault Refusal :=
  .next (let s := s.advance t
    if s.time % (10 * cyclesPerMs) ≠ 0 then s
    else
      let s := sensorKeys.foldl (fun s k =>
        let v := (values.find? fun x => objKey x.1 x.2.1 = k).map (·.2.2)
        let s := { s with sensors := s.sensors.set k (v.getD f32Silent) }
        if v.isNone && !s.mgmt.silent.contains k then
          ({ s with mgmt := { s.mgmt with silent := s.mgmt.silent ++ [k] } } : State).logEvent (k / 256) (k % 256) 2 (sensorUnitOf k) []
        else s) s
      s.watchCaps)

/-- SETTINGS_COMPACT: the active area is full (R460; log 50). -/
def execSettingsCompact (s : State) : Host.Outcome State Fault Refusal :=
  .next (if s.dict.storeUsed + 65583 > storeBytesMax then s.compactStore else s)

/-! ## Boot (R454, R462, R463, R487, R522, R530) -/

/-- A full start: what a start captures and what a loss of power has left behind is settled (R344, R423, R424, R432, R469, R481, R485, R522). -/
def State.startModule (s : State) : State :=
  let counted := s.power.flushing
  let p : Power := { volts := s.power.volts, filtered := s.power.filtered, amps := s.power.amps, startSince := s.power.startSince
                     histSnap := s.power.histSnap, histSeq := s.power.histSeq, lastSlot := s.power.lastSlot }
  let s := { s.dropVolatile.portsOff.hostOff with
    power := p
    pins := { s.pins with present := true, slotRead := s.pins.slotId }
    flash := { s.flash with flushing := false }
    dict := { s.dict with incarnation := s.dict.incarnation + 1, oapSeq := [], segWrites := [], logBases := [], waitingReqs := [], placed := [], linkUp := s.dict.linkUp }
    mgmt := { s.mgmt with
      rounds := 0, silent := [], serverUp := false, update := none, committed := false, recStatus := 0, recAddr := 0, recLen := 0
      watchdogS := s.setting 0x2E05 4 120, oapPort := s.setting 0x2E07 2 23190 }
    repair := { s.repair with
      phase := 0, started := true, startAt := s.time, cold := true, ready := false, phasesDone := false
      topoWait := s.setting 0x2D00 3 600, jobs := [], campions := [], duals := [] }
    log := { s.log with flashReady := false }
    epochs := { s.epochs with mayStamp := false, leading := false } }
  let s := if counted then s.tally 0x2C20 7 else s
  s.settleShed

/-- BOOT_START: the input has been at 42 V for 100 ms, the hold-up bank is good and no flush runs; the keys are derived, the settings store and
the budget counters checked, and a slot started (R427, R454, R460, R462, R471, R481, R518, R526, R530). -/
def execBootStart (t : Nat) (found : BootFind) (s : State) : Host.Outcome State Fault Refusal :=
  .next (let s := s.advance t
    let input := match s.power.startSince with
      | some c => decide (s.time ≥ c + 100 * cyclesPerMs)
      | none => false
    let bank := s.pins.bankMv ≥ 70000 && s.pins.bankMj ≥ 9000
    if s.mgmt.boot != .off || !input || !bank || (s.power.flushing && !s.power.busOff) then s
    else if found.identityOk then (((s.loadStore found.store).startModule).logStore (s.storeFaults found.store) found.store.budgets).bootRound.settleStat
    else
      let s := s.startModule
      ({ s with mgmt := { s.mgmt with boot := .noIdentity } } : State).settleStat)

/-- BOOT_WATCHDOG: no HEALTHY within BOOT_WATCHDOG; a trial is rolled back, and the ROM goes to the next step (R462, R465). -/
def execBootWatchdog (t : Nat) (s : State) : Host.Outcome State Fault Refusal :=
  .next (let s := s.advance t
    match s.mgmt.boot with
    | .running slot at_ =>
      if s.time < at_ + s.mgmt.watchdogS * cyclesPerS then s
      else
        let s := s.bootFails
        if s.mgmt.trial then
          let s := ({ s with mgmt := { s.mgmt with trial := false, preferred := s.mgmt.previous, partPending := false } } : State).tally 0x2E0C 6
          s.bootRound.settleStat
        else if slot = s.mgmt.preferred then s.bootOther.settleStat
        else ({ s with mgmt := { s.mgmt with boot := .recovery s.time, recStatus := 0, update := none } } : State).settleStat
    | _ => s)

/-- RECOVERY_OFFER_END: 30 s without a recovery image (R462). -/
def execRecoveryOfferEnd (t : Nat) (s : State) : Host.Outcome State Fault Refusal :=
  .next (let s := s.advance t
    match s.mgmt.boot with
    | .recovery at_ =>
      if s.time < at_ + 30 * cyclesPerS then s
      else
        let s := s.bootFails
        ({ s with mgmt := { s.mgmt with boot := .wait s.time, rounds := s.mgmt.rounds + 1, update := none } } : State).settleStat
    | _ => s)

/-- BOOT_WAIT_END: after min(60, 2^(n - 1)) s, n the failed rounds since power-on (R462). -/
def execBootWaitEnd (t : Nat) (s : State) : Host.Outcome State Fault Refusal :=
  .next (let s := s.advance t
    match s.mgmt.boot with
    | .wait at_ =>
      if s.time < at_ + min 60 (2 ^ (min 6 (s.mgmt.rounds - 1))) * cyclesPerS then s else s.bootRound.settleStat
    | _ => s)

/-- A recovery image is verified and started, or REC_STATUS says why not (R462, R463). -/
def State.tryRecovery (s : State) (image : List Byte) : State × Nat :=
  let st := s.fwStatus 2 image
  let s := { s with mgmt := { s.mgmt with recStatus := st % 256 } }
  if st = 0 then (({ s with mgmt := { s.mgmt with boot := .recovered } } : State).settleStat, 0) else (s, st)

/-- REC_GO: the image at REC_ADDR is fetched and verified (R463). -/
def execRecGo (image : List Byte) (s : State) : Host.Outcome State Fault Refusal :=
  .next (match s.mgmt.boot with
    | .recovery _ =>
      if s.mgmt.recLen > fwMax || s.mgmt.recAddr % 4096 ≠ 0 then { s with mgmt := { s.mgmt with recStatus := 1 } }
      else
        let s := s.count (objKey 0x2040 1) s.mgmt.recLen
        (s.tryRecovery (image.take s.mgmt.recLen)).1
    | _ => s)

/-- HEALTHY: the object server is up. In a start the settings and the descriptor are loaded, ports enabled and rails asked for; after an
update the trial ends and the PART component is installed (R462, R465, R466, R487). -/
def execHealthy (t : Nat) (s : State) : Host.Outcome State Fault Refusal :=
  .next (let s := s.advance t
    match s.mgmt.boot with
    | .running slot _ =>
      let s := { s with mgmt := { s.mgmt with boot := .healthy slot, serverUp := true, serviced := s.time, trial := false } }
      let s := if s.repair.started && s.repair.phase = 0 then s.startRails else s
      let s := if s.mgmt.partPending && s.repair.ready then
          let s := { s with mgmt := { s.mgmt with partPending := false } }
          (List.range 4).foldl (fun s p => if s.partUp p then s.beginInstall p 65535 false none else s) s
        else s
      s.serveHost.settleStat
    | _ => s)

/-! ## Firmware update over the dictionary's FW_CTL (R465) -/

/-- BEGIN. -/
def execFwBegin (length : Nat) (s : State) : Host.Outcome State Fault Refusal := .next (if s.mgmt.serverUp then (s.fwOpen length).1 else s)

/-- FW_DATA: one complete write of 64 KiB. -/
def execFwData (bytes : List Byte) (s : State) : Host.Outcome State Fault Refusal :=
  .next (if s.mgmt.serverUp && bytes.length = 65536 then (s.fwMore bytes).1 else s)

/-- COMMIT. -/
def execFwCommit (s : State) : Host.Outcome State Fault Refusal := .next (if s.mgmt.serverUp then s.fwCheck.1 else s)

/-- ABORT. -/
def execFwAbort (s : State) : Host.Outcome State Fault Refusal := .next (if s.mgmt.serverUp then s.fwEnd.1 else s)

/-- ACTIVATE. -/
def execFwActivateSlot (t : Nat) (s : State) : Host.Outcome State Fault Refusal :=
  .next (let s := s.advance t
    if s.mgmt.serverUp then s.fwSwitch.1 else s)

/-- WATCHDOG_RESETS: the management core has not serviced its watchdog for 2 s and is reset alone (R467). -/
def execWatchdogResets (t : Nat) (s : State) : Host.Outcome State Fault Refusal :=
  .next (let s := s.advance t
    match s.mgmt.boot with
    | .healthy slot => if s.time < s.mgmt.serviced + 2 * cyclesPerS then s else (s.tally 0x2E0C 7).restartMgmt slot
    | _ => s)

/-! ## Field network link (R432, R434) -/

/-- FIELD_LINK_UP: LINK_UP reads 1 and a HELLO goes out. -/
def execFieldLinkUp (s : State) : Host.Outcome State Fault Refusal :=
  .next (if s.dict.linkUp then s else ({ s with dict := { s.dict with linkUp := true } } : State).sendHello)

/-- FIELD_LINK_DOWN. -/
def execFieldLinkDown (s : State) : Host.Outcome State Fault Refusal := .next { s with dict := { s.dict with linkUp := false } }

/-- HELLO: every 10 s while the link is up (R434). -/
def execHello (t : Nat) (s : State) : Host.Outcome State Fault Refusal :=
  .next (let s := s.advance t
    if s.dict.linkUp && s.time ≥ s.dict.lastHello + 10 * cyclesPerS then s.sendHello else s)

/-! ## Power and reset pins (R518, R520, R526, R530) -/

/-- PRESENT_N_OPEN: the input switch opens and step 6 is entered; a LIFECYCLE record is written (R518). -/
def execPresentNOpen (s : State) : Host.Outcome State Fault Refusal :=
  .next (if !s.pins.present then s
    else
      let s := { s with pins := { s.pins with present := false }, power := { s.power with switchOpen := true } }
      (s.forceFlush.logEvent 0x2C00 5 4 unitModule []).settleStat)

/-- OVERVOLTAGE: the mean of the last 10 samples lies above 61.0 V (R526). -/
def execOvervoltage (t : Nat) (s : State) : Host.Outcome State Fault Refusal :=
  .next (let s := s.advance t
    let v := s.power.volts.take 10
    if v.length < 10 || v.sum ≤ 610000 || s.power.switchOpen then s
    else
      let s := { s with power := { s.power with switchOpen := true } }
      (s.forceFlush.logEvent 0x2CF1 1 2 unitModule (leBytes 8 (v.sum / 10))).settleStat)

/-- PERST_N: asserted, the PCIe core is reset and every function as by a Function Level Reset (R520). -/
def execPerstN (asserted : Bool) (s : State) : Host.Outcome State Fault Refusal :=
  .next (if asserted then
      let s := (s.host.fns.map (·.1)).foldl (fun s fn => s.resetFn fn) s
      { s with host := { s.host with perst := true, linkGen := 0, linkWidth := 0, vfEnable := false } }
    else { s with host := { s.host with perst := false } })

/-- BANK_QUALIFY: the hold-up bank is measured before a start; a bank that fails writes a FAULT record and drives POWER_FAULT (R523, R530). -/
def execBankQualify (millivolts millijoules : Nat) (s : State) : Host.Outcome State Fault Refusal :=
  .next (if s.mgmt.boot != .off then s
    else
      let s := { s with pins := { s.pins with bankMv := millivolts, bankMj := millijoules } }
      let s := if millivolts < 70000 || millijoules < 9000 then s.logEvent 0x2C00 5 2 unitModule (leBytes 8 millivolts ++ leBytes 8 millijoules) else s
      s.settleStat)

end Sys2Proof.Machine
end

