-- ==== Sys2Proof/Machine/Counters.lean ====
section
/-! DEFINITION. Software's writes to counters: EVENT_COUNTER_CLEAR, SAT_CLEAR and SAT_REASSERT (R11, R12, R414). -/
namespace Sys2Proof.Machine

/-- The tenant whose record `0x2031` and `0x2033` reach outside the in-band path (R203, R416). -/
def State.selectedTenant (s : State) : Nat := s.setting 0x2030 1 1

/-- The counter that an object's sub-index names, with `tenant` for `0x2031.05`. -/
def counterKeyOf (tenant index sub : Nat) : Option Nat :=
  if index = 0x2031 ∧ sub = 5 then some (lateKey tenant)
  else if isEventCounter (objKey index sub) ∧ sub < 256 then some (objKey index sub)
  else none

/-- The group summary that an object's sub-index names. The bins of a port are named by their snapshot object (R341), the
summary of the port's HIST_CTL (R340) being theirs. -/
def summaryKeyOf (tenant index sub : Nat) : Option Nat :=
  if index = 0x2031 ∧ sub = 6 then some (lateKey tenant + 1)
  else if 0x2318 ≤ index ∧ index ≤ 0x231B ∧ sub = 8 then some (objKey index 8)
  else if index = 0x2C30 ∧ sub = 3 then some (objKey index 3)
  else if 0x2A60 ≤ index ∧ index ≤ 0x2A7F ∧ sub = 0x10 then some (binKey (index - 0x2A60) 0 0 0 + 1023)
  else match counterShape index with
    | some c => if c.summary ≠ 0 ∧ sub = c.summary then some (objKey index sub) else none
    | none => none

/-- Write 1 to an event counter: it clears, and `k` increments of the same cycle count after the clear (R11). -/
def State.clearCounter (s : State) (key k : Nat) : State :=
  ({ s with counters := s.counters.erase key } : State).count key k

/-- Write 1 to a summary: SAT clears (R12). -/
def State.clearSat (s : State) (key : Nat) : State := { s with counters := s.counters.erase key }

/-- The cycle after: SAT is set again, without an event, while a counter of the group still holds its highest value (R12). -/
def State.reassertSat (s : State) (key : Nat) : State :=
  if (groupMembers s.counters key).any (fun k => s.counter k == eventMax) then
    { s with counters := s.counters.set key 1 }
  else s

/-- EVENT_COUNTER_CLEAR. A value other than 1 is refused (R414), and the counter stays. -/
def execEventCounterClear (index sub value sameCycle : Nat) (s : State) : Host.Outcome State Fault Refusal :=
  .next (match counterKeyOf s.selectedTenant index sub with
    | some key => if value = 1 then s.clearCounter key sameCycle else s
    | none => s)

/-- SAT_CLEAR. -/
def execSatClear (index sub : Nat) (s : State) : Host.Outcome State Fault Refusal :=
  .next (match summaryKeyOf s.selectedTenant index sub with
    | some key => s.clearSat key
    | none => s)

/-- SAT_REASSERT. -/
def execSatReassert (index sub : Nat) (s : State) : Host.Outcome State Fault Refusal :=
  .next (match summaryKeyOf s.selectedTenant index sub with
    | some key => s.reassertSat key
    | none => s)

end Sys2Proof.Machine
end

