-- ==== Sys2Proof/Machine/Host.lean ====
section
/-! DEFINITION. The commands of the PCIe functions at either access level, served by one pipeline (R1, R3), of rings and interrupts (R378 to R409): link, enable, windows, doorbells,
taking an entry, ring administration, message timers, and the doorbells of the basic level. -/
namespace Sys2Proof.Machine

/-- PCIE_LINK_TRAIN: 64, 32 or 16 GT/s (generation 6, 5, 4) at ×16, ×8 or ×4, as the highest both sides support (R378). -/
def execPcieLinkTrain (gen width : Nat) (s : State) : Host.Outcome State Fault Refusal :=
  .next (if (gen = 4 ∨ gen = 5 ∨ gen = 6) ∧ (width = 4 ∨ width = 8 ∨ width = 16) ∧ !s.host.perst then
      { s with host := { s.host with linkGen := gen, linkWidth := width } }
    else s)

/-- VF_ENABLE: the VFs come into being with VF_VECTORS entries each (R408). -/
def execVfEnable (s : State) : Host.Outcome State Fault Refusal :=
  .next (if s.host.vfEnable then s
    else { s with host := { s.host with vfEnable := true, vfVectors := s.setting 0x2036 1 31 } })

/-- FUNCTION_LEVEL of a function: true for expert (R408). -/
def State.levelExpert (s : State) (fn : Nat) : Bool := s.setting 0x2034 (1 + fn) 1 == 1

/-- FUNCTION_TENANT of a function (R184). -/
def State.fnTenant (s : State) (fn : Nat) : Nat := s.setting 0x2032 (1 + fn) 0

/-- May a write of 1 to the function's enable bit take effect (R380)? -/
def State.enableAllowed (s : State) (fn : Nat) : Bool :=
  let f := s.fnState fn
  fn < 64 && (fn == 0 || s.host.vfEnable) && f.mse && f.bme && !f.enabled

/-- A permitted ring size: a power of two from 16 to 4,096 (R388). -/
def ringSizeOk (n : Nat) : Bool := [16, 32, 64, 128, 256, 512, 1024, 2048, 4096].contains n

/-- A refused enable records pair 0 and its cause (R390, R543). -/
def State.enableRefused (s : State) (fn cause : Nat) : State :=
  (s.updFn fn fun f => { f with faultPair := 0, faultCause := cause }).cause fn 0

/-- FN_ENABLE: an expert-level enable with ring pair 0 from the ADMIN registers (R380, R543). -/
def State.fnEnable (s : State) (fn : Nat) : State :=
  (if s.enableAllowed fn && s.levelExpert fn then
      let f := s.fnState fn
      let sq := f.adminSize % 65536
      let cq := f.adminSize / 65536
      let f' : FnState := { f with expert := true }
      if !ringSizeOk sq || !ringSizeOk cq || f.adminSqBase % 4096 ≠ 0 || f.adminCqBase % 4096 ≠ 0 then s.enableRefused fn 6
      else if !dmaInside f' false f.adminSqBase (128 * sq) || !dmaInside f' true f.adminCqBase (64 * cq) then
        s.enableRefused fn 3
      else
        let p : RingPair := { state := 1, kind := 0, sqBase := f.adminSqBase, sqSize := sq, cqBase := f.adminCqBase
                              cqSize := cq, vector := f.adminVector }
        (s.setFn fn { f' with enabled := true, tenant := s.fnTenant fn, pairs := [(0, p)] }).cause fn 2
    else s)

/-- The command. -/
def execFnEnable (fn : Nat) (s : State) : Host.Outcome State Fault Refusal := .next (s.fnEnable fn)

/-- RUN: a basic-level enable (R380, R405). -/
def State.fnRun (s : State) (fn : Nat) : State :=
  (if s.enableAllowed fn && !s.levelExpert fn then
      s.updFn fn fun f => { f with enabled := true, expert := false, tenant := s.fnTenant fn }
    else s)

/-- The command. -/
def execRun (fn : Nat) (s : State) : Host.Outcome State Fault Refusal := .next (s.fnRun fn)

/-- DMA_WINDOW_WRITE: a register of the window page, by its offset in the page (R384); requests of the same cycle still meet the windows
before it (R385). A basic-level function ignores it. -/
def execDmaWindowWrite (fn off value : Nat) (s : State) : Host.Outcome State Fault Refusal :=
  .next (let f := s.fnState fn
    if (f.enabled && !f.expert) || (!f.enabled && !s.levelExpert fn) || off ≥ 512 then s
    else
      let old := match f.winOld with
        | some (c, w) => if c = s.time then w else f.windows
        | none => f.windows
      let w := f.windows.getD (off / 32) {}
      let w' : Window := match off % 32 with
        | 0 => { w with base := value % 2 ^ 64 }
        | 8 => { w with last := value % 2 ^ 64 }
        | 16 => { w with valid := bit value 0, read := bit value 1, write := bit value 2 }
        | _ => w
      s.setFn fn { f with windows := f.windows.put (off / 32) {} w', winOld := some (s.time, old) })

/-- Does a function answer on its doorbell page? A basic-level function ignores it (R382). -/
def State.doorbells (s : State) (fn : Nat) : Bool := let f := s.fnState fn; !(f.enabled && !f.expert)

/-- SQ_TAIL (R389, R390 causes 1 and 5). -/
def execSqTail (fn pair value : Nat) (s : State) : Host.Outcome State Fault Refusal :=
  .next (if !s.doorbells fn || pair ≥ 64 then s
    else
      let p := s.pairOf fn pair
      let v := value % 65536
      if p.state = 0 then s.ringFault fn pair 5
      else if v ≥ p.sqSize then s.ringFault fn pair 1
      else s.setPair fn pair { p with sqTail := v })

/-- CQ_HEAD (R389, R392, R390 causes 2 and 5). -/
def execCqHead (fn pair value : Nat) (s : State) : Host.Outcome State Fault Refusal :=
  .next (if !s.doorbells fn || pair ≥ 64 then s
    else
      let p := s.pairOf fn pair
      let v := value % 65536
      let adv := (v + p.cqSize - p.cqHead) % p.cqSize
      if p.state = 0 then s.ringFault fn pair 5
      else if v ≥ p.cqSize || adv > p.unconsumed then s.ringFault fn pair 2
      else s.setPair fn pair { p with cqHead := v, unconsumed := p.unconsumed - adv })

/-- ENTRY_TAKE: the next function and pair in rotation, its submission entry read through the windows (R392, R393, R390). The turn of a
basic-level ring is for its own commands. -/
def execEntryTake (readOk : Bool) (s : State) : Host.Outcome State Fault Refusal :=
  .next (match s.turn with
    | none => s
    | some (fn, pair) =>
      if !(s.fnState fn).expert then s
      else
        let p := s.pairOf fn pair
        let (s, ok) := s.dmaRead fn (p.sqBase + 128 * p.sqHead) 128
        if !ok then s.ringFault fn pair 3
        else if !readOk then s.ringFault fn pair 4
        else
          let head := if p.sqHead + 1 ≥ p.sqSize then 0 else p.sqHead + 1
          let s := s.setPair fn pair { p with sqHead := head, reserved := p.reserved + 1 }
          ({ s with host := { s.host with taken := s.host.taken ++ [(⟨fn, pair, p.sqHead⟩ : TakenEntry)] } } : State).took fn pair)

/-- Vectors of a function's MSI-X table (R403). -/
def State.vectorCount (s : State) (fn : Nat) : Nat := if fn = 0 then 65 else s.host.vfVectors

/-- Are a vector and coalescing thresholds permitted (R401, R404)? -/
def State.interruptOk (s : State) (fn vector count us : Nat) : Bool :=
  vector < s.vectorCount fn && 1 ≤ count && count ≤ 256 && us ≤ 1000

/-- CREATE_RING (R400, R401). -/
def execCreateRing (cmd : AdminCmd) (s : State) : Host.Outcome State Fault Refusal :=
  .next (s.adminCommand cmd 0x10 32 (allZero cmd.entry 60 4) false fun s r =>
    let e := cmd.entry
    let pair := field e 48 1
    let p := s.pairOf r.fn pair
    if pair = 0 || pair > 63 then s.adminDone r 0x12 [] []
    else if p.state ≠ 0 then s.adminDone r 0x10 [] []
    else if !(field e 49 1 = 1 || field e 49 1 = 2) || !ringSizeOk (field e 50 2) || !ringSizeOk (field e 52 2) ||
        field e 64 8 % 4096 ≠ 0 || field e 72 8 % 4096 ≠ 0 ||
        !s.interruptOk r.fn (field e 54 2) (field e 56 2) (field e 58 2) then s.adminDone r 0x12 [] []
    else
      let p : RingPair := { state := 1, kind := field e 49 1, sqBase := field e 64 8, sqSize := field e 50 2
                            cqBase := field e 72 8, cqSize := field e 52 2, vector := field e 54 2
                            coalCount := field e 56 2, coalUs := field e 58 2 }
      (s.setPair r.fn pair p).adminDone r 0 [] [])

/-- DELETE_RING: the pair takes no more entries and is ABSENT once its last completion is written (R390, R400). -/
def execDeleteRing (cmd : AdminCmd) (s : State) : Host.Outcome State Fault Refusal :=
  .next (s.adminCommand cmd 0x11 1 true false fun s r =>
    let pair := field cmd.entry 48 1
    let p := s.pairOf r.fn pair
    if pair = 0 || pair > 63 then s.adminDone r 0x12 [] []
    else if p.state = 0 then s.adminDone r 0x11 [] []
    else if p.state = 3 then s.adminDone r 0x10 [] []
    else (s.setPair r.fn pair { p with state := 3, deleting := some r }).finishDelete r.fn pair)

/-- SET_INTERRUPT: for completions written after its own (R404); pair 0 may be named (R543). -/
def execSetInterrupt (cmd : AdminCmd) (s : State) : Host.Outcome State Fault Refusal :=
  .next (s.adminCommand cmd 0x12 8 (allZero cmd.entry 49 1) false fun s r =>
    let e := cmd.entry
    let pair := field e 48 1
    if pair > 63 then s.adminDone r 0x12 [] []
    else if (s.pairOf r.fn pair).state = 0 then s.adminDone r 0x11 [] []
    else if !s.interruptOk r.fn (field e 50 2) (field e 52 2) (field e 54 2) then s.adminDone r 0x12 [] []
    else
      let s := s.adminDone r 0 [] []
      let s := s.setPair r.fn pair
        { s.pairOf r.fn pair with vector := field e 50 2, coalCount := field e 52 2, coalUs := field e 54 2 }
      if pair = 0 then s.updFn r.fn fun f => { f with adminVector := field e 50 2 } else s)

/-- COAL_TIMER: COAL_US has passed since the oldest unsignalled completion (R404). -/
def execCoalTimer (fn pair t : Nat) (s : State) : Host.Outcome State Fault Refusal :=
  .next (let s := s.advance t
    let p := s.pairOf fn pair
    if p.unsignalled > 0 ∧ s.time ≥ p.oldestAt + p.coalUs * cyclesPerUs then
      (s.setPair fn pair { p with unsignalled := 0 }).msix fn p.vector
    else s)

/-- MSIX_UNMASK: a pending message is sent as its vector is unmasked (R403). -/
def State.msixUnmask (s : State) (fn vec : Nat) : State :=
  (if vec ≥ s.vectorCount fn then s
    else
      let f := s.fnState fn
      let v := f.vecs.getD vec {}
      let s := s.setFn fn { f with vecs := f.vecs.set vec { v with masked := false, pending := false } }
      if v.pending then s.msix fn vec else s)

/-- The command. -/
def execMsixUnmask (fn vec : Nat) (s : State) : Host.Outcome State Fault Refusal := .next (s.msixUnmask fn vec)

/-- QSR_TAIL of a basic-level function (R405). -/
def State.qsrTail (s : State) (fn value : Nat) : State :=
  (let f := s.fnState fn
    let v := value % 65536
    if f.enabled && f.expert || !f.enabled && s.levelExpert fn then s
    else if f.enabled && v ≥ f.basic.qsrSize then s.ringFault fn 0 1
    else s.setFn fn { f with basic := { f.basic with qsrTail := v } })

/-- The command. -/
def execQsrTail (fn value : Nat) (s : State) : Host.Outcome State Fault Refusal := .next (s.qsrTail fn value)

/-- QCR_HEAD of a basic-level function (R405). -/
def State.qcrHead (s : State) (fn value : Nat) : State :=
  (let f := s.fnState fn
    let v := value % 65536
    let adv := (v + f.basic.qcrSize - f.basic.qcrHead) % f.basic.qcrSize
    if f.enabled && f.expert || !f.enabled && s.levelExpert fn then s
    else if f.enabled && (v ≥ f.basic.qcrSize || adv > f.basic.unconsumed) then s.ringFault fn 0 2
    else s.setFn fn { f with basic := { f.basic with
      qcrHead := v, unconsumed := if f.enabled then f.basic.unconsumed - adv else f.basic.unconsumed } })

/-- The command. -/
def execQcrHead (fn value : Nat) (s : State) : Host.Outcome State Fault Refusal := .next (s.qcrHead fn value)

/-- IGR_TAIL of a basic-level function (R405). -/
def State.igrTail (s : State) (fn value : Nat) : State :=
  (let f := s.fnState fn
    let v := value % 65536
    if f.enabled && f.expert || !f.enabled && s.levelExpert fn then s
    else if f.enabled && v ≥ f.basic.igrSize then s.ringFault fn 1 1
    else s.setFn fn { f with basic := { f.basic with igrTail := v } })

/-- The command. -/
def execIgrTail (fn value : Nat) (s : State) : Host.Outcome State Fault Refusal := .next (s.igrTail fn value)

end Sys2Proof.Machine
end

