-- ==== Sys2Proof/Machine/Registers.lean ====
section
/-! DEFINITION. Writes to registers that have no row of their own, and a function's metering snapshot: REGISTER_WRITE, SNAP_REQ,
METER_CAPTURE (R5, R200, R201, R340, R380, R383, R405, R447, R463). Reserved bits are stored as zero. A register whose write has a row of
its own does here what that row does, where the value alone says it. -/
namespace Sys2Proof.Machine

/-! ## Page 0 of a function's BAR -/

/-- A write to the function control page (R383). -/
def State.writeControlPage (s : State) (fn off value : Nat) : State :=
  let f := s.fnState fn
  match off with
  | 0x004 => if bit value 0 then s.fnEnable fn else s
  | 0x00C => s.setFn fn { f with evtCause := f.evtCause &&& (0x1F ^^^ (value % 32)) }
  | 0x010 => s.setFn fn { f with evtMask := value % 32 }
  | 0x014 => s.setFn fn { f with evtVector := value % 2048 }
  | 0x028 => if f.enabled then s else s.setFn fn { f with adminSqBase := value % 2 ^ 64 }
  | 0x030 => if f.enabled then s else s.setFn fn { f with adminCqBase := value % 2 ^ 64 }
  | 0x038 => if f.enabled then s else s.setFn fn { f with adminSize := value % 2 ^ 32 }
  | 0x03C => if f.enabled then s else s.setFn fn { f with adminVector := value % 2048 }
  | _ => s

/-- A write to the basic-level window (R405). -/
def State.writeBasicPage (s : State) (fn off value : Nat) : State :=
  let f := s.fnState fn
  let run := f.enabled
  let set (b : BasicRegs) : State := s.setFn fn { f with basic := b }
  match off with
  | 0x004 =>
    let s := set { f.basic with irqEn := bit value 1 }
    if bit value 0 then s.fnRun fn else s
  | 0x008 => if bit value 2 then set { f.basic with error := false } else s
  | 0x010 => if run then s else set { f.basic with arenaBase := value % 2 ^ 64 }
  | 0x018 => if run then s else set { f.basic with arenaSize := value % 2 ^ 64 }
  | 0x020 => if run then s else set { f.basic with qsrBase := value % 2 ^ 64 }
  | 0x028 => set { f.basic with qsrSize := value % 65536 }
  | 0x02C => s.qsrTail fn value
  | 0x040 => if run then s else set { f.basic with qcrBase := value % 2 ^ 64 }
  | 0x048 => set { f.basic with qcrSize := value % 65536 }
  | 0x04C => s.qcrHead fn value
  | 0x060 => if run then s else set { f.basic with igrBase := value % 2 ^ 64 }
  | 0x068 => set { f.basic with igrSize := value % 65536 }
  | 0x06C => s.igrTail fn value
  | 0x080 => set { f.basic with irqStatus := f.basic.irqStatus &&& (7 ^^^ (value % 8)) }
  | _ => s

/-- Does the boot ROM offer recovery, with the recovery page in place of the PF's page 0 (R462, R463)? -/
def State.recoveryOffered (s : State) : Bool := match s.mgmt.boot with
  | .recovery _ => true
  | _ => false

/-- A write to page 0 of a function's BAR (R382, R463). -/
def State.writePage0 (s : State) (fn off value : Nat) : State :=
  let f := s.fnState fn
  if fn ≥ 64 || (fn = 0 && s.recoveryOffered) then s
  else if (if f.enabled then f.expert else s.levelExpert fn) then s.writeControlPage fn off value
  else s.writeBasicPage fn off value

/-- A write to the recovery page (R463). -/
def State.writeRecovery (s : State) (off value : Nat) : State :=
  if !s.recoveryOffered then s
  else match off with
    | 0x008 => { s with mgmt := { s.mgmt with recAddr := value % 2 ^ 64 } }
    | 0x010 => { s with mgmt := { s.mgmt with recLen := value % 2 ^ 32 } }
    | _ => s

/-! ## Other registers -/

/-- Memory Space Enable and Bus Master Enable; clearing the latter acts as a Function Level Reset on the function's work (R380). -/
def State.writePciCommand (s : State) (fn value : Nat) : State :=
  if fn ≥ 64 then s
  else
    let s := if (s.fnState fn).bme && !bit value 1 then s.clearMaster fn else s
    s.updFn fn fun f => { f with mse := bit value 0, bme := bit value 1 }

/-- A word of an MSI-X table entry: address, data, mask; a message that is pending is sent when its vector is unmasked (R403). -/
def State.writeMsix (s : State) (fn vec word value : Nat) : State :=
  let f := s.fnState fn
  let v := f.vecs.getD vec {}
  if fn ≥ 64 || vec ≥ s.vectorCount fn then s
  else match word with
    | 0 => s.setFn fn { f with vecs := f.vecs.set vec { v with addr := value % 2 ^ 64 } }
    | 1 => s.setFn fn { f with vecs := f.vecs.set vec { v with data := value % 2 ^ 32 } }
    | 2 => if bit value 0 then s.setFn fn { f with vecs := f.vecs.set vec { v with masked := true } } else s.msixUnmask fn vec
    | _ => s

/-- A strand's staging control block, the spare strand's being that of strand 8: STG_STATUS and the refusal and conflict counters
(R270). -/
def State.writeStaging (s : State) (part strand off value : Nat) : State :=
  let index := s.stagingIndex part strand
  if part ≥ 4 || strand ≥ 9 then s
  else if off = 0x080 then (if bit value 0 then s.clearSat (objKey index 0xA) else s)
  else if 0x100 ≤ off && off ≤ 0x120 && off % 4 = 0 && value = 1 then s.clearCounter (objKey index ((off - 0x100) / 4 + 1)) 0
  else s

/-- MBX_STATUS: OVERRUN and FORMAT are cleared by writing 1 (R447). -/
def State.writeMailbox (s : State) (off value : Nat) : State :=
  if off = 0x20C then
    { s with mbx := { s.mbx with overrun := s.mbx.overrun &&& (15 ^^^ bits value 3 0), format := s.mbx.format &&& (15 ^^^ bits value 7 4) } }
  else s

/-- Bits of a port register that a write carries (R340). -/
def portRegMask (off value : Nat) : Nat :=
  if 0x300 ≤ off && off < 0x328 then value % (if off % 8 = 0 then 2 ^ 17 else 2 ^ 21) else value % 2 ^ 32

/-- REGISTER_WRITE. -/
def execRegisterWrite (reg : RegAddr) (value : Nat) (s : State) : Host.Outcome State Fault Refusal :=
  .next (match reg with
    | .page0 fn off => s.writePage0 fn off value
    | .pciCommand fn => s.writePciCommand fn value
    | .msixEntry fn vec word => s.writeMsix fn vec word value
    | .meterStatus fn => if fn < 64 && bit value 1 then s.updFn fn fun f => { f with snap := { f.snap with overlap := false } } else s
    | .port port off =>
      let v := portRegMask off value
      if port < 32 && s.portRegStatus port off v = 0 then s.writePortReg port off v else s
    | .staging part strand off => s.writeStaging part strand off value
    | .mailbox off => s.writeMailbox off value
    | .recovery off => s.writeRecovery off value)

/-! ## Metering snapshots -/

/-- A snapshot is requested; while one is awaited the request sets OVERLAP (R200, R201). -/
def requestSnap (b : SnapBlock) (now : Nat) : SnapBlock :=
  if b.busy then { b with overlap := true } else { b with busy := true, requestedAt := now }

/-- The 24 counters of a tenant (R199). -/
def State.meterList (s : State) (tenant : Nat) : List Nat := (List.range 24).map fun n => (s.tenant tenant).meters.getD n 0

/-- The capture: everything is replaced together and BUSY clears (R201). -/
def State.captureSnap (s : State) (b : SnapBlock) (tenant : Nat) : SnapBlock :=
  if !b.busy then b
  else { b with busy := false, seq := (b.seq + 1) % 2 ^ 32, time := s.time, epoch := s.epochs.closed, meters := s.meterList tenant }

/-- SNAP_REQ: METER_CTL of a function. -/
def execSnapReq (fn : Nat) (s : State) : Host.Outcome State Fault Refusal :=
  .next (if fn < 64 then s.updFn fn fun f => { f with snap := requestSnap f.snap s.time } else s)

/-- METER_CAPTURE: of a function's block, or of `0x2033` (R201, R202). -/
def execMeterCapture (fn : Option Nat) (t : Nat) (s : State) : Host.Outcome State Fault Refusal :=
  .next (let s := s.advance t
    match fn with
    | some n => if n < 64 then s.updFn n fun f => { f with snap := s.captureSnap f.snap f.tenant } else s
    | none => { s with dict := { s.dict with tenantSnap := s.captureSnap s.dict.tenantSnap s.dict.snapTenant } })

end Sys2Proof.Machine
end

