-- ==== Sys2Proof/Machine/ObjectReads.lean ====
section
/-! DEFINITION. What every object of the dictionary reads as (R413, R424, R437 and the chapters that define the objects). -/
namespace Sys2Proof.Machine

/-! ## Tenants, budgets, the log window -/

/-- The tenant whose record an accessor reaches through `0x2031` and `0x2033` (R203, R416). -/
def State.tenantFor (s : State) (who : Accessor) : Nat := match who with
  | .fn n => (s.fnState n).tenant
  | _ => s.selectedTenant

/-- What is left of a budget: 0 when its counter has failed its check (R427, R429). -/
def State.budgetLeft (s : State) (place : Nat) : Nat :=
  let key := budgetKeys.getD place 0
  if s.dict.spent.contains key then 0 else ([4, 16, 64, 8] : List Nat).getD place 0 - s.dict.used.getD key 0

/-- The records held in the logs, oldest first, a record in several of them once or more (R451, R453). -/
def State.logRecords (s : State) : List LogRec := s.log.boot ++ s.log.flash ++ s.log.ring

/-- LOG_BASE of an accessor (R453). -/
def State.logBaseOf (s : State) (who : Accessor) : Nat := match who with
  | .mgmt => s.dict.logBases.getD 0 0
  | .operator => s.dict.logBases.getD 1 0
  | .reader => s.dict.logBases.getD 2 0
  | .fn n => (s.fnState n).logBase

/-- LOG_WINDOW: 1,024 records from LOG_BASE; one that is not held reads as zeros (R453). -/
def State.logWindow (s : State) (base : Nat) : List Byte :=
  let rs := s.logRecords
  (List.range 1024).flatMap fun i => match rs.find? fun r => r.seq = base + i with
    | some r => logBytes r
    | none => List.replicate 64 0

/-- The version of the firmware that runs (R437, R464). -/
def State.runningVersion (s : State) : Nat := match s.mgmt.boot with
  | .healthy n => (s.slot n).version
  | .running n _ => (s.slot n).version
  | _ => 0

/-! ## Health and capacity (R512 to R514) -/

/-- Units whose score is above 0 or that are retired, highest score first (R514). -/
def State.healthUnits (s : State) : List (Nat × Health) :=
  (sortBy (fun a b => decide (a.2.score > b.2.score)) (s.repair.health.filter fun kv => kv.2.score > 0 || kv.2.retired)).take 4096

/-- HEALTH_TABLE (R514). -/
def State.healthTable (s : State) : List Byte :=
  slice (s.healthUnits.flatMap fun u => leBytes 4 u.1 ++ leBytes 2 (min 65535 u.2.score) ++ leBytes 1 (levelOf u.2.score) ++
    leBytes 1 ((if u.2.tempBound then 1 else 0) + (if u.2.patternBound then 2 else 0) + (if u.2.retired then 4 else 0))) 0 32768

/-- Tiles of a class in the strands in service, but for those retired (R512). -/
def State.tilesUp (s : State) (cls n : Nat) : Nat :=
  ((upTo 32 fun g => s.strandUp g).map fun g => (upTo n fun i => !s.repair.tilesOut.contains (unitTile g cls i)).length).sum

/-- CAPACITY (R512, R513). -/
def State.capacity (s : State) (sub : Nat) : Nat := match sub with
  | 1 => (upTo 32 fun g => s.strandUp g).length
  | 2 => ((upTo 4 fun p => !s.repair.partsOut.contains p).map fun p => 16 - (s.pool p).out.length).sum
  | 3 => s.tilesUp 3 4
  | 4 => s.tilesUp 5 2
  | _ => ((upTo 4 fun p => !s.repair.spareStrand.contains p).map fun p => 2 ^ p).sum +
      ((upTo 4 fun p => !s.repair.spareTensor.contains p).map fun p => 2 ^ (4 + p)).sum

/-! ## Values by index -/

/-- An object whose value is what its counter or its stored setting is. -/
def State.plainValue (s : State) (index sub : Nat) (d : ObjRow) : Nat :=
  if (counterShape index).isSome || d.access == .summary then s.counter (objKey index sub) else s.setting index sub d.dflt

/-- `0x2031` of a tenant (R203). -/
def State.tenantValue (s : State) (t sub : Nat) : Nat :=
  let x := s.tenant t
  match sub with
  | 1 => t
  | 2 => x.deadlineUs
  | 3 => x.inflightCap
  | 4 => x.gigQuota
  | 5 => s.counter (lateKey t)
  | _ => s.counter (lateKey t + 1)

/-- `0x2800` (R275). -/
def State.tierValue (s : State) (sub : Nat) (d : ObjRow) : Nat := match sub with
  | 5 => s.tierRoom 0 false / 2 ^ 20
  | 6 => s.tierRoom 1 false / 2 ^ 20
  | 7 => (4096 * (s.unitsMappable - s.flash.map.length) - s.tierUsed 2) / 2 ^ 30
  | 8 => (s.tiers.moves.filter fun m => !m.running).length
  | _ => s.plainValue 0x2800 sub d

/-- Live dies of a row (R311). -/
def State.rowWidth (s : State) (r : Nat) : Nat := (maskChannels (s.liveMask r)).length

/-- `0x2900` (R308). -/
def State.flashValue (s : State) (sub : Nat) (d : ObjRow) : Nat := match sub with
  | 8 => s.flash.throttle
  | 9 => s.flash.map.length
  | 0xA => ((List.range 16).map fun r => s.rowMappable r).sum
  | 0xB => ((List.range 16).map fun r => s.rowWidth r).foldl min 32
  | 0xC => if s.flash.readOnly then 1 else 0
  | _ => s.plainValue 0x2900 sub d

/-- `0x2940` + row (R311). -/
def State.dieRowValue (s : State) (r sub : Nat) : Nat :=
  let erases := (s.row r).sbs.map fun kv => kv.2.erases
  match sub with
  | 1 => s.freeSbs r
  | 2 => s.rowWidth r
  | 3 => s.rowMapped r
  | 4 => s.rowMappable r
  | 5 => if erases.length < 8032 then 0 else erases.foldl min (erases.headD 0)
  | _ => erases.foldl max 0

/-- `0x2D00`, `0x2D02`, `0x2D03` (R513). -/
def State.repairValue (s : State) (index sub : Nat) (d : ObjRow) : Nat :=
  let r := s.repair
  if index = 0x2D00 then match sub with
    | 4 => r.phase
    | 5 => (s.time - r.startAt) / cyclesPerMs % 2 ^ 32
    | 6 => if r.ready then 1 else 0
    | 7 => ((upTo 32 fun p => s.portFails p).map fun p => 2 ^ p).sum
    | _ => s.plainValue index sub d
  else if index = 0x2D02 then match sub with
    | 5 => r.shadow.state
    | 6 => r.shadow.role
    | 7 => r.shadow.peer
    | 8 => r.shadow.agreed
    | 9 => r.shadow.disagreed
    | _ => s.plainValue index sub d
  else match sub with
    | 2 => r.level
    | 3 => s.healthUnits.length
    | _ => s.plainValue index sub d

/-- `0x2E00` to `0x2E0B` (R429, R432, R437, R453, R469). -/
def State.mgmtValue (s : State) (who : Accessor) (index sub : Nat) (d : ObjRow) : Nat :=
  if index = 0x2E00 then s.mgmt.moduleId
  else if index = 0x2E01 then (if s.mgmt.sealed_ then 1 else 0)
  else if index = 0x2E04 then s.budgetLeft (sub - 1)
  else if index = 0x2E05 && sub = 3 then
    s.mgmt.preferred + (if s.mgmt.trial then 2 else 0) + (if s.mgmt.slotA.valid then 4 else 0) + (if s.mgmt.slotB.valid then 8 else 0)
  else if index = 0x2E07 && sub = 1 then s.pins.slotRead
  else if index = 0x2E07 && sub = 4 then (if s.dict.linkUp then 1 else 0)
  else if index = 0x2E0B && sub = 1 then s.log.nextSeq - 1
  else if index = 0x2E0B && sub = 2 then (s.logRecords.map (·.seq)).foldl min (s.log.nextSeq - 1)
  else if index = 0x2E0B && sub = 3 then s.logBaseOf who
  else s.plainValue index sub d

/-- The value of a scalar object as an accessor reads it (R413, R422). -/
def State.objValue (s : State) (who : Accessor) (index sub : Nat) (d : ObjRow) : Nat :=
  if sub = 0 then (highestSub index).getD 0
  else if index = 0x1000 then 0x96
  else if index = 0x100A then s.runningVersion
  else if index = 0x2030 && sub = 1 then s.selectedTenant
  else if index = 0x2030 && sub = 3 then s.tenants.length
  else if index = 0x2031 then s.tenantValue (s.tenantFor who) sub
  else if index = 0x2033 then
    (if sub = 2 then s.dict.tenantSnap.seq else if sub = 3 then s.dict.tenantSnap.epoch else s.dict.tenantSnap.meters.getD (sub - 0x10) 0)
  else if index = 0x2100 && sub = 5 then s.images.length
  else if index = 0x2702 && sub = 2 then s.receipts.nextLeaf
  else if index = 0x2800 then s.tierValue sub d
  else if 0x2820 ≤ index && index ≤ 0x283F && sub = 0xA then
    let h := s.staging.hb.getD ((index - 0x2820) / 8) {}
    s.counter (objKey index sub) + (if h.active && h.word / 65536 = s.physOf (index - 0x2820) then 2 else 0)
  else if 0x2840 ≤ index && index ≤ 0x2843 && sub = 6 then (s.staging.hb.getD (index - 0x2840) {}).position
  else if index = 0x2900 then s.flashValue sub d
  else if 0x2920 ≤ index && index ≤ 0x293F && sub = 5 then s.flash.levelLast.getD (index - 0x2920) 0
  else if 0x2920 ≤ index && index ≤ 0x293F && sub = 6 then
    let c := s.flash.chans.getD (index - 0x2920) {}
    c.writeBufs + c.sharedBufs
  else if 0x2940 ≤ index && index ≤ 0x294F then s.dieRowValue (index - 0x2940) sub
  else if 0x2A00 ≤ index && index ≤ 0x2A1F then (s.port (index - 0x2A00)).reg (portOffset sub)
  else if 0x2A60 ≤ index && index ≤ 0x2A7F then (s.port (index - 0x2A60)).histSeq
  else if index = 0x2B00 && sub = 0xA then match s.mapAt s.epochs.open_ with
    | some m => m.epoch
    | none => 0
  else if index = 0x2B00 && sub = 0xB then s.exchange.spread
  else if index = 0x2C00 && sub = 5 then s.power.step
  else if index = 0x2C01 then (if s.powered .base (sub - 1) then s.clockOf (sub - 1) else 0)
  else if index = 0x2C30 && sub = 2 then s.power.histSeq
  else if index = 0x2CF0 || index = 0x2CF1 then (s.sensors.getD (objKey index sub) 0).toNat
  else if index = 0x2D00 || index = 0x2D02 || index = 0x2D03 then s.repairValue index sub d
  else if index = 0x2D05 then s.capacity sub
  else if index = 0x2E00 || index = 0x2E01 || index = 0x2E04 || index = 0x2E05 || index = 0x2E07 || index = 0x2E0B then
    s.mgmtValue who index sub d
  else s.plainValue index sub d

/-- IDENTITY_CERT: the enrolment certificate as written at manufacture; its key's ID and signature are free values (R456). -/
def State.identityCert (s : State) : List Byte :=
  ascii "ZRCERT01" ++ s.serial ++ slice (edPublic identitySecret) 0 57 ++ slice Config.manufacturer.1 0 16 ++ List.replicate 301 0 ++
    slice Config.manufacturer.2 0 114

/-- The bytes of a Domain as an accessor reads it. -/
def State.objDomain (s : State) (who : Accessor) (index sub len : Nat) : List Byte :=
  let words (ws : List Nat) : List Byte := ws.flatMap fun w => leBytes 4 w
  let stored := s.dict.domains.getD (objKey index sub) []
  let content := if index = 0x1008 then ascii "ZR-96"
    else if index = 0x1009 then ascii (if s.pins.stepping = 0 then "A0" else if s.pins.stepping = 1 then "B0" else "B1")
    else if index = 0x1018 && sub = 1 then ascii "SZ-ZR96-A"
    else if 0x2A00 ≤ index && index ≤ 0x2A1F then
      let p := s.port (index - 0x2A00)
      words ((List.range 64).map fun e => gateWord p (sub - 5) e)
    else if 0x2A60 ≤ index && index ≤ 0x2A7F then words (s.port (index - 0x2A60)).histSnap
    else if index = 0x2B20 then words ((List.range 4096).map fun m => s.fabric.routes.getD m 0)
    else if index = 0x2C30 then words s.power.histSnap
    else if index = 0x2D03 then s.healthTable
    else if index = 0x2E00 && sub = 3 then s.identityCert
    else if index = 0x2E00 then edPublic identitySecret
    else if index = 0x2E0A && sub = 3 then digest64 s.descCommon
    else if index = 0x2E0B then s.logWindow (s.logBaseOf who)
    else stored
  slice content 0 len

end Sys2Proof.Machine
end

