-- ==== Sys2Proof/Machine/Power.lean ====
section
/-! DEFINITION. The commands of power, clocks and shedding (16): R473 to R486. -/
namespace Sys2Proof.Machine

/-! ## The sequencer's measurements (R474, R478) -/

/-- A condition that holds keeps the cycle since which it has held. -/
def since (held : Bool) (old : Option Nat) (now : Nat) : Option Nat := if held then some (old.getD now) else none

/-- POWER_SAMPLE: input voltage in mV and current in mA (R471, R474, R478). -/
def execPowerSample (t millivolts milliamps : Nat) (s : State) : Host.Outcome State Fault Refusal :=
  .next (let s := s.advance t
    let volts := (millivolts :: s.power.volts).take 120
    let filtered := (filteredMv volts :: s.power.filtered).take 100
    let load := millivolts * milliamps
    let top := s.ceilingUw millivolts
    ({ s with power := { s.power with
      volts, filtered, amps := milliamps
      above := decide (load > top)
      belowSince := since (decide (load * 100 < top * 95)) s.power.belowSince s.time
      aboveSince := since (decide (filteredMv volts > shedLeave s.power.voltStep)) s.power.aboveSince s.time
      overCurrentAt := since (decide (milliamps > 52000)) s.power.overCurrentAt s.time
      startSince := since (decide (millivolts ≥ 42000) && (!s.power.switchOpen || decide (millivolts ≤ 60000))) s.power.startSince s.time } } : State).settleStat)

/-- F_STEP: one step down while the load is above the ceiling, every 10 µs, or the partition is at its throttle point, every 100 µs;
or the request for one step up, every 100 µs (R474, R476, R482). -/
def execFStep (part t : Nat) (s : State) : Host.Outcome State Fault Refusal :=
  .next (let s := s.advance t
    let f := s.clockOf part
    let since10 := match s.power.lastDown.get part with
      | some c => decide (s.time ≥ c + 10 * cyclesPerUs)
      | none => true
    let since100 := match s.power.lastDown.get part with
      | some c => decide (s.time ≥ c + 100 * cyclesPerUs)
      | none => true
    let upDue := match s.power.lastUp.get part with
      | some c => decide (s.time ≥ c + 100 * cyclesPerUs)
      | none => true
    let hot := s.power.throttled.contains (part + 1)
    let cool := s.power.thermal.getD part 0 > 0
    let light := match s.power.belowSince with
      | some c => decide (s.time ≥ c + 100 * cyclesPerUs)
      | none => false
    if part ≥ 4 then s
    else if s.power.above && since10 && f > 1000 then
      let s := { s with power := { s.power with lastDown := s.power.lastDown.set part s.time } }
      (s.setClock part (f - 100)).tally 0x2C20 4
    else if hot && since100 && f > 1000 then
      let s := { s with power := { s.power with
        lastDown := s.power.lastDown.set part s.time, thermal := s.power.thermal.put part 0 (s.power.thermal.getD part 0 + 1) } }
      s.setClock part (f - 100)
    else if !hot && !s.power.above && (light || cool) && upDue && f + 100 ≤ s.setting 0x2C00 4 2100 then
      ({ s with power := { s.power with lastUp := s.power.lastUp.set part s.time } } : State).raiseWake ⟨.upStep, part⟩ 3
    else s)

/-- LIMITER_TRIPS: input above 52 A for 20 µs forces step 3 for 100 ms (R474). -/
def execLimiterTrips (t : Nat) (s : State) : Host.Outcome State Fault Refusal :=
  .next (let s := s.advance t
    match s.power.overCurrentAt with
    | some c =>
      if s.time < c + 20 * cyclesPerUs then s
      else
        let s := { s with power := { s.power with limiterOn := true, limiterUntil := s.time + 100 * cyclesPerMs, overCurrentAt := none } }
        ((s.tally 0x2C20 5).logEvent 0x2C20 5 2 unitModule []).settleShed
    | none => s)

/-- F_MAX is written (R484). -/
def State.writeFMax (s : State) (value : Nat) : State :=
  ({ s with dict := { s.dict with settings := s.dict.settings.put (objKey 0x2C00 4) 2100 value } } : State).applyFMax

/-- SHED_FORCE is written (R478). -/
def State.writeShedForce (s : State) (value : Nat) : State :=
  ({ s with dict := { s.dict with settings := s.dict.settings.put (objKey 0x2C00 6) 0 value } } : State).settleShed

/-! ## Domains (R475 to R477, R486) -/

/-- Has a domain been idle for the delay of its idle period? -/
def State.idleLong (s : State) (key : Nat) : Bool := match s.power.idleAt.get key with
  | some (c, us) => !s.domBusy key && decide (s.time ≥ c + us * cyclesPerUs)
  | none => false

/-- Ask to gate a powered domain off (R476, class 5). -/
def State.gateOff (s : State) (d : DomainId) : State :=
  if s.domain d != .powered || !s.idleLong (domainKey d) || (s.power.requests.any fun r => r.dom == d) then s
  else { s with power := { s.power with
    requests := s.power.requests ++ [({ dom := d, cls := 5, off := true, at_ := s.time } : TokenReq)] } }

/-- IDLE_GATE (R475). -/
def execIdleGate (dom : DomainId) (t : Nat) (s : State) : Host.Outcome State Fault Refusal :=
  .next (let s := s.advance t
    if dom.kind == .base || dom.kind == .upStep then s else s.gateOff dom)

/-- PLL_OFF: a partition base whose strands and tensor tiles have all been gated for PLL_OFF_DELAY (R475). -/
def execPllOff (part t : Nat) (s : State) : Host.Outcome State Fault Refusal :=
  .next ((s.advance t).gateOff ⟨.base, part⟩)

/-- Current step of a domain kind, A (R475). -/
def stepAmps : DomainKind → Nat
  | .base => 48
  | .strand => 18
  | .tensor => 6
  | .port => 4
  | .onfi => 2
  | .upStep => 10

/-- Order of grants: class, cycle raised, kind, number (R476). -/
def tokenBefore (a b : TokenReq) : Bool :=
  if a.cls ≠ b.cls then a.cls < b.cls
  else if a.at_ ≠ b.at_ then a.at_ < b.at_
  else if domainKindNo a.dom.kind ≠ domainKindNo b.dom.kind then domainKindNo a.dom.kind < domainKindNo b.dom.kind
  else a.dom.num < b.dom.num

/-- The requests that fit into a slot, up to the first that does not, and those left over (R476). -/
def fitTokens (room : Nat) : List TokenReq → List TokenReq × List TokenReq
  | [] => ([], [])
  | r :: rs =>
    if stepAmps r.dom.kind > room then ([], r :: rs)
    else
      let x := fitTokens (room - stepAmps r.dom.kind) rs
      (r :: x.1, x.2)

/-- Lock time of a partition's PLL after it starts: 8 µs (R473). -/
abbrev pllLock : Nat := 12800

/-- Cycles of a slot: 100 always-on cycles, 2 µs (R476). -/
abbrev slotCycles : Nat := 3200

/-- One token is granted: a wake ramps over the slot, a gate-off gates (R475, R476). -/
def State.grantToken (s : State) (r : TokenReq) : State :=
  let key := domainKey r.dom
  let s := s.tally 0x2C20 2
  let part := r.dom.num
  if r.off then
    { s with power := { s.power with
      doms := s.power.doms.erase key, idleAt := s.power.idleAt.erase key
      pllAt := if r.dom.kind == .base then s.power.pllAt.erase part else s.power.pllAt } }
  else
    { s with power := { s.power with
      doms := s.power.doms.set key .waking, granted := s.power.granted ++ [{ r with slot := s.time }]
      pllAt := if r.dom.kind == .base then s.power.pllAt.set part (s.time + slotCycles + pllLock) else s.power.pllAt } }

/-- WAKE_SLOT: at a slot's start the waiting requests are granted in order up to 400 A (R474, R476). -/
def execWakeSlot (t : Nat) (s : State) : Host.Outcome State Fault Refusal :=
  .next (let s := s.advance t
    if s.time % slotCycles ≠ 0 || (s.time ≤ s.power.lastSlot && s.time ≠ 0) then s
    else
      let ready (r : TokenReq) : Bool := decide (r.at_ < s.time) && !(r.cls = 4 && s.power.above)
      let wait := s.power.requests.filter fun r => !ready r
      let x := fitTokens 400 (sortBy tokenBefore (s.power.requests.filter ready))
      let wakes (r : TokenReq) : Bool := !r.off && r.dom.kind != .upStep
      let fresh := (x.2.filter fun r => wakes r && !r.deferred).length
      let defer (r : TokenReq) : TokenReq := { r with deferred := r.deferred || wakes r }
      let s := { s with power := { s.power with requests := x.2.map defer ++ wait, lastSlot := s.time } }
      x.1.foldl (fun s r => s.grantToken r) (s.count (objKey 0x2C20 3) fresh))

/-- Strands and tensor tiles of a partition with work raise their requests once their base is powered (R476). -/
def State.wakeChildren (s : State) (p : Nat) : State :=
  let s := (List.range 8).foldl (fun s i => if s.strandWork (8 * p + i) then s.wake .strand (8 * p + i) 2 else s) s
  (s.pool p).running.foldl (fun s i => i.held.foldl (fun s t => s.wake .tensor (16 * p + t) (if i.req.kind == .maint then 4 else 2)) s) s

/-- The rails of phase 2 are up once every partition's base is powered, but for those retired: interface training starts (R487). -/
def State.settleRails (s : State) : State :=
  if s.repair.phase = 2 && (List.range 4).all fun p => s.repair.partsOut.contains p || s.powered .base p then
    { s with repair := { s.repair with phase := 3 } }
  else s

/-- DOMAIN_READY: a granted domain is powered at its slot's end, and a strand or tensor tile once its partition's PLL has locked; the
wake's latency in ns is binned (R473, R476, R477). An arithmetic-clock up-step raises F (R474). -/
def execDomainReady (dom : DomainId) (t : Nat) (s : State) : Host.Outcome State Fault Refusal :=
  .next (let s := s.advance t
    let part := match dom.kind with
      | .strand => dom.num / 8
      | _ => dom.num / 16
    let lock := if dom.kind == .strand || dom.kind == .tensor then s.power.pllAt.getD part 0 else 0
    match s.power.granted.find? fun r => r.dom == dom with
    | some r =>
      if s.time < r.slot + slotCycles || s.time < lock then s
      else
        let key := domainKey dom
        let s := { s with power := { s.power with granted := s.power.granted.filter fun x => x.dom != dom } }
        if dom.kind == .upStep then
          let s := { s with power := { s.power with
            doms := s.power.doms.erase key, thermal := s.power.thermal.put dom.num 0 (s.power.thermal.getD dom.num 0 - 1) } }
          s.setClock dom.num (min (s.setting 0x2C00 4 2100) (s.clockOf dom.num + 100))
        else
          let s := { s with power := { s.power with
            doms := s.power.doms.set key .powered, idleAt := s.power.idleAt.set key (s.time, s.idleDelay key) } }
          let s := s.count (wakeBinKey (binOf ((s.time - r.at_) * 5 / 8))) 1
          if dom.kind == .base then (s.wakeChildren dom.num).settleRails
          else if s.domainShed dom then s.gateShed dom else s
    | none => s)

/-- The wake-latency bins are copied (R477). -/
def State.snapWake (s : State) : State :=
  { s with power := { s.power with
    histSnap := (List.range 64).map fun b => s.counter (wakeBinKey b), histSeq := (s.power.histSeq + 1) % 2 ^ 32 } }

/-- Every live wake-latency bin is cleared (R486). -/
def State.clearWake (s : State) : State :=
  { s with counters := s.counters.filter fun kv => !(decide (wakeBinKey 0 ≤ kv.1) && decide (kv.1 < wakeBinKey 64)) }

/-- WAKE_HIST_SNAP (R477). -/
def execWakeHistSnap (s : State) : Host.Outcome State Fault Refusal := .next s.snapWake

/-- WAKE_HIST_CLR (R486). -/
def execWakeHistClr (s : State) : Host.Outcome State Fault Refusal := .next s.clearWake

/-! ## Shedding (R478 to R480) -/

/-- The step that a filtered voltage has fallen to. -/
def voltEnter (mv : Nat) : Nat := (([6, 5, 4, 3, 2, 1] : List Nat).find? fun n => mv < shedEnter n).getD 0

/-- SHED_STEP: the thresholds of R478 on the filtered voltage; a step is left after 100 ms above its threshold, and the limiter's step
after 100 ms (R474). -/
def execShedStep (t : Nat) (s : State) : Host.Outcome State Fault Refusal :=
  .next (let s := s.advance t
    match s.filtered with
    | some mv =>
      let old := s.power.voltStep
      let highest := s.power.filtered.foldl max 0
      let target := if mv + 6000 ≤ highest then 6 else voltEnter mv
      let left := match s.power.aboveSince with
        | some c => old > 0 && old < 6 && target < old && decide (s.time ≥ c + 100 * cyclesPerMs)
        | none => false
      let new := if left then old - 1 else max old target
      let s := { s with power := { s.power with
        voltStep := new
        aboveSince := if new = old then s.power.aboveSince else if mv > shedLeave new then some s.time else none
        limiterOn := s.power.limiterOn && decide (s.time < s.power.limiterUntil) } }
      s.settleShed
    | none => s)

/-- The parity page of every wain that is still open takes its place, so that a short wain has one (R287, R298). -/
def State.closeWains (s : State) : State :=
  let open_ := s.flash.rows.flatMap fun kr => kr.2.open_.map fun so => (kr.1, so.2)
  open_.foldl (fun s x =>
    let b := s.sb x.1 x.2
    if b.slot = 0 then s else s.addParity x.1 x.2 b.page) s

/-- HOLDUP_FLUSHES: the flush has programmed every page that holds units, every pending journal page and the parity of every open wain; the
LIFECYCLE record is written and VBUS goes off (R298, R480). It is counted at the next start (R485). -/
def execHoldupFlushes (t : Nat) (s : State) : Host.Outcome State Fault Refusal :=
  .next (let s := s.advance t
    if !s.power.flushing || s.power.busOff then s
    else
      let s := s.closeWains
      let done := s.flash.pages.filter fun kp => kp.2.state < 2 && !kp.2.units.isEmpty
      let s := done.foldl (fun s kp => if kp.2.state = 0 then s.issueProgram kp.1 else s) s
      let pages := s.flash.pages.mapVals fun p => if p.state < 2 then { p with state := 2, buffered := false } else p
      let rows := s.flash.rows.mapVals fun r => { r with sbs := r.sbs.mapVals fun b => { b with erasing := false } }
      let s := { s with flash := { s.flash with
        pages, rows, jDurable := s.flash.jDurable ++ s.flash.jPending, jPending := [], chans := [] } }
      let s := s.logEvent 0x2C20 7 4 unitModule []
      { s with
        power := { s.power with busOff := true, doms := [] }
        mgmt := { s.mgmt with boot := .off, serverUp := false, update := none, committed := false } })

/-! ## Temperatures (R482, R483) -/

/-- Throttle point, release point and trip of a temperature sensor of `0x2CF0`, °C; trip 0 for none. A partition's throttle point is its
PART_TEMP_CAP (R482). -/
def State.thermalPoints (s : State) (sub : Nat) : Option (Nat × Nat × Nat) :=
  if 1 ≤ sub ∧ sub ≤ 4 then
    let cap := s.setting 0x2C02 sub 95
    some (cap, cap - 3, 105)
  else if sub = 5 ∨ sub = 6 then some (95, 92, 105)
  else if 7 ≤ sub ∧ sub ≤ 0x28 then some (85, 82, 95)
  else if 0x29 ≤ sub ∧ sub ≤ 0x48 then some (70, 67, 85)
  else if sub = 0x49 then some (45, 42, 0)
  else none

/-- THERMAL_THROTTLES: a sensor is at its throttle point; its action follows from the list of throttled sensors (R482, R497). -/
def execThermalThrottles (sub : Nat) (s : State) : Host.Outcome State Fault Refusal :=
  .next (match s.thermalPoints sub with
    | some (point, _, _) =>
      if s.power.throttled.contains sub || !tempGe (s.sensors.getD (objKey 0x2CF0 sub) 0) point then s
      else
        let s := { s with power := { s.power with throttled := s.power.throttled ++ [sub] } }
        let s := if sub = 5 ∨ sub = 6 then s.shedUpkeep else s
        let s := (s.tally 0x2C20 8).logEvent 0x2C20 8 2 (sensorUnit sub) (leBytes 8 sub)
        let u := sensorUnit sub
        (if u = unitModule then s else s.score u 10).settle
    | none => s)

/-- THERMAL_RELEASE (R482). -/
def execThermalRelease (sub : Nat) (s : State) : Host.Outcome State Fault Refusal :=
  .next (match s.thermalPoints sub with
    | some (_, release, _) =>
      if !tempBelow (s.sensors.getD (objKey 0x2CF0 sub) 0) release then s
      else { s with power := { s.power with throttled := s.power.throttled.filter (· ≠ sub) } }
    | none => s)

/-- THERMAL_TRIPS: the sequencer's own comparators find a sensor at its trip point: its partition is reset at once, or step 6 is entered
(R482, R495). -/
def execThermalTrips (sub : Nat) (s : State) : Host.Outcome State Fault Refusal :=
  .next (match s.thermalPoints sub with
    | some (_, _, trip) =>
      if trip = 0 || s.power.tripped.contains sub then s
      else
        let s := { s with power := { s.power with tripped := s.power.tripped ++ [sub] } }
        let s := (s.tally 0x2C20 9).logEvent 0x2C20 9 2 (sensorUnit sub) (leBytes 8 sub)
        let u := sensorUnit sub
        let s := (if u = unitModule then s else s.score u 300).settle
        if sub ≤ 4 then s.tripPartition (sub - 1) else s.forceFlush
    | none => s)

/-- CAP_NOT_HELD: a partition at 1.0 GHz has exceeded its cap for 1 s; the tiles whose restriction set the cap retire (R483, R506). -/
def execCapNotHeld (part t : Nat) (s : State) : Host.Outcome State Fault Refusal :=
  .next (let s := s.advance t
    match s.power.capSince.get part with
    | some c =>
      if part ≥ 4 || s.power.capCounted.contains part || s.time < c + cyclesPerS then s
      else
        let s := { s with power := { s.power with capCounted := s.power.capCounted ++ [part] } }
        let s := (s.tally 0x2C20 0xA).logEvent 0x2C20 0xA 2 (unitPart part) (leBytes 8 (s.setting 0x2C02 (part + 1) 95))
        ((s.repair.savedCap.filter fun c => c.1 = part).foldl (fun s c => s.retireUnit c.2.1) s).settleLevel
    | none => s)

end Sys2Proof.Machine
end

