-- ==== Sys2Proof/Machine/ObjectOps.lean ====
section
/-! DEFINITION. Writes to objects: the checks in the order of R537, change budgets (R426, R427), the settings store (R423, R460), and what
each write does. -/
namespace Sys2Proof.Machine

/-! ## The settings store -/

/-- Is a write of an object recorded in the settings store (R423)? Objects that act on write are not. -/
def persists (index sub : Nat) (a : ObjAccess) : Bool :=
  (a == .rw || a == .wo || a == .rwl) && 0x2000 ≤ index && index ≤ 0x2EFF && !(index = 0x2030 && sub = 4) && index ≠ 0x2033 &&
    !(index = 0x2800 && sub = 9) && !(0x2A00 ≤ index && index ≤ 0x2A1F && sub = 3) && !(0x2A60 ≤ index && index ≤ 0x2A7F) &&
    index ≠ 0x2C30 && !(index = 0x2D01 && sub = 1) && !(index = 0x2E05 && sub ≤ 2) && index ≠ 0x2E06 && !(index = 0x2E0B && sub = 3)

/-! ## Tenants (R182, R183, R185) -/

/-- The administration commands in flight: those that wait for an epoch, an installation, a placement or an object request. -/
def State.commandsOpen (s : State) : List AdminRef :=
  (s.catalog.pending ++ s.catalog.forwarded).filterMap (·.cmd) ++ s.catalog.asked.map (·.1) ++ s.installs.filterMap (·.cmd) ++
    (s.tiers.calls.filterMap fun kc => match kc.2.owner with
      | .admin r => some r
      | _ => none) ++
    s.dict.waitingReqs.filterMap fun w => match w.owner with
      | .admin r => some r
      | _ => none

/-- Is work charged to a tenant in flight (R183)? -/
def State.tenantBusy (s : State) (t : Nat) : Bool :=
  s.pipe.queries.any (fun kq => kq.2.tenant = t) || s.corpus.batches.any (fun kb => kb.2.tenant = t) ||
    s.pipe.batches.any (fun kb => kb.2.members.any fun m => m.tenant = t && !m.ended) || s.exchange.qctx.any (fun kc => kc.2.tenant = t) ||
    s.exchange.held.any (fun h => h.tenant = t) || s.exchange.drays.any (fun d => d.tenant = t) ||
    s.corpus.held.any (fun w => w.tenant = t) || s.corpus.logPending.any (fun w => w.tenant = t) ||
    s.corpus.logPages.any (fun kp => kp.2.any fun w => w.tenant = t) || s.host.taken.any (fun x => (s.fnState x.fn).tenant = t) ||
    s.commandsOpen.any fun r => (s.fnState r.fn).tenant = t

/-- Is a tenant named by a binding, or bound to an enabled function at its last enable (R183)? -/
def State.tenantBound (s : State) (t : Nat) : Bool :=
  (List.range 64).any fun fn => s.fnTenant fn = t || ((s.fnState fn).enabled && (s.fnState fn).tenant = t)

/-- The record of a tenant is discarded with its counters (R183). -/
def State.removeTenant (s : State) (t : Nat) : State :=
  { s with
    tenants := s.tenants.erase t, counters := (s.counters.erase (lateKey t)).erase (lateKey t + 1)
    dict := { s.dict with selGone := s.dict.selGone || s.setting 0x2030 1 0 = t } }

/-- Is this module the leader of a composition, which changes the mode on every module (R430)? -/
def State.leadsOthers (s : State) : Bool := s.mgmt.sealed_ && s.leads

/-- The isolation mode is stored with its switch epoch F; a leader sends it with F to every module (R185, R430). -/
def State.setIsolation (s : State) (mode : Nat) : State :=
  let f := s.catalogEpoch
  let s := { s with catalog := { s.catalog with pending := s.catalog.pending ++ [PendingChange.mk f (.isolation mode) none] } }
  if s.leadsOthers then s.emit (.report 8 [mode, f]) else s

/-! ## Checks -/

/-- Every port's running list still passes R330, and no BURST falls below its minimum, under a setting of MAX_FRAME (R341). -/
def State.frameOk (s : State) (sub v : Nat) : Bool :=
  let s' := s.putSetting (objKey 0x2A20 sub) (if sub = 5 then 512 else 9216) v
  (List.range 32).all fun n =>
    let p := s.port n
    s'.burstMin (sub - 1) ≤ burstOf p (sub - 1) && s'.gclCheck p p.active = 0

/-- Has the tenant whose record an accessor reaches through `0x2031` and `0x2033` none: its record was removed, a later one of the same ID
not counting until `0x2030.01` is written again (R183)? -/
def State.tenantGone (s : State) (who : Accessor) : Bool :=
  (s.tenants.get (s.tenantFor who)).isNone || (s.dict.selGone && (match who with
    | .fn _ => false
    | _ => true))

/-- Does the present state refuse the write (ABORT_STATE)? -/
def State.stateRefuses (s : State) (who : Accessor) (index sub : Nat) (d : ObjRow) (v : Nat) : Bool :=
  if d.access == .rwl && s.sealedNow then true
  else if index = 0x2031 || index = 0x2033 then s.tenantGone who
  else if index = 0x2032 || index = 0x2034 then (s.fnState (sub - 1)).enabled
  else if index = 0x2036 then s.host.vfEnable
  else if index = 0x2030 && sub = 4 then (s.tenants.get v).isSome && (s.tenantBound v || s.tenantBusy v)
  else if 0x2A00 ≤ index && index ≤ 0x2A1F then s.portRegStatus (index - 0x2A00) (portOffset sub) v = 7
  else if index = 0x2E01 then v = 1 && !s.mgmt.sealed_ && (s.pins.stepping = 0 || !s.descriptorOk)
  else if index = 0x2E06 then s.sealedNow
  else false

/-- Is the value inside its range, one that another object's value may set included (R420)? -/
def State.rangeOk (s : State) (index sub : Nat) (d : ObjRow) (v : Nat) : Bool :=
  if d.ty = 8 then true
  else if d.access == .event then v = 1
  else if d.access == .summary then bit v 0
  else if !d.admits v then false
  else if index = 0x2030 && (sub = 1 || sub = 4) then (s.tenants.get v).isSome
  else if index = 0x2701 && sub = 4 then v ≤ s.setting 0x2701 3 20000000 / 4
  else if index = 0x2900 && sub = 1 then s.setting 0x2900 2 48 + 1 ≤ v
  else if index = 0x2900 && sub = 2 then v + 1 ≤ s.setting 0x2900 1 96
  else if index = 0x2A20 && sub ≤ 5 then s.frameOk sub v
  else if 0x2A00 ≤ index && index ≤ 0x2A1F then s.portRegStatus (index - 0x2A00) (portOffset sub) v ≠ 6
  else if index = 0x2E02 then s.setting 0x2E02 1 0 ≤ v
  else true

/-- Would the write create a 257th tenant record (R182)? -/
def State.limitRefuses (s : State) (index v : Nat) : Bool :=
  index = 0x2032 && v ≠ 0 && (s.tenants.get v).isNone && s.tenants.length ≥ 256

/-- Is a write of a budgeted object a change, and is its budget spent (R426, R430)? `spentModules` are the other modules of the composition
whose budget for TENANT_ISOLATION_MODE is spent, as the leader reads them. -/
def State.budgetRefuses (s : State) (index sub v spentModules : Nat) (d : ObjRow) : Bool := match budgetOf index sub with
  | some (place, _) =>
    v ≠ s.objValue .mgmt index sub d &&
      (s.budgetLeft place = 0 || (index = 0x2030 && s.leadsOthers && spentModules > 0))
  | none => false

/-- Are the reserved bits and fields of a Domain's new content zero, and its encodings defined (R5, R350, R457)? -/
def domainOk (index sub : Nat) (b : List Byte) : Bool :=
  if index = 0x2B20 then (chunks 4 b).all fun e => bits (leNat e) 31 26 = 0 && bits (leNat e) 25 22 ≤ 8
  else if index = 0x2E09 && sub = 1 then (chunks 80 b).all fun e => field e 0 1 ≤ 2 && allZero e 1 6
  else if index = 0x2E09 then (chunks 80 b).all fun e => field e 73 1 ≤ 3 && allZero e 74 6
  else true

/-- The status of a write whose form, access, rights, type and owner have passed: the first refusal of R537 from ABORT_STATE on, or 0. -/
def State.writeStatus (s : State) (who : Accessor) (index sub : Nat) (d : ObjRow) (v spentModules : Nat) : Nat :=
  if s.stateRefuses who index sub d v then 7
  else if !s.rangeOk index sub d v then 6
  else if s.limitRefuses index v then 8
  else if s.budgetRefuses index sub v spentModules d then 9
  else if s.dict.storeFailed && persists index sub d.access then 0xD
  else 0

/-! ## Effects -/

/-- SETTINGS_DEFAULT: every persistent object at its default but for the budgeted ones, the signer lists and the descriptor (R461); the
store takes a record of each default that replaces another value (R460). -/
def State.restoreDefaults (s : State) : State :=
  let ports := upTo 32 fun n => (subs 1 0x10).any fun i =>
    (s.dict.settings.get (objKey (0x2A00 + n) i)).isSome || (s.dict.domains.get (objKey (0x2A00 + n) i)).isSome
  let fixed (key : Nat) : Bool := key / 256 < 0x2000 || key / 256 = 0x2E09 || key / 256 = 0x2E0A
  let s := (s.dict.store.filter fun r => r.newest s.dict.store && !fixed r.key && !budgetKeys.contains r.key).foldl (fun (s : State) r =>
    match objDef (r.key / 256) (r.key % 256) with
    | some d => s.recordStore r.key r.tenant (d.defaultBytes (r.key / 256) (r.key % 256))
    | none => s) s
  let s := { s with
    dict := { s.dict with settings := s.dict.settings.keep (fun k _ => budgetKeys.contains k), domains := s.dict.domains.keep (fun k _ => fixed k || k / 256 = 0x2E07) }
    tenants := s.tenants.mapVals fun t => { t with deadlineUs := 50000, inflightCap := 2048, gigQuota := 1000 }
    fabric := { s.fabric with routes := [] } }
  let s := ports.foldl (fun s n =>
    let p := s.port n
    let s := s.setPort n { p with
      rate := [], burst := [], countA := if p.active = 0 then p.countA else 1, countB := if p.active = 1 then p.countB else 0
      bankA := if p.active = 0 then p.bankA else [(0, 0x0007E710)], bankB := if p.active = 1 then p.bankB else [] }
    s.writePortCtl n 8) s
  s.applyFMax.settleShed

/-- FW_CTL: BEGIN, COMMIT, ABORT, ACTIVATE, with the firmware status (R465); while the boot ROM offers recovery, BEGIN opens the recovery
image and COMMIT verifies and starts it (R462). -/
def State.fwControl (s : State) (b : List Byte) : State × Nat :=
  let op := field b 0 1
  let length := field b 4 4
  if !allZero b 1 3 || !allZero b 8 8 || op = 0 || op > 4 || (op ≠ 1 && length ≠ 0) then (s, 0x701)
  else if s.recoveryOffered then match op, s.mgmt.update with
    | 1, _ => s.fwOpen length
    | 2, some (len, got) =>
      let s := { s with mgmt := { s.mgmt with update := none } }
      if got.length < len then (s, 0x705) else s.tryRecovery (got.take len)
    | 3, some _ => ({ s with mgmt := { s.mgmt with update := none } }, 0)
    | _, _ => (s, 0x705)
  else match op with
    | 1 => s.fwOpen length
    | 2 => s.fwCheck
    | 3 => s.fwEnd
    | _ => s.fwSwitch

/-- LOG_BASE of an accessor takes a value (R453). -/
def State.setLogBase (s : State) (who : Accessor) (v : Nat) : State :=
  let put (k : Nat) : State := { s with dict := { s.dict with logBases := s.dict.logBases.put k 0 v } }
  match who with
  | .mgmt => put 0
  | .operator => put 1
  | .reader => put 2
  | .fn n => s.updFn n fun f => { f with logBase := v }

/-- A tenant's record, created with its defaults where there is none (R182, R199). -/
def State.bindTenant (s : State) (t : Nat) : State :=
  if t = 0 || (s.tenants.get t).isSome then s else { s with tenants := s.tenants.set t {} }

/-- A scalar object takes a value: what the write does beside being stored. -/
def State.writeScalar (s : State) (who : Accessor) (index sub : Nat) (d : ObjRow) (v : Nat) : State :=
  let stored := s.putSetting (objKey index sub) d.dflt v
  let t := s.tenantFor who
  let upd (f : Tenant → Tenant) : State := { s with tenants := s.tenants.set t (f (s.tenant t)) }
  if d.access == .event then s.clearCounter (if index = 0x2031 then lateKey t else objKey index sub) 0
  else if d.access == .summary then s.clearSat (if index = 0x2031 then lateKey t + 1 else objKey index sub)
  else if index = 0x2030 then
    (if sub = 4 then s.removeTenant v else if sub = 2 then (if v = s.setting 0x2030 2 0 then s else stored.setIsolation v)
      else if sub = 1 then { stored with dict := { stored.dict with selGone := false } } else stored)
  else if index = 0x2031 then match sub with
    | 2 => upd fun x => { x with deadlineUs := v }
    | 3 => upd fun x => { x with inflightCap := v }
    | _ => upd fun x => { x with gigQuota := v }
  else if index = 0x2032 then stored.bindTenant v
  else if index = 0x2033 then
    { s with dict := { s.dict with
      tenantSnap := requestSnap s.dict.tenantSnap s.time
      snapTenant := if s.dict.tenantSnap.busy then s.dict.snapTenant else t } }
  else if 0x2A00 ≤ index && index ≤ 0x2A1F then
    let s := if persists index sub d.access then s.putSetting (objKey index sub) (d.default index sub) (if sub = 1 then v &&& 13 else v) else s
    s.writePortReg (index - 0x2A00) (portOffset sub) v
  else if 0x2A60 ≤ index && index ≤ 0x2A7F then s.histSnap (index - 0x2A60)
  else if index = 0x2C00 && sub = 4 then s.writeFMax v
  else if index = 0x2C00 && sub = 6 then s.writeShedForce v
  else if index = 0x2C30 then (if sub = 1 then s.snapWake else s.clearWake)
  else if index = 0x2E01 then (if v = 1 then (if s.mgmt.sealed_ then stored else stored.seal) else stored.unseal)
  else if index = 0x2E06 then s.restoreDefaults
  else if index = 0x2E0B && sub = 3 then s.setLogBase who v
  else stored

/-- A Domain takes its content: the state, the command status of a command-like Domain, and what its answer waits for (R425). -/
def State.writeDomain (s : State) (index sub : Nat) (b : List Byte) : State × Nat × Option ReqWait :=
  if index = 0x2800 then
    let token := objectWait + s.dict.nextWait
    let s := ({ s with dict := { s.dict with nextWait := s.dict.nextWait + 1 } } : State).placeCall false (.mgmt token) b
    match s.dict.placed.find? fun x => x.1 = token with
    | some x => ({ s with dict := { s.dict with placed := s.dict.placed.erase x } }, x.2, none)
    | none => (s, 0, some (.placement token))
  else if index = 0x2D01 then
    let (s, r) := s.requestReset b
    match r with
    | some detail => (s, detail, none)
    | none => if s.resetDone b then (s, 0, none) else (s, 0, some (.reset b))
  else if index = 0x2E05 then
    let (s, st) := if sub = 1 then s.fwControl b else s.fwMore b
    (s, st, none)
  else
    let s := if index = 0x2B20 then
        { s with fabric := { s.fabric with routes := routesOf b } }
      else if 0x2A00 ≤ index && index ≤ 0x2A1F then
        let p := s.port (index - 0x2A00)
        (s.putDomain (objKey index sub) b).setPort (index - 0x2A00) (if sub = 5 then { p with bankA := bankOfBytes b }
          else { p with bankB := bankOfBytes b })
      else s.putDomain (objKey index sub) b
    (s, 0, none)

/-- The budget counter of a budgeted object advances when the value written differs from the stored one (R426, R427). -/
def State.spendBudget (s : State) (index sub : Nat) (d : ObjRow) (v : Nat) : State := match budgetOf index sub with
  | some (place, _) =>
    if v = s.objValue .mgmt index sub d then s
    else
      let key := budgetKeys.getD place 0
      { s with dict := { s.dict with used := s.dict.used.put key 0 (s.dict.used.getD key 0 + 1) } }
  | none => s

/-- A write that has passed every check is carried out: the budget advances, the value is recorded, and it has its effect (R427). -/
def State.applyWrite (s : State) (who : Accessor) (index sub : Nat) (d : ObjRow) (v : Nat) (b : List Byte) : State × Nat × Option ReqWait :=
  let s := s.spendBudget index sub d v
  let s := if persists index sub d.access then s.recordStore (objKey index sub) (if index = 0x2031 then s.tenantFor who else 0) b else s
  if d.ty = 8 then s.writeDomain index sub b else (s.writeScalar who index sub d v, 0, none)

end Sys2Proof.Machine
end

