-- ==== Sys2Proof/Machine/ObjectRun.lean ====
section
/-! DEFINITION. Object access requests: their items, the checks of each before ABORT_STATE, segmented writes, and how a request runs, waits
and is answered (R417 to R421, R425, R431, R436, R438, R537). -/
namespace Sys2Proof.Machine

/-- An accessor as a number. -/
def accessorNo : Accessor → Nat
  | .mgmt => 0
  | .operator => 1
  | .reader => 2
  | .fn n => 3 + n

/-- The items of a request body behind its header (R417). The item at which the lengths stop filling the body fails its form (R419). -/
def parseItems : Nat → List Byte → List ObjItem
  | 0, _ => []
  | n + 1, b =>
    let op := field b 0 1
    let length := field b 12 4
    let size := 16 + (if op = 2 then roundUp 8 length else 0)
    { op, last := bit (field b 1 1) 0, index := field b 2 2, sub := field b 4 1, offset := field b 8 4, length
      data := slice (b.drop 16) 0 (if op = 2 then min length (b.length - 16) else 0)
      formOk := (op = 1 || op = 2) && field b 1 1 < 2 && allZero b 5 3 && size ≤ b.length && (n ≠ 0 || b.length = size) } ::
      parseItems n (b.drop size)

/-- Is a request's header well formed (R417, R419)? -/
def requestHeaderOk (b : List Byte) : Bool := 8 ≤ b.length && 1 ≤ field b 0 2 && field b 0 2 ≤ 16 && field b 2 2 < 2

/-- An item's answer (R418). -/
def itemReply (status detail ty length : Nat) (i : ObjItem) (data : List Byte) : List Byte :=
  leBytes 2 status ++ leBytes 2 detail ++ leBytes 2 i.index ++ leBytes 1 i.sub ++ leBytes 1 ty ++ leBytes 4 i.offset ++ leBytes 4 length ++
    padTo 8 data

/-- A response body: the header and the items' answers (R418). -/
def responseBody (txn : Nat) (replies : List (List Byte)) : List Byte :=
  leBytes 2 replies.length ++ leBytes 2 0 ++ leBytes 4 txn ++ replies.flatten

/-- Bytes of data that a READ item returns when it is refused nothing (R431). -/
def readData (i : ObjItem) : Nat := match objDef i.index i.sub with
  | some d => if i.op ≠ 1 then 0 else if d.ty = 8 then roundUp 8 (min i.length (d.len - i.offset)) else roundUp 8 d.len
  | none => 0

/-- The size of the response when every READ item returns its data (R431). -/
def responseSize (is : List ObjItem) : Nat := 8 + (is.map fun i => 16 + readData i).sum

/-! ## Segmented writes (R421) -/

/-- The segmented write that an accessor holds open on an object. -/
def State.openSeg (s : State) (who : Accessor) (key : Nat) : Option SegWrite :=
  s.dict.segWrites.find? fun w => w.key = key && w.accessor = accessorNo who

/-- The buffered segments of an accessor's write are discarded. -/
def State.dropSeg (s : State) (who : Accessor) (key : Nat) : State :=
  { s with dict := { s.dict with segWrites := s.dict.segWrites.filter fun w => !(w.key = key && w.accessor = accessorNo who) } }

/-- Is a write of a Domain whole, or a segment at the next offset that stays inside the Domain and, when it is the last, ends it? -/
def State.segmentOk (s : State) (who : Accessor) (i : ObjItem) (len : Nat) : Bool :=
  let got := match s.openSeg who (objKey i.index i.sub) with
    | some w => w.bytes.length
    | none => 0
  (i.offset = 0 && i.length = len) || (i.offset = got && got + i.length ≤ len && (!i.last || got + i.length = len))

/-! ## One item -/

/-- The first refusal of an item up to ABORT_BUSY in the order of R537, or 0. -/
def State.itemRefusal (s : State) (who : Accessor) (i : ObjItem) : Nat :=
  if !i.formOk then 0xC
  else if (highestSub i.index).isNone then 1
  else match objDef i.index i.sub with
    | none => 2
    | some d =>
      let a := accessFor who i.index i.sub d.access
      let write := i.op = 2
      if (write && a == .ro) || (!write && a == .wo) then 3
      else if !(if write then mayWrite who i.index i.sub a else mayRead who i.index) then 4
      else if d.ty ≠ 8 then (if i.offset ≠ 0 || i.length ≠ (if write then d.len else 0) then 5 else 0)
      else if !write then (if i.offset > d.len then 5 else 0)
      else if !s.segmentOk who i d.len then 5
      else if s.dict.segWrites.any fun w => w.key = objKey i.index i.sub && w.accessor ≠ accessorNo who then 0xA
      else 0

/-- What running an item gives: its answer, or what the answer waits for (R425). -/
inductive ItemResult where
  | reply (bytes : List Byte)
  | wait (w : ReqWait)
  deriving DecidableEq, Repr

/-- A READ that has passed its checks, of at most `room` bytes of data (R413, R418, R436). -/
def State.readItem (s : State) (who : Accessor) (i : ObjItem) (d : ObjRow) (room : Option Nat) : List Byte :=
  if d.ty ≠ 8 then
    (match room with
      | some n => if n < 8 then itemReply 0xB 0 d.ty 0 i [] else itemReply 0 0 d.ty d.len i (leBytes d.len (s.objValue who i.index i.sub d))
      | none => itemReply 0 0 d.ty d.len i (leBytes d.len (s.objValue who i.index i.sub d)))
  else if i.length = 0 then itemReply 0 0 8 d.len i []
  else
    let n := min i.length (d.len - i.offset)
    let n := match room with
      | some r => min n r
      | none => n
    itemReply 0 0 8 n i (slice (s.objDomain who i.index i.sub d.len) i.offset n)

/-- A WRITE that has passed its checks up to ABORT_BUSY. `peers`: how many other modules have spent their budget for the isolation mode, and
how many fail to take the change (R430). -/
def State.writeItem (s : State) (who : Accessor) (i : ObjItem) (d : ObjRow) (peers : Nat × Nat) : State × ItemResult :=
  let key := objKey i.index i.sub
  let v := if d.ty = 8 then 0 else leNat i.data
  let st := s.writeStatus who i.index i.sub d v peers.1
  let whole := i.offset = 0 && i.length = d.len
  let held := match s.openSeg who key with
    | some w => w.bytes
    | none => []
  let bytes := if whole then i.data else held ++ i.data
  if st ≠ 0 then
    let s := if st = 0xD then s.spendBudget i.index i.sub d v else s
    (s, .reply (itemReply st 0 d.ty 0 i []))
  else if d.ty = 8 && (whole || i.last) && !domainOk i.index i.sub bytes then
    (s.dropSeg who key, .reply (itemReply 6 0 d.ty 0 i []))
  else if d.ty = 8 && !whole && !i.last then
    let s := s.dropSeg who key
    ({ s with dict := { s.dict with segWrites := s.dict.segWrites ++ [⟨key, accessorNo who, bytes, s.time⟩] } }, .reply (itemReply 0 0 8 0 i []))
  else
    let changed := i.index = 0x2030 && i.sub = 2 && s.leadsOthers && v ≠ s.setting 0x2030 2 0
    let s := if d.ty = 8 then s.dropSeg who key else s
    let (s, detail, w) := s.applyWrite who i.index i.sub d v bytes
    match w with
    | some w => (s, .wait w)
    | none => (s, .reply (itemReply 0 (if changed then peers.2 else detail) d.ty 0 i []))

/-- An access through a function or the field network is counted (R438). -/
def State.noteAccess (s : State) (who : Accessor) : State := match who with
  | .fn _ => s.tally 0x2E08 2
  | .mgmt => s
  | _ => s.tally 0x2E08 3

/-- Run one item (R420). While the boot ROM offers recovery, only FW_CTL and FW_DATA can be written (R462, log 52). -/
def State.runItem (s : State) (who : Accessor) (i : ObjItem) (room : Option Nat) (peers : Nat × Nat) : State × ItemResult :=
  let s := s.noteAccess who
  let ty := match objDef i.index i.sub with
    | some d => d.ty
    | none => 0
  let st := if s.recoveryOffered && !(i.index = 0x2E05 && (i.sub = 1 || i.sub = 2)) then 1 else s.itemRefusal who i
  if st ≠ 0 then
    let s := if st = 5 && i.op = 2 then s.dropSeg who (objKey i.index i.sub) else s
    (if st = 4 then s.tally 0x2E08 9 else s, .reply (itemReply st 0 ty 0 i []))
  else match objDef i.index i.sub with
    | none => (s, .reply (itemReply 2 0 0 0 i []))
    | some d =>
      if i.op = 1 then
        (if (i.index = 0x2031 || i.index = 0x2033) && s.tenantGone who then (s, .reply (itemReply 7 0 ty 0 i []))
          else (s, .reply (s.readItem who i d room)))
      else
        let r := s.writeItem who i d peers
        match r.2 with
        | .reply b => (if field b 0 2 = 9 then r.1.tally 0x2E08 8 else r.1, .reply b)
        | .wait w => (r.1, .wait w)

/-! ## Requests -/

/-- The answer of a request goes to its owner. -/
def State.answerRequest (s : State) (owner : ReqOwner) (txn : Nat) (replies : List (List Byte)) : State := match owner with
  | .admin r => s.adminDone r 0 (responseBody txn replies) []
  | .oap seq => s.sendOap 0 "SZOA" 2 0 seq (responseBody txn replies)
  | .single => s.emit (.response (slice replies.flatten 0 4))

/-- What other modules answer to the leader's change of the isolation mode, where the request does not say: a free value (R430). -/
def State.peersOf (s : State) (i : ObjItem) (given : Option (Nat × Nat)) : State × (Nat × Nat) := match given with
  | some p => (s, p)
  | none =>
    if i.op = 2 && i.index = 0x2030 && i.sub = 2 && s.leadsOthers then
      ({ s with freeCount := s.freeCount + 1 }, Config.isolationPeers s.freeCount)
    else (s, 0, 0)

/-- Run a request's items in order, each in a cycle of its own, and answer it, or hold it at an item that waits for its command (R413, R420,
R425, R436). -/
def runItems (owner : ReqOwner) (who : Accessor) (txn : Nat) (stop : Bool) (given : Option (Nat × Nat)) :
    List ObjItem → List (List Byte) → State → State
  | [], done, s => s.answerRequest owner txn done
  | i :: rest, done, s =>
    let skip := done.any fun r => field r 0 2 = 0xB || (stop && field r 0 2 ≠ 0)
    if skip then
      let ty := match objDef i.index i.sub with
        | some d => d.ty
        | none => 0
      runItems owner who txn stop given rest (done ++ [itemReply 0xB 0 ty 0 i []]) s
    else
      let room := match owner with
        | .oap _ => some ((1306 - (8 + done.flatten.length + 16 * (rest.length + 1))) / 8 * 8)
        | _ => none
      let (s, peers) := s.peersOf i given
      let (s, r) := s.runItem who i room peers
      match r with
      | .reply b => runItems owner who txn stop given rest (done ++ [b]) (if rest.isEmpty then s else s.advance (s.time + 1))
      | .wait w => { s with dict := { s.dict with waitingReqs := s.dict.waitingReqs ++ [⟨owner, who, txn, stop, done, i, rest, w⟩] } }

/-- The command status that a waiting request's item has come to, if its command has completed (R425). -/
def State.waitOver (s : State) (w : WaitReq) : Option Nat := match w.wait with
  | .placement token => (s.dict.placed.find? fun x => x.1 = token).map (·.2)
  | .reset b => if s.resetDone b then some 0 else none

/-- Requests whose wait is over go on with their items. -/
def resumeFuel : Nat → State → State
  | 0, s => s
  | n + 1, s =>
    match s.dict.waitingReqs.find? fun w => (s.waitOver w).isSome with
    | none => s
    | some w =>
      let detail := (s.waitOver w).getD 0
      let placed := match w.wait with
        | .placement token => s.dict.placed.filter fun x => x.1 ≠ token
        | .reset _ => s.dict.placed
      let s := { s with dict := { s.dict with waitingReqs := s.dict.waitingReqs.erase w, placed } }
      resumeFuel n (runItems w.owner w.who w.txn w.stop none w.rest (w.done ++ [itemReply 0 detail 8 0 w.item []]) s)

/-- The server goes on with the requests whose command-like writes have completed (R425). -/
def State.resumeRequests (s : State) : State :=
  if s.mgmt.serverUp then resumeFuel ((s.dict.waitingReqs.map fun w => w.rest.length + 1).sum) s else s

/-- Run a request body for an owner (R417 to R420). -/
def State.runRequest (s : State) (owner : ReqOwner) (who : Accessor) (b : List Byte) : State :=
  if requestHeaderOk b then
    (runItems owner who (field b 4 4) (bit (field b 2 2) 0) none (parseItems (field b 0 2) (b.drop 8)) [] s).resumeRequests
  else s.answerRequest owner (field b 4 4) []

/-- A write of one object by one accessor, as a request of one item (R420). -/
def State.writeNow (s : State) (who : Accessor) (index sub : Nat) (data : List Byte) (given : Option (Nat × Nat)) : State :=
  if s.mgmt.serverUp then
    (runItems .single who 0 false given [⟨2, false, index, sub, 0, data.length, data, true⟩] [] s).resumeRequests
  else s

end Sys2Proof.Machine
end

