-- ==== Sys2Proof/Machine/Placement.lean ====
section
/-! DEFINITION. Placement, moves between tiers, repair (R252 to R263): the commands MGMT_PLACE, PLACE, PLACE_CANCEL, DESCRIBE, MOVE_START,
MOVE_ROUND_COMPLETE, MOVE_SOURCE_FREE, REPAIR_COMPLETE, DEVICE_RETIRE. -/
namespace Sys2Proof.Machine

/-- MGMT_PLACE: the management firmware's placement call; its status goes back when it completes (R254, R425). -/
def execMgmtPlace (call : List Byte) (s : State) : Host.Outcome State Fault Refusal :=
  .next (s.placeCall false (.mgmt s.tiers.nextCall) call)

/-- The placement call of a PLACE command, issued by the PF or, to be denied, by a VF (R254, R400). -/
def State.placeCommand (s : State) (cmd : AdminCmd) : State :=
  s.adminCommand cmd 0x60 16 true false fun s r => s.placeCall (cmd.fn ≠ 0) (.admin r) (slice (cmd.entry.drop 48) 0 16)

/-- PLACE. -/
def execPlace (cmd : AdminCmd) (s : State) : Host.Outcome State Fault Refusal := .next (s.placeCommand cmd).resumeRequests

/-- PLACE_CANCEL: a call whose CANCEL flag is set. -/
def execPlaceCancel (cmd : AdminCmd) (s : State) : Host.Outcome State Fault Refusal :=
  .next (if bit (field cmd.entry 57 1) 0 then (s.placeCommand cmd).resumeRequests else s)

/-- DESCRIBE: descriptors of an object, or of a list and all its objects (R252, R400). -/
def execDescribe (cmd : AdminCmd) (s : State) : Host.Outcome State Fault Refusal :=
  .next (s.adminCommand cmd 0x61 9 (field cmd.entry 56 1 < 2) true fun s r =>
    let h := field cmd.entry 48 8
    let n := h % 2 ^ 28
    match s.liveObj h with
    | none => s.adminDone r 0x402 [] []
    | some o =>
      let all := if bit (field cmd.entry 56 1) 0 && o.kind = 0 then (s.tiers.objs.filter fun kv => kv.2.kind ≠ 0 && kv.2.owner = n) else []
      s.adminDone r 0 ((s.descriptor n o) ++ all.flatMap fun kv => s.descriptor kv.1 kv.2) [])

/-- MOVE_START: the first queued move starts while fewer than 8 run, its destination space reserved (R254, R255 steps 1 and 2). -/
def execMoveStart (s : State) : Host.Outcome State Fault Refusal :=
  .next (match s.tiers.moves.find? fun m => !m.running with
    | none => s
    | some m =>
      match s.tiers.objs.get m.obj with
      | none => s
      | some o =>
        if (s.tiers.moves.filter fun x => x.running && !x.switched).length ≥ 8 || !s.upkeepRuns || o.size > s.tierRoom m.target false then s
        else s.updTierMove m.obj fun x => { x with running := true, source := o.tier, copied := o.size, dirty := [] })

/-- MOVE_ROUND_COMPLETE: a copy round has ended. A source chunk that fails error correction is marked for repair, and the move waits; a
failed destination write abandons it; more dirty chunks than 50 µs can copy start another round; otherwise writes are held, the last
chunks copied, and the object switches (R255 steps 3 to 5, R257). -/
def execMoveRoundComplete (obj : Nat) (round : CopyRound) (s : State) : Host.Outcome State Fault Refusal :=
  .next (match s.tiers.moves.find? fun m => m.obj = obj && m.running && !m.switched with
    | none => s
    | some m =>
      if !s.movesRun m || (s.tiers.repair.any fun r => r.obj = obj) then s
      else if !round.readOk then (if m.source ≤ 1 then (s.markRepair m.source obj).readFailed else s.readFailed)
      else if !round.writeOk then (s.failMove m 0x409).resumeRequests
      else
        let s := s.count (objKey 0x2810 1) m.copied
        let left := 65536 * m.dirty.length
        if left > s.tailBytes then s.updTierMove obj fun x => { x with copied := left, dirty := [] }
        else ((s.count (objKey 0x2810 1) left).switchMove m).resumeRequests)

/-- MOVE_SOURCE_FREE: the source is freed when every read issued to it has completed (R255 step 6). -/
def execMoveSourceFree (obj : Nat) (s : State) : Host.Outcome State Fault Refusal :=
  .next (match s.tiers.moves.find? fun m => m.obj = obj && m.switched with
    | none => s
    | some m =>
      if s.sourceReads m then s
      else { s with tiers := { s.tiers with moves := s.tiers.moves.filter fun x => !(x.obj = obj && x.switched) } })

/-- REPAIR_COMPLETE: a page, one of the first 64 that wait, is remapped, its content regenerated, and it leaves REPAIR; a page of a retired
device is regenerated in the tier's others (R262, R263). -/
def execRepairComplete (tier device page : Nat) (s : State) : Host.Outcome State Fault Refusal :=
  .next (match (s.tiers.repair.take 64).find? fun r => r.tier = tier && r.device = device && r.page = page with
    | none => s
    | some r =>
      let k := tier * 256 + device
      let s := { s with tiers := { s.tiers with
        repair := s.tiers.repair.filter fun x => !(x.tier = tier && x.device = device && x.page = page)
        remapped := if s.tiers.retired.contains k then s.tiers.remapped else s.tiers.remapped.set k (s.tiers.remapped.getD k 0 + 1) } }
      (s.regenPage r.obj page).count (objKey 0x2810 2) 4096)

/-! ## A device retires (R263) -/

/-- Bytes by which a tier holds more than its devices have room for. -/
def State.overflow (s : State) (tier : Nat) : Nat := s.tierUsed tier - s.tierSize tier

/-- READ_BYTES of the list that an object belongs to. -/
def State.listReads (s : State) (o : TierObj) : Nat := ((s.tiers.objs.filter fun kv => kv.2.owner = o.owner).map fun kv => kv.2.readLast).sum

/-- Code pairs of a tier, those of the lists with the smallest READ_BYTES first. -/
def State.coldPairs (s : State) (tier : Nat) : List (Nat × TierObj) :=
  sortBy (fun a b => decide (s.listReads a.2 < s.listReads b.2) || (s.listReads a.2 == s.listReads b.2 && decide (a.1 < b.1)))
    (s.tiers.objs.filter fun kv => kv.2.kind = 3 && kv.2.tier = tier)

/-- Code pairs leave a tier, one after another, until what it holds fits its devices. -/
def State.makeRoom (s : State) (tier : Nat) : State :=
  (s.coldPairs tier).foldl (fun s kv =>
    if s.overflow tier = 0 then s
    else
      let mine := s.tiers.moves.filter fun m => m.obj = kv.1 && !m.switched
      let s := mine.foldl (fun s m => s.failMove m 0x408) s
      { s with tiers := { s.tiers with
        objs := s.tiers.objs.alter kv.1 fun o => { o with tier := tier + 1 }, journal := (kv.1, tier + 1) :: s.tiers.journal
        repair := s.tiers.repair.filter fun r => r.obj ≠ kv.1 } }) s

/-- Lists whose sketches do not fit HBM any more: they stay in REPAIR, and their shards are reported over capacity. -/
def State.dropSketches (s : State) : State :=
  let segs := s.tiers.objs.filter fun kv => kv.2.kind = 1 && !s.tiers.unheld.contains kv.2.owner
  let (s, _) := segs.reverse.foldl (fun (a : State × Nat) kv =>
    let (s, excess) := a
    if excess = 0 || s.tiers.unheld.contains kv.2.owner then a
    else
      let size := ((s.tiers.objs.filter fun x => x.2.owner = kv.2.owner && x.2.tier = 0).map fun x => x.2.size).sum
      let shard := match s.list kv.2.owner with
        | some l => [l.shard]
        | none => []
      let s := { s with
        tiers := { s.tiers with unheld := s.tiers.unheld ++ [kv.2.owner] }
        exchange := { s.exchange with overCapacity := (s.exchange.overCapacity ++ shard).eraseDups } }
      (shard.foldl (fun s n => s.emit (.report 6 [n])) s, excess - size)) (s, s.overflow 0)
  s

/-- Retire an HBM stack or an LPDDR package: every page it held enters REPAIR, and code pairs are demoted as far as room needs (R263). -/
def State.retireDevice (s : State) (tier device : Nat) : State :=
    let k := tier * 256 + device
    if tier > 1 || device ≥ (if tier = 0 then 10 else 24) || s.tiers.retired.contains k then s
    else
      let unit := if tier = 0 then unitStack device else unitPackage device
      let pages := (Config.pagesHeld s.freeCount).map fun p => (⟨tier, device, p.1, p.2⟩ : RepairPage)
      let s := { s with
        freeCount := s.freeCount + 1
        tiers := { s.tiers with
          retired := s.tiers.retired ++ [k]
          repair := (s.tiers.repair.filter fun (r : RepairPage) => !(r.tier = tier && r.device = device)) ++ pages } }
      let s := (s.markRetired unit).logState 0x2810 7 unit 0 1
      let s := s.count (objKey 0x2810 7) pages.length
      let s := s.makeRoom 1
      let s := s.makeRoom 0
      (s.makeRoom 1).dropSketches.settle

/-- DEVICE_RETIRE: an HBM stack or LPDDR package is retired; its pages enter REPAIR, to be regenerated in the tier's other devices, code pairs leave the
tier until they fit, and what still does not fit stays in REPAIR (R263). -/
def execDeviceRetire (tier device : Nat) (s : State) : Host.Outcome State Fault Refusal := .next (s.retireDevice tier device).resumeRequests

end Sys2Proof.Machine
end

