-- ==== Sys2Proof/Machine/Bringup.lean ====
section
/-! DEFINITION. The start sequence from interface training to readiness (R487 to R492): MEMORY_TRAINING_COMPLETE, MEMTEST_COMPLETE, REPLAY,
RELOAD_COMPLETE, RECEIPT_RECOVERY, READY, TOPOLOGY_WAIT; with replay of the map (R296, R297) and of the commit log (R222). -/
namespace Sys2Proof.Machine

/-- The next phase of the start sequence. -/
def State.toPhase (s : State) (n : Nat) : State := ({ s with repair := { s.repair with phase := n } } : State).settleStat

/-- MEMORY_TRAINING_COMPLETE: the interfaces are trained, a device whose training fails is retired, the flash channels answer, and the memory
test starts (R487, R488). -/
def execMemoryTrainingComplete (failed : List (Nat × Nat)) (s : State) : Host.Outcome State Fault Refusal :=
  .next (if s.repair.phase ≠ 3 then s
    else
      let s := failed.foldl (fun s d => s.retireDevice d.1 d.2) s
      let s := (List.range 32).foldl (fun s c => s.wake .onfi c 2) s
      ({ s with log := { s.log with flashReady := true } } : State).toPhase 4)

/-- MEMTEST_COMPLETE: failing pages are remapped, devices beyond repair retired (R262, R263, R488). -/
def execMemtestComplete (pages : List (Nat × Nat × Nat)) (devices : List (Nat × Nat)) (s : State) : Host.Outcome State Fault Refusal :=
  .next (if s.repair.phase ≠ 4 then s
    else
      let s := devices.foldl (fun s d => s.retireDevice d.1 d.2) s
      let remapped := pages.foldl (fun (t : Table Nat) p => Table.set t (p.1 * 256 + p.2.1) (Table.getD t (p.1 * 256 + p.2.1) 0 + 1)) s.tiers.remapped
      ({ s with tiers := { s.tiers with remapped } } : State).toPhase 5)

/-! ## Replay (R291, R296, R297) -/

/-- An item of replay: a unit found on flash, or a DISCARD record. -/
inductive ReplayItem where
  | unit (seq lba entry : Nat) (gc : Bool) (src : Nat)
  | discard (seq first count : Nat)
  deriving DecidableEq, Repr

/-- Sequence number of an item. -/
def ReplayItem.seq : ReplayItem → Nat
  | .unit n _ _ _ _ => n
  | .discard n _ _ => n

/-- Superblocks that replay scans: open at START_SEQ, or opened since (R296). -/
def Flash.scanned (f : Flash) : List Nat :=
  (f.tableCopy.filter fun kv => kv.2.state = 1).map (·.1) ++
    (f.jDurable.filter fun j => j.ty = 2 && j.seq > f.startSeq).map fun j => j.row * rowSbs + j.sb

/-- The units of a programmed page as items, each at the location that its place in the wain gives. -/
def State.pageItems (s : State) (k : Nat) (p : FlashPage) : List ReplayItem :=
  let (row, n, page, chan) := keyParts k
  let at_ := 4 * (dataChans (s.sb row n).chMask n page).idxOf chan
  (List.range p.units.length).filterMap fun i => match p.units[i]? with
    | some u => some (.unit u.seq u.lba (mapEntry n page (at_ + i)) u.gc u.src)
    | none => none

/-- Items of replay in ascending sequence: the units of scanned pages programmed after START_SEQ whose headers are not lost, and the DISCARD
records after it (R296). -/
def State.replayItems (s : State) (lost : List (Nat × Nat)) : List ReplayItem :=
  let f := s.flash
  let scan := f.scanned
  let read (k : Nat) (p : FlashPage) : Bool :=
    let sb := k / 65536
    p.state = 2 && !p.parity && p.progSeq > f.startSeq && scan.contains sb && !lost.contains (sb, k % 65536)
  let units := (f.pages.filter fun kp => read kp.1 kp.2).flatMap fun kp => s.pageItems kp.1 kp.2
  let discards := (f.jDurable.filter fun j => j.ty = 1 && j.seq > f.startSeq).map fun j => ReplayItem.discard j.seq j.argB j.argA
  sortBy (fun a b => decide (a.seq < b.seq)) (units ++ discards)

/-- Apply one item to the map and the segments' sequence numbers (R292, R296). -/
def replayItem (m : Table Nat × Table Nat) (x : ReplayItem) : Table Nat × Table Nat := match x with
  | .unit seq lba entry gc src =>
    if seq ≤ m.2.getD (lba / 1024) 0 || (gc && m.1.getD lba 0 ≠ src) then m
    else (m.1.set lba entry, m.2.set (lba / 1024) seq)
  | .discard seq first count =>
    let hit := (m.1.filter fun kv => first ≤ kv.1 && kv.1 < first + count && seq > m.2.getD (kv.1 / 1024) 0).map (·.1)
    (hit.foldl (fun t l => Table.erase t l) m.1, hit.foldl (fun t l => Table.set t (l / 1024) seq) m.2)

/-- The highest sequence number found on flash (R291). -/
def Flash.highest (f : Flash) : Nat :=
  let pages := f.pages.flatMap fun kp => kp.2.progSeq :: kp.2.units.map (·.seq)
  (pages ++ f.jDurable.map (·.seq) ++ f.segCopies.map fun kv => kv.2.2.1).foldl max 0

/-- The map is rebuilt from the copies of the latest complete checkpoint and the items after it. Of the pages only programmed ones are on
flash; superblocks that were open are closed at their last programmed page, and a checkpoint starts (R296, R297). -/
def State.replayMap (s : State) (lost : List (Nat × Nat)) : State :=
  let f := s.flash
  let map0 := f.segCopies.foldl (fun (t : Table Nat) c => c.2.2.2.foldl (fun (t : Table Nat) e => Table.set t e.1 e.2) t) []
  let segs0 := f.segCopies.foldl (fun (t : Table Nat) c => Table.set t c.1 c.2.2.1) []
  let r := (s.replayItems lost).foldl replayItem (map0, segs0)
  let open_ := f.rows.flatMap fun kr => (kr.2.sbs.filter fun kb => kb.2.state = 1).map fun kb => (kr.1, kb.1)
  let rows := f.rows.mapVals fun w => { w with open_ := [], collecting := false, sbs := w.sbs.mapVals fun b => { b with erasing := false } }
  let s := { s with flash := { f with
    map := r.1, segSeqs := r.2, rows, pages := f.pages.filter fun kp => kp.2.state ≥ 2, jPending := [], discards := [], chans := []
    segNew := [], tableNew := [], ckpt := { f.ckpt with running := false }, seq := f.highest + 65536 } }
  let last (row n : Nat) : Nat :=
    ((s.flash.pages.filter fun kp => kp.1 / 65536 = row * rowSbs + n).map fun kp => kp.1 / 32 % 2048 + 1).foldl max 0
  let s := open_.foldl (fun s x =>
    let n := last x.1 x.2
    let (s, _) := s.journal 3 x.1 x.2 n 0 0
    s.updSb x.1 x.2 fun b => { b with state := 2, page := n, slot := 0 }) s
  ((List.range 16).foldl (fun s r => s.freeRow r) s).startCheckpoint

/-- The highest epoch that durable data carry: logged writes, records, segments and catalog records, as far as the epoch had opened. What the
commit log holds of it is one value, and nothing stamped with an epoch at or below it may be stamped again (R209; DEDUCED, log 36). -/
def State.highestStamped (s : State) : Nat :=
  let c := s.catalog
  let opt (e : Option Nat) : List Nat := e.toList
  let segs := s.corpus.lists.flatMap fun kl => kl.2.segs.flatMap fun kg => kg.2.validFrom :: opt kg.2.validUntil
  let cat := (c.namespaces.flatMap fun n => n.created :: opt n.deleted) ++ (c.indices.flatMap fun n => n.created :: opt n.deleted) ++
    c.versions.flatMap fun v => v.created :: v.switchEpoch :: opt v.endEpoch
  let all := (s.corpus.durable.map (·.epoch)) ++ (s.corpus.records.flatMap fun kr => kr.2.insert :: opt kr.2.delete) ++ segs ++ cat
  (all.filter fun e => e ≤ s.epochs.open_).foldl max 0

/-- Units of lost pages whose copy there the replayed map does not name, with the shards of the records that they hold: these are to be
verified against the code group (R297, R375). -/
def State.unitsToVerify (s : State) (lost : List (Nat × Nat)) : List (Nat × Nat) :=
  let pages := s.flash.pages.filter fun kp => kp.2.state = 2 && !kp.2.parity && lost.contains (kp.1 / 65536, kp.1 % 65536)
  let differs (x : ReplayItem) : Option Nat := match x with
    | .unit _ lba entry _ _ => if s.flash.map.getD lba 0 = entry then none else some lba
    | .discard _ _ _ => none
  (pages.flatMap fun kp => (s.pageItems kp.1 kp.2).filterMap differs).flatMap fun lba =>
    ((s.corpus.records.filter fun kr => kr.2.units.contains lba).map fun kr => (s.shardOfKey kr.2.key, lba)).take 1

/-- The map and the commit log are replayed; a module that is its own leader resumes at the highest epoch stamped plus 1 (R209, R222, R297,
R299). -/
def State.replayAll (s : State) (clean : Bool) (lost : List (Nat × Nat)) : State :=
  let s := lost.foldl (fun s x => (s.tally 0x2910 0xF).logEvent 0x2910 0xF 2 (unitDie (x.2 % 32) (x.1 / rowSbs))
    (leBytes 4 x.1 ++ leBytes 4 x.2)) s
  let s := if clean then s else s.tally 0x2910 0xE
  let s := s.replayMap lost
  let s := { s with exchange := { s.exchange with verify := s.exchange.verify ++ s.unitsToVerify lost } }
  let ws := s.corpus.logPages.flatMap fun kp => kp.2
  let s := ws.foldl (fun s w => s.takeDurable w) ({ s with corpus := { s.corpus with logPages := [] } } : State)
  let stamped := s.highestStamped
  let e := s.epochs
  let epochs := if s.mgmt.sealed_ then { e with stamped, mayStamp := false }
    else { e with stamped, mayStamp := true, open_ := stamped + 1, closed := stamped, prevClosed := stamped, closing := [], settled := [] }
  ({ s with epochs } : State).toPhase 6

/-- REPLAY: the map and the commit log are replayed. Pages whose header is lost are counted and logged with their location; a start without an
orderly stop is counted; log pages that the flush completed are applied without a second answer (R209, R222, R297, R299). -/
def execReplay (t : Nat) (clean : Bool) (lost : List (Nat × Nat)) (s : State) : Host.Outcome State Fault Refusal :=
  .next (let s := s.advance t
    if s.repair.phase ≠ 5 then s
    else
      s.replayAll clean lost)

/-! ## Reload, receipts, readiness -/

/-- RELOAD_COMPLETE: every HBM and LPDDR object is rebuilt in the tier that its last journalled switch names (R258). -/
def execReloadComplete (s : State) : Host.Outcome State Fault Refusal :=
  .next (if s.repair.phase ≠ 6 then s
    else
      let tierOf (n : Nat) (o : TierObj) : TierObj := match s.tiers.journal.find? fun j => j.1 = n with
        | some j => if o.kind = 0 then o else { o with tier := j.2 }
        | none => o
      ({ s with tiers := { s.tiers with objs := s.tiers.objs.map (fun no => (no.1, tierOf no.1 no.2)), repair := [] } } : State).toPhase 7)

/-- After a loss of power every period without a sealed header is sealed with RECOVERED, oldest first (R243). A module reset loses none. -/
def State.recoverReceipts (s : State) : State :=
  if !s.repair.cold then s
  else
    let s := s.closePeriod true s.time
    let trees := s.receipts.trees.map fun x => if x.durable then x else { x with header := x.header.take 12 ++ leBytes 4 1 ++ x.header.drop 16 }
    let s := { s with receipts := { s.receipts with trees } }
    ((trees.filter fun x => !x.durable).map (·.seq)).foldl (fun s n => s.sealTree n) s

/-- The beacon condition of R490: a beacon under R209, or an unsealed module that is its own leader. -/
def State.beaconMet (s : State) : Bool := !s.mgmt.sealed_ || s.epochs.mayStamp

/-- The topology condition of R490. -/
def State.topologyMet (s : State) : Bool := !s.mgmt.sealed_ || (List.range 32).all fun p => !s.portFails p

/-- RECEIPT_RECOVERY: phase 7 completes. Receipts are sealed and the resident images are installed in every partition in service; the module
is in phase 8 or waits in phase 9 (R243, R487, R491). A pool that has shrunk below an image's tiles does not get it (R512). -/
def execReceiptRecovery (t : Nat) (s : State) : Host.Outcome State Fault Refusal :=
  .next (let s := s.advance t
    if s.repair.phase ≠ 7 || s.repair.phasesDone then s
    else
      let s := s.recoverReceipts
      let parts := upTo 4 fun p => !s.repair.partsOut.contains p
      let fits (i : Image) (p : Nat) : Bool := let size := 16 - (s.pool p).out.length; i.encodeTiles ≤ size && i.scoreTiles ≤ size
      let s := { s with
        images := s.images.mapVals fun i => { i with installed := parts.filter (fits i) }
        repair := { s.repair with phasesDone := true, phase7At := s.time } }
      s.toPhase (if s.beaconMet && s.topologyMet then 8 else 9))

/-- READY: declared when phases 0 to 7 are complete and both conditions hold (R490). The staging banks have their owners after bring-up (R264). -/
def execReady (t : Nat) (s : State) : Host.Outcome State Fault Refusal :=
  .next (let s := s.advance t
    if s.repair.ready || !s.repair.phasesDone || !s.beaconMet || !s.topologyMet then s
    else
      let s := (upTo 32 fun g => s.strandUp g).foldl (fun s g => s.setBanks g) s
      let s := { s with repair := { s.repair with ready := true } }
      ((s.toPhase 8).logState 0x2D00 6 unitModule 0 1).causeAll 2)

/-- TOPOLOGY_WAIT: readiness has not come in time; the record names what is missing (R491). -/
def execTopologyWait (t : Nat) (s : State) : Host.Outcome State Fault Refusal :=
  .next (let s := s.advance t
    if s.repair.phase ≠ 9 || s.repair.ready || (s.beaconMet && s.topologyMet) ||
        s.time < s.repair.phase7At + s.repair.topoWait * cyclesPerS then s
    else
      let s := s.toPhase 15
      if s.beaconMet then s.logState 0x2D00 7 unitModule 9 15 else s.logState 0x2700 2 unitModule 9 15)

end Sys2Proof.Machine
end

