-- ==== Sys2Proof/Machine/CatalogRun.lean ====
section
/-! DEFINITION. Catalog commands (R185, R186, R233 to R235, R239, R360, R400): NAMESPACE_CREATE, NAMESPACE_DELETE, INDEX_CREATE,
INDEX_DELETE, GRANT_CREATE, GRANT_REVOKE, TABLE_CREATE, VERSION_SWITCH. A module that leads, or is alone, makes the leader's checks and sets
F; another one makes the same checks on the same catalog and forwards the change to the leader (log 36). -/
namespace Sys2Proof.Machine

/-- Does a module forward catalog changes: it is one of a composition that another module leads (R186, R234)? -/
def State.forwards (s : State) : Bool := s.mgmt.sealed_ && !s.leads

/-- The epoch F that a leader gives a change: the first at least MAP_LEAD epochs ahead, and the first after the maps already announced, for
a map of that epoch carries the change (R234, R356). -/
def State.changeEpoch (s : State) : Nat :=
  if s.mgmt.sealed_ && s.announced.isSome then max s.catalogEpoch (s.announcedEpoch + 1) else s.catalogEpoch

/-- The number by which a forwarded change is reported. -/
def changeNo : CatalogChange → Nat
  | .nsCreate _ => 0
  | .nsDelete _ => 1
  | .idxCreate _ => 2
  | .idxDelete _ _ => 3
  | .grantCreate _ => 4
  | .grantRevoke _ _ => 5
  | .isolation _ => 6

/-- Schedule a catalog change for F, in a composition by announcing a map that holds it, or forward it to the leader; the command completes
when F opens (R186, R234). -/
def State.schedule (s : State) (r : Option AdminRef) (c : Nat → CatalogChange) : State :=
  if s.forwards then
    ({ s with catalog := { s.catalog with forwarded := s.catalog.forwarded ++ [(⟨s.epochs.open_, c 0, r⟩ : PendingChange)] } } : State).emit
      (.report 12 [s.epochs.leader, changeNo (c 0)])
  else
    let f := s.changeEpoch
    let s := { s with catalog := { s.catalog with pending := s.catalog.pending ++ [(⟨f, c f, r⟩ : PendingChange)] } }
    if s.mgmt.sealed_ then s.announceNext id else s

/-- Changes that wait for their epoch here, or at the leader. -/
def State.awaited (s : State) : List PendingChange := s.catalog.pending ++ s.catalog.forwarded

/-- Is a namespace ID in use: held, or to be created (R234)? -/
def State.nsUsed (s : State) (ns : Nat) : Bool :=
  (s.catalog.namespaces.any fun n => n.ns = ns && n.deleted.isNone) ||
    s.awaited.any fun p => match p.change with
      | .nsCreate n => n.ns = ns
      | _ => false

/-- Is an index of a namespace to be created? -/
def State.idxComing (s : State) (ns : Nat) : Bool :=
  s.awaited.any fun p => match p.change with
    | .idxCreate i => i.ns = ns
    | _ => false

/-- Is an index to be deleted already? -/
def State.idxEnding (s : State) (ns idx : Nat) : Bool :=
  s.awaited.any fun p => match p.change with
    | .idxDelete a b => a = ns && b = idx
    | _ => false

/-- Is an index ID in use, or does a deleted index of that ID still hold data (R234)? -/
def State.idxUsed (s : State) (ns idx : Nat) : Bool :=
  (s.catalog.indices.any fun i => i.ns = ns && i.idx = idx && !i.discarded) ||
    s.awaited.any fun p => match p.change with
      | .idxCreate i => i.ns = ns && i.idx = idx
      | _ => false

/-- Namespaces and indices that count against the limits of R233. -/
def State.nsCount (s : State) : Nat :=
  (s.catalog.namespaces.filter fun n => n.deleted.isNone).length + (s.awaited.filter fun p => match p.change with
    | .nsCreate _ => true
    | _ => false).length

/-- Indices, deleted ones included until their data is freed (R233). -/
def State.idxCount (s : State) : Nat :=
  (s.catalog.indices.filter fun i => !i.discarded).length + (s.awaited.filter fun p => match p.change with
    | .idxCreate _ => true
    | _ => false).length

/-- NAMESPACE_CREATE (R234). -/
def execNamespaceCreate (cmd : AdminCmd) (s : State) : Host.Outcome State Fault Refusal :=
  .next (s.adminCommand cmd 0x33 6 true true fun s r =>
    let ns := field cmd.entry 48 4
    let owner := field cmd.entry 52 2
    if owner = 0 || owner = 0xFFFF || ns = 0 || ns = 0xFFFFFFFF then s.adminDone r 2 [] []
    else if s.nsUsed ns then s.adminDone r 0x205 [] []
    else if s.nsCount ≥ 4096 then s.adminDone r 0x209 [] []
    else s.schedule (some r) fun f => .nsCreate { ns, owner, created := f })

/-- NAMESPACE_DELETE (R234). -/
def execNamespaceDelete (cmd : AdminCmd) (s : State) : Host.Outcome State Fault Refusal :=
  .next (s.adminCommand cmd 0x34 4 true true fun s r =>
    let ns := field cmd.entry 48 4
    if (s.nsAt ns s.epochs.open_).isNone then s.adminDone r 0x204 [] []
    else if (s.catalog.indices.any fun i => i.ns = ns && i.deleted.isNone && !s.idxEnding ns i.idx) || s.idxComing ns then
      s.adminDone r 0x206 [] []
    else s.schedule (some r) fun _ => .nsDelete ns)

/-- INDEX_CREATE (R234). -/
def execIndexCreate (cmd : AdminCmd) (s : State) : Host.Outcome State Fault Refusal :=
  .next (s.adminCommand cmd 0x35 12 true false fun s r =>
    let ns := field cmd.entry 48 4
    let idx := field cmd.entry 52 4
    let metric := field cmd.entry 56 1
    let width := field cmd.entry 57 1
    let dim := field cmd.entry 58 2
    if metric > 3 || width > 3 || dim = 0 || dim > 4096 || idx = 0 || idx = 0xFFFFFFFF then s.adminDone r 2 [] []
    else match s.ownerFail cmd.fn ns none with
      | some c => s.adminDone r c [] []
      | none =>
        if s.idxUsed ns idx then s.adminDone r 0x207 [] []
        else if s.idxCount ≥ 16384 then s.adminDone r 0x209 [] []
        else s.schedule (some r) fun f => .idxCreate { ns, idx, metric, width, dim, created := f })

/-- INDEX_DELETE (R234). -/
def execIndexDelete (cmd : AdminCmd) (s : State) : Host.Outcome State Fault Refusal :=
  .next (s.adminCommand cmd 0x36 8 true false fun s r =>
    let ns := field cmd.entry 48 4
    let idx := field cmd.entry 52 4
    match s.ownerFail cmd.fn ns (some idx) with
    | some c => s.adminDone r c [] []
    | none => s.schedule (some r) fun _ => .idxDelete ns idx)

/-- Is a grant current: no VALID_UNTIL set (R186)? -/
def State.grantFor (s : State) (ns grantee : Nat) : Option Grant :=
  s.catalog.grants.find? fun g => g.ns = ns && g.grantee = grantee && g.until_.isNone

/-- Is a grant change of a grantee waiting for its epoch? -/
def State.grantWaits (s : State) (ns grantee : Nat) (create : Bool) : Bool :=
  s.awaited.any fun p => match p.change with
    | .grantCreate g => create && g.ns = ns && g.grantee = grantee
    | .grantRevoke a b => !create && a = ns && b = grantee
    | _ => false

/-- Grants of a namespace that count against its limit: VALID_UNTIL above the latest closed epoch (R186). -/
def State.grantCount (s : State) (ns : Nat) : Nat :=
  (s.catalog.grants.filter fun g => g.ns = ns && (match g.until_ with
    | none => true
    | some u => decide (u > s.usableClosed))).length + (s.awaited.filter fun p => match p.change with
    | .grantCreate g => g.ns = ns
    | _ => false).length

/-- Why a grant is refused, or none; `caller` is the function whose command it is, none for the management firmware, which is no owner
(R186). -/
def State.grantFail (s : State) (caller : Option Nat) (ns grantee groups : Nat) : Option Nat :=
  if grantee = 0 || grantee = 0xFFFF || groups = 0 then some 2
  else match (match caller with
    | some fn => s.ownerFail fn ns none
    | none => if (s.nsAt ns s.epochs.open_).isNone then some 0x204 else none) with
  | some c => some c
  | none =>
    if (s.nsAt ns s.epochs.open_).any fun n => n.owner = grantee then some 2
    else if ((s.grantFor ns grantee).isSome && !s.grantWaits ns grantee false) || s.grantWaits ns grantee true then some 0x301
    else if s.grantCount ns ≥ 16 then some 0x300
    else none

/-- Why a revocation is refused, or none (R186). -/
def State.revokeFail (s : State) (caller : Option Nat) (ns grantee : Nat) : Option Nat :=
  match (match caller with
    | some fn => s.ownerFail fn ns none
    | none => if (s.nsAt ns s.epochs.open_).isNone then some 0x204 else none) with
  | some c => some c
  | none => if (s.grantFor ns grantee).isNone || s.grantWaits ns grantee false then some 0x302 else none

/-- GRANT_CREATE, by a function of the owning tenant or by the management firmware (R186). -/
def execGrantCreate (grant : GrantCmd) (s : State) : Host.Outcome State Fault Refusal :=
  .next (let ns := field grant.cmd.entry 48 4
    let grantee := field grant.cmd.entry 52 2
    let groups := field grant.cmd.entry 56 4
    let change (f : Nat) : CatalogChange := .grantCreate { ns, grantee, groups, from_ := f }
    if grant.firmware then (if (s.grantFail none ns grantee groups).isSome then s else s.schedule none change)
    else s.adminCommand grant.cmd 0x40 12 (allZero grant.cmd.entry 54 2) false fun s r =>
      match s.grantFail (some grant.cmd.fn) ns grantee groups with
      | some c => s.adminDone r c [] []
      | none => s.schedule (some r) change)

/-- GRANT_REVOKE, by a function of the owning tenant or by the management firmware (R186). -/
def execGrantRevoke (grant : GrantCmd) (s : State) : Host.Outcome State Fault Refusal :=
  .next (let ns := field grant.cmd.entry 48 4
    let grantee := field grant.cmd.entry 52 2
    let revoke (_ : Nat) : CatalogChange := .grantRevoke ns grantee
    if grant.firmware then (if (s.revokeFail none ns grantee).isSome then s else s.schedule none revoke)
    else s.adminCommand grant.cmd 0x41 6 true false fun s r =>
      match s.revokeFail (some grant.cmd.fn) ns grantee with
      | some c => s.adminDone r c [] []
      | none => s.schedule (some r) revoke)

/-- TABLE_CREATE: a feature table with its default row (R360). -/
def execTableCreate (cmd : AdminCmd) (s : State) : Host.Outcome State Fault Refusal :=
  .next (s.adminCommand cmd 0x42 32 (allZero cmd.entry 67 13) false fun s r =>
    let e := cmd.entry.drop 48
    let table := field e 0 4
    let ns := field e 4 4
    let rows := field e 8 8
    let rowBytes := field e 16 2
    let sl := field e 18 1
    let def_ := adminInput cmd
    if rows = 0 || rows > 2 ^ 40 || rowBytes < 8 || rowBytes > 1024 || rowBytes % 8 ≠ 0 || sl < 16 || sl > 24 ||
        def_.length ≠ rowBytes then s.adminDone r 2 [] []
    else match s.ownerFail cmd.fn ns none with
      | some c => s.adminDone r c [] []
      | none =>
        if s.exchange.tables.any fun t => t.table = table && t.ns = ns && t.deletedAt.isNone then s.adminDone r 0x600 [] []
        else
          let t : FeatTable := { table, ns, rows, rowBytes, shardLog := sl, default_ := def_ }
          ({ s with exchange := { s.exchange with tables := s.exchange.tables ++ [t] } } : State).syncFeatures.adminDone r 0 [] [])

/-- A switch asked for at a module that does not lead goes to the leader; its command completes with the F that a beacon announces (R239). -/
def State.askSwitch (s : State) (r : AdminRef) (ns idx ver : Nat) : State :=
  ({ s with catalog := { s.catalog with asked := s.catalog.asked ++ [(r, ver, ns, idx)] } } : State).emit (.report 13 [ns, idx, ver])

/-- Does an older version of a version's index still drain? An index has one DRAINING version at most, so that a switch is not ready until it
is gone (R237; DESIGN CHOICE of the status, log 88). -/
def State.oldDrains (s : State) (v : Version) : Bool :=
  s.catalog.versions.any fun x => x.ns = v.ns && x.idx = v.idx && x.state == .draining

/-- VERSION_SWITCH: the leader's checks, then F is the fourth epoch to open (R77, R239). -/
def execVersionSwitch (cmd : AdminCmd) (s : State) : Host.Outcome State Fault Refusal :=
  .next (s.adminCommand cmd 0x31 12 true false fun s r =>
    let ns := field cmd.entry 48 4
    let idx := field cmd.entry 52 4
    let ver := field cmd.entry 56 4
    match s.ownerFail cmd.fn ns (some idx) with
    | some c => s.adminDone r c [] []
    | none => match s.versionOf ns idx ver with
      | none => s.adminDone r 0x20A [] []
      | some v =>
        if !(v.state == .ready) || s.oldDrains v then s.adminDone r 0x202 [] []
        else if !((s.imageByDigest v.image).any fun x => !x.2.installed.isEmpty) then s.adminDone r 0x203 [] []
        else if v.switchEpoch ≠ 0 then s.adminDone r 0 [] (leBytes 8 v.switchEpoch)
        else if !s.leads then s.askSwitch r ns idx ver
        else
          let f := s.epochs.open_ + 4
          let s := s.updVersion ns idx ver fun v => { v with switchEpoch := f }
          let s := { s with epochs := { s.epochs with switches := s.epochs.switches ++ [(ver, ns, idx, f)] } }
          s.adminDone r 0 [] (leBytes 8 f))

end Sys2Proof.Machine
end

