-- ==== Sys2Proof/Machine/Checks.lean ====
section
/-! DEFINITION. Campion probes, dual-strand checks and shadowing (R502 to R511): CAMPION_ISSUE, CAMPION_RESULT, DUAL_CHECK_COMPARE,
SHADOW_START, SHADOW_DIGEST, SHADOW_PEER_FAIL. -/
namespace Sys2Proof.Machine

/-! ## Campion probes -/

/-- The tensor tiles in service, as partition × 16 + tile. -/
def State.tensorTiles (s : State) : List Nat :=
  upTo 64 fun n => !s.repair.partsOut.contains (n / 16) && !s.repair.tilesOut.contains (unitTensor (n / 16) (n % 16))

/-- The n-th of a list, round and round. -/
def rotation (xs : List Nat) (n : Nat) : Option Nat := xs[n % xs.length]?

/-- Add a probe to a strand or a tensor tile: the module's p-th probe uses SCAN tile p mod 4 and RERANK tile p mod 2 (R502). -/
def State.addCampion (s : State) (tensor : Bool) (target : Nat) : State :=
  let p := s.repair.nextCampion
  let c : Campion := { num := p, tensor, target, scanTile := p % 4, rerankTile := p % 2 }
  let s := { s with repair := { s.repair with campions := s.repair.campions ++ [c], nextCampion := p + 1 } }
  (s.wake (if tensor then .tensor else .strand) target 4).spendCycles 0x2D10 1

/-- Probes at once to one strand. -/
def State.probeStrand (s : State) (g : Nat) : State := if s.strandUp g then s.addCampion false g else s

/-- A new value of CAMPION_RATE takes effect with the next second (R513). -/
def State.takeRate (s : State) : State :=
  let sec := s.time / cyclesPerS
  if sec = s.repair.campionSecond then s
  else { s with repair := { s.repair with campionSecond := sec, campionRate := s.setting 0x2D04 1 64 } }

/-- CAMPION_ISSUE: the next probe of the rotation, three in four to a strand and one in four to a tensor tile (R502). -/
def execCampionIssue (t : Nat) (s : State) : Host.Outcome State Fault Refusal :=
  .next (let s := (s.advance t).takeRate
    let rate := s.repair.campionRate
    if !s.repair.ready || s.power.step ≥ 2 || rate = 0 then s
    else if s.time < s.repair.lastCampion + cyclesPerS / rate then s
    else
      let p := s.repair.nextCampion
      let tensor : Bool := p % 4 = 3
      let target := if tensor then rotation s.tensorTiles (p / 4) else rotation (upTo 32 s.strandUp) (p - p / 4)
      match target with
      | some x => ({ s with repair := { s.repair with lastCampion := s.time } } : State).addCampion tensor x
      | none => s)

/-- The tile of a strand probe that a stage class names (R503). -/
def campionTile (c : Campion) (stage : Nat) : Nat :=
  unitTile c.target stage (if stage = 3 then c.scanTile else if stage = 5 then c.rerankTile else 0)

/-- Can a probe fail at a stage class: a tensor tile only as one, a strand at SCAN, FILTER, RERANK, SELECT or EMIT (R503)? -/
def campionStageOk (c : Campion) (stage : Nat) : Bool :=
  stage = 0 || (if c.tensor then stage = 10 else [3, 4, 5, 7, 8].contains stage)

/-- The unit that a failure names. -/
def campionUnit (c : Campion) (stage : Nat) : Nat :=
  if c.tensor then unitTensor (c.target / 16) (c.target % 16) else campionTile c stage

/-- Partition of a probe's target. -/
def campionPart (c : Campion) : Nat := if c.tensor then c.target / 16 else c.target / 8

/-- A passed probe is remembered for its tiles in the lowest temperature band (R506). -/
def State.campionPassed (s : State) (c : Campion) : State :=
  let band := (s.binsOf (campionPart c) 0).1
  let units := if c.tensor then [campionUnit c 10] else [3, 4, 5, 7, 8].map (campionTile c)
  let low (m : Table Nat) (u : Nat) : Table Nat := match m.get u with
    | some b => m.set u (min b band)
    | none => m.set u band
  { s with repair := { s.repair with passed := units.foldl low s.repair.passed } }

/-- A failure scores its tile and is logged with its bins (R503, R505, R506). -/
def State.scoreCampion (s : State) (c : Campion) (stage load : Nat) : State :=
  let unit := campionUnit c stage
  ((s.logFault 0x2D10 7 unit (campionPart c) stage c.num load).tileFault unit (campionPart c) load).score unit 250

/-- The first strand in service of another partition. -/
def State.strandElsewhere (s : State) (g : Nat) : Option Nat := (upTo 32 fun h => s.strandUp h && h / 8 ≠ g / 8).head?

/-- A failed strand probe is repeated on its strand and on one of another partition (R503). -/
def State.repeatCampion (s : State) (c : Campion) (unit : Nat) : State :=
  let again : Campion := { c with num := c.num + 2 ^ 40, round := 1, blamed := unit, points := 250 }
  let other : List Campion := match s.strandElsewhere c.target with
    | some h => [{ c with num := c.num + 2 ^ 41, target := h, round := 2, blamed := unit, points := 250 }]
    | none => []
  { s with repair := { s.repair with campions := s.repair.campions ++ again :: other } }

/-- The points that a probe and its repeat gave a unit are withdrawn (R503). -/
def State.withdrawScore (s : State) (unit points : Nat) : State :=
  let h := s.healthOf unit
  s.setHealth unit { h with score := h.score - points }

/-- A probe that failed: first run, repeat on the same strand, repeat on another strand (R503; log 56). -/
def State.campionFailed (s : State) (c : Campion) (stage load : Nat) : State :=
  let s := s.tally 0x2D10 7
  let unit := campionUnit c stage
  match c.round with
  | 0 =>
    let s := s.scoreCampion c stage load
    if c.tensor then s else s.repeatCampion c unit
  | 1 =>
    let s := s.scoreCampion c stage load
    let add (x : Campion) : Campion := { x with points := x.points + (if x.blamed = unit then 250 else 0) }
    { s with repair := { s.repair with campions := replaceFirst (fun x => x.num = c.num + 2 ^ 40) add s.repair.campions } }
  | _ =>
    let gone (x : Campion) : Bool := x.num + 2 ^ 40 = c.num && x.round = 1
    let s := { s with repair := { s.repair with campions := s.repair.campions.filter fun x => !gone x } }
    ((s.logFault 0x2D10 7 unit (campionPart c) stage c.num load).withdrawScore c.blamed c.points).emit
      (.report 11 [c.blamed, campionPart c])

/-- CAMPION_RESULT: a probe's digests are checked in stage order (R503); 0 is a pass, else the stage class that the first differing
digest names. -/
def execCampionResult (num stage load : Nat) (s : State) : Host.Outcome State Fault Refusal :=
  .next (match s.repair.campions.find? fun c => c.num = num with
    | some c =>
      if !campionStageOk c stage then s
      else
        let s := { s with repair := { s.repair with campions := s.repair.campions.filter fun x => x.num ≠ num } }
        let s := s.tally 0x2D10 6
        if stage = 0 then s.campionPassed c else (s.campionFailed c stage load).settle
    | none => s)

/-! ## Dual-strand checks -/

/-- The two digests of a dual-strand check differ (R504). -/
def State.dualMismatch (s : State) (d : DualCheck) : State :=
  let one (s : State) (g : Nat) : State :=
    let load := Config.loadBin s.freeCount
    let s := { s with freeCount := s.freeCount + 1 }
    (s.logFault 0x2D10 9 (unitStrand g) (g / 8) 0 d.handle load).score (unitStrand g) 125
  let s := one (one (s.tally 0x2D10 9) d.g1) d.g2
  ((s.probeStrand d.g1).probeStrand d.g2).settle

/-- DUAL_CHECK_COMPARE: both runs of a probe have ended, and the check digests that the two strands computed are compared (R504). -/
def execDualCheckCompare (q list : Nat) (first second : List Byte) (s : State) : Host.Outcome State Fault Refusal :=
  .next (
    let mine (d : DualCheck) : Bool := handleSerial d.handle = q && d.list = list && d.d1.isSome && d.d2.isSome
    match s.repair.duals.find? mine with
    | some d =>
      let s := { s with repair := { s.repair with duals := s.repair.duals.erase d } }
      if first = second then s.tally 0x2D10 8 else s.dualMismatch d
    | none => s)

/-! ## Shadowing -/

/-- SHADOW_START: a leader marks the set MOVING in its next map; the partner, once that map is installed, copies the set to the shadow,
which takes it (R507, R359 steps 1 to 3). -/
def execShadowStart (peer : Nat) (partner : Bool) (shards : List Nat) (s : State) : Host.Outcome State Fault Refusal :=
  .next (
    let self := s.mgmt.moduleId
    let home := if partner then self else peer
    let dest := if partner then peer else self
    let entries := shards.map fun n => s.lastMap.bind fun m => m.shards[n]?
    let all (st : Nat) : Bool := entries.all fun e => match e with
      | some e => e.home = home && e.state = st
      | none => false
    let mine (m : ShardMove) : Bool := m.shadow && !m.feature && shards.contains m.shard
    let busy := s.exchange.moves.any fun m => !mine m && (m.source = home || m.dest = home || m.source = dest || m.dest = dest)
    if shards.isEmpty || shards.eraseDups.length ≠ shards.length || peer = self || peer ≥ 4096 || s.repair.shadow.state ≠ 0 || busy then s
    else if all 0 && s.leads then
      s.announceNext fun m => shards.foldl (fun m n => mapShard false n (fun x => { x with state := 1 }) m) m
    else if all 1 then
      let sh : Shadow := { role := if partner then 1 else 2, peer, shards }
      let new : List ShardMove := if partner
        then shards.map fun n => { shard := n, source := self, dest := peer, f1 := s.newestMap, shadow := true } else []
      let s := ({ s with
        repair := { s.repair with shadow := sh }
        exchange := { s.exchange with moves := (s.exchange.moves.filter fun m => !mine m) ++ new } } : State).setShadow 1
      new.foldl (fun s m => s.copyRound m) s
    else s)

/-- The move of the set ends without promotion: a shadow frees its copies, the partner remains home, a leader's next map shows the set
LIVE again, and each raises one event (R510, R511). -/
def State.endShadow (s : State) : State :=
  let sh := s.repair.shadow
  if sh.state = 0 then s
  else
    let s := { s with exchange := { s.exchange with moves := s.exchange.moves.filter fun m => m.feature || !sh.shards.contains m.shard } }
    let s := if sh.role = 2 then sh.shards.foldl (fun s n => s.dropShard n) s else s
    let s := if s.leads && sh.role = 1 then
        s.announceNext fun m => sh.shards.foldl (fun m n => mapShard false n (fun x => { x with state := 0 }) m) m
      else s
    let s := s.setShadow 0
    { s with repair := { s.repair with shadow := {} } }

/-- A disagreement (R510). -/
def State.shadowDisagrees (s : State) (g : Nat) : State :=
  let sh := s.repair.shadow
  let s := { s with repair := { s.repair with shadow := { sh with agreed := 0, disagreed := sh.disagreed + 1 } } }
  let s := s.probeStrand g
  if sh.disagreed + 1 ≥ s.setting 0x2D02 4 3 then (s.emit (.report 10 [sh.peer])).endShadow else s

/-- An agreement; enough of them ask the leader to promote, and a leader announces the map that makes the shadow home (R509). -/
def State.shadowAgrees (s : State) : State :=
  let sh := s.repair.shadow
  let n := sh.agreed + 1
  let s := { s with repair := { s.repair with shadow := { sh with agreed := n } } }
  if n ≥ s.setting 0x2D02 1 50000 && s.time ≥ sh.since + s.setting 0x2D02 2 600 * cyclesPerS then
    let s := (s.setShadow 3).emit (.report 9 [sh.peer])
    if s.leads then s.announceNext fun m => sh.shards.foldl (fun m n => s.homeTo false n sh.peer m) m else s
  else s

/-- Does a check-mode probe of a handle still run here for its partial result? -/
def State.checkRuns (s : State) (handle : Nat) : Bool :=
  s.pipe.batches.any fun kb => kb.2.members.any fun m => m.handle = handle && m.check && !m.discard && !m.ended

/-- SHADOW_DIGEST: the shadow's check digest of one probe reaches the partner, which compares it with its own (R508 to R510). -/
def execShadowDigest (handle list : Nat) (digest : List Byte) (s : State) : Host.Outcome State Fault Refusal :=
  .next (
    let sh := s.repair.shadow
    if sh.role ≠ 1 || sh.state ≠ 2 then s
    else
      let live := sh.waiting.filter fun w => decide (s.time < w.deadlineAt)
      let mine (w : ShadowWait) : Bool := w.handle = handle && w.list = list && w.state = 0
      let put (s : State) (ws : List ShadowWait) : State :=
        { s with repair := { s.repair with shadow := { s.repair.shadow with waiting := ws } } }
      match live.find? mine with
      | none => put s live
      | some w =>
        if w.digest = digest then
          let ws := replaceFirst mine (fun w => { w with state := 1 }) live
          if !s.checkRuns handle && ws.all (fun w => w.handle ≠ handle || w.state = 1) then
            (put s (ws.map fun w => if w.handle = handle then { w with state := 3 } else w)).shadowAgrees
          else put s ws
        else
          let counted := live.any fun w => w.handle = handle && w.state = 2
          let s := put s (replaceFirst mine (fun w => { w with state := 2 }) live)
          if counted then s else s.shadowDisagrees w.g)

/-- SHADOW_PEER_FAIL: the partner or the shadow of this module has failed or left the map; the shadow's copy is never promoted. Where the
partner has failed and this shadow leads, its next map shows the set REBUILDING, with this module as the new home where it has room (R511;
who it names without room is no rule's: the old home stays named, log 94). -/
def execShadowPeerFail (s : State) : Host.Outcome State Fault Refusal :=
  .next (
    let sh := s.repair.shadow
    let s := s.endShadow
    if sh.state = 0 || sh.role ≠ 2 || !s.leads then s
    else
      let room := s.tierRoom 0 false > 0
      let lost (e : ShardEntry) : ShardEntry := { e with state := 2, home := if room then s.mgmt.moduleId else e.home }
      s.announceNext fun m => sh.shards.foldl (fun (m : CompMap) n => mapShard false n lost m) m)

end Sys2Proof.Machine
end

