-- ==== Sys2Proof/Machine/CodeGroup.lean ====
section
/-! DEFINITION. The code group of a shard (R371, R374, R375): the commands CODE_FLUSH, MEMBER_REBUILD, HOME_REBUILD. -/
namespace Sys2Proof.Machine

/-- CODE_FLUSH: a stripe unfinished CODE_FLUSH after its first byte is padded, coded and its fragments sent (R371). -/
def execCodeFlush (shard t : Nat) (s : State) : Host.Outcome State Fault Refusal :=
  .next (let s := s.advance t
    match s.exchange.streams.get shard with
    | some c => if c.open_.isEmpty || s.time < c.firstAt + c.flushMs * cyclesPerMs then s else s.closeStripe shard
    | none => s)

/-! ## Any 8 of the 10 (R371) -/

/-- The chunk of a fragment of one stripe. -/
def chunkIn (fs : List FragIn) (f : Nat) : Option (List Byte) := (fs.find? fun x => x.frag = f).map (·.chunk)

/-- A parity chunk less the data chunks that are there. -/
def syndrome (fs : List FragIn) (j : Nat) (p : List Byte) : List Byte :=
  (List.range 8).foldl (fun acc i => match chunkIn fs i with
    | some d => xorBytes acc (gfScale (parityCoeff j i) d)
    | none => acc) p

/-- The chunk of data fragment `i` where one, `m`, is missing and parity `j` is there. -/
def solveOne (fs : List FragIn) (m j : Nat) (p : List Byte) (i : Nat) : List Byte := match chunkIn fs i with
  | some d => d
  | none => if i = m then gfScale (gfInv (parityCoeff j m)) (syndrome fs j p) else []

/-- The chunk of data fragment `i` where two, `a` and `b`, are missing and both parities are there. -/
def solveTwo (fs : List FragIn) (a b : Nat) (p0 p1 : List Byte) (i : Nat) : List Byte := match chunkIn fs i with
  | some d => d
  | none =>
    let s0 := syndrome fs 0 p0
    let s1 := syndrome fs 1 p1
    let c (j m : Nat) : Nat := parityCoeff j m
    let det := gfInv (gfMul (c 0 a) (c 1 b) ^^^ gfMul (c 1 a) (c 0 b))
    if i = a then gfScale det (xorBytes (gfScale (c 1 b) s0) (gfScale (c 0 b) s1))
    else gfScale det (xorBytes (gfScale (c 0 a) s1) (gfScale (c 1 a) s0))

/-- The eight data chunks of a stripe from any eight of its fragments. -/
def recoverStripe (fs : List FragIn) : Option (List (List Byte)) :=
  match (List.range 8).filter (fun i => (chunkIn fs i).isNone), chunkIn fs 8, chunkIn fs 9 with
  | [], _, _ => some ((List.range 8).map fun i => (chunkIn fs i).getD [])
  | [m], some p, _ => some ((List.range 8).map (solveOne fs m 0 p))
  | [m], none, some p => some ((List.range 8).map (solveOne fs m 1 p))
  | [a, b], some p0, some p1 => some ((List.range 8).map (solveTwo fs a b p0 p1))
  | _, _, _ => none

/-- The stripes read, in order of their number. -/
def stripesOf (read : List FragIn) : List (Nat × List FragIn) :=
  (sortBy (fun a b => decide (a < b)) (read.map (·.stripe)).eraseDups).map fun n => (n, read.filter fun f => f.stripe = n && f.frag < 10 && f.chunk.length = 65536)

/-- MEMBER_REBUILD: a replacement member rebuilds its fragment of every stripe from eight others (R374). -/
def execMemberRebuild (shard frag : Nat) (read : List FragIn) (s : State) : Host.Outcome State Fault Refusal :=
  .next (if (s.codeGroup shard)[frag]? ≠ some s.mgmt.moduleId then s
    else (stripesOf read).foldl (fun s st =>
      match recoverStripe (st.2.filter fun f => f.frag ≠ frag), st.2.head? with
      | some data, some h =>
        let all := data ++ [parityChunk 0 data, parityChunk 1 data]
        let f : Fragment := { shard, frag, stripe := st.1, firstEpoch := h.firstEpoch, lastEpoch := h.lastEpoch, chunk := all.getD frag [] }
        s.keepFragment f
      | _, _ => s) s)

/-! ## Replaying a shard's stream (R374) -/

/-- The writes of a stream: epoch, record, stored vector; zero words between them are padding (log 32). Fuel: the bytes. -/
def streamWrites : Nat → List Byte → List (Nat × IngestRec × List Byte)
  | 0, _ => []
  | n + 1, b =>
    if b.length < 8 then []
    else
      let e := field b 0 8
      if e = 0 then streamWrites n (b.drop 8)
      else
        let r := parseRecord (b.drop 8)
        let rest := b.drop (8 + r.size)
        let len := if r.op = 3 || r.keepVector then 0 else 4 + r.dim
        if b.length < 8 + r.size then []
        else (e, r, rest.take len) :: streamWrites n (rest.drop (roundUp 8 len))

/-- Replay one write of the stream at its epoch: the record it replaces is marked, and its entries join the shard's lists (R218 to R220). -/
def State.replayWrite (s : State) (shard e : Nat) (r : IngestRec) (stored : List Byte) : State :=
  let code := keyCode r.ns r.idx r.key
  let old := s.corpus.keys.getD code none
  let oldRec := old.bind fun o => s.corpus.records.get o
  let vs := s.writeVersions r.ns r.idx e
  let s := match old with
    | some o => ({ s with corpus := { s.corpus with records := s.corpus.records.alter o fun x => { x with delete := some e } } } : State).markRecord o e
    | none => s
  if r.op = 3 then { s with corpus := { s.corpus with keys := s.corpus.keys.set code none } }
  else
    let n := s.corpus.nextRec
    let stored := match oldRec with
      | some o => if r.keepVector then o.stored else stored
      | none => stored
    let payload := match oldRec with
      | some o => if r.keepPayload then o.payload else r.payload
      | none => r.payload
    let x := restoreVector stored
    let places := vs.flatMap fun v =>
      if r.keepVector then s.keptPlaces v shard e n r.key r.attr (old.getD 0) stored
      else
        let i := s.makeItem v e n r.key r.attr x
        (s.nearestLists v shard x).map fun h => (v.ver, h, i)
    let rec_ : Rec := { ns := r.ns, idx := r.idx, key := r.key, attr := r.attr, stored, payload, insert := e }
    let (s, rec_) := s.storeRec rec_ []
    let s := { s with corpus := { s.corpus with
      keys := s.corpus.keys.set code (some n), records := s.corpus.records.set n rec_, nextRec := n + 1 } }
    places.foldl (fun s p => s.appendEntry p.2.1 e p.2.2) s

/-- The lists of a rebuilt shard: one for each of its directory entries, empty. -/
def State.emptyLists (s : State) (shard : Nat) : State :=
  (s.corpus.dir.filter fun kv => kv.2.state = 1 && kv.2.shard = shard).foldl (fun s kv =>
    let e := kv.2
    let (s, h) := s.newList { ns := e.ns, idx := e.idx, version := e.version, listId := kv.1, shard } 1
    s.setEntry kv.1 { e with home := s.mgmt.moduleId, handle := h, items := 0 }) s

/-- A shard is rebuilt from its stream: its lists anew, every write replayed, the next stripe `seq`, and what follows epoch `last` logged as
lost (R374, R375). -/
def State.rebuildShard (s : State) (shard : Nat) (bytes : List Byte) (last seq : Nat) : State :=
  let s := ((s.corpus.lists.filter fun kl => kl.2.shard = shard).map (·.1)).foldl (fun s h => s.dropList h) s
  let s := s.emptyLists shard
  let s := (streamWrites bytes.length bytes).foldl (fun s w => s.replayWrite shard w.1 w.2.1 w.2.2) s
  let s := { s with exchange := { s.exchange with streams := s.exchange.streams.set shard { stripe := seq } } }
  let lost := Config.lostWrites s.freeCount
  let s := ({ s with freeCount := s.freeCount + 1 } : State).logState 0x2B10 0xE unitModule last s.epochs.open_
  s.count (objKey 0x2B10 0xE) lost

/-- The bytes of a record's unit, where the record is one of a stream's writes. -/
def State.streamUnit (s : State) (ws : List (Nat × IngestRec × List Byte)) (lba : Nat) : Option (List Byte) :=
  match s.corpus.records.find? fun kr => kr.2.units.contains lba with
  | some kr =>
    let r := kr.2
    if ws.any fun w => w.1 = r.insert && w.2.1.ns = r.ns && w.2.1.idx = r.idx && w.2.1.key = r.key then
      some (slice ((r.stored ++ r.payload).drop (4096 * r.units.idxOf lba)) 0 4096)
    else none
  | none => none

/-- The units of lost pages that the stripes read cover are compared with what the map names, and written again where they differ (R375). -/
def State.verifyShard (s : State) (shard : Nat) (bytes : List Byte) : State :=
  let ws := streamWrites bytes.length bytes
  (s.exchange.verify.filter fun v => v.1 = shard).foldl (fun s v => match s.streamUnit ws v.2 with
    | some b => ({ s with exchange := { s.exchange with verify := s.exchange.verify.filter (· ≠ v) } } : State).assignUnit 0 v.2 b none
    | none => s) s

/-- HOME_REBUILD: the new home of a REBUILDING shard reads eight fragments of every stripe, replays the stream, makes the shard's objects,
and logs what follows the last stripe as lost (R374, R375). With fewer than eight of any stripe nothing is rebuilt. A home whose replay lost
pages of the shard verifies them against the stripes (R375). -/
def execHomeRebuild (shard : Nat) (read : List FragIn) (s : State) : Host.Outcome State Fault Refusal :=
  .next (
    let st := stripesOf read
    let state := match s.lastMap.bind fun m => shardOf m shard with
      | some (h, n) => if h = s.mgmt.moduleId then some n else none
      | none => none
    let data := st.map fun x => recoverStripe x.2
    let bytes := data.flatMap fun d => (d.getD []).flatten
    if st.isEmpty || data.any Option.isNone then s
    else if state = some 2 then s.rebuildShard shard bytes ((read.map (·.lastEpoch)).foldl max 0) ((st.map (·.1)).foldl max 0 + 1)
    else if state = some 0 then s.verifyShard shard bytes
    else s)

end Sys2Proof.Machine
end

