-- ==== Sys2Proof/Machine/Objects.lean ====
section
/-! DEFINITION. The commands of the dictionary server (14) and the writes of single objects that have rows of their own: OBJECT_ACCESS,
SEGMENT_WRITE_TIMEOUT, OAP_REQUEST, LOG_BASE, COMPOSITION_SEAL, SETTINGS_DEFAULT, TELEMETRY_EXPORT, SHED_FORCE, F_MAX, RESET_TILE,
RESET_STRAND, RESET_PARTITION, RESET_MODULE, TENANT_SNAP_REQ, TENANT_REMOVE, TENANT_ISOLATION_MODE. -/
namespace Sys2Proof.Machine

/-- OBJECT_ACCESS: the response is sized before any item runs (R431). -/
def execObjectAccess (cmd : AdminCmd) (s : State) : Host.Outcome State Fault Refusal :=
  .next (s.adminCommand cmd 0x70 0 true false fun s r =>
    let b := adminInput cmd
    let size := if requestHeaderOk b then responseSize (parseItems (field b 0 2) (b.drop 8)) else 8
    if b.length > 65568 then s.adminDone r 2 [] []
    else if size > r.outLen then s.complete r.fn r.pair r.sqIndex 2 false false (adminBody 3 r.tag size [])
    else s.runRequest (.admin r) (.fn cmd.fn) b)

/-- SEGMENT_WRITE_TIMEOUT: an open write on which no segment has arrived for 1 s is discarded (R421). -/
def execSegmentWriteTimeout (t : Nat) (s : State) : Host.Outcome State Fault Refusal :=
  .next (let s := s.advance t
    { s with dict := { s.dict with segWrites := s.dict.segWrites.filter fun w => decide (s.time < w.at_ + cyclesPerS) } })

/-! ## The field network -/

/-- Order 1 of R435: MAGIC, VERSION, KIND, lengths and reserved fields, and the module it names (R433). -/
def State.oapFormOk (s : State) (f : List Byte) : Bool :=
  let n := field f 12 4
  f.length ≤ 1452 && n ≤ 1306 && f.length = 146 + n && slice f 0 4 = ascii "SZOA" && field f 4 1 = 1 && field f 5 1 = 1 &&
    field f 7 1 = 0 && field f 8 2 = s.mgmt.moduleId && field f 10 2 = 0

/-- The role of a key slot, 0 for one that is empty or beyond the list (R457). -/
def State.keyRole (s : State) (slot : Nat) : Nat :=
  if slot < 16 then field (s.dict.domains.getD (objKey 0x2E09 1) []) (80 * slot) 1 else 0

/-- Order 2 of R435: the slot names a key and the signature verifies. -/
def State.oapSigned (s : State) (f : List Byte) : Bool :=
  let slot := field f 6 1
  let pk := slice (s.dict.domains.getD (objKey 0x2E09 1) []) (80 * slot + 7) 57
  (s.keyRole slot = 1 || s.keyRole slot = 2) && edVerify (ascii "ZR96OAP") pk (f.take (f.length - 114)) (f.drop (f.length - 114))

/-- OAP_REQUEST: the checks of R435 in their order, then the request with the rights of its key's role. -/
def execOapRequest (frame : List Byte) (s : State) : Host.Outcome State Fault Refusal :=
  .next (if !s.mgmt.serverUp && !s.recoveryOffered then s
    else
      let s := s.count (objKey 0x2E08 1) frame.length
      let slot := field frame 6 1
      let seq := field frame 24 8
      if !s.oapFormOk frame then s.tally 0x2E08 4
      else if !s.oapSigned frame then s.tally 0x2E08 5
      else if field frame 16 8 ≠ s.dict.incarnation then (s.tally 0x2E08 6).sendOap 0 "SZOA" 2 1 seq []
      else if seq ≤ s.dict.oapSeq.getD slot 0 && (s.dict.oapSeq.get slot).isSome then s.tally 0x2E08 7
      else
        let waiting := (s.dict.waitingReqs.filter fun w => match w.owner with
          | .oap _ => true
          | _ => false).length
        if waiting ≥ 8 then s.sendOap 0 "SZOA" 2 2 seq []
        else
          let s := { s with dict := { s.dict with oapSeq := s.dict.oapSeq.set slot seq } }
          s.runRequest (.oap seq) (if s.keyRole slot = 2 then .operator else .reader) (slice frame 32 (field frame 12 4)))

/-! ## Telemetry (R468) -/

/-- The reads of one object's sub-indices, as a response holds them. -/
def State.telemetryOf (s : State) (index : Nat) : List (List Byte) :=
  (subs 1 ((highestSub index).getD 0)).filterMap fun sub => (objDef index sub).map fun d =>
    s.readItem .mgmt ⟨1, false, index, sub, 0, 0, [], true⟩ d none

/-- A tenant's snapshot: its ID, SNAP_SEQ and SNAP_EPOCH of `0x2033`, and the 24 counters (log 54). -/
def State.telemetrySnap (s : State) (tenant : Nat) : List (List Byte) :=
  let item (index sub ty len v : Nat) : List Byte := itemReply 0 0 ty len ⟨1, false, index, sub, 0, 0, [], true⟩ (leBytes len v)
  let meters := (List.range 24).map fun n => item 0x2033 (0x10 + n) 4 8 ((s.meterList tenant).getD n 0)
  item 0x2031 1 2 2 tenant :: item 0x2033 2 3 4 s.dict.tenantSnap.seq :: item 0x2033 3 4 8 s.epochs.closed :: meters

/-- The export of a mode: frames of at most 16 items. -/
def State.sendTelemetry (s : State) (mode : Nat) : State :=
  let items := ([0x2710, 0x2810, 0x2910, 0x2B10, 0x2E08, 0x2E0C, 0x2CF0, 0x2CF1] : List Nat).flatMap s.telemetryOf ++
    (if mode = 2 then (s.tenants.map (·.1)).flatMap s.telemetrySnap else [])
  (chunks 16 items).foldl (fun (s : State) c => s.sendOap (s.mgmt.oapPort + 1) "SZTM" 4 0 0 (responseBody 0 c)) s

/-- TELEMETRY_EXPORT: at the end of each interval, under the mode in force for it (R428, R468). -/
def execTelemetryExport (t : Nat) (s : State) : Host.Outcome State Fault Refusal :=
  .next (let s := s.advance t
    if s.time < s.mgmt.lastExport + s.mgmt.exportS * cyclesPerS then s
    else
      let s := if s.mgmt.exportMode ≠ 0 && s.mgmt.serverUp && s.dict.linkUp then s.sendTelemetry s.mgmt.exportMode else s
      { s with mgmt := { s.mgmt with lastExport := s.time, exportMode := s.setting 0x2E03 1 0, exportS := s.setting 0x2E03 2 10 } })

/-! ## Single writes -/

/-- LOG_BASE (R453). -/
def execLogBase (who : Accessor) (value : Nat) (s : State) : Host.Outcome State Fault Refusal :=
  .next (s.writeNow who 0x2E0B 3 (leBytes 8 value) none)

/-- COMPOSITION_SEAL (R428, R459). -/
def execCompositionSeal (who : Accessor) (value : Nat) (s : State) : Host.Outcome State Fault Refusal :=
  .next (s.writeNow who 0x2E01 1 (leBytes 1 value) none)

/-- SETTINGS_DEFAULT (R461). -/
def execSettingsDefault (who : Accessor) (value : Nat) (s : State) : Host.Outcome State Fault Refusal :=
  .next (s.writeNow who 0x2E06 1 (leBytes 1 value) none)

/-- SHED_FORCE (R478). -/
def execShedForce (who : Accessor) (value : Nat) (s : State) : Host.Outcome State Fault Refusal :=
  .next (s.writeNow who 0x2C00 6 (leBytes 1 value) none)

/-- F_MAX (R484). -/
def execFMax (who : Accessor) (value : Nat) (s : State) : Host.Outcome State Fault Refusal :=
  .next (s.writeNow who 0x2C00 4 (leBytes 2 value) none)

/-- RESET_REQUEST of a scope (R496). -/
def State.resetWrite (s : State) (who : Accessor) (scope : Nat) (req : ResetReq) : State := s.writeNow who 0x2D01 1 (resetBytes scope req) none

/-- RESET_TILE (R493). -/
def execResetTile (who : Accessor) (req : ResetReq) (s : State) : Host.Outcome State Fault Refusal := .next (s.resetWrite who 1 req)

/-- RESET_STRAND (R493). -/
def execResetStrand (who : Accessor) (req : ResetReq) (s : State) : Host.Outcome State Fault Refusal := .next (s.resetWrite who 2 req)

/-- RESET_PARTITION (R493). -/
def execResetPartition (who : Accessor) (req : ResetReq) (s : State) : Host.Outcome State Fault Refusal := .next (s.resetWrite who 3 req)

/-- RESET_MODULE (R493). -/
def execResetModule (who : Accessor) (req : ResetReq) (s : State) : Host.Outcome State Fault Refusal := .next (s.resetWrite who 4 req)

/-- TENANT_SNAP_REQ (R202). -/
def execTenantSnapReq (who : Accessor) (s : State) : Host.Outcome State Fault Refusal := .next (s.writeNow who 0x2033 1 (leBytes 1 1) none)

/-- TENANT_REMOVE (R183). -/
def execTenantRemove (who : Accessor) (tenant : Nat) (s : State) : Host.Outcome State Fault Refusal :=
  .next (s.writeNow who 0x2030 4 (leBytes 2 tenant) none)

/-- A mode just stored takes effect from the epoch that the leader has fixed (R185, R430). -/
def State.isolationFrom (s : State) (f : Nat) : State :=
  { s with catalog := { s.catalog with pending := match s.catalog.pending.getLast? with
    | some p => s.catalog.pending.dropLast ++ [{ p with epoch := f }]
    | none => [] } }

/-- TENANT_ISOLATION_MODE: with what the other modules of the composition answer to its leader, or with the epoch F that came from the leader;
after the closure of F the change is not taken (R185, R430). -/
def execTenantIsolationMode (who : Accessor) (mode : Nat) (others : ModuleAnswers) (leaderF : Option Nat) (s : State) :
    Host.Outcome State Fault Refusal :=
  .next (let stored := s.writeNow who 0x2030 2 (leBytes 1 mode) (some (others.spent, others.failed))
    match leaderF with
    | none => stored
    | some f =>
      if f ≤ s.epochs.closed then s
      else if stored.catalog.pending.length = s.catalog.pending.length then stored
      else stored.isolationFrom f)

end Sys2Proof.Machine
end

