-- ==== Sys2Proof/Machine/Repair.lean ====
section
/-! DEFINITION. Partial resets as they end, and the decay of health scores (R493 to R498): RESET_DRAIN_END, UNIT_RETURN, HEALTH_HALF_LIFE. -/
namespace Sys2Proof.Machine

/-- Does a job reset the unit that a scope, a partition and a strand name? -/
def jobNamed (scope part strand : Nat) (j : ResetJob) : Bool :=
  j.scope = scope && (scope = 4 || j.part = part) && (scope ≥ 3 || j.strand = strand)

/-- RESET_DRAIN_END: the drain is over, or its limit is, and what is left is absorbed (R493, R494). -/
def execResetDrainEnd (scope part strand t : Nat) (s : State) : Host.Outcome State Fault Refusal :=
  .next (let s := s.advance t
    match s.repair.jobs.find? fun j => jobNamed scope part strand j && j.draining && !j.waiting with
    | some j => if s.drained j || s.time ≥ j.startedAt + j.limit then (s.endDrain j).settleStat.resumeRequests else s
    | none => s)

/-- Is a partition that tripped not yet below 90 °C (R482)? -/
def State.stillHot (s : State) (j : ResetJob) : Bool := j.thermal && !tempBelow (s.sensors.getD (objKey 0x2CF0 (j.part + 1)) 0) 90

/-- UNIT_RETURN: a unit whose reset has run returns to service (R493); a partition that tripped only below 90 °C (R482). -/
def execUnitReturn (scope part strand : Nat) (t : Nat) (s : State) : Host.Outcome State Fault Refusal :=
  .next (let s := s.advance t
    match s.repair.jobs.find? fun j => jobNamed scope part strand j && !j.draining && decide (s.time ≥ j.startedAt + resetCycles j.scope) with
    | some j =>
      if s.stillHot j then s
      else
        let s := if j.thermal then { s with power := { s.power with tripped := s.power.tripped.filter (· ≠ j.part + 1) } } else s
        (s.returnUnit j).resumeRequests
    | none => s)

/-- HEALTH_HALF_LIFE: every score is halved, rounding down, and the next half-life begins (R498). -/
def execHealthHalfLife (t : Nat) (s : State) : Host.Outcome State Fault Refusal :=
  .next (let s := s.advance t
    if s.time < s.repair.halfLifeAt + s.repair.halfLifeH * 3600 * cyclesPerS then s
    else
      let s := (s.repair.health.map (·.1)).foldl (fun s u => let h := s.healthOf u; s.setHealth u { h with score := h.score / 2 }) s
      ({ s with repair := { s.repair with halfLifeAt := s.time, halfLifeH := s.setting 0x2D03 1 168 } } : State).settleLevel)

end Sys2Proof.Machine
end

