-- ==== Sys2Proof/Machine/Scan.lean ====
section
/-! DEFINITION. The commands of routing, batching, scan and filter: the lists and H of R22, distances under each item's generation (R23) (R50, R53, R59, R62 to R65, R87 to R100, R108 to R111, R124, R187 to R195):
WALK, CLOSE_WINDOW, CLOSE_URGENT, GIG_INTERVAL, GIG_QUOTA_SECOND, BATCH_SCAN_PASS, FILTER_CANDIDATE, SCAN_BOUND_ARRIVE,
ADMISSION_TABLE_PUBLISH. -/
namespace Sys2Proof.Machine

/-- The query that the partition's walker takes next: round robin over its strands, oldest first within one (R53). A strand whose ROUTE is
stalled has none (R58). -/
def State.nextWalk (s : State) (part : Nat) : Option (Nat × Query) :=
  let waiting (g : Nat) : List (Nat × Query) := s.pipe.queries.filter fun kq => kq.2.g = g && kq.2.phase == .toWalk
  match nextStrand ((s.pipe.walkLast.getD part 7)) fun n => !(waiting (8 * part + n)).isEmpty && !s.routeStalled (8 * part + n) with
  | some n => firstBy (fun a b => decide (a.2.seq < b.2.seq)) (waiting (8 * part + n))
  | none => none
where
  /-- The first strand after `last`, in rotation over eight, that satisfies a test. -/
  nextStrand (last : Nat) (p : Nat → Bool) : Option Nat := ((List.range 8).map fun i => (last + 1 + i) % 8).find? p

/-- The chosen lists of a walk, with the item counts that coverage uses: visible entries at the snapshot where the list is held
here, the directory's ITEMS elsewhere (R35, R104; log 24). -/
def State.chosenLists (s : State) (x : Query) (lists : List Nat) : List ChosenList :=
  lists.map fun t =>
    let items := match s.corpus.dir.get t with
      | some e => match if e.home = s.mgmt.moduleId then s.list e.handle else none with
        | some l => visibleCount l (x.snapshot.getD 0)
        | none => e.items
      | none => 0
    { list := t, items }

/-- The counts of a walk: nodes read stale, forwards followed, limits met and the expansion limit reached, and each kept list's probes (R104,
R110, R111). -/
def State.walkCounts (s : State) (part limit : Nat) (w : WalkState) (lists : List Nat) : State :=
  let s := s.count (objKey (0x2318 + part) 2) 1
  let s := s.count (objKey (0x2318 + part) 3) w.stale
  let s := s.count (objKey (0x2318 + part) 4) w.forwards
  let s := s.count (objKey (0x2318 + part) 5) w.limits
  let s := s.count (objKey (0x2318 + part) 6) (if w.hops = limit then 1 else 0)
  lists.foldl (fun s t => s.count (probesKey part t) 1) s

/-- A query has been walked: its chosen lists stand in it, and their probes enter the link to the dispatch (R53, R57, R104, R108). -/
def State.walked (s : State) (part q : Nat) (x : Query) (lists : List Nat) : State :=
  ({ s with pipe := { s.pipe with walkLast := s.pipe.walkLast.set part (x.g % 8) } } : State).tryFinish q
    { x with routed := true, chosen := s.chosenLists x lists, phase := .searching }

/-- The walk whose turn it is in a partition runs, with its counts (R53, R104, R108 to R111). -/
def State.walkNext (s : State) (part : Nat) : State :=
  match s.nextWalk part with
  | none => s
  | some (q, x) =>
    match s.versionOf x.fields.ns x.fields.idx x.version with
    | none => s
    | some v =>
      let progs := match s.imageByDigest v.image with
        | some (_, i) => i.progs
        | none => {}
      let w := s.walkOf x v progs
      let lists := (w.1.kept.take x.nprobe).map (·.2)
      (s.walkCounts part w.2 w.1 lists).walked part q x lists

/-- WALK: the pending walk whose turn it is, then the dispatch of up to `probes` of the partition's probes (R52, R53, R57, R104, R108 to
R111). -/
def execWalk (turn : WalkTurn) (s : State) : Host.Outcome State Fault Refusal :=
  .next (if s.powered .base turn.part then State.dispatchProbes turn.part turn.probes (s.walkNext turn.part) else s)

/-- CLOSE_WINDOW: BATCH_WINDOW has run since the batch opened (R62, R66). -/
def execCloseWindow (batch t : Nat) (s : State) : Host.Outcome State Fault Refusal :=
  .next (let s := s.advance t
    match s.batch batch with
    | some b => if b.closed.isNone && s.time ≥ b.openedAt + b.window * cyclesPerUs then s.closeBatch batch .window else s
    | none => s)

/-- CLOSE_URGENT: a member's remaining deadline is below twice the partition's average list service time (R62). -/
def execCloseUrgent (batch t : Nat) (s : State) : Host.Outcome State Fault Refusal :=
  .next (let s := s.advance t
    match s.batch batch with
    | some b =>
      let svc := s.pipe.svc.getD (b.g / 8) []
      if b.closed.isNone && !svc.isEmpty &&
          b.members.any (fun m => (m.deadlineAt - s.time) * svc.length < 2 * svc.sum) then s.closeBatch batch .urgent
      else s
    | none => s)

/-- GIG_INTERVAL: a new 100 µs interval, with the share then written (R64, R66). -/
def execGigInterval (t : Nat) (s : State) : Host.Outcome State Fault Refusal :=
  .next (let s := s.advance t
    if s.time % (100 * cyclesPerUs) ≠ 0 then s
    else { s with pipe := { s.pipe with gigUsed := [], gigInterval := s.time / (100 * cyclesPerUs), gigShare := s.setting 0x2100 3 25 } })

/-- GIG_QUOTA_SECOND: each tenant's quota is renewed, with the value then written (R65, R66). -/
def execGigQuotaSecond (t : Nat) (s : State) : Host.Outcome State Fault Refusal :=
  .next (let s := s.advance t
    if s.time % cyclesPerS ≠ 0 then s
    else { s with tenants := s.tenants.mapVals fun r => { r with gigUsed := 0, gigQuotaNow := r.gigQuota } })

/-- ADMISSION_TABLE_PUBLISH: free descriptor and probe credits of every strand, none of one that takes no work, and the context slots held
(R59, R77, R347). -/
def execAdmissionTablePublish (s : State) : Host.Outcome State Fault Refusal :=
  .next (let probes (g : Nat) : Nat := ((s.pipe.batches.filter fun kb => kb.2.g = g).map fun kb =>
      (kb.2.members.filter fun m => m.origin ≠ s.mgmt.moduleId && !m.scanned).length).sum
    let t := (List.range 32).foldl (fun t g =>
      (Table.set t (2 * g) (if s.takesWork g then s.admitCredits g else 0)).set (2 * g + 1)
        (if s.takesWork g then probeCredits - probes g else 0)) ([] : Table Nat)
    { s with pipe := { s.pipe with published := t.set 64 s.exchange.qctx.length } })

/-! ## The scan -/

/-- Query columns of a pass of `m` members and the plane words taken in a cycle (R100). -/
def arrangement (m : Nat) : Nat × Nat :=
  if m ≤ 4 then (4, 64) else if m ≤ 8 then (8, 32) else if m ≤ 16 then (16, 16) else if m ≤ 32 then (32, 8) else (64, 4)

/-- Members that one pass takes: 64, or a fixed arrangement's columns (R63, R100). -/
def passColumns (p : ProgSettings) : Nat := if p.arrangement = 0 then 64 else min 64 p.arrangement

/-- Plane words per cycle of a pass. -/
def passRate (p : ProgSettings) (m : Nat) : Nat := (arrangement (if p.arrangement = 0 then m else p.arrangement)).2

/-- The `n` planes in the order that the SCAN program names, then those that it does not name (R47, R93). -/
def planesInOrder (p : ProgSettings) (n : Nat) : List Nat :=
  p.planeOrder.filter (· < n) ++ (List.range n).filter fun i => !p.planeOrder.contains i

/-- A plane of a sketch. -/
def plane (sk p : Nat) : Nat := (sk >>> (64 * p)) % 2 ^ 64

/-- One entry of a block for one member of a pass: the planes it still needs, in order, and its distance if it survives (R93). -/
def scanEntry (order : List Nat) (bound : Nat) (e q : Nat) : List Nat × Option Nat :=
  let r := order.foldl (fun (a : List Nat × Option Nat) p => match a.2 with
    | none => a
    | some d =>
      let d := d + popcount 64 (plane e p ^^^ plane q p)
      (a.1 ++ [p], if d > bound then none else some d)) (([] : List Nat), some 0)
  r

/-- What a pass over some blocks gives: candidates, bytes read and skipped, plane words taken in. -/
structure PassResult where
  cands : List Cand := []
  read : Nat := 0
  skipped : Nat := 0
  words : Nat := 0
  deriving DecidableEq, Repr

/-- One block of a segment for the members of a pass (R84, R87, R93, R100, R195). -/
def scanBlock (l : ListData) (view : List Nat) (order : List Nat) (batch seg : Nat) (g : Segment) (block : Nat)
    (ms : List (Nat × Member)) (acc : PassResult) : PassResult :=
  let slots := (List.range 64).map (· + 64 * block) |>.filter fun i => i < g.items.length
  let hits := slots.flatMap fun i => match g.items[i]? with
    | some it => (ms.filter fun m => visibleAt l view g i m.2.snapshot).map fun m =>
        (i, m.1, scanEntry order m.2.bound it.sketch (sketchFor m.2.sketches g.gen))
    | none => []
  if hits.isEmpty then acc
  else
    let planes := (order.filter fun p => hits.any fun h => h.2.2.1.contains p).length
    let found := hits.filterMap fun h => match h.2.2.2 with
      | some d => some (⟨batch, h.2.1, l.listId, seg, h.1, d, g.gen⟩ : Cand)
      | none => none
    let attr := if found.isEmpty then 0 else 1
    { cands := acc.cands ++ found, read := acc.read + 512 * (planes + attr)
      skipped := acc.skipped + 512 * (order.length + 1 - planes - attr), words := acc.words + 64 * planes }

/-- The blocks of a view: segment and block number, in order. -/
def blocksOf (l : ListData) (view : List Nat) : List (Nat × Segment × Nat) :=
  view.flatMap fun k => match segOf l k with
    | some g => (List.range (ceilDiv g.items.length 64)).map fun b => (k, g, b)
    | none => []

/-- Take blocks one by one: none is started once `stop` holds of what the others gave, and one after which `spent` holds is not taken. -/
def takeBlocks {α : Type} (f : α → PassResult → PassResult) (stop spent : PassResult → Bool) : List α → PassResult × Nat → PassResult × Nat
  | [], a => a
  | k :: ks, a => if stop a.1 || spent (f k a.1) then a else takeBlocks f stop spent ks (f k a.1, a.2 + 1)

/-- Blocks that a pass takes at most in one command: up to the end of the piece of 4,096 blocks that is staged (R89). -/
def pieceLeft (b : Batch) (blocks : Nat) : Nat := min blocks (4096 - b.blocksDone % 4096)

/-- Scan blocks of the staged piece for the members of a pass, as far as candidate credits and the gig share reach (R57, R58, R64, R89). -/
def scanPass (l : ListData) (b : Batch) (batch blocks : Nat) (order : List Nat) (ms : List (Nat × Member)) (stop spent : PassResult → Bool) :
    PassResult × Nat :=
  takeBlocks (fun (k : Nat × Segment × Nat) a => scanBlock l b.view order batch k.1 k.2.1 k.2.2 ms a) stop spent
    (((blocksOf l b.view).drop b.blocksDone).take (pieceLeft b blocks)) ({}, 0)

/-- Bytes of a pass divided among its members, the remainder to the first (R199). -/
def State.chargePass (s : State) (ms : List (Nat × Member)) (bytes : Nat) : State :=
  match ms with
  | [] => s
  | m :: _ =>
    let n := ms.length
    let s := ms.foldl (fun s m => s.meter m.2.tenant 13 (bytes / n)) s
    s.meter m.2.tenant 13 (bytes % n)

/-- Does a batch run as a gig? While GIG_SHARE is 0 the gig path is closed, and gigs that are still open run as batched work (R64;
log 81). -/
def State.runsGig (s : State) (b : Batch) : Bool := b.gig && s.pipe.gigShare > 0

/-- Would `n` further cycles of gigs pass the share of a tile's cycles in this interval (R64)? -/
def State.gigSpent (s : State) (g tile n : Nat) : Bool :=
  (s.pipe.gigUsed.getD (4 * g + tile) 0 + n) * 100 > s.pipe.gigShare * (100 * s.clockOf (g / 8))

/-- May the strand's tile scan this batch now: gigs go first, within their share of the interval (R62, R64)? -/
def State.mayScan (s : State) (g tile : Nat) (b : Batch) : Bool :=
  if s.runsGig b then !s.gigSpent g tile 1
  else s.gigSpent g tile 1 || !(s.pipe.batches.any fun kb => kb.2.g = g && s.runsGig kb.2 && unscanned kb.2)

/-- Has a tile a credit for a batch: the batch is staged on it already, or on none, and the tile holds fewer than four and has a scan buffer
that DMA has filled (R57, R62, R264)? -/
def State.stagedOn (s : State) (g tile : Nat) (b : Batch) : Bool :=
  b.tile = some tile ||
    (b.tile.isNone && (s.stagedBuffer g tile).isSome &&
      (s.pipe.batches.filter fun kb => kb.2.g = g && kb.2.tile = some tile && unscanned kb.2).length < 4)

/-- The members of a batch that its present pass scans. -/
def passMembers (b : Batch) (cols : Nat) : List (Nat × Member) :=
  ((List.range b.members.length).filterMap fun i => (b.members[i]?).map fun m => (i, m)).filter
    fun m => b.passFrom ≤ m.1 && m.1 < b.passFrom + cols && !m.2.withdrawn && !m.2.ended

/-- A batch after `n` more blocks of a pass over `cols` members on a tile: where the staged piece has ended it leaves the tile, and at the
end of the view the members of the pass are scanned, and their summaries follow (R89, R124). -/
def State.passed (s : State) (g tile batch : Nat) (b : Batch) (ms : List (Nat × Member)) (cols : Nat) (finished : Bool) (n : Nat) : State :=
  let b' : Batch := if finished then { b with passFrom := b.passFrom + cols, blocksDone := 0, tile := none }
    else { b with blocksDone := b.blocksDone + n, tile := if (b.blocksDone + n) % 4096 = 0 then none else some tile }
  let s := (if b'.tile.isNone then s.returnBuffer b else s).setBatch batch b'
  if !finished then s
  else
    let s := if b.gig && !(b.members.any (·.discard)) && b'.passFrom ≥ b.members.length then s.tally (0x2110 + g) 8 else s
    ms.foldl (fun s m => match s.member batch m.1 with
      | some x => ((s.setMember batch m.1 { x with scanned := true }).trySummary batch m.1).tryEnd batch m.1
      | none => s) s

/-- A pass's counts, its tile's gig cycles, and its candidates on their way to FILTER (R57, R64, R87, R93, R100, R199). -/
def State.passCounts (s : State) (g tile : Nat) (b : Batch) (p : ProgSettings) (ms : List (Nat × Member)) (r : PassResult) : State :=
  let s := s.count (objKey (0x2320 + g) 1) r.read
  let s := s.count (objKey (0x2320 + g) 2) r.skipped
  let s := s.count (objKey (0x2320 + g) 3) (16 * r.cands.length)
  let cycles := ceilDiv r.words (passRate p ms.length)
  let s := s.count (objKey (0x2320 + g) 4) cycles
  let s := s.chargePass ms r.read
  let s := if s.runsGig b then
      { s with pipe := { s.pipe with gigUsed := s.pipe.gigUsed.set (4 * g + tile) (s.pipe.gigUsed.getD (4 * g + tile) 0 + cycles) } }
    else s
  { s with pipe := { s.pipe with scanFifo := s.pipe.scanFifo.set g (s.pipe.scanFifo.getD g [] ++ r.cands) } }

/-- A scan tile may take a pass of a batch (R57, R62, R64, R89, R493). -/
def State.passReady (s : State) (g tile : Nat) (b : Batch) : Bool :=
  b.g = g && tile < 4 && !(tile ≥ 2 && s.power.step ≥ 3) && !s.repair.tilesOut.contains (unitTile g 3 tile) && unscanned b &&
    s.strandUp g && s.powered .strand g && s.stagedOn g tile b && s.mayScan g tile b

/-- A batch takes the scan buffer in which DMA has staged its piece, unless it holds one already (R264). -/
def State.takeBuffer (s : State) (g tile batch : Nat) (b : Batch) : State × Batch :=
  if b.tile.isSome then (s, b)
  else
    let k := (s.stagedBuffer g tile).getD 0
    let b := { b with tile := some tile, buffer := k }
    ((s.handBuffer g tile k 0).setBatch batch b, b)

/-- The SKETCH_SEG object of the segment that a pass reads next. -/
def State.scanObj (s : State) (l : ListData) (b : Batch) : Nat := match (blocksOf l b.view)[b.blocksDone]? with
  | some k => s.segObj k.2.1 1
  | none => 0


/-- A block read that failed twice: the batch's work on the list stops, and the region is marked for repair (R90). -/
def State.scanFailed (s : State) (g batch : Nat) (b : Batch) (l : ListData) (mark : Bool) : State :=
  let s := s.tally (0x2320 + g) 5
  let s := if mark then s.markRepair 0 (s.scanObj l b) else s
  let s := (s.withdrawBatch batch).readFailed
  match s.batch batch with
  | some b => (s.returnBuffer b).setBatch batch { b with passFrom := b.members.length, tile := none }
  | none => s

/-- BATCH_SCAN_PASS: up to `run.blocks` more blocks of the staged piece of a batch's view in its present pass (R57, R58, R63, R64, R87 to R90,
R93, R95, R100, R124). -/
def execBatchScanPass (g tile batch : Nat) (run : ScanRun) (s : State) : Host.Outcome State Fault Refusal :=
  .next (match s.batch batch with
    | none => s
    | some b =>
      match s.list b.list with
      | none => s
      | some l =>
        if !s.passReady g tile b then s
        else
          let (s, b) := s.takeBuffer g tile batch b
          let (s, ok) := s.tierRead (s.scanObj l b) (!run.eccFail && !s.tiers.unheld.contains b.list)
          if !ok then s.scanFailed g batch b l run.eccFail
          else
            let p := s.batchProgs b
            let cols := passColumns p
            let order := planesInOrder p (s.batchWidth b / 64)
            let ms := passMembers b cols
            let r := scanPass l b batch run.blocks order ms
              (fun a => decide ((s.pipe.scanFifo.getD g []).length + a.cands.length > 2048))
              (fun a => s.runsGig b && s.gigSpent g tile (ceilDiv a.words (passRate p ms.length)))
            ((s.objRead (s.scanObj l b) r.1.read).passCounts g tile b p ms r.1).passed g tile batch b ms cols
              (decide (b.blocksDone + r.2 ≥ (blocksOf l b.view).length)) r.2)

/-! ## The filter -/

/-- The attribute word of a candidate's entry. -/
def State.attrOf (s : State) (list : Nat) (c : Cand) : Nat :=
  match (s.list list).bind fun l => segOf l c.seg with
  | some g => match g.items[c.slot]? with
    | some i => i.attr
    | none => 0
  | none => 0

/-- A candidate that passes: histogram, list bound, the bound on its way to SCAN, and the link to RERANK (R92, R95, R98). -/
def State.passCandidate (s : State) (g : Nat) (b : Batch) (m : Member) (c : Cand) : State :=
  let w := s.batchWidth b
  let hist := m.hist.set c.dist (m.hist.getD c.dist 0 + 1)
  let lb := listBoundOf hist m.n w
  let s := s.setMember c.batch c.member { m with hist, listBound := lb }
  let s := (s.tally (0x2610 + g) 2).meter m.tenant 14 1
  let s := if lb < m.listBound then
      { s with pipe := { s.pipe with bounds := s.pipe.bounds.set g (s.pipe.bounds.getD g [] ++ [(c.batch, c.member, lb)]) } }
    else s
  { s with pipe := { s.pipe with rerankFifo := s.pipe.rerankFifo.set g (s.pipe.rerankFifo.getD g [] ++ [c]) } }

/-- FILTER_CANDIDATE: the head of the SCAN to FILTER link (R92, R98, R187 to R189, R194, R204). -/
def execFilterCandidate (g : Nat) (s : State) : Host.Outcome State Fault Refusal :=
  .next (State.settle <| match s.pipe.scanFifo.getD g [] with
    | [] => s
    | c :: rest =>
      let pop : State := { s with pipe := { s.pipe with scanFifo := s.pipe.scanFifo.put g [] rest } }
      match s.batch c.batch, s.member c.batch c.member with
      | some b, some m =>
        if m.withdrawn || m.ended then pop
        else if s.tileLoad g (s.tileOf g m) ≥ 2048 then s
        else
          let s := pop.count (objKey (0x2610 + g) 1) 1
          let word := s.attrOf b.list c
          if m.ns ≠ b.ns then
            ((s.tally (0x2610 + g) 5).score (unitStrand g) 250).withdrawMember c.batch c.member
          else
            let s := if !forcedPass m.forced word then s.tally (0x2610 + g) 4
              else if !passesTerms m.inTerms word then s.tally (0x2610 + g) 3
              else s.passCandidate g b m c
            (s.trySummary c.batch c.member).tryEnd c.batch c.member
      | _, _ => pop)

/-- SCAN_BOUND_ARRIVE: the bound applies to plane rows started from the next cycle (R95). -/
def execScanBoundArrive (g : Nat) (s : State) : Host.Outcome State Fault Refusal :=
  .next (match s.pipe.bounds.getD g [] with
    | [] => s
    | (b, i, d) :: rest =>
      let s := { s with pipe := { s.pipe with bounds := s.pipe.bounds.put g [] rest } }
      match s.member b i with
      | some m => s.setMember b i { m with bound := min m.bound d }
      | none => s)

end Sys2Proof.Machine
end

