-- ==== Sys2Proof/Machine/Staging.lean ====
section
/-! DEFINITION. The staging SRAM and Harebell (R264 to R278): the commands BANK_OWNER, STAGING_REFUSED, HAREBELL_WORD,
HAREBELL_TEST_COMPLETE, HB_DEFERRED. -/
namespace Sys2Proof.Machine

/-- Bytes of a staging word. -/
abbrev wordBytes : Nat := 256

/-- A staging counter of a physical strand (R270, R277). -/
def State.stagingCount (s : State) (part strand sub : Nat) : State := s.tally (s.stagingIndex part strand) sub

/-- Points on the health of a physical strand, where it has a coordinate (R497). -/
def State.scorePhys (s : State) (part strand points : Nat) : State := match s.coordOf part strand with
  | some n => (s.score (unitStrand (8 * part + n)) points).settle
  | none => s

/-- BANK_OWNER: the owner or management hands a bank over; of both in one cycle management's value is taken; any other master is refused
(R265 to R267). -/
def execBankOwner (part strand bank master value : Nat) (mgmtValue : Option Nat) (s : State) : Host.Outcome State Fault Refusal :=
  .next (
    let id := bankId part strand bank
    if part ≥ 4 || strand ≥ 9 || bank ≥ 32 || master ≥ 4 then s
    else match mgmtValue with
      | some v => ((if master = 3 then s else s.stagingCount part strand (master + 1))).giveBank id (v % 4)
      | none =>
        if master ≠ s.ownerOf id && master ≠ 3 then s.stagingCount part strand (master + 1)
        else s.giveBank id (value % 4))

/-- First byte of a word of a partition: strand, bank and word in ascending order (R271). -/
def wordAddr (part word : Nat) : Nat := part * 9 * 32 * bankBytes + word * wordBytes

/-- Words of a partition. -/
abbrev partWords : Nat := 589824

/-- The word of an access, counted through its partition. -/
def accessWord (a : StagingAccess) : Nat := (a.strand * 32 + a.bank) * 2048 + a.word

/-- Is a word under test, so that its owner reaches the save register instead (R271)? -/
def State.underTest (s : State) (part word : Nat) : Bool :=
  let h := s.staging.hb.getD part {}
  h.active && h.word = word

/-- A word as its owner reads it. -/
def State.readWord (s : State) (part word : Nat) : List Byte :=
  if s.underTest part word then (s.staging.hb.getD part {}).save else readMem s.staging.mem (wordAddr part word) wordBytes

/-- A word written by its owner. -/
def State.writeWord (s : State) (part word : Nat) (b : List Byte) : State :=
  let b := slice b 0 wordBytes
  if s.underTest part word then
    { s with staging := { s.staging with hb := s.staging.hb.alter part fun h => { h with save := b } } }
  else { s with staging := { s.staging with mem := writeMem s.staging.mem (wordAddr part word) b } }

/-- A word read under SECDED: a corrected error and an uncorrectable one are scored, and the data of the latter is not stated (R264, R497;
log 89). The save register has no SECDED. -/
def State.readChecked (s : State) (a : StagingAccess) : State :=
  if a.ecc = 0 || s.underTest a.part (accessWord a) then s.emit (.staging (s.readWord a.part (accessWord a)))
  else if a.ecc = 1 then (s.emit (.staging (s.readWord a.part (accessWord a)))).scorePhys a.part a.strand 2
  else
    let s := s.emit (.staging (slice (Config.badWord s.freeCount) 0 wordBytes))
    State.scorePhys { s with freeCount := s.freeCount + 1 } a.part a.strand 200

/-- The owner's access: of a read and a write of one word in one cycle the read returns the new data (R265, R269). -/
def State.serveAccess (s : State) (a : StagingAccess) : State := match a.write with
  | some b =>
    let s := s.writeWord a.part (accessWord a) b
    if a.read then s.emit (.staging (s.readWord a.part (accessWord a))) else s
  | none => s.readChecked a

/-- STAGING_REFUSED: a master that does not own the bank is refused and counted, a read with zero data and an error; a refusal of an own
tile withdraws the list and scores the strand (R267). The owner's access is served (R265). -/
def execStagingRefused (access : StagingAccess) (s : State) : Host.Outcome State Fault Refusal :=
  .next (
    let a := access
    let id := bankId a.part a.strand a.bank
    if a.part ≥ 4 || a.strand ≥ 9 || a.bank ≥ 32 || a.word ≥ 2048 || a.master ≥ 4 then s
    else if s.ownerOf id = a.master then s.serveAccess a
    else
      let s := s.stagingCount a.part a.strand (a.master + 1)
      let s := if a.write.isSome && !a.read then s
        else (s.emit (.staging (List.replicate wordBytes 0))).emit (.busError a.master)
      match a.batch with
      | some b => (s.withdrawBatch b).scorePhys a.part a.strand 250
      | none => s)

/-! ## Harebell (R271 to R274) -/

/-- The word that the engine takes next: a deferred one once the rest of its bank is tested, else the next of the pass (R272). -/
def nextWord (h : Harebell) : Nat := match h.deferred with
  | w :: _ => if h.position % 2048 = 0 || h.position / 2048 ≠ w / 2048 then w else h.position
  | [] => h.position

/-- The engine has left a word: the pass moves on. A pass is whole, and counted in HB_PASSES, once it has come round and no word is
deferred (R272, R278). -/
def State.leaveWord (s : State) (part : Nat) (again : Bool) : State :=
  let h := s.staging.hb.getD part {}
  let first : Bool := h.word = h.position && !h.deferred.contains h.word
  let rest := h.deferred.filter (· ≠ h.word)
  let wrap : Bool := first && h.position + 1 ≥ partWords
  let h' : Harebell := { h with
    active := false, save := [], lastDone := s.time
    position := if first then (if wrap then 0 else h.position + 1) else h.position
    deferred := if again then rest ++ [h.word] else rest }
  let whole : Bool := h'.position = 0 && h'.deferred.isEmpty
  let s := { s with staging := { s.staging with
    mem := writeMem s.staging.mem (wordAddr part h.word) h.save, hb := s.staging.hb.set part h' } }
  if whole then s.tally (0x2840 + part) 2 else s

/-- HAREBELL_WORD: after HAREBELL_INTERVAL the next word is copied to the save register and its test starts (R271, R274). -/
def execHarebellWord (part t : Nat) (s : State) : Host.Outcome State Fault Refusal :=
  .next (let s := s.advance t
    let h := s.staging.hb.getD part {}
    if part ≥ 4 || h.active || s.setting 0x2800 4 1 = 0 || !s.upkeepRuns ||
        s.time < h.lastDone + s.setting 0x2800 3 24000 * cyclesPerUs then s
    else
      let w := nextWord h
      { s with staging := { s.staging with
        hb := s.staging.hb.set part { h with active := true, word := w, startedAt := s.time, save := readMem s.staging.mem (wordAddr part w) wordBytes } } })

/-- The march on a word has ended (R271, R273). -/
def State.testDone (s : State) (part : Nat) (pass : Bool) : State :=
  let h := s.staging.hb.getD part {}
  let s := (s.count (objKey (0x2840 + part) 1) wordBytes).leaveWord part false
  if pass then s
  else
    let s := s.tally (0x2840 + part) 3
    let bank := h.word / 2048
    let phys := bank / 32
    let coord := s.coordOf part phys
    let unit := match coord with
      | some n => unitStrand (8 * part + n)
      | none => unitPart part
    let used := (s.staging.hb.getD part {}).spares.getD bank 0
    if used < 4 then
      let s := { s with staging := { s.staging with hb := s.staging.hb.alter part fun h =>
        { h with spares := h.spares.set bank (used + 1), remapped := if h.remapped.contains h.word then h.remapped else h.remapped ++ [h.word] } } }
      let s := s.tally (0x2840 + part) 4
      let band := tempBand (s.sensors.getD (objKey 0x2CF0 (part + 1)) 0)
      (s.logEvent (0x2840 + part) 4 2 unit (leBytes 8 h.word ++ leBytes 8 band)).scorePhys part phys 100
    else if coord.isSome then (s.retireUnit unit).settle
    else if phys = 8 && !s.repair.spareStrand.contains part then
      { s with repair := { s.repair with spareStrand := s.repair.spareStrand ++ [part] } }
    else s

/-- HAREBELL_TEST_COMPLETE: the save register goes back to the word, or to a spare word of its bank where the march failed; with no spare
left the strand retires (R271, R273). -/
def execHarebellTestComplete (part : Nat) (pass : Bool) (t : Nat) (s : State) : Host.Outcome State Fault Refusal :=
  .next (let s := s.advance t
    let h := s.staging.hb.getD part {}
    if part ≥ 4 || !h.active then s
    else
      s.testDone part pass)

/-- HB_DEFERRED: a test unfinished after 4,096 cycles is written back, counted and taken again after the rest of the bank (R272). -/
def execHbDeferred (part t : Nat) (s : State) : Host.Outcome State Fault Refusal :=
  .next (let s := s.advance t
    let h := s.staging.hb.getD part {}
    if part ≥ 4 || !h.active || s.time < h.startedAt + 4096 then s
    else (s.leaveWord part true).tally (0x2840 + part) 5)

end Sys2Proof.Machine
end

