-- ==== Sys2Proof/Machine/Dispatch.lean ====
section
/-! DEFINITION. The dispatcher: one arm per command, each a direct call of its meaning. -/
namespace Sys2Proof.Machine
open Sys2Proof

/-- The effect of a command on everything but the queue. -/
def exec (i : Instr) (s : State) : Host.Outcome State Fault Refusal :=
  match i with
  | .registerWrite reg value => Sys2Proof.Machine.execRegisterWrite reg value s
  | .eventCounterClear index sub value sameCycle => Sys2Proof.Machine.execEventCounterClear index sub value sameCycle s
  | .satClear index sub => Sys2Proof.Machine.execSatClear index sub s
  | .satReassert index sub => Sys2Proof.Machine.execSatReassert index sub s
  | .pcieLinkTrain gen width => Sys2Proof.Machine.execPcieLinkTrain gen width s
  | .fnEnable fn => Sys2Proof.Machine.execFnEnable fn s
  | .run fn => Sys2Proof.Machine.execRun fn s
  | .busMasterClear fn => Sys2Proof.Machine.execBusMasterClear fn s
  | .functionLevelReset fn => Sys2Proof.Machine.execFunctionLevelReset fn s
  | .dmaWindowWrite fn off value => Sys2Proof.Machine.execDmaWindowWrite fn off value s
  | .sqTail fn pair value => Sys2Proof.Machine.execSqTail fn pair value s
  | .cqHead fn pair value => Sys2Proof.Machine.execCqHead fn pair value s
  | .entryTake readOk => Sys2Proof.Machine.execEntryTake readOk s
  | .queryEntryArrive fn pair sqIndex entry body readOk => Sys2Proof.Machine.execQueryEntryArrive fn pair sqIndex entry body readOk s
  | .queryPlace q => Sys2Proof.Machine.execQueryPlace q s
  | .minEpochHoldEnd q => Sys2Proof.Machine.execMinEpochHoldEnd q s
  | .tensorGrant part => Sys2Proof.Machine.execTensorGrant part s
  | .encodeDeadline q t => Sys2Proof.Machine.execEncodeDeadline q t s
  | .encodeComplete q => Sys2Proof.Machine.execEncodeComplete q s
  | .querySketch q => Sys2Proof.Machine.execQuerySketch q s
  | .walk turn => Sys2Proof.Machine.execWalk turn s
  | .closeWindow batch t => Sys2Proof.Machine.execCloseWindow batch t s
  | .closeUrgent batch t => Sys2Proof.Machine.execCloseUrgent batch t s
  | .gigInterval t => Sys2Proof.Machine.execGigInterval t s
  | .gigQuotaSecond t => Sys2Proof.Machine.execGigQuotaSecond t s
  | .batchScanPass g tile batch run => Sys2Proof.Machine.execBatchScanPass g tile batch run s
  | .filterCandidate g => Sys2Proof.Machine.execFilterCandidate g s
  | .scanBoundArrive g => Sys2Proof.Machine.execScanBoundArrive g s
  | .scanSummaryReceive src summary => Sys2Proof.Machine.execScanSummaryReceive src summary s
  | .gateMessageReceive g msg => Sys2Proof.Machine.execGateMessageReceive g msg s
  | .rerankCandidateReceive g => Sys2Proof.Machine.execRerankCandidateReceive g s
  | .releaseHold batch member t => Sys2Proof.Machine.execReleaseHold batch member t s
  | .releaseLate batch member t => Sys2Proof.Machine.execReleaseLate batch member t s
  | .keyFetchComplete fetch ok => Sys2Proof.Machine.execKeyFetchComplete fetch ok s
  | .codeFetchComplete fetch ok => Sys2Proof.Machine.execCodeFetchComplete fetch ok s
  | .tierReadLate read => Sys2Proof.Machine.execTierReadLate read s
  | .postfilterReadComplete fetch ok => Sys2Proof.Machine.execPostfilterReadComplete fetch ok s
  | .selectEntryOffer g => Sys2Proof.Machine.execSelectEntryOffer g s
  | .pieceSend batch member => Sys2Proof.Machine.execPieceSend batch member s
  | .pieceReceive src piece => Sys2Proof.Machine.execPieceReceive src piece s
  | .pieceReservationGrant q list => Sys2Proof.Machine.execPieceReservationGrant q list s
  | .listMergeComplete q list => Sys2Proof.Machine.execListMergeComplete q list s
  | .runMergeStart ctx => Sys2Proof.Machine.execRunMergeStart ctx s
  | .runMergeComplete ctx => Sys2Proof.Machine.execRunMergeComplete ctx s
  | .poolWait ctx => Sys2Proof.Machine.execPoolWait ctx s
  | .cutoff q t => Sys2Proof.Machine.execCutoff q t s
  | .scoreCutoff q t => Sys2Proof.Machine.execScoreCutoff q t s
  | .queryDeadline q t => Sys2Proof.Machine.execQueryDeadline q t s
  | .scoreInputAssemble q item source ok => Sys2Proof.Machine.execScoreInputAssemble q item source ok s
  | .scoreWithdrawn q t => Sys2Proof.Machine.execScoreWithdrawn q t s
  | .scoreAbandoned q t => Sys2Proof.Machine.execScoreAbandoned q t s
  | .scoreComplete q inputs => Sys2Proof.Machine.execScoreComplete q inputs s
  | .queryCompletionWrite q => Sys2Proof.Machine.execQueryCompletionWrite q s
  | .tileRestarts part tile weightRead => Sys2Proof.Machine.execTileRestarts part tile weightRead s
  | .maintTensorGrant part step tiles => Sys2Proof.Machine.execMaintTensorGrant part step tiles s
  | .maintYields part => Sys2Proof.Machine.execMaintYields part s
  | .admissionTablePublish => Sys2Proof.Machine.execAdmissionTablePublish s
  | .imageSubmit cmd facts => Sys2Proof.Machine.execImageSubmit cmd facts s
  | .imageRemove cmd => Sys2Proof.Machine.execImageRemove cmd s
  | .imageInstall cmd => Sys2Proof.Machine.execImageInstall cmd s
  | .imageUninstall cmd => Sys2Proof.Machine.execImageUninstall cmd s
  | .installDrainEnd part => Sys2Proof.Machine.execInstallDrainEnd part s
  | .installDrainLimit part t => Sys2Proof.Machine.execInstallDrainLimit part t s
  | .installWriteComplete part digestOk unit => Sys2Proof.Machine.execInstallWriteComplete part digestOk unit s
  | .imageInfo cmd => Sys2Proof.Machine.execImageInfo cmd s
  | .drayCloseWindow dest cls tenant t => Sys2Proof.Machine.execDrayCloseWindow dest cls tenant t s
  | .drayRouteDrop t => Sys2Proof.Machine.execDrayRouteDrop t s
  | .drayReceive src cls tenant mapEpoch body => Sys2Proof.Machine.execDrayReceive src cls tenant mapEpoch body s
  | .peerSnapshotHoldEnd => Sys2Proof.Machine.execPeerSnapshotHoldEnd s
  | .qctxBudgetExpire src handle t => Sys2Proof.Machine.execQctxBudgetExpire src handle t s
  | .mapWorkHoldEnd t => Sys2Proof.Machine.execMapWorkHoldEnd t s
  | .ingestEntryArrive fn pair sqIndex entry records readOk => Sys2Proof.Machine.execIngestEntryArrive fn pair sqIndex entry records readOk s
  | .recordOrder => Sys2Proof.Machine.execRecordOrder s
  | .commitTimeout t => Sys2Proof.Machine.execCommitTimeout t s
  | .logFlush t => Sys2Proof.Machine.execLogFlush t s
  | .logPageDurable page => Sys2Proof.Machine.execLogPageDurable page s
  | .beaconEmit t => Sys2Proof.Machine.execBeaconEmit t s
  | .beaconReceive port beacon => Sys2Proof.Machine.execBeaconReceive port beacon s
  | .leaderTakeover t => Sys2Proof.Machine.execLeaderTakeover t s
  | .epochClosureRecord => Sys2Proof.Machine.execEpochClosureRecord s
  | .beaconGaps t => Sys2Proof.Machine.execBeaconGaps t s
  | .mapAnnounce content => Sys2Proof.Machine.execMapAnnounce content s
  | .mapNotice port notice => Sys2Proof.Machine.execMapNotice port notice s
  | .mapLateInstall content => Sys2Proof.Machine.execMapLateInstall content s
  | .maintPeriod t => Sys2Proof.Machine.execMaintPeriod t s
  | .splitCopyComplete list centroidA centroidB => Sys2Proof.Machine.execSplitCopyComplete list centroidA centroidB s
  | .dirFull list => Sys2Proof.Machine.execDirFull list s
  | .foldBuildComplete handle => Sys2Proof.Machine.execFoldBuildComplete handle s
  | .segmentFree seg => Sys2Proof.Machine.execSegmentFree seg s
  | .edgeSweep t view => Sys2Proof.Machine.execEdgeSweep t view s
  | .versionCreate cmd => Sys2Proof.Machine.execVersionCreate cmd s
  | .versionBuildComplete ns idx ver reports => Sys2Proof.Machine.execVersionBuildComplete ns idx ver reports s
  | .versionSwitch cmd => Sys2Proof.Machine.execVersionSwitch cmd s
  | .versionFree ns idx ver => Sys2Proof.Machine.execVersionFree ns idx ver s
  | .versionInfo cmd => Sys2Proof.Machine.execVersionInfo cmd s
  | .namespaceCreate cmd => Sys2Proof.Machine.execNamespaceCreate cmd s
  | .namespaceDelete cmd => Sys2Proof.Machine.execNamespaceDelete cmd s
  | .indexCreate cmd => Sys2Proof.Machine.execIndexCreate cmd s
  | .indexDelete cmd => Sys2Proof.Machine.execIndexDelete cmd s
  | .indexDataDiscard index homes => Sys2Proof.Machine.execIndexDataDiscard index homes s
  | .grantCreate grant => Sys2Proof.Machine.execGrantCreate grant s
  | .grantRevoke grant => Sys2Proof.Machine.execGrantRevoke grant s
  | .tableCreate cmd => Sys2Proof.Machine.execTableCreate cmd s
  | .receiptPeriodEnd t => Sys2Proof.Machine.execReceiptPeriodEnd t s
  | .receiptTrees seq => Sys2Proof.Machine.execReceiptTrees seq s
  | .receiptErase t => Sys2Proof.Machine.execReceiptErase t s
  | .receiptProof cmd => Sys2Proof.Machine.execReceiptProof cmd s
  | .identity cmd => Sys2Proof.Machine.execIdentity cmd s
  | .createRing cmd => Sys2Proof.Machine.execCreateRing cmd s
  | .deleteRing cmd => Sys2Proof.Machine.execDeleteRing cmd s
  | .setInterrupt cmd => Sys2Proof.Machine.execSetInterrupt cmd s
  | .coalTimer fn pair t => Sys2Proof.Machine.execCoalTimer fn pair t s
  | .msixUnmask fn vec => Sys2Proof.Machine.execMsixUnmask fn vec s
  | .qsrTail fn value => Sys2Proof.Machine.execQsrTail fn value s
  | .qcrHead fn value => Sys2Proof.Machine.execQcrHead fn value s
  | .igrTail fn value => Sys2Proof.Machine.execIgrTail fn value s
  | .basicQueryDescriptor fn desc vec reads => Sys2Proof.Machine.execBasicQueryDescriptor fn desc vec reads s
  | .basicIngestDescriptor fn desc records reads => Sys2Proof.Machine.execBasicIngestDescriptor fn desc records reads s
  | .snapReq fn => Sys2Proof.Machine.execSnapReq fn s
  | .tenantSnapReq who => Sys2Proof.Machine.execTenantSnapReq who s
  | .meterCapture fn t => Sys2Proof.Machine.execMeterCapture fn t s
  | .tenantRemove who tenant => Sys2Proof.Machine.execTenantRemove who tenant s
  | .tenantIsolationMode who mode others leaderF => Sys2Proof.Machine.execTenantIsolationMode who mode others leaderF s
  | .objectAccess cmd => Sys2Proof.Machine.execObjectAccess cmd s
  | .segmentWriteTimeout t => Sys2Proof.Machine.execSegmentWriteTimeout t s
  | .oapRequest frame => Sys2Proof.Machine.execOapRequest frame s
  | .hello t => Sys2Proof.Machine.execHello t s
  | .fieldLinkUp => Sys2Proof.Machine.execFieldLinkUp s
  | .logBase who value => Sys2Proof.Machine.execLogBase who value s
  | .mgmtPlace call => Sys2Proof.Machine.execMgmtPlace call s
  | .place cmd => Sys2Proof.Machine.execPlace cmd s
  | .placeCancel cmd => Sys2Proof.Machine.execPlaceCancel cmd s
  | .describe cmd => Sys2Proof.Machine.execDescribe cmd s
  | .moveStart => Sys2Proof.Machine.execMoveStart s
  | .moveRoundComplete obj round => Sys2Proof.Machine.execMoveRoundComplete obj round s
  | .moveSourceFree obj => Sys2Proof.Machine.execMoveSourceFree obj s
  | .repairComplete tier device page => Sys2Proof.Machine.execRepairComplete tier device page s
  | .deviceRetire tier device => Sys2Proof.Machine.execDeviceRetire tier device s
  | .bankOwner part strand bank master value mgmtValue => Sys2Proof.Machine.execBankOwner part strand bank master value mgmtValue s
  | .stagingRefused access => Sys2Proof.Machine.execStagingRefused access s
  | .harebellWord part t => Sys2Proof.Machine.execHarebellWord part t s
  | .harebellTestComplete part pass t => Sys2Proof.Machine.execHarebellTestComplete part pass t s
  | .hbDeferred part t => Sys2Proof.Machine.execHbDeferred part t s
  | .flashUnitRead lba level rebuilt => Sys2Proof.Machine.execFlashUnitRead lba level rebuilt s
  | .pageProgramComplete page ok => Sys2Proof.Machine.execPageProgramComplete page ok s
  | .discard first count owner => Sys2Proof.Machine.execDiscard first count owner s
  | .journalPageProgram t => Sys2Proof.Machine.execJournalPageProgram t s
  | .checkpointStart t => Sys2Proof.Machine.execCheckpointStart t s
  | .checkpoints => Sys2Proof.Machine.execCheckpoints s
  | .gcVictim row => Sys2Proof.Machine.execGcVictim row s
  | .sbErase row sb => Sys2Proof.Machine.execSbErase row sb s
  | .eraseComplete row sb failed => Sys2Proof.Machine.execEraseComplete row sb failed s
  | .diesRetired chan die => Sys2Proof.Machine.execDiesRetired chan die s
  | .bufferGrant chan write => Sys2Proof.Machine.execBufferGrant chan write s
  | .portEnable port => Sys2Proof.Machine.execPortEnable port s
  | .portSignalDetect port lanes => Sys2Proof.Machine.execPortSignalDetect port lanes s
  | .trainFails port t => Sys2Proof.Machine.execTrainFails port t s
  | .trainRetry port t => Sys2Proof.Machine.execTrainRetry port t s
  | .ident port content => Sys2Proof.Machine.execIdent port content s
  | .retrainTrigger port cause => Sys2Proof.Machine.execRetrainTrigger port cause s
  | .retrain port => Sys2Proof.Machine.execRetrain port s
  | .retrainComplete port lanes => Sys2Proof.Machine.execRetrainComplete port lanes s
  | .portDown port => Sys2Proof.Machine.execPortDown port s
  | .flitReceive port flit => Sys2Proof.Machine.execFlitReceive port flit s
  | .frameHeaderDecide port => Sys2Proof.Machine.execFrameHeaderDecide port s
  | .frameDeliver port tag => Sys2Proof.Machine.execFrameDeliver port tag s
  | .answerReceive port word => Sys2Proof.Machine.execAnswerReceive port word s
  | .deferBackoff port tag t => Sys2Proof.Machine.execDeferBackoff port tag t s
  | .answerTimeout port tag t => Sys2Proof.Machine.execAnswerTimeout port tag t s
  | .frameStart port t => Sys2Proof.Machine.execFrameStart port t s
  | .gateEntry port t => Sys2Proof.Machine.execGateEntry port t s
  | .gclSwitch port t => Sys2Proof.Machine.execGclSwitch port t s
  | .shaperRefill t => Sys2Proof.Machine.execShaperRefill t s
  | .queueSample t => Sys2Proof.Machine.execQueueSample t s
  | .histSnap port => Sys2Proof.Machine.execHistSnap port s
  | .histClr port => Sys2Proof.Machine.execHistClr port s
  | .shardMoveStart shard dest loads => Sys2Proof.Machine.execShardMoveStart shard dest loads s
  | .shardCopyComplete shard => Sys2Proof.Machine.execShardCopyComplete shard s
  | .shardFree shard => Sys2Proof.Machine.execShardFree shard s
  | .hotRowReplicate ns table row => Sys2Proof.Machine.execHotRowReplicate ns table row s
  | .invalidate src body => Sys2Proof.Machine.execInvalidate src body s
  | .invalidateAck src body => Sys2Proof.Machine.execInvalidateAck src body s
  | .replicaLeaseExpire peer t => Sys2Proof.Machine.execReplicaLeaseExpire peer t s
  | .taken src msg => Sys2Proof.Machine.execTaken src msg s
  | .ask src msg => Sys2Proof.Machine.execAsk src msg s
  | .leaseAnswer src msg => Sys2Proof.Machine.execLeaseAnswer src msg s
  | .resend src msg => Sys2Proof.Machine.execResend src msg s
  | .orphanedQueries handle t => Sys2Proof.Machine.execOrphanedQueries handle t s
  | .codeFlush shard t => Sys2Proof.Machine.execCodeFlush shard t s
  | .memberRebuild shard frag read => Sys2Proof.Machine.execMemberRebuild shard frag read s
  | .homeRebuild shard read => Sys2Proof.Machine.execHomeRebuild shard read s
  | .mbxPush master channel path bytes => Sys2Proof.Machine.execMbxPush master channel path bytes s
  | .mbxPop mask => Sys2Proof.Machine.execMbxPop mask s
  | .fwFetch image => Sys2Proof.Machine.execFwFetch image s
  | .fwActivate => Sys2Proof.Machine.execFwActivate s
  | .keyEnrol record => Sys2Proof.Machine.execKeyEnrol record s
  | .logCopy count => Sys2Proof.Machine.execLogCopy count s
  | .noticesLost => Sys2Proof.Machine.execNoticesLost s
  | .sensorSample t values => Sys2Proof.Machine.execSensorSample t values s
  | .compositionSeal who value => Sys2Proof.Machine.execCompositionSeal who value s
  | .settingsDefault who value => Sys2Proof.Machine.execSettingsDefault who value s
  | .settingsCompact => Sys2Proof.Machine.execSettingsCompact s
  | .bootStart t found => Sys2Proof.Machine.execBootStart t found s
  | .bootWatchdog t => Sys2Proof.Machine.execBootWatchdog t s
  | .recoveryOfferEnd t => Sys2Proof.Machine.execRecoveryOfferEnd t s
  | .bootWaitEnd t => Sys2Proof.Machine.execBootWaitEnd t s
  | .recGo image => Sys2Proof.Machine.execRecGo image s
  | .healthy t => Sys2Proof.Machine.execHealthy t s
  | .fwBegin length => Sys2Proof.Machine.execFwBegin length s
  | .fwData bytes => Sys2Proof.Machine.execFwData bytes s
  | .fwCommit => Sys2Proof.Machine.execFwCommit s
  | .fwAbort => Sys2Proof.Machine.execFwAbort s
  | .fwActivateSlot t => Sys2Proof.Machine.execFwActivateSlot t s
  | .watchdogResets t => Sys2Proof.Machine.execWatchdogResets t s
  | .telemetryExport t => Sys2Proof.Machine.execTelemetryExport t s
  | .powerSample t millivolts milliamps => Sys2Proof.Machine.execPowerSample t millivolts milliamps s
  | .fStep part t => Sys2Proof.Machine.execFStep part t s
  | .limiterTrips t => Sys2Proof.Machine.execLimiterTrips t s
  | .idleGate dom t => Sys2Proof.Machine.execIdleGate dom t s
  | .pllOff part t => Sys2Proof.Machine.execPllOff part t s
  | .wakeSlot t => Sys2Proof.Machine.execWakeSlot t s
  | .domainReady dom t => Sys2Proof.Machine.execDomainReady dom t s
  | .wakeHistSnap => Sys2Proof.Machine.execWakeHistSnap s
  | .wakeHistClr => Sys2Proof.Machine.execWakeHistClr s
  | .shedStep t => Sys2Proof.Machine.execShedStep t s
  | .shedForce who value => Sys2Proof.Machine.execShedForce who value s
  | .holdupFlushes t => Sys2Proof.Machine.execHoldupFlushes t s
  | .thermalThrottles sub => Sys2Proof.Machine.execThermalThrottles sub s
  | .thermalRelease sub => Sys2Proof.Machine.execThermalRelease sub s
  | .thermalTrips sub => Sys2Proof.Machine.execThermalTrips sub s
  | .capNotHeld part t => Sys2Proof.Machine.execCapNotHeld part t s
  | .fMax who value => Sys2Proof.Machine.execFMax who value s
  | .memoryTrainingComplete failed => Sys2Proof.Machine.execMemoryTrainingComplete failed s
  | .memtestComplete pages devices => Sys2Proof.Machine.execMemtestComplete pages devices s
  | .replay t clean lost => Sys2Proof.Machine.execReplay t clean lost s
  | .reloadComplete => Sys2Proof.Machine.execReloadComplete s
  | .receiptRecovery t => Sys2Proof.Machine.execReceiptRecovery t s
  | .ready t => Sys2Proof.Machine.execReady t s
  | .topologyWait t => Sys2Proof.Machine.execTopologyWait t s
  | .resetTile who req => Sys2Proof.Machine.execResetTile who req s
  | .resetStrand who req => Sys2Proof.Machine.execResetStrand who req s
  | .resetPartition who req => Sys2Proof.Machine.execResetPartition who req s
  | .resetModule who req => Sys2Proof.Machine.execResetModule who req s
  | .resetDrainEnd scope part strand t => Sys2Proof.Machine.execResetDrainEnd scope part strand t s
  | .unitReturn scope part strand t => Sys2Proof.Machine.execUnitReturn scope part strand t s
  | .healthHalfLife t => Sys2Proof.Machine.execHealthHalfLife t s
  | .campionIssue t => Sys2Proof.Machine.execCampionIssue t s
  | .campionResult num stage load => Sys2Proof.Machine.execCampionResult num stage load s
  | .dualCheckCompare q list first second => Sys2Proof.Machine.execDualCheckCompare q list first second s
  | .shadowStart peer partner shards => Sys2Proof.Machine.execShadowStart peer partner shards s
  | .shadowDigest handle list digest => Sys2Proof.Machine.execShadowDigest handle list digest s
  | .shadowPeerFail => Sys2Proof.Machine.execShadowPeerFail s
  | .presentNOpen => Sys2Proof.Machine.execPresentNOpen s
  | .perstN asserted => Sys2Proof.Machine.execPerstN asserted s
  | .overvoltage t => Sys2Proof.Machine.execOvervoltage t s
  | .bankQualify millivolts millijoules => Sys2Proof.Machine.execBankQualify millivolts millijoules s
  | .vfEnable => Sys2Proof.Machine.execVfEnable s
  | .fieldLinkDown => Sys2Proof.Machine.execFieldLinkDown s
  | .maintStepComplete step centroid => Sys2Proof.Machine.execMaintStepComplete step centroid s

end Sys2Proof.Machine
end

