-- ==== Sys2Proof/Machine/Step.lean ====
section
/-! DEFINITION. One step of the module: the command at the front of the queue runs; with no command waiting the module
idles for one cycle of its on-die network clock. -/
namespace Sys2Proof.Machine

/-- Take the command at the front of the queue and run it with the rest of the queue; on an empty queue a cycle passes, in which the object
server, top-S blocks and probes go on with what has waited (log 1). -/
def step (s : State) : Host.Outcome State Fault Refusal :=
  match s.pending with
  | [] => .next (s.advance (s.time + 1)).resumeRequests.startBlocks.unpark
  | c :: rest => exec c { s with pending := rest }

/-- The state with the command that a word spells at the front of its queue; unchanged where the word spells none. -/
def State.withFetchWord (s : State) (nbits w : Nat) : State :=
  match decodeTableWord nbits w with
  | some c => { s with pending := c :: s.pending }
  | none => s

end Sys2Proof.Machine
end

