-- ==== Sys2Proof/Machine/FlashLayouts.lean ====
section
/-! DEFINITION. What the headers of flash pages and the records of the translation journal are in bytes (R288, R293). -/
namespace Sys2Proof.Machine

/-- KIND of a page of a row's wains: parity, collected units, other units (R288). -/
def pageKind (p : FlashPage) : Nat := if p.parity then 5 else if p.stream = 1 then 2 else 1

/-- Bytes 0 to 123 of a page's header. `key` names the page, `fill` the channels that a parity page covers (R288). -/
def pageFields (b : Superblock) (key fill : Nat) (p : FlashPage) : List Byte :=
  let (row, n, page, _) := keyParts key
  let units (f : FlashUnit → Nat) (size : Nat) : List Byte := (List.range 4).flatMap fun u => leBytes size (match p.units[u]? with
    | some x => f x
    | none => 0)
  leBytes 1 (pageKind p) ++ leBytes 1 p.stream ++ leBytes 1 row ++ leBytes 1 (2 ^ p.units.length - 1) ++ leBytes 2 n ++ leBytes 2 page ++
    leBytes 4 b.chMask ++ leBytes 4 fill ++ leBytes 8 p.progSeq ++ units (fun x => x.lba % 2 ^ 35) 8 ++ units (·.seq) 8 ++
    units (fun x => if x.gc then x.src else 0) 4 ++ leBytes 8 0 ++ leBytes 8 b.openSeq ++ leBytes 4 0

/-- The channels of a wain whose data pages hold units: what its parity covers (R287, R288). -/
def State.wainFill (s : State) (row n page : Nat) : Nat :=
  ((dataChans (s.sb row n).chMask n page).map fun c => match s.flash.pages.get (pageKey row n page c) with
    | some p => if p.units.isEmpty then 0 else 2 ^ c
    | none => 0).sum

/-- A page's own header, the first of its two copies: 128 bytes with their CRC-32C (R288). -/
def State.pageHeader (s : State) (key : Nat) (p : FlashPage) : List Byte :=
  let (row, n, page, _) := keyParts key
  let b := pageFields (s.sb row n) key (if p.parity then s.wainFill row n page else 0) p
  b ++ leBytes 4 (crc32c b)

/-- The second copy of a page's header: a repeat, but in a parity page the XOR of the headers of the data pages that it covers (R288). -/
def State.pageHeader2 (s : State) (key : Nat) (p : FlashPage) : List Byte :=
  let (row, n, page, _) := keyParts key
  if p.parity then
    (dataChans (s.sb row n).chMask n page).foldl (fun x c => match s.flash.pages.get (pageKey row n page c) with
      | some d => if d.units.isEmpty then x else xorBytes x (s.pageHeader (pageKey row n page c) d)
      | none => x) (List.replicate 128 0)
  else s.pageHeader key p

/-- A record of the translation journal: 32 bytes (R293). -/
def journalBytes (j : JournalRec) : List Byte :=
  leBytes 1 j.ty ++ leBytes 1 j.row ++ leBytes 2 j.sb ++ leBytes 4 j.argA ++ leBytes 8 j.seq ++ leBytes 8 j.argB ++ leBytes 8 j.argC

end Sys2Proof.Machine
end

