-- ==== Sys2Proof/Machine/Layouts.lean ====
section
/-! DEFINITION. What a segment, a candidate and a directory entry are in bytes (R83 to R85, R99, R102 to R106, R117). -/
namespace Sys2Proof.Machine

/-! ## Segments (R83 to R85) -/

/-- Plane words of an entry: w / 64. -/
def planes (v : Version) : Nat := widthBits v.width / 64

/-- Bytes of a block: 64 entries' plane words and attribute words (R84). -/
def blockSize (v : Version) : Nat := (planes v + 1) * 512

/-- Where the insert-epoch array of a segment starts; 0 in a base segment (R83). -/
def stampsOffset (v : Version) (g : Segment) : Nat :=
  if g.isBase then 0 else blocksOffset + ceilDiv g.items.length 64 * blockSize v

/-- Where the delete-mark array of a segment starts; 0 without marks (R83). -/
def marksOffset (v : Version) (g : Segment) : Nat :=
  if g.marks.isEmpty then 0 else stampsOffset v g + 8 * g.items.length

/-- The header of a segment of a list (R83). -/
def segHeader (l : ListData) (v : Version) (g : Segment) : List Byte :=
  leBytes 2 (if g.isBase then 1 else 2) ++ leBytes 1 v.width ++ leBytes 1 g.gen ++ leBytes 4 (l.listId % 2 ^ 20) ++
    leBytes 4 g.items.length ++ leBytes 4 g.marks.length ++ leBytes 8 g.validFrom ++
    leBytes 8 (g.validUntil.getD 0xFFFFFFFFFFFFFFFF) ++ leBytes 8 blocksOffset ++ leBytes 8 (stampsOffset v g) ++
    leBytes 8 (marksOffset v g) ++ leBytes 1 g.segIndex ++ leBytes 7 0

/-- A plane word of a sketch: bits [64p + 63 : 64p] (R78). -/
def planeWord (sketch p : Nat) : Nat := sketch >>> (64 * p) % 2 ^ 64

/-- 64 words of 8 bytes, one for each entry of a block; a slot without an entry has no meaning and is zero here (R84; log 81). -/
def blockRow (xs : List Item) (f : Item → Nat) : List Byte :=
  (List.range 64).flatMap fun j => leBytes 8 (match xs[j]? with
    | some i => f i
    | none => 0)

/-- A block: a row for each plane, then the row of attribute words (R84). -/
def blockBytes (v : Version) (xs : List Item) : List Byte :=
  ((List.range (planes v)).flatMap fun p => blockRow xs fun i => planeWord i.sketch p) ++ blockRow xs (·.attr)

/-- A delete mark (R85). -/
def markBytes (m : Mark) : List Byte := leBytes 1 m.seg ++ leBytes 3 0 ++ leBytes 4 m.slot ++ leBytes 8 m.epoch

/-- A segment's SKETCH_SEG object: header, blocks and, in a delta, stamps and marks (R83 to R85, R248). -/
def segmentBytes (l : ListData) (v : Version) (g : Segment) : List Byte :=
  segHeader l v g ++ List.replicate (blocksOffset - 64) 0 ++ (chunks 64 g.items).flatMap (blockBytes v) ++
    (if g.isBase then [] else g.items.flatMap fun i => leBytes 8 i.insert) ++ g.marks.flatMap markBytes

/-- A segment's key column, by slot (R117). -/
def keyColumn (g : Segment) : List Byte := g.items.flatMap fun i => leBytes 8 i.key

/-! ## Candidates (R99) -/

/-- A candidate record. -/
def State.candBytes (s : State) (c : Cand) : List Byte :=
  let l := s.list c.list
  let id := (l.map (·.listId)).getD 0
  let seg := ((l.bind fun l => segOf l c.seg).map (·.segIndex)).getD 0
  leBytes 4 (id % 2 ^ 20 + 2 ^ 20 * (seg % 16)) ++ leBytes 4 c.slot ++ leBytes 2 c.dist ++ leBytes 2 c.member ++ leBytes 1 c.gen ++ leBytes 3 0

/-! ## The directory (R102 to R106) -/

/-- The location word (R103). -/
def locationWord (e : DirEntry) : Nat :=
  e.home % 2 ^ 12 + 2 ^ 12 * (e.handle % 2 ^ 28) + 2 ^ 40 * (e.entryGen % 256) + 2 ^ 48 * (e.projGen % 256) + 2 ^ 56 * (e.state % 4)

/-- The load word of a live entry in a partition's copy (R104). -/
def State.loadWord (s : State) (p list : Nat) (e : DirEntry) : Nat := s.counter (probesKey p list) % 2 ^ 32 + 2 ^ 32 * (e.items % 2 ^ 32)

/-- The successor word of a tombstone (R105). -/
def succWord (e : DirEntry) : Nat :=
  e.succA % 2 ^ 20 + 2 ^ 20 * (e.succAGen % 256) + (match e.succB with
    | some (b, g) => 2 ^ 28 * (b % 2 ^ 20) + 2 ^ 48 * (g % 256) + 2 ^ 63
    | none => 0)

/-- The 48 bytes of a directory entry in a partition's copy (R102). -/
def State.entryBytes (s : State) (p list : Nat) (e : DirEntry) : List Byte :=
  leBytes 32 e.csketch ++ leBytes 8 (locationWord e) ++ leBytes 8 (if e.state = 2 then succWord e else s.loadWord p list e)

/-- An edge word (R106). -/
def edgeWord (t : Nat × Nat) : Nat := t.1 % 2 ^ 20 + 2 ^ 20 * (t.2 % 256) + 2 ^ 31

/-- The 128 bytes of an entry in the edge table: 32 words, those beyond its edges unused (R106). -/
def edgeBytes (e : DirEntry) : List Byte :=
  (List.range 32).flatMap fun i => leBytes 4 (match e.edges[i]? with
    | some t => edgeWord t
    | none => 0)

end Sys2Proof.Machine
end

