-- ==== Sys2Proof/WellFormed.lean ====
section
/-! DEFINITION. Which commands are well formed: every number within the range of what it names, every byte string as long as what it
is. A meaning does not rest on it: it answers for every operand (log 4, log 7). -/
namespace Sys2Proof

/-- A function: the PF or VF 1 to 63 (R379). -/
def fnOk (n : Nat) : Bool := n < 64
/-- A function or none. -/
def optFnOk (n : Option Nat) : Bool := match n with
  | some f => fnOk f
  | none => true
/-- A ring pair (R388). -/
def pairOk (n : Nat) : Bool := n < 64
/-- An index of a submission ring (R388). -/
def sqIndexOk (n : Nat) : Bool := n < 4096
/-- A submission entry (R394, R397, R399). -/
def entryOk (b : List Byte) : Bool := b.length = 128
/-- A basic-level descriptor (R406). -/
def descOk (b : List Byte) : Bool := b.length = 64
/-- An administration command (R399). -/
def cmdOk (c : AdminCmd) : Bool := fnOk c.fn && sqIndexOk c.sqIndex && entryOk c.entry
/-- A partition (R45). -/
def partOk (n : Nat) : Bool := n < 4
/-- A strand, 0 to 31 (R45). -/
def strandOk (n : Nat) : Bool := n < 32
/-- A strand of a partition (R45). -/
def stageStrandOk (n : Nat) : Bool := n < 8
/-- A strand of a partition or its spare (R46). -/
def rowStrandOk (n : Nat) : Bool := n < 9
/-- A SCAN tile of a strand (R45). -/
def scanTileOk (n : Nat) : Bool := n < 4
/-- A tensor tile of a partition (R45). -/
def tensorTileOk (n : Nat) : Bool := n < 16
/-- A stage class of a Campion probe, 0 for a pass (R503). -/
def stageOk (n : Nat) : Bool := n ≤ 10
/-- A list ID (R83). -/
def listOk (n : Nat) : Bool := n < 1048576
/-- A module ID (R354). -/
def moduleOk (n : Nat) : Bool := n < 4096
/-- A tenant ID (R182). -/
def tenantOk (n : Nat) : Bool := n < 65536
/-- A traffic class (R320). -/
def classOk (n : Nat) : Bool := n < 5
/-- A port (R312). -/
def portOk (n : Nat) : Bool := n < 32
/-- A flit (R316). -/
def flitOk (b : List Byte) : Bool := b.length = 256
/-- An epoch beacon (R205). -/
def beaconOk (b : List Byte) : Bool := b.length = 32
/-- A map notice (R356). -/
def noticeOk (b : List Byte) : Bool := b.length = 96
/-- A lease message (R368). -/
def leaseOk (b : List Byte) : Bool := b.length = 32
/-- A placement call (R253). -/
def callOk (b : List Byte) : Bool := b.length = 16
/-- A fragment of a code group (R372). -/
def fragOk (n : Nat) : Bool := n < 10
/-- A memory tier: HBM, LPDDR, flash (R247). -/
def tierOk (n : Nat) : Bool := n < 3
/-- A flash channel (R279). -/
def chanOk (n : Nat) : Bool := n < 32
/-- A die of a channel (R279). -/
def dieOk (n : Nat) : Bool := n < 16
/-- A die row (R281). -/
def rowOk (n : Nat) : Bool := n < 16
/-- A data superblock of a row (R281). -/
def sbOk (n : Nat) : Bool := n < 8064
/-- A staging bank (R264). -/
def bankOk (n : Nat) : Bool := n < 32
/-- A staging access: partition, strand, bank and one of the bank's 2,048 words (R264). -/
def stagingOk (a : StagingAccess) : Bool := partOk a.part && rowStrandOk a.strand && bankOk a.bank && a.word < 2048
/-- A mailbox channel (R441). -/
def channelOk (n : Nat) : Bool := n < 32
/-- One write of FW_DATA (R465). -/
def pieceOk (b : List Byte) : Bool := b.length = 65536
/-- The length of a firmware image (R465). -/
def lengthOk (n : Nat) : Bool := n < 4294967296
/-- The scope of a reset (R493). -/
def scopeOk (n : Nat) : Bool := 1 ≤ n && n ≤ 4
/-- The fields of a reset request (R496). -/
def resetOk (r : ResetReq) : Bool := partOk r.part && stageStrandOk r.strand && r.cls ≤ 10 && r.index < 16
/-- A domain's number within its kind (R475). -/
def domainOk (d : DomainId) : Bool := match d.kind with
  | .base => d.num < 4
  | .strand => d.num < 32
  | .tensor => d.num < 64
  | .port => d.num < 32
  | .onfi => d.num < 32
  | .upStep => d.num < 4
/-- Who accesses the dictionary (R415). -/
def accessorOk (w : Accessor) : Bool := match w with
  | .fn n => fnOk n
  | .mgmt => true
  | .operator => true
  | .reader => true
/-- An object index and a sub-index (R410). -/
def indexOk (n : Nat) : Bool := n < 65536
/-- See `indexOk`. -/
def subOk (n : Nat) : Bool := n < 256
/-- A sensor with a throttle point (R482). -/
def sensorOk (n : Nat) : Bool := 1 ≤ n && n < 256
/-- A register that a write can name. -/
def regOk (r : RegAddr) : Bool := match r with
  | .page0 fn off => fnOk fn && off < 4096
  | .pciCommand fn => fnOk fn
  | .msixEntry fn vec word => fnOk fn && vec < 2048 && word < 3
  | .meterStatus fn => fnOk fn
  | .port port off => portOk port && off < 4096
  | .staging part strand off => partOk part && rowStrandOk strand && off < 4096
  | .mailbox off => off < 4096
  | .recovery off => off < 4096

/-- Is a command well formed? -/
def Instr.wf : Instr → Bool
  | .registerWrite reg _ => regOk reg
  | .eventCounterClear index sub _ _ => indexOk index && subOk sub
  | .satClear index sub => indexOk index && subOk sub
  | .satReassert index sub => indexOk index && subOk sub
  | .pcieLinkTrain _ _ => true
  | .fnEnable fn => fnOk fn
  | .run fn => fnOk fn
  | .busMasterClear fn => fnOk fn
  | .functionLevelReset fn => fnOk fn
  | .dmaWindowWrite fn _ _ => fnOk fn
  | .sqTail fn pair _ => fnOk fn && pairOk pair
  | .cqHead fn pair _ => fnOk fn && pairOk pair
  | .entryTake _ => true
  | .queryEntryArrive fn pair sqIndex entry _ _ => fnOk fn && pairOk pair && sqIndexOk sqIndex && entryOk entry
  | .queryPlace _ => true
  | .minEpochHoldEnd _ => true
  | .tensorGrant part => partOk part
  | .encodeDeadline _ _ => true
  | .encodeComplete _ => true
  | .querySketch _ => true
  | .walk turn => partOk turn.part
  | .closeWindow _ _ => true
  | .closeUrgent _ _ => true
  | .gigInterval _ => true
  | .gigQuotaSecond _ => true
  | .batchScanPass g tile _ _ => strandOk g && scanTileOk tile
  | .filterCandidate g => strandOk g
  | .scanBoundArrive g => strandOk g
  | .scanSummaryReceive src _ => moduleOk src
  | .gateMessageReceive g _ => strandOk g
  | .rerankCandidateReceive g => strandOk g
  | .releaseHold _ _ _ => true
  | .releaseLate _ _ _ => true
  | .keyFetchComplete _ _ => true
  | .codeFetchComplete _ _ => true
  | .tierReadLate _ => true
  | .postfilterReadComplete _ _ => true
  | .selectEntryOffer g => strandOk g
  | .pieceSend _ _ => true
  | .pieceReceive src _ => moduleOk src
  | .pieceReservationGrant _ list => listOk list
  | .listMergeComplete _ list => listOk list
  | .runMergeStart _ => true
  | .runMergeComplete _ => true
  | .poolWait _ => true
  | .cutoff _ _ => true
  | .scoreCutoff _ _ => true
  | .queryDeadline _ _ => true
  | .scoreInputAssemble _ _ _ _ => true
  | .scoreWithdrawn _ _ => true
  | .scoreAbandoned _ _ => true
  | .scoreComplete _ _ => true
  | .queryCompletionWrite _ => true
  | .tileRestarts part tile _ => partOk part && tensorTileOk tile
  | .maintTensorGrant part _ _ => partOk part
  | .maintYields part => partOk part
  | .imageSubmit cmd _ => cmdOk cmd
  | .imageRemove cmd => cmdOk cmd
  | .imageInstall cmd => cmdOk cmd
  | .imageUninstall cmd => cmdOk cmd
  | .installDrainEnd part => partOk part
  | .installDrainLimit part _ => partOk part
  | .installWriteComplete part _ _ => partOk part
  | .imageInfo cmd => cmdOk cmd
  | .drayCloseWindow dest cls tenant _ => moduleOk dest && classOk cls && tenantOk tenant
  | .drayRouteDrop _ => true
  | .drayReceive src cls tenant _ _ => moduleOk src && classOk cls && tenantOk tenant
  | .qctxBudgetExpire src _ _ => moduleOk src
  | .mapWorkHoldEnd _ => true
  | .ingestEntryArrive fn pair sqIndex entry _ _ => fnOk fn && pairOk pair && sqIndexOk sqIndex && entryOk entry
  | .commitTimeout _ => true
  | .logFlush _ => true
  | .logPageDurable _ => true
  | .beaconEmit _ => true
  | .beaconReceive port beacon => portOk port && beaconOk beacon
  | .leaderTakeover _ => true
  | .beaconGaps _ => true
  | .mapAnnounce _ => true
  | .mapNotice port notice => portOk port && noticeOk notice
  | .mapLateInstall _ => true
  | .maintPeriod _ => true
  | .splitCopyComplete list _ _ => listOk list
  | .dirFull list => listOk list
  | .foldBuildComplete _ => true
  | .segmentFree _ => true
  | .edgeSweep _ _ => true
  | .versionCreate cmd => cmdOk cmd
  | .versionBuildComplete _ _ _ _ => true
  | .versionSwitch cmd => cmdOk cmd
  | .versionFree _ _ _ => true
  | .versionInfo cmd => cmdOk cmd
  | .namespaceCreate cmd => cmdOk cmd
  | .namespaceDelete cmd => cmdOk cmd
  | .indexCreate cmd => cmdOk cmd
  | .indexDelete cmd => cmdOk cmd
  | .indexDataDiscard _ _ => true
  | .grantCreate grant => cmdOk grant.cmd
  | .grantRevoke grant => cmdOk grant.cmd
  | .tableCreate cmd => cmdOk cmd
  | .receiptPeriodEnd _ => true
  | .receiptTrees _ => true
  | .receiptErase _ => true
  | .receiptProof cmd => cmdOk cmd
  | .identity cmd => cmdOk cmd
  | .createRing cmd => cmdOk cmd
  | .deleteRing cmd => cmdOk cmd
  | .setInterrupt cmd => cmdOk cmd
  | .coalTimer fn pair _ => fnOk fn && pairOk pair
  | .msixUnmask fn _ => fnOk fn
  | .qsrTail fn _ => fnOk fn
  | .qcrHead fn _ => fnOk fn
  | .igrTail fn _ => fnOk fn
  | .basicQueryDescriptor fn desc _ _ => fnOk fn && descOk desc
  | .basicIngestDescriptor fn desc _ _ => fnOk fn && descOk desc
  | .snapReq fn => fnOk fn
  | .tenantSnapReq who => accessorOk who
  | .meterCapture fn _ => optFnOk fn
  | .tenantRemove who tenant => accessorOk who && tenantOk tenant
  | .tenantIsolationMode who _ _ _ => accessorOk who
  | .objectAccess cmd => cmdOk cmd
  | .segmentWriteTimeout _ => true
  | .oapRequest _ => true
  | .hello _ => true
  | .logBase who _ => accessorOk who
  | .mgmtPlace call => callOk call
  | .place cmd => cmdOk cmd
  | .placeCancel cmd => cmdOk cmd
  | .describe cmd => cmdOk cmd
  | .moveRoundComplete _ _ => true
  | .moveSourceFree _ => true
  | .repairComplete tier _ _ => tierOk tier
  | .deviceRetire tier _ => tierOk tier
  | .bankOwner part strand bank _ _ _ => partOk part && rowStrandOk strand && bankOk bank
  | .stagingRefused access => stagingOk access
  | .harebellWord part _ => partOk part
  | .harebellTestComplete part _ _ => partOk part
  | .hbDeferred part _ => partOk part
  | .flashUnitRead _ _ _ => true
  | .pageProgramComplete _ _ => true
  | .discard _ _ _ => true
  | .journalPageProgram _ => true
  | .checkpointStart _ => true
  | .gcVictim row => rowOk row
  | .sbErase row sb => rowOk row && sbOk sb
  | .eraseComplete row sb _ => rowOk row && sbOk sb
  | .diesRetired chan die => chanOk chan && dieOk die
  | .bufferGrant chan _ => chanOk chan
  | .portEnable port => portOk port
  | .portSignalDetect port _ => portOk port
  | .trainFails port _ => portOk port
  | .trainRetry port _ => portOk port
  | .ident port _ => portOk port
  | .retrainTrigger port _ => portOk port
  | .retrain port => portOk port
  | .retrainComplete port _ => portOk port
  | .portDown port => portOk port
  | .flitReceive port flit => portOk port && flitOk flit
  | .frameHeaderDecide port => portOk port
  | .frameDeliver port _ => portOk port
  | .answerReceive port _ => portOk port
  | .deferBackoff port _ _ => portOk port
  | .answerTimeout port _ _ => portOk port
  | .frameStart port _ => portOk port
  | .gateEntry port _ => portOk port
  | .gclSwitch port _ => portOk port
  | .shaperRefill _ => true
  | .queueSample _ => true
  | .histSnap port => portOk port
  | .histClr port => portOk port
  | .shardMoveStart _ dest loads => moduleOk dest && (loads.getD []).all fun l => moduleOk l.module
  | .shardCopyComplete _ => true
  | .shardFree _ => true
  | .hotRowReplicate _ _ _ => true
  | .invalidate src _ => moduleOk src
  | .invalidateAck src _ => moduleOk src
  | .replicaLeaseExpire peer _ => moduleOk peer
  | .taken src msg => moduleOk src && leaseOk msg
  | .ask src msg => moduleOk src && leaseOk msg
  | .leaseAnswer src msg => moduleOk src && leaseOk msg
  | .resend src msg => moduleOk src && leaseOk msg
  | .orphanedQueries _ _ => true
  | .codeFlush _ _ => true
  | .memberRebuild _ frag _ => fragOk frag
  | .homeRebuild _ _ => true
  | .mbxPush _ channel _ _ => channelOk channel
  | .mbxPop _ => true
  | .fwFetch _ => true
  | .keyEnrol _ => true
  | .logCopy _ => true
  | .sensorSample _ _ => true
  | .compositionSeal who _ => accessorOk who
  | .settingsDefault who _ => accessorOk who
  | .bootStart _ found => found.store.budgets.all fun b => b < 4
  | .bootWatchdog _ => true
  | .recoveryOfferEnd _ => true
  | .bootWaitEnd _ => true
  | .recGo _ => true
  | .healthy _ => true
  | .fwBegin length => lengthOk length
  | .fwData bytes => pieceOk bytes
  | .fwActivateSlot _ => true
  | .watchdogResets _ => true
  | .telemetryExport _ => true
  | .powerSample _ _ _ => true
  | .fStep part _ => partOk part
  | .limiterTrips _ => true
  | .idleGate dom _ => domainOk dom
  | .pllOff part _ => partOk part
  | .wakeSlot _ => true
  | .domainReady dom _ => domainOk dom
  | .shedStep _ => true
  | .shedForce who _ => accessorOk who
  | .holdupFlushes _ => true
  | .thermalThrottles sub => sensorOk sub
  | .thermalRelease sub => sensorOk sub
  | .thermalTrips sub => sensorOk sub
  | .capNotHeld part _ => partOk part
  | .fMax who _ => accessorOk who
  | .memoryTrainingComplete _ => true
  | .memtestComplete _ _ => true
  | .replay _ _ _ => true
  | .receiptRecovery _ => true
  | .ready _ => true
  | .topologyWait _ => true
  | .resetTile who req => accessorOk who && resetOk req
  | .resetStrand who req => accessorOk who && resetOk req
  | .resetPartition who req => accessorOk who && resetOk req
  | .resetModule who req => accessorOk who && resetOk req
  | .resetDrainEnd scope part strand _ => scopeOk scope && partOk part && stageStrandOk strand
  | .unitReturn scope part strand _ => scopeOk scope && partOk part && stageStrandOk strand
  | .healthHalfLife _ => true
  | .campionIssue _ => true
  | .campionResult _ stage _ => stageOk stage
  | .dualCheckCompare _ list _ _ => listOk list
  | .shadowStart peer _ _ => moduleOk peer
  | .shadowDigest _ list _ => listOk list
  | .perstN _ => true
  | .overvoltage _ => true
  | .bankQualify _ _ => true
  | .maintStepComplete _ _ => true
  | .admissionTablePublish => true
  | .peerSnapshotHoldEnd => true
  | .recordOrder => true
  | .epochClosureRecord => true
  | .fieldLinkUp => true
  | .moveStart => true
  | .checkpoints => true
  | .fwActivate => true
  | .noticesLost => true
  | .settingsCompact => true
  | .fwCommit => true
  | .fwAbort => true
  | .wakeHistSnap => true
  | .wakeHistClr => true
  | .reloadComplete => true
  | .shadowPeerFail => true
  | .presentNOpen => true
  | .vfEnable => true
  | .fieldLinkDown => true

end Sys2Proof
end

