-- ==== Sys2Proof/Safety.lean ====
section
/-! DEFINITION. What claims about runs use: which steps stop, what a step may never take back, and the invariants of the machine. -/
namespace Sys2Proof.Machine

/-- Does an outcome stop the machine? -/
def stops (o : Host.Outcome State Fault Refusal) : Prop := ∀ t, o ≠ .next t

/-- No mailbox channel holds more messages than its 8 slots (R441, R444). -/
def MailFits (m : Mailboxes) : Prop := ∀ kv ∈ m.slots, kv.2.length ≤ 8

/-- The event unit holds at most the latest 4,096 records (R451). -/
def RingFits (l : EventLog) : Prop := l.ring.length ≤ 4096

/-- What a later state keeps of an earlier one: staging and the counters in canonical form stay so, the mailboxes (R444) and the event log's ring
(R451) stay within their sizes, and INCARNATION (R432), the numbers of leaves and trees of
receipts (R242) and the sequence number of the event log (R450) do not go back. -/
structure Kept (s t : State) : Prop where
  staged : memWf s.staging.mem = true → memWf t.staging.mem = true
  starts : s.dict.incarnation ≤ t.dict.incarnation
  leaves : s.receipts.nextLeaf ≤ t.receipts.nextLeaf
  trees : s.receipts.nextTree ≤ t.receipts.nextTree
  records : s.log.nextSeq ≤ t.log.nextSeq
  counted : Table.wf s.counters = true → Table.wf t.counters = true
  mail : MailFits s.mbx → MailFits t.mbx
  ring : RingFits s.log → RingFits t.log

/-- `t` comes after `s`: the queue stands as it stood, the clock and the number of free values drawn have not gone back, nothing that was sent
is taken back, and the silicon is the same. The open epoch has not gone back either, but where the commit log is replayed: a module that is
its own leader then resumes at the highest durable epoch plus 1, and epochs opened before the loss with nothing durable in them are opened
again (R209). -/
structure Later (s t : State) : Prop where
  queue : t.pending = s.pending
  clock : s.time ≤ t.time
  epoch : s.epochs.open_ ≤ t.epochs.open_ ∨ s.repair.phase = 5
  draws : s.freeCount ≤ t.freeCount
  sent : s.out <+: t.out
  silicon : t.pins.stepping = s.pins.stepping
  kept : Kept s t

/-- `t` is `s` after something was counted, recorded or reported: they differ at most in the counters, the event log, the mailboxes, the
functions' causes and messages, and what has been sent (R9 to R13, R383, R403, R441, R451, R452). -/
def Reports (s t : State) : Prop :=
  ∃ host counters log mbx out, t = { s with host := host, counters := counters, log := log, mbx := mbx, out := out }

/-- The tenants once time has moved on to cycle `t`: their queries' tile-cycles are metered (R199). -/
def State.tenantsAt (s : State) (t : Nat) : Table Tenant := if t ≤ s.time then s.tenants else (s.meterTiles s.time t).tenants

/-- `u` is `s` once time has moved on to cycle `t`, or stayed where it has already passed it: the clock, until when each powered domain has
been in use (R475), the tile-cycles that tenants are metered (R199), and the counters of waiting and held work with what they report. -/
def Ticked (s : State) (t : Nat) (u : State) : Prop :=
  ∃ idle, Reports { s with time := max s.time t, tenants := s.tenantsAt t, power := { s.power with idleAt := idle } } u

/-- Does an administration command run: its entry has been taken and it does not wait (R466, R489), its ranges pass the windows (R386), its input is read (R391), its
opcode and reserved fields are right, it is not reserved to the PF, and its function has a tenant (R400)? -/
def State.adminRuns (s : State) (c : AdminCmd) (opcode args : Nat) (reserved pfOnly : Bool) : Bool :=
  s.host.taken.contains ⟨c.fn, 0, c.sqIndex⟩ && !s.commandWaits opcode &&
    dmaInside (s.fnNow c.fn) false (field c.entry 16 8) (field c.entry 24 8) &&
    dmaInside (s.fnNow c.fn) true (adminRef c).outAddr (adminRef c).outLen && c.readOk &&
    decide (field c.entry 0 1 = opcode) && allZero c.entry 1 7 && allZero c.entry 44 4 && allZero c.entry (48 + args) (80 - args) &&
    reserved && !(pfOnly && decide (c.fn ≠ 0)) && decide ((s.fnNow c.fn).tenant ≠ 0)

/-- The state in which an administration command runs: its entry is no longer awaited, and its input has been read (R386, R399, R409). -/
def State.adminTaken (s : State) (c : AdminCmd) : State :=
  ({ s with host := { s.host with taken := s.host.taken.erase ⟨c.fn, 0, c.sqIndex⟩ } } : State).count (objKey (0x2040 + c.fn) 1) (field c.entry 24 8)

/-- A safe step: whatever command is at the front, the machine goes on, and what it has done stands. -/
def SafeStep (s : State) : Prop := ∃ t, step s = .next t ∧ s.time ≤ t.time ∧ s.out <+: t.out

/-- Every command that waits is well formed. -/
def QueueWf (s : State) : Prop := ∀ c ∈ s.pending, c.wf = true

end Sys2Proof.Machine
end

