-- ==== Sys2Proof/Certificates/Slice0/Obligations.lean ====
section
/-! DEFINITION. The statements for the provers: how the queue runs, what each family of commands does and where it completes, the invariants that every
step keeps, and the order and form of answers. -/
open Sys2Proof Sys2Proof.Machine

/-- A step with a command at the front of the queue is `exec` of that command on the state whose queue is the rest: the host's rings and the
clients' order of arrival give the block its commands first in, first out. -/
def Obligations.StepRunsFrontCommand : Prop :=
  ∀ (c : Instr) (rest : List Instr) (s : State), step { s with pending := c :: rest } = exec c { s with pending := rest }

/-- On an empty queue the step is one idle cycle: time moves on by one, the object server goes on with the requests that wait, waiting
top-S blocks go out as credits allow, and probes that wait for a partition are tried again. That the block
idles so is the model's own choice (log 1). -/
def Obligations.IdleStepAdvancesOneCycle : Prop :=
  ∀ s : State, s.pending = [] → ∃ u, step s = .next u ∧ u = (s.advance (s.time + 1)).resumeRequests.startBlocks.unpark ∧ (s.advance (s.time + 1)).time = s.time + 1

/-- Whatever a step does, the queue afterwards is the queue without its front command, and nothing goes back: not the clock, not the open epoch
(R206; it goes back only in a leader's replay at phase 5 of its start, which resumes above the highest durable epoch, R209), not the draws of free values (the model's own count), not INCARNATION (R432), not the numbers of receipt leaves and trees (R242) nor of
log records (R450); what was sent stays sent, in its order; and the stepping stays. -/
def Obligations.NoStepTakesAnythingBack : Prop :=
  ∀ (s t : State), step s = .next t →
    t.pending = s.pending.tail ∧ s.time ≤ t.time ∧ (s.repair.phase ≠ 5 → s.epochs.open_ ≤ t.epochs.open_) ∧ s.freeCount ≤ t.freeCount ∧
    s.dict.incarnation ≤ t.dict.incarnation ∧ s.receipts.nextLeaf ≤ t.receipts.nextLeaf ∧ s.receipts.nextTree ≤ t.receipts.nextTree ∧
    s.log.nextSeq ≤ t.log.nextSeq ∧ s.out <+: t.out ∧ t.pins.stepping = s.pins.stepping

/-- The staging SRAM is held as address and byte pairs whose addresses rise and whose bytes are not the byte that an unlisted address reads as;
every command that writes it, from the owner of a bank, the march, a handover, a reset or a start, keeps that form, so that equal contents are equal
data. The counters are held by rising keys, and every command keeps that too. -/
def Obligations.StoresStayCanonical : Prop :=
  ∀ (s t : State), memWf s.staging.mem = true → Table.wf s.counters = true → step s = .next t →
    memWf t.staging.mem = true ∧ Table.wf t.counters = true

/-- Every command has a meaning in every state: `exec` answers a next state, except for a FLIT_RECEIVE whose bytes are not 256, which R316 does not
admit as a flit and which stops by name (log 7). -/
def Obligations.OnlyMalformedFlitsStop : Prop :=
  ∀ (c : Instr) (s : State), (∃ t, exec c s = .next t) ∨
    ∃ port flit, c = .flitReceive port flit ∧ flit.length ≠ 256 ∧ exec c s = .fault (.malformed "FLIT_RECEIVE")

/-- While every waiting command is well formed, the next step goes on, takes nothing back, and leaves a queue of well-formed commands: no command
adds one to the queue, and none that R5, R316 and R386 admit stops the machine. -/
def Obligations.WellFormedQueueIsSafe : Prop :=
  ∀ (s : State), QueueWf s → SafeStep s ∧ ∀ t, step s = .next t → QueueWf t

/-- After reset nothing waits, staging lists nothing and is canonical, as are the counters, every bank is
management's (R265), and the mailboxes and the event ring are within their sizes. -/
def Obligations.ResetMeetsTheInvariants : Prop :=
  QueueWf State.reset ∧ State.reset.pending = [] ∧ memWf State.reset.staging.mem = true ∧ Table.wf State.reset.counters = true ∧ (∀ id, State.reset.ownerOf id = 3) ∧
    MailFits State.reset.mbx ∧ RingFits State.reset.log

/-- The table gives no row bits: no word decodes to a command, and placing a word leaves the state as it is. -/
def Obligations.NoWordSpellsACommand : Prop :=
  ∀ (n w : Nat) (s : State), decodeTableWord n w = none ∧ s.withFetchWord n w = s

/-- POWER_SAMPLE keeps the sample, its 20-sample mean and whether the load is above the ceiling (R474, R478); F_STEP takes one 100 MHz step
down while the load is above the ceiling, or asks for the up-step token (R474, R476). -/
def Obligations.PowerSampleAndFStepComplete : Prop :=
  (∀ (t mv ma : Nat) (s : State), ∃ u, exec (.powerSample t mv ma) s = .next u ∧ u.time = max s.time t ∧ u.power.amps = ma ∧
    u.power.volts = (mv :: s.power.volts).take 120 ∧ u.filtered = some (filteredMv ((mv :: s.power.volts).take 120)) ∧
    (u.power.above = true ↔ mv * ma > min (s.setting 0x2C00 1 1900 * 1000000) (48000 * mv)) ∧
    (u.power.overCurrentAt.isSome = true ↔ ma > 52000) ∧
    u.power.step = s.power.step ∧ u.power.f = s.power.f ∧ u.power.doms = s.power.doms ∧ u.power.requests = s.power.requests ∧
    u.pipe = s.pipe ∧ u.corpus = s.corpus ∧ u.flash = s.flash ∧ u.fabric = s.fabric ∧ u.repair = s.repair) ∧
  (∀ (part t : Nat) (s : State), part < 4 → s.power.above = true → s.clockOf part > 1000 →
    (∀ c, s.power.lastDown.get part = some c → c + 10 * cyclesPerUs ≤ max s.time t) →
    ∃ u, exec (.fStep part t) s = .next u ∧ u.time = max s.time t ∧ u.power.f = s.power.f.put part 2100 (s.clockOf part - 100) ∧
      u.power.lastDown = s.power.lastDown.set part (max s.time t) ∧ u.power.requests = s.power.requests ∧ u.power.doms = s.power.doms ∧
      u.power.thermal = s.power.thermal ∧ u.pipe = s.pipe ∧ u.corpus = s.corpus ∧ u.flash = s.flash ∧ u.fabric = s.fabric) ∧
  (∀ (part t c : Nat) (s : State), part < 4 → s.power.above = false → s.power.throttled.contains (part + 1) = false →
    s.power.belowSince = some c → c + 100 * cyclesPerUs ≤ max s.time t →
    (∀ k, s.power.lastUp.get part = some k → k + 100 * cyclesPerUs ≤ max s.time t) → s.clockOf part + 100 ≤ s.setting 0x2C00 4 2100 →
    s.power.step < 6 → s.domain ⟨.upStep, part⟩ = .gated → (s.power.requests.any fun r => r.dom == ⟨.upStep, part⟩ && !r.off) = false →
    ∃ u, exec (.fStep part t) s = .next u ∧ u.power.f = s.power.f ∧
      u.power.requests = s.power.requests ++ [({ dom := ⟨.upStep, part⟩, cls := 3, off := false, at_ := max s.time t } : TokenReq)])

/-- IDLE_GATE and PLL_OFF ask to gate an idle domain (R475, R476); WAKE_SLOT grants, in order, what fits into 400 A, and keeps the rest (R474,
R476); DOMAIN_READY powers the granted domain (R473, R476), and a domain that step 6 sheds
is gated again at once (R478, R479); WAKE_HIST_SNAP copies the bins and WAKE_HIST_CLR clears them (R477, R486). -/
def Obligations.WakeSequencerCompletes : Prop :=
  (∀ (dom : DomainId) (t : Nat) (s : State), dom.kind ≠ .base → dom.kind ≠ .upStep → s.domain dom = .powered →
    (s.advance t).idleLong (domainKey dom) = true → (s.power.requests.any fun r => r.dom == dom) = false →
    ∃ u, exec (.idleGate dom t) s = .next u ∧ u = { s.advance t with power := { (s.advance t).power with
      requests := s.power.requests ++ [({ dom := dom, cls := 5, off := true, at_ := max s.time t } : TokenReq)] } }) ∧
  (∀ (part t : Nat) (s : State), s.domain ⟨.base, part⟩ = .powered → (s.advance t).idleLong part = true →
    (s.power.requests.any fun r => r.dom == ⟨.base, part⟩) = false →
    ∃ u, exec (.pllOff part t) s = .next u ∧ u = { s.advance t with power := { (s.advance t).power with
      requests := s.power.requests ++ [({ dom := ⟨.base, part⟩, cls := 5, off := true, at_ := max s.time t } : TokenReq)] } }) ∧
  (∀ (t : Nat) (s : State), max s.time t % 3200 = 0 → s.power.lastSlot < max s.time t →
    let ready := fun (r : TokenReq) => decide (r.at_ < max s.time t) && !(r.cls = 4 && s.power.above)
    let x := fitTokens 400 (sortBy tokenBefore (s.power.requests.filter ready))
    ∃ u, exec (.wakeSlot t) s = .next u ∧ u.time = max s.time t ∧ u.power.lastSlot = max s.time t ∧
      (x.1.map fun r => stepAmps r.dom.kind).sum ≤ 400 ∧
      u.power.granted = s.power.granted ++ ((x.1.filter fun r => !r.off).map fun r => { r with slot := max s.time t }) ∧
      u.power.requests = x.2.map (fun r => { r with deferred := r.deferred || (!r.off && r.dom.kind != .upStep) }) ++
        s.power.requests.filter fun r => !ready r) ∧
  (∀ (part t : Nat) (s : State) (r : TokenReq), (s.power.granted.find? fun r => r.dom == ⟨.upStep, part⟩) = some r →
    r.slot + 3200 ≤ max s.time t →
    ∃ u, exec (.domainReady ⟨.upStep, part⟩ t) s = .next u ∧
      u.power.f = s.power.f.put part 2100 (min (s.setting 0x2C00 4 2100) (s.clockOf part + 100)) ∧
      u.power.doms = s.power.doms.erase (5 * 256 + part) ∧ u.power.granted = s.power.granted.filter fun x => x.dom != ⟨.upStep, part⟩) ∧
  (∀ (g t : Nat) (s : State) (r : TokenReq), (s.power.granted.find? fun r => r.dom == ⟨.strand, g⟩) = some r →
    r.slot + 3200 ≤ max s.time t → s.power.pllAt.getD (g / 8) 0 ≤ max s.time t →
    ∃ u, exec (.domainReady ⟨.strand, g⟩ t) s = .next u ∧ u.domain ⟨.strand, g⟩ = .powered ∧
      u.power.granted = (s.power.granted.filter fun x => x.dom != ⟨.strand, g⟩) ∧ (6 ≤ s.power.step →
        u.power.requests = (s.power.requests.filter fun r => r.dom != ⟨.strand, g⟩) ++ [({ dom := ⟨.strand, g⟩, cls := 1, off := true, at_ := max s.time t } : TokenReq)])) ∧
  (∀ s : State, ∃ u, exec .wakeHistSnap s = .next u ∧ u = { s with power := { s.power with
    histSnap := (List.range 64).map fun b => s.counter (wakeBinKey b), histSeq := (s.power.histSeq + 1) % 4294967296 } }) ∧
  (∀ s : State, ∃ u, exec .wakeHistClr s = .next u ∧ (∀ kv ∈ u.counters, kv ∈ s.counters ∧ (kv.1 < wakeBinKey 0 ∨ wakeBinKey 64 ≤ kv.1)) ∧
    (∀ kv ∈ s.counters, kv.1 < wakeBinKey 0 → kv ∈ u.counters) ∧ u.power = s.power ∧ u.log = s.log ∧ u.out = s.out)

/-- LIMITER_TRIPS forces step 3 for 100 ms (R474); SHED_STEP enters the step that the filtered voltage has fallen to and leaves one step after
100 ms above its threshold (R478); HOLDUP_FLUSHES ends with VBUS off (R480); a sensor throttles, is released and trips (R482); a cap that is
not held for 1 s retires the tiles that set it (R483, R506). -/
def Obligations.SheddingAndThermalCommandsComplete : Prop :=
  (∀ (t c : Nat) (s : State), s.power.overCurrentAt = some c → c + 20 * cyclesPerUs ≤ max s.time t →
    ∃ u, exec (.limiterTrips t) s = .next u ∧ u = ((({ s.advance t with power := { (s.advance t).power with
      limiterOn := true, limiterUntil := max s.time t + 100 * cyclesPerMs, overCurrentAt := none } } : State).tally 0x2C20 5).logEvent
        0x2C20 5 2 unitModule []).settleShed) ∧
  (∀ (t mv : Nat) (s : State), s.filtered = some mv → s.power.voltStep ≤ voltEnter mv → s.power.filtered.foldl max 0 < mv + 6000 →
    ∃ u, exec (.shedStep t) s = .next u ∧ ∃ since, u = ({ s.advance t with power := { (s.advance t).power with
      voltStep := voltEnter mv, aboveSince := since, limiterOn := s.power.limiterOn && decide (max s.time t < s.power.limiterUntil) } } : State).settleShed) ∧
  (∀ (t mv c : Nat) (s : State), s.filtered = some mv → voltEnter mv < s.power.voltStep → s.power.voltStep < 6 →
    s.power.filtered.foldl max 0 < mv + 6000 → s.power.aboveSince = some c → c + 100 * cyclesPerMs ≤ max s.time t →
    ∃ u, exec (.shedStep t) s = .next u ∧ ∃ since, u = ({ s.advance t with power := { (s.advance t).power with
      voltStep := s.power.voltStep - 1, aboveSince := since
      limiterOn := s.power.limiterOn && decide (max s.time t < s.power.limiterUntil) } } : State).settleShed) ∧
  (∀ (t : Nat) (s : State), s.power.flushing = true → s.power.busOff = false →
    ∃ u, exec (.holdupFlushes t) s = .next u ∧ u.power.busOff = true ∧ u.power.doms = [] ∧ u.mgmt.boot = .off ∧ u.mgmt.serverUp = false ∧
      u.flash.jPending = [] ∧ (∀ kp ∈ u.flash.pages, 2 ≤ kp.2.state)) ∧
  (∀ (sub point release trip : Nat) (s : State), s.thermalPoints sub = some (point, release, trip) → s.power.throttled.contains sub = false →
    tempGe (s.sensors.getD (objKey 0x2CF0 sub) 0) point = true → sub ≠ 5 → sub ≠ 6 → sensorUnit sub ≠ unitModule →
    ∃ u, exec (.thermalThrottles sub) s = .next u ∧ u = ((((({ s with power := { s.power with
      throttled := s.power.throttled ++ [sub] } } : State).tally 0x2C20 8).logEvent 0x2C20 8 2 (sensorUnit sub) (leBytes 8 sub)).score
        (sensorUnit sub) 10).settle)) ∧
  (∀ (sub point release trip : Nat) (s : State), s.thermalPoints sub = some (point, release, trip) →
    tempBelow (s.sensors.getD (objKey 0x2CF0 sub) 0) release = true →
    ∃ u, exec (.thermalRelease sub) s = .next u ∧ u = { s with power := { s.power with throttled := s.power.throttled.filter (· ≠ sub) } }) ∧
  (∀ (p : Nat) (s : State), p < 4 → s.power.tripped.contains (p + 1) = false →
    ∃ u, exec (.thermalTrips (p + 1)) s = .next u ∧ u = ((((({ s with power := { s.power with
      tripped := s.power.tripped ++ [p + 1] } } : State).tally 0x2C20 9).logEvent 0x2C20 9 2 (unitPart p) (leBytes 8 (p + 1))).score
        (unitPart p) 300).settle).tripPartition p) ∧
  (∀ (part t c : Nat) (s : State), part < 4 → s.power.capSince.get part = some c → c + cyclesPerS ≤ max s.time t →
    s.power.capCounted.contains part = false →
    ∃ u, exec (.capNotHeld part t) s = .next u ∧ u = ((s.repair.savedCap.filter fun c => c.1 = part).foldl (fun s c => s.retireUnit c.2.1)
      ((({ s.advance t with power := { (s.advance t).power with capCounted := s.power.capCounted ++ [part] } } : State).tally 0x2C20 0xA).logEvent
        0x2C20 0xA 2 (unitPart part) (leBytes 8 (s.setting 0x2C02 (part + 1) 95)))).settleLevel)

/-- A write of one object that the server accepts: the access is counted, the value recorded where the object persists, its effect takes place
and the answer SUCCESS goes out; then waiting requests go on (R420, R425, R427). SHED_FORCE, F_MAX, LOG_BASE, SETTINGS_DEFAULT,
COMPOSITION_SEAL, TENANT_SNAP_REQ, TENANT_REMOVE and TENANT_ISOLATION_MODE; a change of mode that comes with an
epoch F this module has closed is not taken (R430). -/
def Obligations.SingleObjectWritesComplete : Prop :=
  ∀ (who : Accessor) (s : State), s.mgmt.serverUp = true → s.recoveryOffered = false →
    let a := s.noteAccess who
    let done := fun (x : State) => (x.emit (.response [0, 0, 0, 0])).resumeRequests
    (∀ v, v ≤ 5 → mayWrite who 0x2C00 6 .rw = true → s.dict.storeFailed = false →
      ∃ u, exec (.shedForce who v) s = .next u ∧ u = done ((a.recordStore (objKey 0x2C00 6) 0 (leBytes 1 v)).writeShedForce v)) ∧
    (∀ v, 1000 ≤ v → v ≤ 2100 → v % 100 = 0 → mayWrite who 0x2C00 4 .rw = true → s.dict.storeFailed = false →
      ∃ u, exec (.fMax who v) s = .next u ∧ u = done ((a.recordStore (objKey 0x2C00 4) 0 (leBytes 2 v)).writeFMax v)) ∧
    (∀ v, v < 256 ^ 8 → mayWrite who 0x2E0B 3 .rw = true →
      ∃ u, exec (.logBase who v) s = .next u ∧ u = done (a.setLogBase who v)) ∧
    (mayWrite who 0x2E06 1 .wo = true → s.mgmt.sealed_ = false →
      ∃ u, exec (.settingsDefault who 1) s = .next u ∧ u = done a.restoreDefaults) ∧
    (mayWrite who 0x2E01 1 .rw = true → s.dict.storeFailed = false → s.mgmt.sealed_ = false → s.pins.stepping ≠ 0 →
      a.budgetRefuses 0x2E01 1 1 0 (rwObj 0x2E01 1 1 0 0 1) = false →
      ∃ u, exec (.compositionSeal who 1) s = .next u ∧
        u = if a.descriptorOk then done ((((a.spendBudget 0x2E01 1 (rwObj 0x2E01 1 1 0 0 1) 1).recordStore (objKey 0x2E01 1) 0 (leBytes 1 1)).putSetting (objKey 0x2E01 1) 0 1).seal)
          else (a.emit (.response [7, 0, 0, 0])).resumeRequests) ∧
    (mayWrite who 0x2E01 1 .rw = true → s.dict.storeFailed = false → a.budgetRefuses 0x2E01 1 0 0 (rwObj 0x2E01 1 1 0 0 1) = false →
      ∃ u, exec (.compositionSeal who 0) s = .next u ∧
        u = done ((((a.spendBudget 0x2E01 1 (rwObj 0x2E01 1 1 0 0 1) 0).recordStore (objKey 0x2E01 1) 0 (leBytes 1 0)).putSetting (objKey 0x2E01 1) 0 0).unseal)) ∧
    (mayWrite who 0x2033 1 .wo = true → a.tenantGone who = false →
      ∃ u, exec (.tenantSnapReq who) s = .next u ∧ u = done { a with dict := { a.dict with
        tenantSnap := requestSnap a.dict.tenantSnap a.time
        snapTenant := if a.dict.tenantSnap.busy then a.dict.snapTenant else a.tenantFor who } }) ∧
    (∀ v, 1 ≤ v → v ≤ 0xFFFE → mayWrite who 0x2030 4 .wo = true → (s.tenants.get v).isSome = true → a.tenantBound v = false → a.tenantBusy v = false →
      ∃ u, exec (.tenantRemove who v) s = .next u ∧ u = done (a.removeTenant v)) ∧
    (∀ v other fail, v ≤ 1 → mayWrite who 0x2030 2 .rw = true → s.dict.storeFailed = false → v ≠ s.setting 0x2030 2 0 → a.leadsOthers = false →
      a.budgetRefuses 0x2030 2 v other (rwObj 0x2030 2 1 0 0 1) = false →
      ∃ u, exec (.tenantIsolationMode who v ⟨other, fail⟩ none) s = .next u ∧
        u = done ((((a.spendBudget 0x2030 2 (rwObj 0x2030 2 1 0 0 1) v).recordStore (objKey 0x2030 2) 0 (leBytes 1 v)).putSetting (objKey 0x2030 2) 0 v).setIsolation v)) ∧
    (∀ v other fail f, f ≤ s.epochs.closed → exec (.tenantIsolationMode who v ⟨other, fail⟩ (some f)) s = .next s)

/-- A reset request that names a unit in service begins the unit's reset, and its answer waits for the unit's return (R425, R493, R496); a drain
that has ended, or whose limit has passed, ends in the reset (R493, R494); a unit whose reset has run returns, one that tripped once it has
cooled (R482, R493); at the end of a half-life every score is halved (R498). -/
def Obligations.ResetAndHealthCommandsComplete : Prop :=
  (∀ (who : Accessor) (req : ResetReq) (s : State), s.mgmt.serverUp = true → s.recoveryOffered = false → mayWrite who 0x2D01 1 .wo = true →
    (s.dict.segWrites.any fun w => w.key = objKey 0x2D01 1 && w.accessor ≠ accessorNo who) = false →
    let a := (s.noteAccess who).dropSeg who (objKey 0x2D01 1)
    let begun := fun (scope : Nat) (u : State) =>
      ((a.beginReset (resetBytes scope req)).repair.jobs.any (covers (resetBytes scope req))) = true ∧
      u = ({ a.beginReset (resetBytes scope req) with dict := { (a.beginReset (resetBytes scope req)).dict with
        waitingReqs := (a.beginReset (resetBytes scope req)).dict.waitingReqs ++ [⟨.single, who, 0, false, [],
          ⟨2, false, 0x2D01, 1, 0, 8, resetBytes scope req, true⟩, [], .reset (resetBytes scope req)⟩] } } : State).resumeRequests
    (resetFormOk (resetBytes 1 req) = true → a.resetUnitOk (resetBytes 1 req) = true → s.repair.jobs.any (covers (resetBytes 1 req)) = false →
      ∃ u, exec (.resetTile who req) s = .next u ∧ begun 1 u) ∧
    (resetFormOk (resetBytes 2 req) = true → a.resetUnitOk (resetBytes 2 req) = true → s.repair.jobs.any (covers (resetBytes 2 req)) = false →
      ∃ u, exec (.resetStrand who req) s = .next u ∧ begun 2 u) ∧
    (resetFormOk (resetBytes 3 req) = true → a.resetUnitOk (resetBytes 3 req) = true → s.repair.jobs.any (covers (resetBytes 3 req)) = false →
      ∃ u, exec (.resetPartition who req) s = .next u ∧ begun 3 u) ∧
    (resetFormOk (resetBytes 4 req) = true → a.resetUnitOk (resetBytes 4 req) = true → s.repair.jobs.any (covers (resetBytes 4 req)) = false →
      ∃ u, exec (.resetModule who req) s = .next u ∧ begun 4 u)) ∧
  (∀ (scope part strand t : Nat) (j : ResetJob) (s : State),
    (s.repair.jobs.find? fun j => jobNamed scope part strand j && j.draining && !j.waiting) = some j →
    ((s.advance t).drained j = true ∨ j.startedAt + j.limit ≤ max s.time t) →
    ∃ u, exec (.resetDrainEnd scope part strand t) s = .next u ∧ u = (((s.advance t).endDrain j).settleStat).resumeRequests) ∧
  (∀ (scope part strand t : Nat) (j : ResetJob) (s : State),
    (s.repair.jobs.find? fun j => jobNamed scope part strand j && !j.draining && decide (max s.time t ≥ j.startedAt + resetCycles j.scope)) = some j →
    s.stillHot j = false →
    ∃ u, exec (.unitReturn scope part strand t) s = .next u ∧ u = ((if j.thermal then ({ s.advance t with power := { (s.advance t).power with
      tripped := s.power.tripped.filter (· ≠ j.part + 1) } } : State) else s.advance t).returnUnit j).resumeRequests) ∧
  (∀ (t : Nat) (s : State), s.repair.halfLifeAt + s.repair.halfLifeH * 3600 * cyclesPerS ≤ max s.time t →
    ∃ u, exec (.healthHalfLife t) s = .next u ∧ ∃ x y : State,
      x = (s.repair.health.map (·.1)).foldl (fun s n => s.setHealth n { s.healthOf n with score := (s.healthOf n).score / 2 }) (s.advance t) ∧
      x.pipe = s.pipe ∧ x.power.doms = s.power.doms ∧ x.repair.jobs = s.repair.jobs ∧
      y = { x with repair := { x.repair with halfLifeAt := max s.time t, halfLifeH := s.setting 0x2D03 1 168 } } ∧ u = y.settleLevel)

/-- A write of 1 clears an event counter, and increments of its cycle count after the clear (R11); SAT is cleared and set again while a counter of
the group is full (R12); registers take what their writable bits carry (R340, R380, R383, R403, R447, R463); a snapshot is requested and
captured (R200 to R202); a function reset ends the function's work and its enable bit (R380, R381). -/
def Obligations.CounterAndRegisterCommandsComplete : Prop :=
  (∀ (index sub k key : Nat) (s : State), counterKeyOf s.selectedTenant index sub = some key →
    ∃ u, exec (.eventCounterClear index sub 1 k) s = .next u ∧ (k = 0 → u = { s with counters := s.counters.erase key }) ∧
      Reports { s with counters := s.counters.erase key } u) ∧
  (∀ (index sub key : Nat) (s : State), summaryKeyOf s.selectedTenant index sub = some key →
    ∃ u, exec (.satClear index sub) s = .next u ∧ u = { s with counters := s.counters.erase key }) ∧
  (∀ (index sub key : Nat) (s : State), summaryKeyOf s.selectedTenant index sub = some key →
    (groupMembers s.counters key).any (fun k => s.counter k == eventMax) = true →
    ∃ u, exec (.satReassert index sub) s = .next u ∧ u = { s with counters := s.counters.set key 1 }) ∧
  (∀ (fn v : Nat) (s : State), fn < 64 → ∃ u, exec (.registerWrite (.pciCommand fn) v) s = .next u ∧
    (u.fnState fn).mse = bit v 0 ∧ (u.fnState fn).bme = bit v 1) ∧
  (∀ (fn v : Nat) (s : State), fn < 64 → (fn = 0 && s.recoveryOffered) = false →
    (if (s.fnState fn).enabled then (s.fnState fn).expert else s.levelExpert fn) = true →
    (∃ u, exec (.registerWrite (.page0 fn 0x00C) v) s = .next u ∧
      u = s.setFn fn { s.fnState fn with evtCause := (s.fnState fn).evtCause &&& (0x1F ^^^ (v % 32)) }) ∧
    (∃ u, exec (.registerWrite (.page0 fn 0x010) v) s = .next u ∧ u = s.setFn fn { s.fnState fn with evtMask := v % 32 }) ∧
    (∃ u, exec (.registerWrite (.page0 fn 0x014) v) s = .next u ∧ u = s.setFn fn { s.fnState fn with evtVector := v % 2048 })) ∧
  (∀ (fn vec v : Nat) (s : State), fn < 64 → vec < s.vectorCount fn →
    (∃ u, exec (.registerWrite (.msixEntry fn vec 0) v) s = .next u ∧
      ((u.fnState fn).vecs.getD vec {}) = { (s.fnState fn).vecs.getD vec {} with addr := v % 18446744073709551616 }) ∧
    (∃ u, exec (.registerWrite (.msixEntry fn vec 1) v) s = .next u ∧
      ((u.fnState fn).vecs.getD vec {}) = { (s.fnState fn).vecs.getD vec {} with data := v % 4294967296 }) ∧
    (bit v 0 = true → ∃ u, exec (.registerWrite (.msixEntry fn vec 2) v) s = .next u ∧
      ((u.fnState fn).vecs.getD vec {}) = { (s.fnState fn).vecs.getD vec {} with masked := true })) ∧
  (∀ (fn v : Nat) (s : State), fn < 64 → bit v 1 = true → ∃ u, exec (.registerWrite (.meterStatus fn) v) s = .next u ∧
    (u.fnState fn).snap = { (s.fnState fn).snap with overlap := false }) ∧
  (∀ (port off v : Nat) (s : State), port < 32 → s.portRegStatus port off (portRegMask off v) = 0 →
    ∃ u, exec (.registerWrite (.port port off) v) s = .next u ∧ u = s.writePortReg port off (portRegMask off v)) ∧
  (∀ (part strand v : Nat) (s : State), part < 4 → strand < 9 → bit v 0 = true →
    ∃ u, exec (.registerWrite (.staging part strand 0x080) v) s = .next u ∧
      u = { s with counters := s.counters.erase (objKey (s.stagingIndex part strand) 0xA) }) ∧
  (∀ (v : Nat) (s : State), ∃ u, exec (.registerWrite (.mailbox 0x20C) v) s = .next u ∧ u = { s with mbx := { s.mbx with
    overrun := s.mbx.overrun &&& (15 ^^^ bits v 3 0), format := s.mbx.format &&& (15 ^^^ bits v 7 4) } }) ∧
  (∀ (v : Nat) (s : State), s.recoveryOffered = true →
    (∃ u, exec (.registerWrite (.recovery 0x008) v) s = .next u ∧ u = { s with mgmt := { s.mgmt with recAddr := v % 18446744073709551616 } }) ∧
    (∃ u, exec (.registerWrite (.recovery 0x010) v) s = .next u ∧ u = { s with mgmt := { s.mgmt with recLen := v % 4294967296 } })) ∧
  (∀ (fn : Nat) (s : State), fn < 64 → ∃ u, exec (.snapReq fn) s = .next u ∧
    u = s.setFn fn { s.fnState fn with snap := if (s.fnState fn).snap.busy then { (s.fnState fn).snap with overlap := true }
      else { (s.fnState fn).snap with busy := true, requestedAt := s.time } }) ∧
  (∀ (fn t : Nat) (s : State), fn < 64 → ((s.advance t).fnState fn).snap.busy = true →
    ∃ u, exec (.meterCapture (some fn) t) s = .next u ∧ (u.fnState fn).snap = { ((s.advance t).fnState fn).snap with
      busy := false, seq := (((s.advance t).fnState fn).snap.seq + 1) % 4294967296, time := max s.time t, epoch := s.epochs.closed
      meters := (s.advance t).meterList ((s.advance t).fnState fn).tenant }) ∧
  (∀ (t : Nat) (s : State), s.dict.tenantSnap.busy = true → ∃ u, exec (.meterCapture none t) s = .next u ∧
    u.dict = { s.dict with tenantSnap := { s.dict.tenantSnap with
      busy := false, seq := (s.dict.tenantSnap.seq + 1) % 4294967296, time := max s.time t, epoch := s.epochs.closed
      meters := (s.advance t).meterList s.dict.snapTenant } }) ∧
  (∀ (fn : Nat) (s : State), fn < 64 → ∃ u, exec (.busMasterClear fn) s = .next u ∧ (u.fnState fn).bme = false ∧
    ((s.fnState fn).enabled = true → (u.fnState fn).enabled = false ∧ (u.fnState fn).pairs = [] ∧ (∀ kb ∈ u.corpus.batches, kb.2.fn ≠ fn) ∧
      (∀ e ∈ u.host.taken, e.fn ≠ fn)) ∧ ((s.fnState fn).enabled = false → u = s.setFn fn { s.fnState fn with bme := false })) ∧
  (∀ (fn : Nat) (s : State), fn < 64 → ∃ u, exec (.functionLevelReset fn) s = .next u ∧ (u.fnState fn).enabled = false ∧
    (u.fnState fn).pairs = [] ∧ (u.fnState fn).windows = [] ∧ (u.fnState fn).vecs = [] ∧ (u.fnState fn).evtMask = 0x1F ∧
    (∀ kb ∈ u.corpus.batches, kb.2.fn ≠ fn) ∧ (∀ e ∈ u.host.taken, e.fn ≠ fn))

/-- The link trains to a speed and width both sides have (R378); the VFs come into being (R408); a function is enabled with ring pair 0, or at the
basic level (R380, R543); a window register takes its value, and requests of
the same cycle still meet the windows before it (R384, R385); a doorbell inside the ring moves its index, one outside it is a ring fault
(R389, R390, R405); a message timer and an unmasked vector send what they owe (R403, R404). -/
def Obligations.HostInterfaceCommandsComplete : Prop :=
  (∀ (gen width : Nat) (s : State), gen = 4 ∨ gen = 5 ∨ gen = 6 → width = 4 ∨ width = 8 ∨ width = 16 → s.host.perst = false →
    ∃ u, exec (.pcieLinkTrain gen width) s = .next u ∧ u = { s with host := { s.host with linkGen := gen, linkWidth := width } }) ∧
  (∀ s : State, s.host.vfEnable = false →
    ∃ u, exec .vfEnable s = .next u ∧ u = { s with host := { s.host with vfEnable := true, vfVectors := s.setting 0x2036 1 31 } }) ∧
  (∀ (fn : Nat) (s : State), s.enableAllowed fn = true → s.levelExpert fn = true →
    ringSizeOk ((s.fnState fn).adminSize % 65536) = true → ringSizeOk ((s.fnState fn).adminSize / 65536) = true →
    (s.fnState fn).adminSqBase % 4096 = 0 → (s.fnState fn).adminCqBase % 4096 = 0 →
    dmaInside { s.fnState fn with expert := true } false (s.fnState fn).adminSqBase (128 * ((s.fnState fn).adminSize % 65536)) = true →
    dmaInside { s.fnState fn with expert := true } true (s.fnState fn).adminCqBase (64 * ((s.fnState fn).adminSize / 65536)) = true →
    ∃ u, exec (.fnEnable fn) s = .next u ∧ u = (s.setFn fn { s.fnState fn with
      expert := true, enabled := true, tenant := s.fnTenant fn,
      pairs := [(0, ({ state := 1, kind := 0, sqBase := (s.fnState fn).adminSqBase, sqSize := (s.fnState fn).adminSize % 65536,
                       cqBase := (s.fnState fn).adminCqBase, cqSize := (s.fnState fn).adminSize / 65536,
                       vector := (s.fnState fn).adminVector } : RingPair))] }).cause fn 2) ∧
  (∀ (fn : Nat) (s : State), s.enableAllowed fn = true → s.levelExpert fn = false →
    ∃ u, exec (.run fn) s = .next u ∧ u = s.setFn fn { s.fnState fn with enabled := true, expert := false, tenant := s.fnTenant fn }) ∧
  (∀ (fn w v : Nat) (s : State), w < 16 → (if (s.fnState fn).enabled then (s.fnState fn).expert else s.levelExpert fn) = true →
    (∃ u, exec (.dmaWindowWrite fn (32 * w) v) s = .next u ∧ u = s.setFn fn { s.fnState fn with
      windows := (s.fnState fn).windows.put w {} { (s.fnState fn).windows.getD w {} with base := v % 18446744073709551616 }
      winOld := some (s.time, (s.fnNow fn).windows) }) ∧
    (∃ u, exec (.dmaWindowWrite fn (32 * w + 8) v) s = .next u ∧ u = s.setFn fn { s.fnState fn with
      windows := (s.fnState fn).windows.put w {} { (s.fnState fn).windows.getD w {} with last := v % 18446744073709551616 }
      winOld := some (s.time, (s.fnNow fn).windows) }) ∧
    (∃ u, exec (.dmaWindowWrite fn (32 * w + 16) v) s = .next u ∧ u = s.setFn fn { s.fnState fn with
      windows := (s.fnState fn).windows.put w {} { (s.fnState fn).windows.getD w {} with valid := bit v 0, read := bit v 1, write := bit v 2 }
      winOld := some (s.time, (s.fnNow fn).windows) })) ∧
  (∀ (fn pair v : Nat) (s : State), s.doorbells fn = true → pair < 64 → (s.pairOf fn pair).state ≠ 0 →
    (v % 65536 < (s.pairOf fn pair).sqSize → ∃ u, exec (.sqTail fn pair v) s = .next u ∧
      u = s.setPair fn pair { s.pairOf fn pair with sqTail := v % 65536 }) ∧
    ((s.pairOf fn pair).sqSize ≤ v % 65536 → ∃ u, exec (.sqTail fn pair v) s = .next u ∧ u = s.ringFault fn pair 1)) ∧
  (∀ (fn pair v : Nat) (s : State), s.doorbells fn = true → pair < 64 → (s.pairOf fn pair).state ≠ 0 → v % 65536 < (s.pairOf fn pair).cqSize →
    (v % 65536 + (s.pairOf fn pair).cqSize - (s.pairOf fn pair).cqHead) % (s.pairOf fn pair).cqSize ≤ (s.pairOf fn pair).unconsumed →
    ∃ u, exec (.cqHead fn pair v) s = .next u ∧ u = s.setPair fn pair { s.pairOf fn pair with
      cqHead := v % 65536, unconsumed := (s.pairOf fn pair).unconsumed -
        (v % 65536 + (s.pairOf fn pair).cqSize - (s.pairOf fn pair).cqHead) % (s.pairOf fn pair).cqSize }) ∧
  (∀ (fn pair t : Nat) (s : State), ((s.advance t).pairOf fn pair).unsignalled > 0 →
    ((s.advance t).pairOf fn pair).oldestAt + ((s.advance t).pairOf fn pair).coalUs * cyclesPerUs ≤ max s.time t →
    ∃ u, exec (.coalTimer fn pair t) s = .next u ∧ u = ((s.advance t).setPair fn pair
      { (s.advance t).pairOf fn pair with unsignalled := 0 }).msix fn ((s.advance t).pairOf fn pair).vector) ∧
  (∀ (fn vec : Nat) (s : State), vec < s.vectorCount fn →
    let x := s.setFn fn { s.fnState fn with
      vecs := (s.fnState fn).vecs.set vec { (s.fnState fn).vecs.getD vec {} with masked := false, pending := false } }
    ∃ u, exec (.msixUnmask fn vec) s = .next u ∧ u = if ((s.fnState fn).vecs.getD vec {}).pending then x.msix fn vec else x) ∧
  (∀ (fn v : Nat) (s : State), (if (s.fnState fn).enabled then (s.fnState fn).expert else s.levelExpert fn) = false →
    ((s.fnState fn).enabled = false ∨ v % 65536 < (s.fnState fn).basic.qsrSize) →
    ∃ u, exec (.qsrTail fn v) s = .next u ∧
      u = s.setFn fn { s.fnState fn with basic := { (s.fnState fn).basic with qsrTail := v % 65536 } }) ∧
  (∀ (fn v : Nat) (s : State), (s.fnState fn).enabled = true → (s.fnState fn).expert = false → v % 65536 < (s.fnState fn).basic.qcrSize →
    (v % 65536 + (s.fnState fn).basic.qcrSize - (s.fnState fn).basic.qcrHead) % (s.fnState fn).basic.qcrSize ≤ (s.fnState fn).basic.unconsumed →
    ∃ u, exec (.qcrHead fn v) s = .next u ∧ u = s.setFn fn { s.fnState fn with basic := { (s.fnState fn).basic with
      qcrHead := v % 65536, unconsumed := (s.fnState fn).basic.unconsumed -
        (v % 65536 + (s.fnState fn).basic.qcrSize - (s.fnState fn).basic.qcrHead) % (s.fnState fn).basic.qcrSize } }) ∧
  (∀ (fn v : Nat) (s : State), (if (s.fnState fn).enabled then (s.fnState fn).expert else s.levelExpert fn) = false →
    ((s.fnState fn).enabled = false ∨ v % 65536 < (s.fnState fn).basic.igrSize) →
    ∃ u, exec (.igrTail fn v) s = .next u ∧
      u = s.setFn fn { s.fnState fn with basic := { (s.fnState fn).basic with igrTail := v % 65536 } })

/-- The next entry in rotation is taken (R392, R393); CREATE_RING makes a pair ACTIVE, DELETE_RING makes it DELETING, SET_INTERRUPT sets its
vector and thresholds after its own completion (R400, R401, R404); IDENTITY answers the module ID and the identity key (R400, R454);
OBJECT_ACCESS runs a request whose response fits (R431). Each administration command runs on the state in which its entry has been taken and
its input read. -/
def Obligations.RingAndAccessCommandsComplete : Prop :=
  (∀ (fn pair : Nat) (s : State), nextRobin 64 s.host.lastFn (fun fn => (s.nextPair fn).isSome) = some fn → s.nextPair fn = some pair →
    (s.fnState fn).expert = true → dmaInside (s.fnNow fn) false ((s.pairOf fn pair).sqBase + 128 * (s.pairOf fn pair).sqHead) 128 = true →
    let p := s.pairOf fn pair
    let d := (s.count (objKey (0x2040 + fn) 1) 128).setPair fn pair { p with
      sqHead := if p.sqHead + 1 ≥ p.sqSize then 0 else p.sqHead + 1, reserved := p.reserved + 1 }
    let e := ({ d with host := { d.host with taken := d.host.taken ++ [⟨fn, pair, p.sqHead⟩] } } : State).updFn fn fun f => { f with lastPair := pair }
    ∃ u, exec (.entryTake true) s = .next u ∧ u = ({ e with host := { e.host with lastFn := fn } } : State).tally (0x2040 + fn) 4) ∧
  (∀ (cmd : AdminCmd) (s : State), s.adminRuns cmd 0x10 32 (allZero cmd.entry 60 4) false = true →
    let a := s.adminTaken cmd
    let pair := field cmd.entry 48 1
    1 ≤ pair → pair ≤ 63 → (a.pairOf cmd.fn pair).state = 0 → (field cmd.entry 49 1 = 1 ∨ field cmd.entry 49 1 = 2) →
    ringSizeOk (field cmd.entry 50 2) = true → ringSizeOk (field cmd.entry 52 2) = true → field cmd.entry 64 8 % 4096 = 0 →
    field cmd.entry 72 8 % 4096 = 0 → a.interruptOk cmd.fn (field cmd.entry 54 2) (field cmd.entry 56 2) (field cmd.entry 58 2) = true →
    ∃ u, exec (.createRing cmd) s = .next u ∧ u = (a.setPair cmd.fn pair
      ({ state := 1, kind := field cmd.entry 49 1, sqBase := field cmd.entry 64 8, sqSize := field cmd.entry 50 2
         cqBase := field cmd.entry 72 8, cqSize := field cmd.entry 52 2, vector := field cmd.entry 54 2
         coalCount := field cmd.entry 56 2, coalUs := field cmd.entry 58 2 } : RingPair)).adminDone (adminRef cmd) 0 [] []) ∧
  (∀ (cmd : AdminCmd) (s : State), s.adminRuns cmd 0x11 1 true false = true →
    let a := s.adminTaken cmd
    let pair := field cmd.entry 48 1
    1 ≤ pair → pair ≤ 63 → (a.pairOf cmd.fn pair).state = 1 ∨ (a.pairOf cmd.fn pair).state = 2 →
    ∃ u, exec (.deleteRing cmd) s = .next u ∧ u = (a.setPair cmd.fn pair { a.pairOf cmd.fn pair with
      state := 3, deleting := some (adminRef cmd) }).finishDelete cmd.fn pair) ∧
  (∀ (cmd : AdminCmd) (s : State), s.adminRuns cmd 0x12 8 (allZero cmd.entry 49 1) false = true →
    let a := s.adminTaken cmd
    let d := a.adminDone (adminRef cmd) 0 [] []
    let pair := field cmd.entry 48 1
    pair ≤ 63 → (a.pairOf cmd.fn pair).state ≠ 0 →
    a.interruptOk cmd.fn (field cmd.entry 50 2) (field cmd.entry 52 2) (field cmd.entry 54 2) = true →
    let x := d.setPair cmd.fn pair { d.pairOf cmd.fn pair with
      vector := field cmd.entry 50 2, coalCount := field cmd.entry 52 2, coalUs := field cmd.entry 54 2 }
    ∃ u, exec (.setInterrupt cmd) s = .next u ∧
      u = if pair = 0 then x.updFn cmd.fn fun f => { f with adminVector := field cmd.entry 50 2 } else x) ∧
  (∀ (cmd : AdminCmd) (s : State), s.adminRuns cmd 0x51 0 true false = true →
    ∃ u, exec (.identity cmd) s = .next u ∧ u = (s.adminTaken cmd).adminDone (adminRef cmd) 0
      (leBytes 2 s.mgmt.moduleId ++ leBytes 6 0 ++ edPublic identitySecret) []) ∧
  (∀ (cmd : AdminCmd) (s : State), s.adminRuns cmd 0x70 0 true false = true → (adminInput cmd).length ≤ 65568 →
    requestHeaderOk (adminInput cmd) = true →
    responseSize (parseItems (field (adminInput cmd) 0 2) ((adminInput cmd).drop 8)) ≤ (adminRef cmd).outLen →
    ∃ u, exec (.objectAccess cmd) s = .next u ∧
      u = (s.adminTaken cmd).runRequest (.admin (adminRef cmd)) (.fn cmd.fn) (adminInput cmd))

/-- A catalog command that passes the checks schedules its change for the epoch F, and completes when F opens; in a composition the leader announces
a map that holds it and another module forwards it to the leader (R186, R234, R235); the management firmware makes grants too (R186); a feature
table is made at once with its default row and its shards (R248, R360). -/
def Obligations.CatalogCommandsComplete : Prop :=
  ∀ (cmd : AdminCmd) (s : State),
    let a := s.adminTaken cmd
    let sched := fun (a : State) (r : Option AdminRef) (c : Nat → CatalogChange) =>
      if a.mgmt.sealed_ && !a.leads then
        ({ a with catalog := { a.catalog with forwarded := a.catalog.forwarded ++ [⟨a.epochs.open_, c 0, r⟩] } } : State).emit
          (.report 12 [a.epochs.leader, changeNo (c 0)])
      else
        let f := a.epochs.open_ + a.setting 0x2B00 3 8
        let f := if a.mgmt.sealed_ && a.announced.isSome then max f (a.announcedEpoch + 1) else f
        let b : State := { a with catalog := { a.catalog with pending := a.catalog.pending ++ [⟨f, c f, r⟩] } }
        if a.mgmt.sealed_ then b.announceNext id else b
    let scheduled := fun (c : Nat → CatalogChange) => sched a (some (adminRef cmd)) c
    let ns := field cmd.entry 48 4
    let idx := field cmd.entry 52 4
    let who := field cmd.entry 52 2
    (s.adminRuns cmd 0x33 6 true true = true → who ≠ 0 → who ≠ 0xFFFF → ns ≠ 0 → ns ≠ 0xFFFFFFFF → a.nsUsed ns = false → a.nsCount < 4096 →
      ∃ u, exec (.namespaceCreate cmd) s = .next u ∧ u = scheduled fun f => (.nsCreate { ns, owner := who, created := f })) ∧
    (s.adminRuns cmd 0x34 4 true true = true → (a.nsAt ns a.epochs.open_).isSome = true →
      (a.catalog.indices.any fun i => i.ns = ns && i.deleted.isNone && !a.idxEnding ns i.idx) = false → a.idxComing ns = false →
      ∃ u, exec (.namespaceDelete cmd) s = .next u ∧ u = scheduled fun _ => .nsDelete ns) ∧
    (s.adminRuns cmd 0x35 12 true false = true → field cmd.entry 56 1 ≤ 3 → field cmd.entry 57 1 ≤ 3 → 1 ≤ field cmd.entry 58 2 →
      field cmd.entry 58 2 ≤ 4096 → idx ≠ 0 → idx ≠ 0xFFFFFFFF → a.ownerFail cmd.fn ns none = none → a.idxUsed ns idx = false → a.idxCount < 16384 →
      ∃ u, exec (.indexCreate cmd) s = .next u ∧ u = scheduled fun f => (.idxCreate {
          ns, idx, metric := field cmd.entry 56 1, width := field cmd.entry 57 1, dim := field cmd.entry 58 2, created := f })) ∧
    (s.adminRuns cmd 0x36 8 true false = true → a.ownerFail cmd.fn ns (some idx) = none →
      ∃ u, exec (.indexDelete cmd) s = .next u ∧ u = scheduled fun _ => .idxDelete ns idx) ∧
    (s.adminRuns cmd 0x40 12 (allZero cmd.entry 54 2) false = true → who ≠ 0 → who ≠ 0xFFFF → field cmd.entry 56 4 ≠ 0 →
      a.ownerFail cmd.fn ns none = none → ((a.nsAt ns a.epochs.open_).any fun n => n.owner = who) = false → a.grantFor ns who = none → a.grantWaits ns who true = false →
      a.grantCount ns < 16 →
      ∃ u, exec (.grantCreate ⟨cmd, false⟩) s = .next u ∧ u = scheduled fun f => (.grantCreate { ns, grantee := who, groups := field cmd.entry 56 4, from_ := f })) ∧
    (who ≠ 0 → who ≠ 0xFFFF → field cmd.entry 56 4 ≠ 0 → (s.nsAt ns s.epochs.open_).isSome = true →
      ((s.nsAt ns s.epochs.open_).any fun n => n.owner = who) = false → s.grantFor ns who = none → s.grantWaits ns who true = false → s.grantCount ns < 16 →
      ∃ u, exec (.grantCreate ⟨cmd, true⟩) s = .next u ∧
        u = sched s none fun f => (.grantCreate { ns, grantee := who, groups := field cmd.entry 56 4, from_ := f })) ∧
    (s.adminRuns cmd 0x41 6 true false = true → a.ownerFail cmd.fn ns none = none → (a.grantFor ns who).isSome = true →
      a.grantWaits ns who false = false →
      ∃ u, exec (.grantRevoke ⟨cmd, false⟩) s = .next u ∧ u = scheduled fun _ => .grantRevoke ns who) ∧
    (∀ (table tns rows bytes log : Nat), s.adminRuns cmd 0x42 32 (allZero cmd.entry 67 13) false = true → table = field (cmd.entry.drop 48) 0 4 →
      tns = field (cmd.entry.drop 48) 4 4 → rows = field (cmd.entry.drop 48) 8 8 → bytes = field (cmd.entry.drop 48) 16 2 →
      log = field (cmd.entry.drop 48) 18 1 → 1 ≤ rows → rows ≤ 1099511627776 → 8 ≤ bytes → bytes ≤ 1024 → bytes % 8 = 0 → 16 ≤ log → log ≤ 24 →
      (adminInput cmd).length = bytes → a.ownerFail cmd.fn tns none = none →
      (a.exchange.tables.any fun t => t.table = table && t.ns = tns && t.deletedAt.isNone) = false →
      ∃ u, exec (.tableCreate cmd) s = .next u ∧ u = ({ a with exchange := { a.exchange with tables := a.exchange.tables ++
        [{ table, ns := tns, rows, rowBytes := bytes, shardLog := log, default_ := adminInput cmd }] } } : State).syncFeatures.adminDone (adminRef cmd) 0 [] [])

/-- VERSION_CREATE adds the version with one projection generation and its first lists (R236, R536); a build ends, and the version is READY once
every home has reported (R116, R238); VERSION_SWITCH announces F, the fourth epoch to open (R239); VERSION_INFO answers the record (R400,
R401); a version that nothing reads is freed (R237, R239), and a deleted index's data is discarded, its ID free once every
home has reported (R235). A module that does not lead asks its leader for the switch (R239). -/
def Obligations.VersionCommandsComplete : Prop :=
  (∀ (cmd : AdminCmd) (s : State) (i : IndexRec) (slot : Nat) (img : Image), s.adminRuns cmd 0x30 0 true false = true →
    let a := s.adminTaken cmd
    let v := parseVersion (adminInput cmd) a.epochs.open_
    let held := a.catalog.versions.filter fun x => x.ns = v.ns && x.idx = v.idx
    versionFormOk (adminInput cmd) = true → a.ownerFail cmd.fn v.ns (some v.idx) = none → a.idxAt v.ns v.idx a.epochs.open_ = some i →
    i.width = v.width → i.metric = v.metric → i.dim = v.dim → held.length < 3 →
    (held.any fun x => x.ver = v.ver || x.state == .building || x.state == .ready) = false → a.imageByDigest v.image = some (slot, img) →
    (∀ m, img.encoder = some m → m.outDim = v.dim) →
    ∃ u, exec (.versionCreate cmd) s = .next u ∧ u = (a.createVersion v).adminDone (adminRef cmd) 0 [] []) ∧
  (∀ (ns idx ver : Nat) (reports : List BuildReport) (v : Version) (s : State), s.versionOf ns idx ver = some v → v.state = .building →
    s.maintRuns = true → buildBytes v ≤ s.tierRoom 0 true →
    let x := (v.toBuild.foldl (fun s r => s.buildRecord ns idx ver r) s).updVersion ns idx ver fun v =>
      { v with toBuild := [], homesReady := reports.map (·.home) }
    ∃ u, exec (.versionBuildComplete ns idx ver reports) s = .next u ∧
      (x.otherHomes.all (reports.map (·.home)).contains = false → u = x) ∧
      (x.otherHomes.all (reports.map (·.home)).contains = true → u = x.updVersion ns idx ver fun w =>
        let y : Version := { w with state := .ready, normEst := x.normEst v (reports.filter fun r => x.otherHomes.contains r.home) }
        { y with digest := shake256 ((versionBytes y).take 104) 64 })) ∧
  (∀ (cmd : AdminCmd) (s : State) (v : Version), s.adminRuns cmd 0x31 12 true false = true →
    let a := s.adminTaken cmd
    let ns := field cmd.entry 48 4
    let idx := field cmd.entry 52 4
    let ver := field cmd.entry 56 4
    a.ownerFail cmd.fn ns (some idx) = none → a.versionOf ns idx ver = some v → v.state = .ready →
    a.oldDrains v = false → ((a.imageByDigest v.image).any fun x => !x.2.installed.isEmpty) = true → v.switchEpoch = 0 →
    ∃ u, exec (.versionSwitch cmd) s = .next u ∧ (a.leads = false → u = a.askSwitch (adminRef cmd) ns idx ver) ∧ (a.leads = true → u = ({ a.updVersion ns idx ver (fun v => { v with switchEpoch := a.epochs.open_ + 4 }) with
      epochs := { a.epochs with switches := a.epochs.switches ++ [(ver, ns, idx, a.epochs.open_ + 4)] } } : State).adminDone
        (adminRef cmd) 0 [] (leBytes 8 (a.epochs.open_ + 4)))) ∧
  (∀ (cmd : AdminCmd) (s : State) (v : Version), s.adminRuns cmd 0x32 12 true false = true →
    let a := s.adminTaken cmd
    a.ownerFail cmd.fn (field cmd.entry 48 4) (some (field cmd.entry 52 4)) = none →
    a.versionOf (field cmd.entry 48 4) (field cmd.entry 52 4) (field cmd.entry 56 4) = some v →
    ∃ u, exec (.versionInfo cmd) s = .next u ∧ u = a.adminDone (adminRef cmd) 0 (versionBytes v) (leBytes 1 (vstateCode v.state))) ∧
  (∀ (ns idx ver : Nat) (v : Version) (s : State), s.versionOf ns idx ver = some v → v.state = .draining → v.endEpoch.getD 0 ≤ s.usableClosed →
    s.versionHeld v (v.endEpoch.getD 0) = false →
    let mine := (s.corpus.dir.filter fun kv => kv.2.state ≠ 0 && kv.2.ns = ns && kv.2.idx = idx && kv.2.version = ver).map (·.1)
    (mine.any fun k => (s.corpus.dir.get k).any fun e => e.frees ≥ 255) = false →
    ∃ u, exec (.versionFree ns idx ver) s = .next u ∧ (∀ x ∈ u.catalog.versions, ¬(x.ns = ns ∧ x.idx = idx ∧ x.ver = ver))) ∧
  (∀ (ns idx : Nat) (i : IndexRec) (s : State),
    (s.catalog.indices.find? fun i => i.ns = ns && i.idx = idx && i.deleted.isSome && !i.discarded) = some i →
    i.deleted.getD 0 ≤ s.epochs.open_ → s.snapBelow (i.deleted.getD 0) = false →
    (s.catalog.versions.any fun v => v.ns = ns && v.idx = idx) = false →
    let d := if i.reported then s else s.discardIndex ns idx
    (∀ homes, ∃ u, exec (.indexDataDiscard ⟨ns, idx⟩ homes) s = .next u ∧ u = if d.otherHomes.all homes.contains then { d with catalog := { d.catalog with
        indices := replaceFirst (fun x => x.ns = ns && x.idx = idx && !x.discarded) (fun x => { x with discarded := true }) d.catalog.indices } } else d) ∧
    (i.reported = false → (∀ kr ∈ d.corpus.records, ¬(kr.2.ns = ns ∧ kr.2.idx = idx)) ∧
      ∃ sent, d.out = sent ++ [.report 3 [ns, idx, ((s.corpus.records.filter fun kr => kr.2.ns = ns && kr.2.idx = idx).map (·.1)).length]]))

/-- A receipt period ends after 100 ms: the rest of its leaves goes to the receipt log and its tree is built (R242), signed in order and made durable
there (R243), and erased, its units freed, once RECEIPT_RETAIN has passed (R244); RECEIPT_PROOF answers the leaf, header, signature and siblings of a durable tree (R244). An image that fails a check of R72
leaves one log record and its status, and one that passes becomes resident; IMAGE_REMOVE frees it (R73); an installation begins, ends its
drain, is cut off at SWAP_DRAIN_LIMIT, and ends with a good readback digest (R74 to R76); IMAGE_INFO answers its digests (R541). -/
def Obligations.ReceiptAndImageCommandsComplete : Prop :=
  (∀ (t : Nat) (s : State), s.receipts.periodStart + receiptPeriod ≤ max s.time t →
    let a := (s.advance t).receiptWrite (List.replicate ((4096 - s.receipts.buffer.length % 4096) % 4096) 0)
    ∃ u, exec (.receiptPeriodEnd t) s = .next u ∧ u = { a with
      receipts := { a.receipts with
        open_ := [], units := [], nextTree := a.receipts.nextTree + 1, periodStart := s.receipts.periodStart + receiptPeriod,
        trees := a.receipts.trees ++ [{
          seq := a.receipts.nextTree, first := a.receipts.nextLeaf - a.receipts.open_.length,
          leaves := a.receipts.open_, header := a.treeHeader false, periodStart := a.receipts.periodStart, units := a.receipts.units }] } }) ∧
  (∀ (seq : Nat) (x : Tree) (s : State), (s.receipts.trees.find? fun t => t.seq = seq && !t.durable) = some x →
    (s.receipts.trees.any fun u => u.seq < seq && !u.durable) = false →
    let header := x.header.take 120 ++ slice s.receipts.prevDigest 0 64 ++ leBytes 72 0
    let sig := edSign (ascii "ZR96RCPT") identitySecret header
    let w := (s.spendCycles 0x2E0C 8).storeBytes (header ++ sig)
    ∃ u, exec (.receiptTrees seq) s = .next u ∧ u = ({ w.1 with
      receipts := { w.1.receipts with
        trees := replaceFirst (fun y => y.seq = seq) (fun _ => { x with header, signature := sig, durable := true, units := x.units ++ w.2 }) s.receipts.trees,
        prevDigest := shake256 (header ++ sig) 64 } } : State).tally 0x2710 0xC) ∧
  (∀ (t : Nat) (s : State),
    let old := fun (x : Tree) => x.durable && decide (max s.time t ≥ x.periodStart + receiptPeriod + (s.advance t).setting 0x2702 1 24 * 3600 * cyclesPerS)
    ∃ u, exec (.receiptErase t) s = .next u ∧ u = ({ s.advance t with receipts := { s.receipts with trees := s.receipts.trees.dropWhile old } }
      : State).discardUnits ((s.receipts.trees.takeWhile old).flatMap (·.units))) ∧
  (∀ (cmd : AdminCmd) (leaf : List Byte) (x : Tree) (s : State), s.adminRuns cmd 0x50 8 true false = true →
    let a := s.adminTaken cmd
    let sibs := proofSiblings x.leaves (field cmd.entry 48 8 - x.first)
    a.leafAt (field cmd.entry 48 8) = some (leaf, some x) → (cmd.fn = 0 ∨ field leaf 20 2 = (a.fnState cmd.fn).tenant) →
    ∃ u, exec (.receiptProof cmd) s = .next u ∧ u = a.adminDone (adminRef cmd) 0 (slice leaf 0 448 ++ slice x.header 0 256 ++
      slice x.signature 0 114 ++ leBytes 2 0 ++ leBytes 4 sibs.length ++ sibs.flatten) []) ∧
  (∀ (cmd : AdminCmd) (facts : ImageFacts) (s : State), s.adminRuns cmd 0x20 0 true true = true →
    let a := s.adminTaken cmd
    let b := adminInput cmd
    ∃ u, exec (.imageSubmit cmd facts) s = .next u ∧
      (a.imageStatus b facts ≠ 0 → u = (a.logEvent 0 0 1 unitModule []).adminDone (adminRef cmd) (a.imageStatus b facts) [] []) ∧
      (a.imageStatus b facts = 0 → (a.imageByDigest (imageDigest b)).isSome = true → u = a.adminDone (adminRef cmd) 0 (imageDigest b) []) ∧
      (a.imageStatus b facts = 0 → a.imageByDigest (imageDigest b) = none → 64 ≤ (adminRef cmd).outLen →
        u = (a.loadImage b facts).adminDone (adminRef cmd) 0 (imageDigest b) [])) ∧
  (∀ (cmd : AdminCmd) (slot : Nat) (img : Image) (s : State), s.adminRuns cmd 0x21 64 true true = true →
    let a := s.adminTaken cmd
    a.imageByDigest (slice cmd.entry 48 64) = some (slot, img) → (a.catalog.versions.any fun v => v.image = img.digest) = false →
    let f := ((img.encoder.toList ++ img.scorer.toList).flatMap (·.weights)).foldl (fun (s : State) o => s.freeObj o) a
    ∃ u, exec (.imageRemove cmd) s = .next u ∧ u = ({ f with
      images := f.images.erase slot,
      pipe := { f.pipe with tensor := f.pipe.tensor.mapVals fun p => { p with shares := p.shares.filter fun x => x.model / 2 ≠ slot } } }
      : State).adminDone (adminRef cmd) 0 [] []) ∧
  (∀ (cmd : AdminCmd) (slot : Nat) (img : Image) (s : State), s.adminRuns cmd 0x22 66 true true = true →
    let a := s.adminTaken cmd
    field cmd.entry 112 1 < 4 → a.imageByDigest (slice cmd.entry 48 64) = some (slot, img) → (a.installs.any fun i => !i.waiting) = false →
    let begun (remove : Bool) : State := ({ a with
      installs := a.installs ++ [{
        part := field cmd.entry 112 1, image := slot, remove, startedAt := a.time,
        limitUs := a.setting 0x2100 4 20000, cmd := some (adminRef cmd), waiting := false }] } : State).quiesce (field cmd.entry 112 1)
    (field cmd.entry 113 1 = 1 → ∃ u, exec (.imageInstall cmd) s = .next u ∧ u = begun false) ∧
    (field cmd.entry 113 1 = 2 → ∃ u, exec (.imageUninstall cmd) s = .next u ∧ u = begun true)) ∧
  (∀ (part : Nat) (i : Install) (s : State), s.installIn part = some i → i.drained = false →
    (s.partBusy part = false → ∃ u, exec (.installDrainEnd part) s = .next u ∧ u = { s with
      installs := replaceFirst (fun j => j.part = part && !j.waiting) (fun _ => { i with drained := true }) s.installs }) ∧
    (s.partBusy part = true → ∃ u, exec (.installDrainEnd part) s = .next u ∧ u = s)) ∧
  (∀ (part t : Nat) (i : Install) (s : State), (s.advance t).installIn part = some i → i.drained = false →
    (s.advance t).partBusy part = true → i.startedAt + i.limitUs * cyclesPerUs ≤ max s.time t →
    ∃ u, exec (.installDrainLimit part t) s = .next u ∧ u = ((s.advance t).resetStrandsOf part).setInstall part { i with drained := true }) ∧
  (∀ (part unit : Nat) (i : Install) (s : State), s.installIn part = some i → i.drained = true →
    (∃ u, exec (.installWriteComplete part true unit) s = .next u ∧ u = s.endInstall i 0) ∧
    (∃ u, exec (.installWriteComplete part false unit) s = .next u ∧ u =
      if i.retried then ((s.score unit 250).endInstall i 0x108).settle
      else ((s.score unit 250).setInstall part { i with retried := true }).settle)) ∧
  (∀ (cmd : AdminCmd) (slot : Nat) (img : Image) (s : State), s.adminRuns cmd 0x23 64 true false = true →
    let a := s.adminTaken cmd
    let dig (m : Option Model) : List Byte := (m.map fun m => slice m.digest 0 64).getD zero64
    a.imageByDigest (slice cmd.entry 48 64) = some (slot, img) →
    ∃ u, exec (.imageInfo cmd) s = .next u ∧ u = a.adminDone (adminRef cmd) 0 (slice img.digest 0 64 ++ dig img.encoder ++ dig img.scorer ++
      leBytes 4 img.security ++ leBytes 1 ((img.installed.map fun p => 2 ^ p).sum) ++ leBytes 3 0) [])

/-- An expert query whose entry and body pass the windows enters, or is REJECTED where its own checks fail (R391, R394); a basic-level
descriptor is taken and its query enters (R405, R406); QUERY_PLACE admits it at the strand of R51, holds it for its minimum epoch or rejects
it (R16); the hold ends with the snapshot stamped (R17); the head of the tensor queue starts once its tiles are free (R54); ENCODE ends at its
deadline (R170) or with the vector (R171); the sketches follow; and the admission table publishes credits (R59). -/
def Obligations.AdmissionCommandsComplete : Prop :=
  (∀ (fn pair sqIndex : Nat) (entry body : List Byte) (s : State), s.host.taken.contains ⟨fn, pair, sqIndex⟩ = true → (s.pairOf fn pair).kind = 1 →
    field entry 0 1 = 1 →
    let a : State := { s with host := { s.host with taken := s.host.taken.erase ⟨fn, pair, sqIndex⟩ } }
    let q := parseQuery entry body
    dmaInside (a.fnNow fn) false (field entry 56 8) (field entry 64 4) = true → dmaInside (a.fnNow fn) true q.resultAddr (16 * q.k) = true →
    ∃ u, exec (.queryEntryArrive fn pair sqIndex entry body true) s = .next u ∧
      u = (a.count (objKey (0x2040 + fn) 1) (field entry 64 4)).newQuery fn pair sqIndex false q
        (if queryEntryOk entry body s.epochs.open_ then none else some 0x82)) ∧
  (∀ (fn : Nat) (desc vec : List Byte) (s : State), s.turn = some (fn, 0) → (s.fnState fn).expert = false →
    let b := (s.fnState fn).basic
    dmaInside (s.fnNow fn) false (b.qsrBase + 64 * b.qsrHead) 64 = true →
    let a := (s.count (objKey (0x2040 + fn) 1) 64).takeDescriptor fn
    let m := a.basicIndex fn (field desc 27 1 % 16)
    let f := parseBasicQuery desc vec m.1 m.2
    dmaInside (a.fnNow fn) false (field desc 8 8) (inputBytes false f.fmt f.len) = true → dmaInside (a.fnNow fn) true f.resultAddr (16 * f.k) = true →
    let c := a.count (objKey (0x2040 + fn) 1) (inputBytes false f.fmt f.len)
    ∃ u, exec (.basicQueryDescriptor fn desc vec ⟨true, true⟩) s = .next u ∧ u = c.newQuery fn 0 b.qsrHead true f
      (if basicQueryOk desc vec c.epochs.open_ = false then some 0x82 else if m.1 = 0 ∧ m.2 = 0 then some 0x81 else none)) ∧
  (∀ (q g : Nat) (x : Query) (v : Version) (slot forced : Nat) (img : Image) (s : State), s.query q = some x → x.phase = .placing →
    s.checkAt x s.usableClosed = .ok (v, slot, img, forced) → x.fields.minEpoch ≤ s.usableClosed → img.installed ≠ [] →
    s.placeStrand img.installed = some g →
    ∃ u, exec (.queryPlace q) s = .next u ∧ u = s.admitQuery q x g s.usableClosed (.ok (v, slot, img, forced))) ∧
  (∀ (q c : Nat) (x : Query) (s : State), s.query q = some x → x.phase = .placing → s.checkAt x s.usableClosed = .error c →
    x.fields.minEpoch ≤ s.usableClosed → ∃ u, exec (.queryPlace q) s = .next u ∧ u = s.reject q x c) ∧
  (∀ (q : Nat) (x : Query) (v : Version) (slot forced : Nat) (img : Image) (s : State), s.query q = some x → x.phase = .minHold →
    x.fields.minEpoch ≤ s.usableClosed → s.checkAt x s.usableClosed = .ok (v, slot, img, forced) → img.installed.contains (x.g / 8) = true →
    s.inFlight x.tenant < (s.tenant x.tenant).inflightCap →
    let y : Query := { x with dual := s.setting 0x2D04 2 1 = 1 && dualSelected s.pipe.admitted }
    let d := ({ s with pipe := { s.pipe with admitted := s.pipe.admitted + 1 } } : State).gigDecision y
    ∃ u, exec (.minEpochHoldEnd q) s = .next u ∧ u = d.1.stampQuery q { y with gig := d.2 } s.usableClosed v slot img forced) ∧
  (∀ (part : Nat) (r : TensorReq) (rest : List TensorReq) (x : Query) (m : Model) (n : Nat) (s : State), (s.pool part).queue = r :: rest →
    r.tiles ≤ (freeTiles (s.pool part)).length → s.query r.owner = some x → s.modelOf r.model = some (m, n) →
    ∃ u, exec (.tensorGrant part) s = .next u ∧
      (s.tooLate part x.deadlineAt (statedNs m (rowsOf r.kind x)) = true → u = s.withdrawRequest r.owner x r.kind) ∧
      (s.tooLate part x.deadlineAt (statedNs m (rowsOf r.kind x)) = false →
        u = (s.grantTiles part r (pickTiles (s.pool part) r.model r.tiles)).setQuery r.owner { x with
          phase := if r.kind == .encode then .encoding else .scoring })) ∧
  (∀ (q t : Nat) (x : Query) (s : State), (s.advance t).query q = some x →
    ((x.phase = .encodeWait ∧ x.deadlineAt ≤ max s.time t) ∨ (x.phase = .encoding ∧ x.deadlineAt ≤ max s.time t + 2 * cyclesPerUs)) →
    ∃ u, exec (.encodeDeadline q t) s = .next u ∧
      u = ((s.advance t).tally (0x2510 + x.g / 8) 6).toEmit q { x with deadlineHit := true, answer := [] }) ∧
  (∀ (q : Nat) (x : Query) (s : State), s.query q = some x → x.phase = .encoding →
    let out := s.encoderOutput x
    let a := (s.dropTensor (x.g / 8) fun r => r.kind == .encode && r.owner = q).tally (0x2510 + x.g / 8) 4
    ∃ u, exec (.encodeComplete q) s = .next u ∧
      (out.any f32NonFinite = true → u = (a.tally (0x2510 + x.g / 8) 0xB).reject q x 0x82) ∧
      (out.any f32NonFinite = false → u = a.setQuery q { x with vector := out, phase := .toSketch, restarted := false })) ∧
  (∀ (q : Nat) (x : Query) (v : Version) (slot : Nat) (img : Image) (s : State), s.query q = some x → x.phase = .toSketch →
    s.powered .strand x.g = true → s.sketchesOut x.g < 32 → s.versionOf x.fields.ns x.fields.idx x.version = some v → s.imageByDigest v.image = some (slot, img) →
    let vec := if x.fields.tokens then x.vector else x.fields.elements
    let r := sketchesAt v (x.snapshot.getD 0) img.progs.inputScale vec
    ∃ u, exec (.querySketch q) s = .next u ∧ u = ((s.count (objKey (0x2318 + x.g / 8) 7) r.2).wake .base (x.g / 8) 2).setQuery q { x with
      vector := vec, sketches := r.1, phase := .toWalk }) ∧
  (∀ s : State, ∃ u, exec .admissionTablePublish s = .next u ∧ u = { s with
      pipe := { s.pipe with
        published := (((List.range 32).foldl (fun t g => (Table.set t (2 * g) (if s.takesWork g then s.admitCredits g else 0)).set (2 * g + 1)
          (if s.takesWork g then probeCredits - ((s.pipe.batches.filter fun kb => kb.2.g = g).map fun kb =>
            (kb.2.members.filter fun m => m.origin ≠ s.mgmt.moduleId && !m.scanned).length).sum else 0)) ([] : Table Nat)).set 64 s.exchange.qctx.length) } })

/-- WALK takes the query whose turn it is, counts the walk and puts its probes before the dispatch, which takes them out in turn as far as the
command says (R52, R53, R57, R108); a batch closes after its window or for an
urgent member (R62); the gig share and quotas are renewed each interval and second (R64, R65); a scan pass counts its work and hands its
candidates to FILTER (R89), a pass whose staged list cannot be read withdraws the batch; FILTER takes, drops or refuses the head candidate
(R92, R98); a bound reaches SCAN (R95); a tile fault resets the tile (R178); maintenance is granted free tiles and yields them (R177). -/
def Obligations.RoutingAndScanCommandsComplete : Prop :=
  (∀ (part n q slot : Nat) (x : Query) (v : Version) (img : Image) (s : State), s.powered .base part = true → s.nextWalk part = some (q, x) →
    s.versionOf x.fields.ns x.fields.idx x.version = some v → s.imageByDigest v.image = some (slot, img) →
    let w := s.walkOf x v img.progs
    let lists := (w.1.kept.take x.nprobe).map (·.2)
    ∃ u, exec (.walk ⟨part, n⟩) s = .next u ∧ u = State.dispatchProbes part n ((s.walkCounts part w.2 w.1 lists).walked part q x lists)) ∧
  (∀ (part : Nat) (s : State), State.dispatchProbes part 0 s = s ∧ (∀ n, s.nextProbe part = none → State.dispatchProbes part n s = s) ∧
    ∀ (n q list : Nat) (x : Query) (v : Version), s.nextProbe part = some (q, x, list) → s.versionOf x.fields.ns x.fields.idx x.version = some v →
      State.dispatchProbes part (n + 1) s = State.dispatchProbes part n (s.dispatchList q
        { x with chosen := replaceFirst (fun c => c.list = list) (fun c => { c with sent := true }) x.chosen } v list (s.seedPolicy v))) ∧
  (∀ (batch t : Nat) (b : Batch) (s : State), (s.advance t).batch batch = some b → b.closed = none →
    (b.openedAt + b.window * cyclesPerUs ≤ max s.time t →
      ∃ u, exec (.closeWindow batch t) s = .next u ∧ u = (s.advance t).closeBatch batch .window) ∧
    ((s.advance t).pipe.svc.getD (b.g / 8) [] ≠ [] →
      (b.members.any fun m => (m.deadlineAt - max s.time t) * ((s.advance t).pipe.svc.getD (b.g / 8) []).length <
        2 * ((s.advance t).pipe.svc.getD (b.g / 8) []).sum) = true →
      ∃ u, exec (.closeUrgent batch t) s = .next u ∧ u = (s.advance t).closeBatch batch .urgent)) ∧
  (∀ (t : Nat) (s : State), max s.time t % (100 * cyclesPerUs) = 0 → ∃ u, exec (.gigInterval t) s = .next u ∧ u = { s.advance t with
    pipe := { s.pipe with gigUsed := [], gigInterval := max s.time t / (100 * cyclesPerUs), gigShare := (s.advance t).setting 0x2100 3 25 } }) ∧
  (∀ (t : Nat) (s : State), max s.time t % cyclesPerS = 0 → ∃ u, exec (.gigQuotaSecond t) s = .next u ∧ u = { s.advance t with
    tenants := (s.tenantsAt t).mapVals fun r => { r with gigUsed := 0, gigQuotaNow := r.gigQuota } }) ∧
  (∀ (g tile batch blocks : Nat) (b : Batch) (l : ListData) (s : State), s.batch batch = some b → s.list b.list = some l → s.passReady g tile b = true →
    let h := s.takeBuffer g tile batch b
    (∀ w : State, h.1.tierRead (h.1.scanObj l h.2) true = (w, true) → h.1.tiers.unheld.contains h.2.list = false →
      let p := w.batchProgs h.2
      let ms := passMembers h.2 (passColumns p)
      let r := scanPass l h.2 batch blocks (planesInOrder p (w.batchWidth h.2 / 64)) ms
        (fun a => decide ((w.pipe.scanFifo.getD g []).length + a.cands.length > 2048))
        (fun a => w.runsGig h.2 && w.gigSpent g tile (ceilDiv a.words (passRate p ms.length)))
      ∃ u, exec (.batchScanPass g tile batch ⟨blocks, false⟩) s = .next u ∧
        u = ((w.objRead (w.scanObj l h.2) r.1.read).passCounts g tile h.2 p ms r.1).passed g tile batch h.2 ms (passColumns p)
          (decide (h.2.blocksDone + r.2 ≥ (blocksOf l h.2.view).length)) r.2) ∧
    (∃ u, exec (.batchScanPass g tile batch ⟨blocks, true⟩) s = .next u ∧
      u = (h.1.tierRead (h.1.scanObj l h.2) false).1.scanFailed g batch h.2 l true)) ∧
  (∀ (g : Nat) (c : Cand) (rest : List Cand) (b : Batch) (m : Member) (s : State), s.pipe.scanFifo.getD g [] = c :: rest →
    s.batch c.batch = some b → s.member c.batch c.member = some m → m.withdrawn = false → m.ended = false →
    s.tileLoad g (s.tileOf g m) < 2048 →
    let a := ({ s with pipe := { s.pipe with scanFifo := s.pipe.scanFifo.put g [] rest } } : State).count (objKey (0x2610 + g) 1) 1
    let word := a.attrOf b.list c
    ∃ u, exec (.filterCandidate g) s = .next u ∧
      (m.ns ≠ b.ns → u = (((a.tally (0x2610 + g) 5).score (unitStrand g) 250).withdrawMember c.batch c.member).settle) ∧
      (m.ns = b.ns → forcedPass m.forced word = false →
        u = (((a.tally (0x2610 + g) 4).trySummary c.batch c.member).tryEnd c.batch c.member).settle) ∧
      (m.ns = b.ns → forcedPass m.forced word = true → passesTerms m.inTerms word = false →
        u = (((a.tally (0x2610 + g) 3).trySummary c.batch c.member).tryEnd c.batch c.member).settle) ∧
      (m.ns = b.ns → forcedPass m.forced word = true → passesTerms m.inTerms word = true →
        u = (((a.passCandidate g b m c).trySummary c.batch c.member).tryEnd c.batch c.member).settle)) ∧
  (∀ (g b i d : Nat) (rest : List (Nat × Nat × Nat)) (m : Member) (s : State), s.pipe.bounds.getD g [] = (b, i, d) :: rest →
    let a : State := { s with pipe := { s.pipe with bounds := s.pipe.bounds.put g [] rest } }
    a.member b i = some m → ∃ u, exec (.scanBoundArrive g) s = .next u ∧ u = a.setMember b i { m with bound := min m.bound d }) ∧
  (∀ (part tile : Nat) (i : Invocation) (s : State), ((s.pool part).running.find? fun i => i.held.contains tile) = some i →
    let a : State := { s with freeCount := s.freeCount + 2 }
    let unit := unitTensor part tile
    ∃ u, exec (.tileRestarts part tile false) s = .next u ∧ u = ((if Config.residueFault s.freeCount then
        ((a.logFault (0x2510 + part) 9 unit part 10 i.req.owner (Config.loadBin (s.freeCount + 1))).tileFault unit part
          (Config.loadBin (s.freeCount + 1))).score unit 250
      else a.score unit 200).resetTensor part tile true).settle) ∧
  (∀ (part step tiles : Nat) (s : State), (s.maint.steps.get step).isSome = true →
    (s.pipe.tensor.any fun kp => kp.2.running.any fun i => i.req.kind == .maint && i.req.owner = step) = false → (s.pool part).queue = [] →
    s.modelShed = false → s.upkeepRuns = true → 0 < tiles → tiles ≤ (freeTiles (s.pool part)).length →
    maintTiles (s.pool part) + tiles ≤ s.setting 0x2500 2 8 →
    let a : State := { s with
      pipe := { s.pipe with tensor := s.pipe.tensor.mapVals fun p => { p with suspended := p.suspended.filter (· ≠ step) } } }
    ∃ u, exec (.maintTensorGrant part step tiles) s = .next u ∧ u = a.grantTiles part {
      kind := .maint, owner := step, tiles, deadlineAt := 0, strand := 0, model := 0, queuedAt := s.time } ((freeTiles (s.pool part)).take tiles)) ∧
  (∀ (part : Nat) (s : State), ∃ u, exec (.maintYields part) s = .next u ∧
    let ms := ((s.pool part).running.filter fun i => i.req.kind == .maint).reverse
    u = (if (s.pool part).queue.isEmpty then overCap (s.setting 0x2500 2 8) ms else ms).foldl (fun s i => s.yieldMaint part i) s)

/-- A scan summary recomputes the gate (R124, R125); a gate message applies it; a candidate is held or passes (R126); a hold ends with GATE_HOLD
or as late (R126, R133); keys, codes and payloads arrive, or fail, and move their fetch on (R99, R130, R196); a late tier read takes its
substitute (R133); SELECT takes the head record (R142); a member's next piece goes to its origin (R145, R146); a context in HBM merges its runs
(R149) and gets its work area (R152). -/
def Obligations.RerankAndSelectCommandsComplete : Prop :=
  (∀ (src : Nat) (b : List Byte) (x : Query) (v : Version) (s : State),
    let handle := field b 0 8
    let q := (s.queryOf handle).getD (handleSerial handle)
    let m := parseSummary b
    s.query q = some x → s.versionOf x.fields.ns x.fields.idx x.version = some v → s.handleOf q x = handle → x.phase = .searching →
    (chosenOf x m.list).isSome = true → (x.summaries.any fun y => y.list = m.list) = false →
    ∃ u, exec (.scanSummaryReceive src b) s = .next u ∧ u = s.takeSummary q x v m handle) ∧
  (∀ (g : Nat) (msg : List Byte) (s : State), ∃ u, exec (.gateMessageReceive g msg) s = .next u ∧ u = s.applyGate g (field msg 0 8) (field msg 8 2)) ∧
  (∀ (g : Nat) (c : Cand) (rest : List Cand) (m : Member) (s : State), s.pipe.rerankFifo.getD g [] = c :: rest →
    s.member c.batch c.member = some m → m.withdrawn = false → m.ended = false → s.rerankStalled g (s.tileOf g m) = false →
    let a : State := { s with pipe := { s.pipe with rerankFifo := s.pipe.rerankFifo.put g [] rest } }
    let o := s.oldestHeld g (s.tileOf g m)
    ∃ u, exec (.rerankCandidateReceive g) s = .next u ∧
      (o.2 < 8192 → u = (a.holdCand g c).tryEnd c.batch c.member) ∧
      (∀ b i, o.1 = some (b, i) → 8192 ≤ o.2 → u = (((a.tally (0x2410 + g) 6).releaseMember b i false).holdCand g c).tryEnd c.batch c.member) ∧
      (o.1 = none → 8192 ≤ o.2 → u = s)) ∧
  (∀ (batch member t at_ : Nat) (bt : Batch) (m : Member) (v : Version) (s : State), (s.advance t).memberCtx batch member = some (bt, m, v) →
    vectorReady m v = true →
    (m.summaryAt = some at_ → (m.held.any fun c => decide (at_ + c.us * cyclesPerUs ≤ max s.time t)) = true →
      ∃ u, exec (.releaseHold batch member t) s = .next u ∧ u = ((s.advance t).tally (0x2410 + bt.g) 5).releaseCands batch member
        fun c => c.us = 0 || decide (at_ + c.us * cyclesPerUs ≤ max s.time t)) ∧
    (m.withdrawn = false → m.ended = false → (s.advance t).reserveAt m ≤ max s.time t →
      ∃ u, exec (.releaseLate batch member t) s = .next u ∧
        u = ((s.advance t).abandonFetches bt.g bt m v batch member).releaseMember batch member true)) ∧
  (∀ (fetch : Nat) (f : Fetch) (bt : Batch) (m : Member) (v : Version) (s : State), s.pipe.fetches.get fetch = some f →
    s.memberCtx f.cand.batch f.cand.member = some (bt, m, v) →
    (f.key = .due →
      let obj := s.objAt bt f.cand.seg 2
      let r := s.tierRead obj true
      let a := ((r.1.count (objKey (0x2410 + bt.g) 3) 8).meter m.tenant 15 8).objRead obj 8
      let k : Fetch := { f with key := .done, keyVal := ((a.itemOf bt f.cand).map (·.key)).getD voidKey }
      (∃ u, exec (.keyFetchComplete fetch false) s = .next u ∧ u = ((s.withdrawBatch f.cand.batch).markRepair 0 obj).readFailed) ∧
      (∃ u, exec (.keyFetchComplete fetch true) s = .next u ∧ (r.2 = false → u = (r.1.withdrawBatch f.cand.batch).readFailed) ∧
        (r.2 = true → u = if needsCodes m v then a.finishFetch fetch k
          else (a.count (objKey (0x2410 + bt.g) 4) 1).finishFetch fetch { k with score := hammingScore f.cand.dist }))) ∧
    (∀ it : Item, f.codes = .due → vectorReady m v = true → s.itemOf bt f.cand = some it →
      let w := s.tierRead (s.codeObj bt f) true
      let z := (s.tierRead (s.codeObj bt f) false).1
      let r := w.1.scoreFetch bt m v f it
      let lost := fun (a : State) => let l := a.readFailed.estimateFetch bt.g bt m v f 1; l.1.finishFetch fetch l.2
      (∃ u, exec (.codeFetchComplete fetch true) s = .next u ∧ u = if w.2 then r.1.finishFetch fetch r.2 else lost w.1) ∧
      (∃ u, exec (.codeFetchComplete fetch false) s = .next u ∧ u = lost (if f.tier ≤ 1 then z.markRepair f.tier (z.codeObj bt f) else z))) ∧
    (f.codes = .due → f.path = 0 → vectorReady m v = true →
      let l := (s.tally 0x2810 5).lateFetch bt.g bt m v f
      ∃ u, exec (.tierReadLate (.code fetch)) s = .next u ∧ u = l.1.finishFetch fetch l.2) ∧
    (∀ it : Item, f.post = .due → s.itemOf bt f.cand = some it →
      let pp := passesPost m.postTerms (((s.corpus.records.get it.record).map (·.payload)).getD [])
      let a := (s.count (objKey (0x2610 + bt.g) 7) pp.2).meter m.tenant 16 4096
      let l := (s.readFailed.logLoss it.key (((s.list bt.list).map (·.shard)).getD 0) bt.ns v.ver).noteLoss m (s.listId bt.list)
      (∃ u, exec (.postfilterReadComplete fetch true) s = .next u ∧ u = (if pp.1 then a
        else (a.tally (0x2610 + bt.g) 6).meter m.tenant 17 1).finishFetch fetch { f with post := .done, passed := pp.1 }) ∧
      (∃ u, exec (.postfilterReadComplete fetch false) s = .next u ∧ u = l.finishFetch fetch { f with post := .done, passed := false }))) ∧
  (∀ (q item n : Nat) (x : Query) (b : BlockItem) (s : State), s.query q = some x → x.block[item]? = some b → x.phase = .assembling →
    b.dropped = false → b.rowsDue.contains n = true →
    ∃ u, exec (.tierReadLate (.row q item n)) s = .next u ∧ u = (s.tally 0x2810 5).blockDefault q item n x b) ∧
  (∀ (g : Nat) (r : Scored) (rest : List Scored) (m : Member) (s : State), s.pipe.selectFifo.getD g [] = r :: rest →
    s.member r.batch r.member = some m → m.withdrawn = false → m.ended = false → m.ctx.poolWait = false →
    let c := if m.ctx.spillWait then s.takeSpill g m.ctx else m.ctx
    c.spillWait = false → s.emitStalled g = false →
    let o := ({ s with pipe := { s.pipe with selectFifo := s.pipe.selectFifo.put g [] rest } } : State).offer g c r.entry
    ∃ u, exec (.selectEntryOffer g) s = .next u ∧ u = ((o.1.setMember r.batch r.member { m with ctx := o.2.1 }).noteOrigin m
      fun q => { q with merged := q.merged + o.2.2 }).tryEnd r.batch r.member) ∧
  (∀ (batch member : Nat) (p : List Byte) (rest : List (List Byte)) (bt : Batch) (m : Member) (s : State), s.batch batch = some bt →
    s.member batch member = some m → m.built = true → m.ended = false → m.pieces = p :: rest →
    let a := if m.discard then s else s.sendPiece m.origin m.tenant p
    ∃ u, exec (.pieceSend batch member) s = .next u ∧ u = if rest = [] then (a.checkPiece bt m).lastPiece batch member m
      else a.setMember batch member { m with pieces := rest }) ∧
  (∀ (q : Nat) (x : Query) (s : State), s.query q = some x →
    (mergeDue x.ctx ((x.chosen.any fun c => !c.waiting.isEmpty) || listsDone x) = true → s.tileMerges x.g = false →
      ∃ u, exec (.runMergeStart (.origin q)) s = .next u ∧ u = s.setQuery q { x with ctx := mergeStart x.ctx s.time }) ∧
    (x.ctx.merging.isSome = true → let r := mergeEnd x.ctx
      ∃ u, exec (.runMergeComplete (.origin q)) s = .next u ∧
        u = ((s.count (objKey (0x2430 + x.g) 4) r.2.1).count (objKey (0x2430 + x.g) 2) r.2.2).tryFinish q
          { x with ctx := r.1, merged := x.merged + r.2.1 }) ∧
    (∀ slot img, s.imageFor x = some (slot, img) → x.phase = .poolWait →
      ∃ u, exec (.poolWait (.origin q)) s = .next u ∧ u = s.reserveOrigin q x slot img)) ∧
  (∀ (b i : Nat) (m : Member) (bt : Batch) (s : State), s.member b i = some m → s.batch b = some bt →
    (mergeDue m.ctx (m.scanned && s.memberIdle b i m && m.ctx.entries.isEmpty) = true → s.tileMerges bt.g = false →
      ∃ u, exec (.runMergeStart (.member b i)) s = .next u ∧ u = s.setMember b i { m with ctx := mergeStart m.ctx s.time }) ∧
    (m.ctx.merging.isSome = true → let r := mergeEnd m.ctx
      ∃ u, exec (.runMergeComplete (.member b i)) s = .next u ∧
        u = ((((s.count (objKey (0x2430 + bt.g) 4) r.2.1).count (objKey (0x2430 + bt.g) 2) r.2.2).noteOrigin m fun q =>
          { q with merged := q.merged + r.2.1 }).memberOutput b i bt { m with ctx := r.1 } (r.1.carry.getD []))) ∧
    (m.ctx.poolWait = true → s.tiers.poolList + listArea m.ctx.kSel ≤ s.poolHalf →
      ∃ u, exec (.poolWait (.member b i)) s = .next u ∧
        u = (({ s with tiers := { s.tiers with poolList := s.tiers.poolList + listArea m.ctx.kSel } } : State).setMember b i { m with
          ctx := { m.ctx with poolWait := false, store := 2, runs := [m.ctx.entries], entries := [], hbmBytes := listArea m.ctx.kSel } }).tryEnd b i))

/-- A piece is taken, waits for its reservation, or ends its list (R147, R148); a whole partial result is merged (R148); a search is cut off
(R154), its query expires at the deadline (R38, R61), and the block forms at the score cut-off (R173); inputs of the block arrive or are
replaced (R172); a scoring request is withdrawn or abandoned (R56, R174), or gives its outputs (R175); the completion is written. -/
def Obligations.OriginCommandsComplete : Prop :=
  (∀ (src : Nat) (b : List Byte) (x : Query) (c : ChosenList) (s : State),
    let p := parsePiece b
    let q := (s.queryOf p.handle).getD (handleSerial p.handle)
    s.query q = some x → s.handleOf q x = p.handle → chosenOf x p.list = some c → x.phase = .searching → c.state = .open →
    let y := s.askSpill x
    ∃ u, exec (.pieceReceive src b) s = .next u ∧
      (c.reserved = true → c.sender ≠ some src → u = if p.last || p.withdrawn then s.tally (0x2430 + x.g) 5 else s) ∧
      ((c.reserved = false ∨ c.sender = some src) →
        (Machine.pieceOk b = false ∨ p.withdrawn = true → u = s.listLost q x p.list) ∧
        (Machine.pieceOk b = true → p.withdrawn = false → c.pieces.any (fun y => y.1 = p.num) = false → c.waiting = [] →
          (c.reserved = true ∨ s.pieceRoom y p.total = true) → u = s.takePiece q y src p) ∧
        (Machine.pieceOk b = true → p.withdrawn = false → c.reserved = false → s.pieceRoom y p.total = false →
          u = s.setQuery q (updChosen y p.list fun c => { c with waiting := c.waiting ++ [(src, b)] })))) ∧
  (∀ (q list : Nat) (x : Query) (c : ChosenList) (s : State), s.query q = some x → chosenOf x list = some c → x.phase = .searching →
    (∀ src b rest, c.waiting = (src, b) :: rest → s.pieceRoom (s.askSpill x) (parsePiece b).total = true →
      let a := s.count (objKey (0x2430 + x.g) 5) ((c.waiting.filter fun w => w.1 ≠ src && (parsePiece w.2).last).length)
      ∃ u, exec (.pieceReservationGrant q list) s = .next u ∧ u = (c.waiting.filter fun w => w.1 = src).foldl (fun s w => match s.query q with
          | some x => s.takePiece q x w.1 (parsePiece w.2)
          | none => s) (a.setQuery q (updChosen (s.askSpill x) list fun c => { c with waiting := [] }))) ∧
    (∀ es, wholePartial c = some es → c.state = .open → s.emitStalled x.g = false →
      let r := s.mergePartial x.g x.ctx es
      ∃ u, exec (.listMergeComplete q list) s = .next u ∧ u = r.1.tryFinish q { updChosen x list fun c =>
        { c with state := .reached, reserved := false, pieces := [] } with ctx := r.2.1, merged := x.merged + r.2.2 })) ∧
  (∀ (q t : Nat) (x : Query) (s : State), (s.advance t).query q = some x →
    (x.phase = .searching → x.s = 0 → listsDone x = false → x.deadlineAt ≤ max s.time t + orderTime x.ctx ((s.advance t).clockOf (x.g / 8)) (max s.time t) →
      ∃ u, exec (.cutoff q t) s = .next u ∧ u = ((s.advance t).tally (0x2430 + x.g) 9).cutSearch q x) ∧
    (x.phase ≠ .placing → x.deadlineAt ≤ max s.time t →
      ∃ u, exec (.queryDeadline q t) s = .next u ∧ u = ((s.advance t).dropStalled ((s.advance t).handleOf q x)).expireQuery q x) ∧
    (x.phase = .searching → 0 < x.s → listsDone x = false → (s.advance t).scoreCutAt x ≤ max s.time t →
      let y := giveUpLists { x with frozen := true, deadlineHit := true }
      ∃ u, exec (.scoreCutoff q t) s = .next u ∧ u = if (ctxOutput y.ctx).1.isEmpty then (s.advance t).toEmit q { y with answer := [] }
        else (s.advance t).sendBlock q y) ∧
    (x.phase = .assembling → 0 < x.s → (s.advance t).scoreCutAt x ≤ max s.time t →
      ∃ u, exec (.scoreCutoff q t) s = .next u ∧ u = (s.advance t).lateBlock q x) ∧
    (∀ slot img m, x.phase = .scoreWait → (s.advance t).imageFor x = some (slot, img) → img.scorer = some m →
      (s.advance t).tooLate (x.g / 8) x.deadlineAt (statedNs m (x.block.filter fun b => !b.dropped).length) = true →
      ∃ u, exec (.scoreWithdrawn q t) s = .next u ∧ u = ((s.advance t).tally (0x2110 + x.g) 0xA).emitExact q (addReason x 4)) ∧
    (x.phase = .scoring → x.deadlineAt ≤ max s.time t + 8 * cyclesPerUs →
      ∃ u, exec (.scoreAbandoned q t) s = .next u ∧ u = ((s.advance t).tally (0x2510 + x.g / 8) 7).emitExact q (addReason x 4))) ∧
  (∀ (q item : Nat) (x : Query) (b : BlockItem) (s : State), s.query q = some x → x.block[item]? = some b → x.phase = .assembling →
    b.dropped = false →
    (b.payloadDue = true → (∃ u, exec (.scoreInputAssemble q item .payload true) s = .next u ∧ u = (s.meter x.tenant 16 4096).requestScore q
        { x with block := x.block.set item { b with payloadDue := false } }) ∧
      (∃ u, exec (.scoreInputAssemble q item .payload false) s = .next u ∧ u = s.blockLoss q item x b)) ∧
    (∀ n, b.rowsDue.contains n = true → (∃ u, exec (.scoreInputAssemble q item (.row n) true) s = .next u ∧ u = s.requestScore q
        { x with block := x.block.set item { b with rowsDue := b.rowsDue.erase n } }) ∧
      (∃ u, exec (.scoreInputAssemble q item (.row n) false) s = .next u ∧ u = s.blockDefault q item n x b))) ∧
  (∀ (q slot : Nat) (inputs : List ItemInput) (x : Query) (img : Image) (s : State), s.query q = some x → x.phase = .scoring →
    inputs.length = (x.block.filter fun b => !b.dropped).length →
    let a := (s.dropTensor (x.g / 8) fun r => r.kind == .score && r.owner = q).tally (0x2510 + x.g / 8) 5
    let live := x.block.filter fun b => !b.dropped
    let es := List.zipWith (fun (i : BlockItem) y => modelEntry i.entry (f32Add (f32Mul img.progs.scaleA y) img.progs.scaleB))
      live (List.zipWith (fun b i => s.scorerOutput x { i with rows := s.rowInputs x b i }) live inputs)
    a.imageFor x = some (slot, img) →
    let c := (a.count (objKey (0x2510 + x.g / 8) 0xB) ((es.filter fun e => f32IsNaN e.score).length)).openCtx x.g x.fields.k false
    let r := c.1.offerEach x.g c.2 es
    ∃ u, exec (.scoreComplete q inputs) s = .next u ∧ u = r.1.toEmit q { x with answer := r.2.1.entries }) ∧
  (∀ (q : Nat) (x : Query) (s : State), s.query q = some x → x.phase = .emitting →
    (x.adopted = none → ∃ u, exec (.queryCompletionWrite q) s = .next u ∧ u = (s.finishQuery q x true).startBlocks) ∧
    (∀ h, x.adopted = some h →
      let a := s.sendAnswer (((s.exchange.leases.find? fun l => l.handle = h && !l.draining).map (·.peer)).getD (h % 4096)) h x
      ∃ u, exec (.queryCompletionWrite q) s = .next u ∧ u = (({ a with
        exchange := { a.exchange with leases := a.exchange.leases.filter fun l => !(l.handle = h && !l.draining) } } : State).finishQuery q x false).startBlocks))

/-- A batch whose entry passes its checks enters with every record on its way (R397, R405); the held writes of one batch are ordered together (R216); writes
held for COMMIT_TIMEOUT are answered (R221); the log is flushed and a durable page answers its writes (R213, R217, R220). The leader's beacon
closes its epoch and opens the next, a beacon received does so here (R206); leading is taken over after its time (R352); a closed epoch is
recorded in the cycle after the last of its events (R207), and a gap in the beacons is counted once (R208). -/
def Obligations.IngestAndEpochCommandsComplete : Prop :=
  (∀ (fn pair sqIndex : Nat) (entry records : List Byte) (s : State), s.host.taken.contains ⟨fn, pair, sqIndex⟩ = true →
    (s.pairOf fn pair).kind = 2 → field entry 0 1 = 2 → ingestEntryOk entry = true →
    let a : State := { s with host := { s.host with taken := s.host.taken.erase ⟨fn, pair, sqIndex⟩ } }
    let f := a.fnNow fn
    dmaInside f false (field entry 16 8) (field entry 24 4) = true → dmaInside f true (field entry 32 8) (24 * field entry 28 2) = true →
    let parts := splitRecords (field entry 28 2) (slice records 0 (field entry 24 4))
    parts.1.length = field entry 28 2 → parts.2 = [] → f.tenant ≠ 0 →
    ∃ u, exec (.ingestEntryArrive fn pair sqIndex entry records true) s = .next u ∧
      u = (a.count (objKey (0x2040 + fn) 1) (field entry 24 4)).newBatch {
        fn, pair, sqIndex, basic := false, tenant := f.tenant,
        tag := field entry 8 8, resultsAddr := field entry 32 8, results := [] } (parts.1.map fun p => (p.1, recordFieldsOk p.2 p.1))) ∧
  (∀ (fn : Nat) (desc records : List Byte) (s : State), s.turn = some (fn, 1) → (s.fnState fn).expert = false →
    let b := (s.fnState fn).basic
    dmaInside (s.fnNow fn) false (b.igrBase + 32 * b.igrHead) 32 = true →
    1 ≤ field desc 16 2 → field desc 16 2 ≤ 4096 → field desc 18 1 < 16 → allZero desc 24 8 = true →
    let a := (s.count (objKey (0x2040 + fn) 1) 32).takeIngest fn
    let m := a.basicIndex fn (field desc 18 1 % 16)
    let rs := basicRecords m.1 m.2 (min (field desc 16 2) 4096) records
    let x : IngestBatch := {
        fn, pair := 0, sqIndex := 0, basic := true, tenant := (a.fnState fn).tenant,
        tag := field desc 0 8, resultsAddr := 0, descAddr := b.igrBase + 32 * b.igrHead, results := [] }
    dmaInside (a.fnNow fn) false (field desc 8 8) rs.2 = true →
    ∃ u, exec (.basicIngestDescriptor fn desc records ⟨true, true⟩) s = .next u ∧ u = (a.count (objKey (0x2040 + fn) 1) rs.2).newBatch x
      (if (m.1 = 0 ∧ m.2 = 0) ∨ (a.fnState fn).tenant = 0 then rs.1.map fun r => (r.1, false) else rs.1)) ∧
  (∀ s : State, let r := headRun s.corpus.held
    r.1 ≠ [] → (r.1.any fun w => s.writeWaits w) = false →
    ∃ u, exec .recordOrder s = .next u ∧ u = r.1.foldl (fun s w => s.orderWrite w) { s with corpus := { s.corpus with held := r.2 } }) ∧
  (∀ (t : Nat) (s : State), ∃ u, exec (.commitTimeout t) s = .next u ∧ u = (s.advance t).timeoutWrites.timeoutHeld) ∧
  (∀ (t : Nat) (s : State), s.corpus.lastFlush + s.corpus.flushUs * cyclesPerUs ≤ max s.time t →
    ∃ u, exec (.logFlush t) s = .next u ∧ u = ({ s.advance t with
      corpus := { s.corpus with lastFlush := max s.time t, flushUs := (s.advance t).setting 0x2700 4 200 } } : State).programLog) ∧
  (∀ (page : Nat) (ws : List Write) (s : State), s.corpus.logPages.head? = some (page, ws) →
    ∃ u, exec (.logPageDurable page) s = .next u ∧ u = (ws.foldl (fun (s : State) w => s.durableWrite w)
      { s with corpus := { s.corpus with logPages := s.corpus.logPages.erase page } }).switchFolds) ∧
  (∀ (t : Nat) (s : State), (s.advance t).leads = true → s.epochs.lastEmit + (s.advance t).epochCycles ≤ max s.time t →
    let a := s.advance t
    let due := firstBy (fun (a b : Nat × Nat × Nat × Nat) => decide (a.2.2.2 < b.2.2.2)) (s.epochs.switches.filter fun t => decide (t.2.2.2 > s.epochs.open_))
    let b : BeaconBody := ⟨s.epochs.open_, a.setting 0x2700 1 1000, s.mgmt.moduleId, due.isSome, (due.map (·.1)).getD 0, (due.map (·.2.2.2)).getD 0⟩
    let c := if s.mgmt.sealed_ then a.sendAllPorts none 5 (beaconBytes b) else a
    ∃ u, exec (.beaconEmit t) s = .next u ∧ u = ({ c with
      epochs := { c.epochs with
        lastEmit := c.time, lastBeacon := c.time, gap := false, timeoutMs := c.setting 0x2700 2 100, leader := c.mgmt.moduleId } } : State).openEpoch b) ∧
  (∀ (port : Nat) (beacon : List Byte) (s : State), s.mgmt.sealed_ = true → beacon.length = 32 →
    let b := parseBeacon beacon
    (s.epochs.open_ ≤ b.closed → ∃ u, exec (.beaconReceive port beacon) s = .next u ∧
      u = (((s.noteBeacon b).learnSwitch b).sendAllPorts (some port) 5 beacon).openEpoch b) ∧
    (b.closed < s.epochs.open_ → ∃ u, exec (.beaconReceive port beacon) s = .next u ∧ u = s.noteBeacon b)) ∧
  (∀ (t r : Nat) (s : State), (s.advance t).rankOf s.mgmt.moduleId = some r → s.mgmt.sealed_ = true → s.epochs.leading = false →
    s.epochs.lastLower + (r + 1) * s.epochs.timeoutMs * cyclesPerMs ≤ max s.time t →
    ∃ u, exec (.leaderTakeover t) s = .next u ∧ u = { s.advance t with
      epochs := { s.epochs with leading := true, leader := s.mgmt.moduleId, lastEmit := max s.time t - (s.advance t).epochCycles } }) ∧
  (∀ (e at_ : Nat) (rest : List (Nat × Nat)) (s : State), s.epochs.closing = (e, at_) :: rest → s.writesSettled e = true → s.replicasSettled e = true →
    let last := ((s.epochs.settled.filter fun kv => kv.1 ≤ e).map (·.2)).foldl max at_
    let a := s.advance (last + 1)
    ∃ u, exec .epochClosureRecord s = .next u ∧ u = ({ a with
      epochs := { s.epochs with closing := rest, prevClosed := a.usableClosed, closed := e, closedAt := max s.time (last + 1),
                                settled := s.epochs.settled.filter fun kv => decide (kv.1 > e) } } : State).count
        (objKey 0x2710 2) (max s.time (last + 1) - at_)) ∧
  (∀ (t : Nat) (s : State), s.epochs.gap = false → s.epochs.lastBeacon + s.epochs.timeoutMs * cyclesPerMs ≤ max s.time t →
    ∃ u, exec (.beaconGaps t) s = .next u ∧ u = (({ s.advance t with
      epochs := { s.epochs with gap := true } } : State).tally 0x2710 6).logState 0x2700 2 unitModule s.epochs.closed s.epochs.open_)

/-- A leader announces a map that keeps the rules, a new notice is kept and relayed, and late content is installed (R354, R356); a shard move
starts, its copy ends, and its source frees it (R359); a dray closes after its window (R349), is dropped without a route (R350), and is taken item
by item once, a repeat only counted (R344, R345, R348); a context ends with its budget (R347); work held for a snapshot or a map goes on (R18,
R357, R358). -/
def Obligations.MapAndDrayCommandsComplete : Prop :=
  (∀ (content : List Byte) (s : State),
    let m := readMap content
    s.leads = true → mapOk content = true → s.epochs.open_ + s.setting 0x2B00 3 8 ≤ m.epoch → s.announcedEpoch < m.epoch →
    m.prev = s.announcedEpoch → (∀ x, s.announced = some x → x.shards.length = m.shards.length) → (m.shards.all (s.groupOk s.moduleList)) = true →
    ∃ u, exec (.mapAnnounce content) s = .next u ∧ u = s.announceMap content) ∧
  (∀ (port : Nat) (notice : List Byte) (s : State),
    let n : MapNotice := ⟨field notice 0 8, field notice 8 8, field notice 16 8, slice (notice.drop 24) 0 64, [], false⟩
    notice.length = 96 → s.newestMap < n.epoch → (s.exchange.notices.any fun x => x.epoch = n.epoch && x.digest = n.digest) = false →
    ∃ u, exec (.mapNotice port notice) s = .next u ∧
      u = ({ s with exchange := { s.exchange with notices := s.exchange.notices ++ [n] } } : State).sendAllPorts (some port) 6 notice) ∧
  (∀ (content : List Byte) (n : MapNotice) (s : State),
    (s.exchange.notices.find? fun n => n.late && n.digest = shake256 content 64) = some n → mapOk content = true →
    ∃ u, exec (.mapLateInstall content) s = .next u ∧
      u = ({ s with exchange := { s.exchange with notices := s.exchange.notices.filter fun x => x.epoch ≠ n.epoch } } : State).installMap content) ∧
  (∀ (shard dest : Nat) (c m : CompMap) (e : ShardEntry) (s : State), s.lastMap = some c → c.shards[shard]? = some e → e.home ≠ dest →
    (e.state = 1 → e.home = s.mgmt.moduleId → (s.exchange.moves.any fun m => m.shard = shard && m.feature == false) = false →
      s.moving s.mgmt.moduleId = false →
      let v : ShardMove := { shard, source := s.mgmt.moduleId, dest, f1 := s.newestMap }
      ∃ u, exec (.shardMoveStart shard dest none) s = .next u ∧ u = ({ s with
        exchange := { s.exchange with
          moves := (s.exchange.moves.filter fun m => !(m.shard = shard && m.feature == false)) ++ [v],
          overCapacity := s.exchange.overCapacity.filter (· ≠ shard) } } : State).copyRound v) ∧
    (e.state = 0 → s.leads = true → s.moving e.home = false → s.moving dest = false →
      s.nextMap (mapShard false shard fun x => { x with state := 1 }) = some m →
      ∃ u, exec (.shardMoveStart shard dest none) s = .next u ∧ u = ({ s with
        exchange := { s.exchange with
          moves := s.exchange.moves ++ [{ shard, source := e.home, dest, f1 := m.epoch }],
          overCapacity := s.exchange.overCapacity.filter (· ≠ shard) } } : State).announceMap (mapBytes m))) ∧
  (∀ (shard : Nat) (m : ShardMove) (c : CompMap) (e : ShardEntry) (s : State),
    (s.exchange.moves.find? fun m => m.shard = shard && !m.copied && m.dest ≠ s.mgmt.moduleId) = some m → s.lastMap = some c →
    (if m.feature then c.features else c.shards)[shard]? = some e → e.state = 1 →
    let a := ((if m.source = s.mgmt.moduleId then s.copyRound m else s).updMove shard m.feature fun x => { x with copied := true }).shadowCopied
    ∃ u, exec (.shardCopyComplete shard) s = .next u ∧
      u = if a.leads && !m.shadow then a.announceNext (a.homeTo m.feature shard m.dest) else a) ∧
  (∀ (shard : Nat) (m : ShardMove) (s : State),
    (s.exchange.moves.find? fun m => m.shard = shard && m.switched && m.source = s.mgmt.moduleId) = some m → s.snapBelow (m.f2.getD 0) = false →
    let a := if m.feature then s.dropFeature shard else s.dropShard shard
    ∃ u, exec (.shardFree shard) s = .next u ∧ u = ({ a with
      exchange := { a.exchange with moves := a.exchange.moves.filter fun x => !(x.shard = shard && x.feature == m.feature) } } : State).shadowTidy) ∧
  (∀ (dest cls tenant t : Nat) (d : Dray) (s : State), ((s.advance t).exchange.drays.find? fun d => d.dest = dest && d.cls = cls &&
      d.tenant = tenant && decide (max s.time t ≥ d.openedAt + nsCycles d.windowNs)) = some d →
    ∃ u, exec (.drayCloseWindow dest cls tenant t) s = .next u ∧ u = (s.advance t).closeDray d) ∧
  (∀ (t : Nat) (s : State),
    let late (f : Frame) : Bool := f.cls = 0 && decide (max s.time t ≥ f.budgetEnd) && ((s.advance t).routePort f.dest 0).isNone
    ∃ u, exec (.drayRouteDrop t) s = .next u ∧ u = (s.exchange.waiting.filter late).foldl (fun s f => s.loseProbes f) { s.advance t with
      exchange := { s.exchange with waiting := s.exchange.waiting.filter fun f => !late f } }) ∧
  (∀ (src cls tenant mapEpoch : Nat) (body : List Byte) (items : List (List Byte)) (s : State), drayItems cls body = some items →
    (isRepeat cls (field body 0 8 % 2 ^ 40) (field body 0 8 / 2 ^ 40) (s.exchange.rxSeqs.getD (rxKey src cls) {}) = true →
      ∃ u, exec (.drayReceive src cls tenant mapEpoch body) s = .next u ∧ u = s.tally 0x2B10 6) ∧
    (isRepeat cls (field body 0 8 % 2 ^ 40) (field body 0 8 / 2 ^ 40) (s.exchange.rxSeqs.getD (rxKey src cls) {}) = false →
      ∃ u, exec (.drayReceive src cls tenant mapEpoch body) s = .next u ∧
        u = items.foldl (fun s i => s.onItem i src cls tenant mapEpoch (bit (field body 10 2) 1))
          ((s.recordSeq src cls (field body 0 8 % 2 ^ 40) (field body 0 8 / 2 ^ 40)).count (objKey 0x2B10 2) body.length))) ∧
  (∀ s : State,
    let ok (h : HeldWork) : Bool := (h.snapshot.map fun n => decide (n ≤ s.usableClosed)).getD false
    ∃ u, exec .peerSnapshotHoldEnd s = .next u ∧ u = (s.exchange.held.filter ok).foldl
      (fun s h => s.onItem h.item h.source h.cls h.tenant h.mapEpoch h.forwarded)
      { s with exchange := { s.exchange with held := s.exchange.held.filter fun h => !ok h } }) ∧
  (∀ (src handle t k : Nat) (c : QCtx) (s : State), (s.advance t).ctxOf src handle = some (k, c) → c.budgetEnd ≤ max s.time t →
    ∃ u, exec (.qctxBudgetExpire src handle t) s = .next u ∧ u = (s.advance t).expireCtx src handle k) ∧
  (∀ (t : Nat) (s : State), ∃ u, exec (.mapWorkHoldEnd t) s = .next u ∧ u = (s.advance t).releaseHeld)

/-- TAKEN and an ANSWER of 2 drop this side's copy, ASK is answered and RESEND sends the state again (R368 to R370); an expired lease ends its
query ORPHANED (R370); a hot row goes to the modules that read it most (R365), INVALIDATE stops them and is echoed, the echo is taken, and an expired lease drops
the replicas (R366, R367); a stripe closes at CODE_FLUSH (R371), and fragments and shards are rebuilt from any eight fragments (R374, R375). -/
def Obligations.LeaseAndRebuildCommandsComplete : Prop :=
  (∀ (src : Nat) (msg : List Byte) (l : Lease) (s : State), s.leaseOf (field msg 8 8) src true = some l →
    let dropped := s.updLease (field msg 8 8) true fun l => { l with taken := true, dropped := true, copy := [] }
    (leaseIs 2 msg = true → ∃ u, exec (.taken src msg) s = .next u ∧ u = dropped) ∧
    (leaseIs 4 msg = true → field msg 1 1 = 2 → ∃ u, exec (.leaseAnswer src msg) s = .next u ∧ u = dropped) ∧
    (leaseIs 5 msg = true → l.dropped = false → l.copy ≠ [] → ∃ u, exec (.resend src msg) s = .next u ∧ u = s.sendState l)) ∧
  (∀ (src : Nat) (msg : List Byte) (s : State), leaseIs 3 msg = true →
    let holds := s.holdsOf (field msg 8 8) src
    let expiry := s.time + field msg 24 4 * cyclesPerUs
    let a := s.sendLease src 4 holds (field msg 8 8) s.newestMap expiry
    ∃ u, exec (.ask src msg) s = .next u ∧
      (holds = 2 → u = a.sendLease src 2 0 (field msg 8 8) a.newestMap expiry) ∧
      (holds ≠ 2 → a.takesFrom src = true → u = a.sendLease src 5 0 (field msg 8 8) a.newestMap expiry) ∧
      (holds ≠ 2 → a.takesFrom src = false → u = a)) ∧
  (∀ (handle t q : Nat) (l : Lease) (x : Query) (s : State),
    let b := s.advance t
    (b.exchange.leases.find? fun (l : Lease) => l.handle = handle && decide (b.time ≥ l.expiry)) = some l → l.draining = true →
    let a : State := { b with
      exchange := { b.exchange with leases := b.exchange.leases.filter fun (y : Lease) => !(y.handle = handle && y.draining == true) } }
    a.queryOf handle = some q → a.query q = some x →
    ∃ u, exec (.orphanedQueries handle t) s = .next u ∧ u = (a.toEmit q { x with orphaned := true, answer := [] }).tally 0x2B10 0xD) ∧
  (∀ (ns id row : Nat) (t : FeatTable) (f : Nat) (s : State), let table := tableCode ns id
    s.table table = some t → s.featShard table row = some f →
    (s.featHome f s.epochs.open_).1 = s.mgmt.moduleId → s.rowHot table row = true → s.exchange.rows.get (rowKey table row) = none →
    s.corpus.logPending = [] → s.corpus.logPages = [] → s.exchange.replicasOut = [] →
    let fresh := (s.topReaders table row).take 8
    let v := s.rowValue t row
    ∃ u, exec (.hotRowReplicate ns id row) s = .next u ∧
      u = fresh.foldl (fun s p => (s.sendTransfer p 0x0C (rowsContent 0 0 [rowCopy table row v.2 v.1])).sendInvalidate p []) { s with
        exchange := { s.exchange with replicasOut := fresh.map fun p => { table, row, peer := p, version := v.2 } } }) ∧
  (∀ (src : Nat) (body : List Byte) (s : State), body.length % 24 = 0 → (invalEntries body).length ≤ 20 →
    let hit (r : Replica) : Bool := r.peer = src && (invalEntries body).any fun e => e.1 = r.table % 2 ^ 32 && e.2.1 = r.row
    let a : State := { s with
      exchange := { s.exchange with
        replicasIn := s.exchange.replicasIn.map (fun r => if hit r then { r with valid := false } else r),
        invalSeen := s.exchange.invalSeen.set src (s.time, s.setting 0x2B00 5 5000) } }
    ∃ u, exec (.invalidate src body) s = .next u ∧
      u = if (invalEntries body).isEmpty then a else a.sendFrame src 4 8 0 a.newestMap 0 body 0) ∧
  (∀ (src : Nat) (body : List Byte) (s : State), ∃ u, exec (.invalidateAck src body) s = .next u ∧ u =
      (invalEntries body).foldl (fun (s : State) x => s.noteSettled x.2.2) { s with
      exchange := { s.exchange with replicasOut := s.exchange.replicasOut.map fun r => if r.peer ≠ src then r else { r with
        unacked := r.unacked.filter fun e => !((invalEntries body).any fun x => x.1 = r.table % 2 ^ 32 && x.2.1 = r.row && x.2.2 = e) } } }) ∧
  (∀ (peer t : Nat) (s : State),
    let ends := fun (b : Nat × Nat) => b.1 + max b.2 (2 * s.epochs.nextLength) * cyclesPerUs
    let lostIn : Bool := ((s.exchange.invalSeen.get peer).map fun c => decide (max s.time t > ends c)).getD false
    let lostOut : Bool := (s.exchange.replicasOut.any fun r => r.peer = peer) && decide (max s.time t > ends (s.exchange.invalSent.getD peer (0, 0)))
    let a : State := if lostIn then ({ s.advance t with exchange := { s.exchange with
        replicasIn := s.exchange.replicasIn.filter fun r => r.peer ≠ peer } } : State).syncReplicas else s.advance t
    ∃ u, exec (.replicaLeaseExpire peer t) s = .next u ∧ u = if lostOut then { a with exchange := { a.exchange with
        replicasOut := a.exchange.replicasOut.filter fun r => r.peer ≠ peer } } else a) ∧
  (∀ (shard t : Nat) (c : CodedStream) (s : State), (s.advance t).exchange.streams.get shard = some c → c.open_ ≠ [] →
    c.firstAt + c.flushMs * cyclesPerMs ≤ max s.time t →
    ∃ u, exec (.codeFlush shard t) s = .next u ∧ u = (s.advance t).closeStripe shard) ∧
  (∀ (shard frag n : Nat) (fs : List FragIn) (h : FragIn) (data : List (List Byte)) (read : List FragIn) (s : State),
    (s.codeGroup shard)[frag]? = some s.mgmt.moduleId → stripesOf read = [(n, h :: fs)] →
    recoverStripe ((h :: fs).filter fun f => f.frag ≠ frag) = some data →
    ∃ u, exec (.memberRebuild shard frag read) s = .next u ∧ u = { s with
      exchange := { s.exchange with fragments := (s.exchange.fragments.filter fun y => !(y.shard = shard && y.frag = frag && y.stripe = n)) ++
        [⟨shard, frag, n, h.firstEpoch, h.lastEpoch, (data ++ [parityChunk 0 data, parityChunk 1 data]).getD frag []⟩] } }) ∧
  (∀ (shard : Nat) (m : CompMap) (read : List FragIn) (s : State), s.lastMap = some m → shardOf m shard = some (s.mgmt.moduleId, 2) →
    let data := (stripesOf read).map fun x => recoverStripe x.2
    stripesOf read ≠ [] → data.any Option.isNone = false →
    ∃ u, exec (.homeRebuild shard read) s = .next u ∧ u = s.rebuildShard shard (data.flatMap fun d => (d.getD []).flatten)
      ((read.map (·.lastEpoch)).foldl max 0) (((stripesOf read).map (·.1)).foldl max 0 + 1))

/-- A maintenance period runs when its length has passed (R225, R226); a split's or merge's copies are scheduled (R227, R228); a waiting one goes
on once the directory has room (R232); a fold's base is complete for the next epoch (R224); a segment is freed when nothing needs it (R88); a
sweep runs when its period has passed (R112, R538); a re-fit and a projection's fit take effect (R230, R231). -/
def Obligations.MaintenanceCommandsComplete : Prop :=
  (∀ (t : Nat) (s : State), s.maint.periodStart + s.maint.periodS * cyclesPerS ≤ max s.time t →
    ∃ u, exec (.maintPeriod t) s = .next u ∧ u = (s.advance t).runPeriod) ∧
  (∀ (list : Nat) (ca cb : List F32) (g : Reorg) (l : ListData) (rest : List ListData) (v : Version) (s : State),
    (s.maint.reorgs.find? fun g => g.sources.head? = some list && !g.deferred && !g.waiting && g.effect.isNone) = some g →
    let hs := g.sources.filterMap fun k => (s.corpus.dir.get k).map (·.handle)
    let id := g.reserved.headD 0
    let pick := s.toChildA v list id ca cb
    (hs.filterMap fun h => s.list h) = l :: rest → s.versionOf l.ns l.idx l.version = some v → (l :: rest).length = g.sources.length →
    s.maintRuns = true → s.folding g.sources = false →
    (g.isMerge = true → s.hbmFits v (mergedSegs l rest) = true →
      ∃ u, exec (.splitCopyComplete list ca cb) s = .next u ∧ u = s.copyMerge g l rest v id ca hs) ∧
    (g.isMerge = false → s.hbmFits v (childSegs l pick ++ childSegs l fun i => !pick i) = true →
      ∃ u, exec (.splitCopyComplete list ca cb) s = .next u ∧ u = s.copySplit g l v list id ca cb hs)) ∧
  (∀ (list : Nat) (s : State), ∃ u, exec (.dirFull list) s = .next u ∧ u = { s with
    maint := { s.maint with
      reorgs := replaceFirst (fun g => g.waiting && g.sources.contains list && (s.freeEntries (entriesNeeded g.isMerge)).length ≥ entriesNeeded g.isMerge)
        (fun g => { g with waiting := false, reserved := s.freeEntries (entriesNeeded g.isMerge) }) s.maint.reorgs } }) ∧
  (∀ (handle : Nat) (f : Fold) (l : ListData) (v : Version) (s : State), (s.maint.folds.find? fun f => f.handle = handle) = some f →
    s.list handle = some l → s.versionOf l.ns l.idx l.version = some v → f.base = none → f.c ≤ s.usableClosed →
    let b := s.foldBase l v f
    s.maintRuns = true → s.hbmFits v [b] = true → b.items.length ≤ 33554432 →
    let a := s.noteNans (s.foldNans l v f)
    ∃ u, exec (.foldBuildComplete handle) s = .next u ∧ u = { a with
      maint := { a.maint with
        folds := replaceFirst (fun x => x.handle = handle) (fun x => { x with base := some b, switchAt := some (a.epochs.open_ + 1) }) a.maint.folds } }) ∧
  (∀ (seg h e : Nat) (l : ListData) (g : Segment) (s : State), (s.corpus.lists.find? fun kl => (kl.2.segs.get seg).isSome) = some (h, l) →
    l.segs.get seg = some g → g.validUntil = some e → e ≤ s.usableClosed → s.segReferred seg = false → s.snapBelow e = false →
    (s.maint.folds.any fun f => f.handle = h && (f.old.contains seg || f.delta = seg)) = false →
    let segs := l.segs.erase seg
    let a := (g.objs.filter fun n => !(segs.any fun kg => kg.2.objs.contains n)).foldl (fun s n => s.freeObj n) s
    ∃ u, exec (.segmentFree seg) s = .next u ∧
      u = if l.retired && segs.isEmpty then a.dropList h else a.setList h { l with segs }) ∧
  (∀ (t : Nat) (edges : List (Nat × List Nat)) (named : List Nat) (s : State), s.maint.sweepStart + s.maint.sweepS * cyclesPerS ≤ max s.time t →
    (s.advance t).maintRuns = true → ∃ u, exec (.edgeSweep t ⟨edges, named⟩) s = .next u ∧ u = (s.advance t).sweep edges named) ∧
  (∀ (step n : Nat) (centroid : List F32) (s : State),
    (s.pipe.tensor.any fun kp => kp.2.running.any fun i => i.req.kind == .maint && i.req.owner = step) = true → s.maintRuns = true →
    (s.maint.steps.get step = some (0, n) →
      ∃ u, exec (.maintStepComplete step centroid) s = .next u ∧ u = (s.dropStep step).refitDone n (s.maint.refitBits.getD step 8) centroid) ∧
    (s.maint.steps.get step = some (1, n) → ∃ u, exec (.maintStepComplete step centroid) s = .next u ∧ u = (s.dropStep step).fitDone n))

/-- A port is enabled, detects a signal, fails training and retries (R313, R340); a neighbour's identity takes it UP or to MISMATCH (R313, R314);
it retrains and comes back with the width its lanes support, or goes DOWN (R315, R327); the queues are sampled (R336), and a port's histogram is
copied and cleared (R337). -/
def Obligations.PortCommandsComplete : Prop :=
  (∀ (port : Nat) (s : State), port < 32 → (s.healthOf (unitPort port)).retired = false →
    let p := s.port port
    let a := s.setPort port { p with enable := true, state := if p.state = 7 then 0 else p.state }
    ∃ u, exec (.portEnable port) s = .next u ∧ u = if p.state = 6 then a else a.wake .port port 2) ∧
  (∀ (port lanes : Nat) (s : State), port < 32 → (s.port port).enable = true → (s.port port).state = 0 → 1 ≤ lanes →
    s.pins.cables.contains port = true → s.powered .port port = true →
    ∃ u, exec (.portSignalDetect port lanes) s = .next u ∧ u = s.setPort port { s.port port with state := 1, since := s.time, failed := false }) ∧
  (∀ (port lanes : Nat) (s : State), port < 32 → (s.port port).state = 1 → 1 ≤ lanes → s.powered .port port = true →
    ∃ u, exec (.portSignalDetect port lanes) s = .next u ∧
      u = (s.setPort port { s.port port with state := 2, width := widthFor lanes (s.port port).maxWidth }).sendFlit port 2 false false 0 (s.identContent port)) ∧
  (∀ (port t : Nat) (s : State),
    let p := (s.advance t).port port
    ((p.state = 1 ∧ p.since + 50 * cyclesPerMs ≤ max s.time t) ∨ (p.state = 2 ∧ p.since + 56 * cyclesPerMs ≤ max s.time t) →
      ∃ u, exec (.trainFails port t) s = .next u ∧
        u = ((s.advance t).setPort port { p with state := 0, since := max s.time t, failed := true }).tally (0x2A40 + port) 7) ∧
    (p.enable = true → p.state = 0 → p.failed = true → p.since + 100 * cyclesPerMs ≤ max s.time t → (s.advance t).pins.cables.contains port = true →
      ∃ u, exec (.trainRetry port t) s = .next u ∧ u = (s.advance t).setPort port { p with state := 1, since := max s.time t, failed := false })) ∧
  (∀ (port : Nat) (content : List Byte) (s : State),
    let p := s.port port
    (s.identMatches port content = true → (p.state = 2 ∨ p.state = 5) →
      ∃ u, exec (.ident port content) s = .next u ∧ u = (s.setPort port { p with
        state := 3, ident := content, nbrModule := field content 0 2, nbrPort := field content 2 1 }).routeWaiting) ∧
    (s.identMatches port content = false ∨ (p.state = 3 ∧ p.ident ≠ content) → (p.state = 2 ∨ p.state = 3) →
      ∃ u, exec (.ident port content) s = .next u ∧ u = ((s.setPort port { p with
        state := 5, nbrModule := field content 0 2 % 4096, nbrPort := field content 2 1 % 32 }).tally (0x2A40 + port) 8).logState
          (0x2A40 + port) 8 (unitPort port) p.state 5)) ∧
  (∀ (port : Nat) (s : State), (s.port port).state = 3 →
    let a := ((s.setPort port { s.port port with state := 4, since := s.time, replays := 0 }).tally (0x2A40 + port) 6).score (unitPort port) 20
    (∃ u, exec (.retrain port) s = .next u ∧ u = a.settlePort port) ∧
    (∀ cause, cause < 2 ∨ (cause = 2 ∧ 8 ≤ (s.port port).replays) →
      ∃ u, exec (.retrainTrigger port cause) s = .next u ∧ u = a.settlePort port)) ∧
  (∀ (port lanes : Nat) (s : State), (s.port port).state = 4 →
    let w := widthFor lanes (s.port port).maxWidth
    let a := s.setPort port { s.port port with state := 3, width := w }
    (0 < lanes → ∃ u, exec (.retrainComplete port lanes) s = .next u ∧
      u = (if w < (s.port port).width then a.logState (0x2A00 + port) 2 (unitPort port) (s.port port).width w else a).routeWaiting) ∧
    (∃ u, exec (.retrainComplete port 0) s = .next u ∧ u = s.downPort port 0)) ∧
  (∀ (port : Nat) (s : State), (s.port port).state ≠ 0 → (s.port port).state ≠ 6 → (s.port port).state ≠ 7 →
    ∃ u, exec (.portDown port) s = .next u ∧ u = s.downPort port 0) ∧
  (∀ (t : Nat) (s : State), (s.advance t).time * 10 % 16384 < 10 → ∃ u, exec (.queueSample t) s = .next u ∧ u = (List.range 160).foldl (fun s i =>
    let d := s.sampleOf (s.port (i / 5)) (i % 5)
    (s.count (binKey (i / 5) (i % 5) 0 (binOf d.1)) 1).count (binKey (i / 5) (i % 5) 1 (binOf d.2)) 1) (s.advance t)) ∧
  (∀ (port : Nat) (s : State), port < 32 →
    (∃ u, exec (.histSnap port) s = .next u ∧ u = s.setPort port { s.port port with
      histSnap := (List.range 640).map fun i => s.counter (binKey port 0 0 0 + i), histSeq := ((s.port port).histSeq + 1) % 2 ^ 32 }) ∧
    (∃ u, exec (.histClr port) s = .next u ∧ u = { s with
      counters := s.counters.keep fun k _ => !(binKey port 0 0 0 ≤ k && k < binKey port 0 0 0 + 640) }))

/-- A flit with a good CRC acknowledges, and in sequence goes on to its frame; a bad or out-of-sequence one asks for a replay (R316, R317, R318);
the oldest header is accepted or deferred (R323, R324); a whole frame is delivered or sent on (R322); an answer, a missing answer and the end of a
backoff move a frame (R324, R326, R327); a start takes the class in priority (R332); gates and shapers follow the clock (R329, R330, R334). -/
def Obligations.FrameCommandsComplete : Prop :=
  (∀ (port : Nat) (flit : List Byte) (s : State), flit.length = 256 → (s.port port).state = 2 ∨ (s.port port).state = 3 ∨ (s.port port).state = 5 →
    let p := s.port port
    (crc64 (flit.take 248) ≠ field flit 248 8 → ∃ u, exec (.flitReceive port flit) s = .next u ∧ u = s.setPort port { p with nak := true }) ∧
    (crc64 (flit.take 248) = field flit 248 8 →
      let b := s.ackFlit port flit
      let q := b.port port
      let ftype := field flit 0 1 % 4
      let next : Port := { q with nak := false, rxSeq := (q.rxSeq + 1) % 4096 }
      ∃ u, exec (.flitReceive port flit) s = .next u ∧
        (bits (field flit 1 2) 11 0 ≠ q.rxSeq → u = b.setPort port { q with nak := true }) ∧
        (bits (field flit 1 2) 11 0 = q.rxSeq → ftype = 0 ∨ ftype = 3 → u = b.setPort port { q with nak := false }) ∧
        (bits (field flit 1 2) 11 0 = q.rxSeq → ftype = 2 ∨ (ftype = 1 ∧ q.state ≠ 3) → u = b.setPort port next) ∧
        (bits (field flit 1 2) 11 0 = q.rxSeq → ftype = 1 → q.state = 3 → u = (b.setPort port (assemble next (bit (field flit 0 1) 2) (bit (field flit 0 1) 3)
          (bits (field flit 0 1) 6 4) (slice flit 16 (field flit 5 1)))).count (objKey (0x2A40 + port) 2) 256))) ∧
  (∀ (port : Nat) (r : RxFrame) (s : State),
    let p := s.port port
    ((p.partial_ ++ p.rx.toList).find? fun r => !r.accepted && !r.deferred) = some r →
    (∀ g sh, s.decideHeader port r = .ok (g, sh) →
      let demand := if field r.header 2 2 = s.mgmt.moduleId then field r.header 12 4 else 0
      let q := decideFirst (fun r => some { r with accepted := true, guaranteed := g, shared := sh, demand }) p
      let a := (s.setPort port { q with answers := q.answers ++ [r.tag + 0x30000] }).bookIn port r.cls g sh
      ∃ u, exec (.frameHeaderDecide port) s = .next u ∧ u = { a with
        fabric := { a.fabric with demand := a.fabric.demand.put r.cls 0 (a.fabric.demand.getD r.cls 0 + demand) } }) ∧
    (∀ c, s.decideHeader port r = .error c →
      let q := decideFirst (fun x => if r.whole || p.partial_.contains r then none else some { x with deferred := true }) p
      ∃ u, exec (.frameHeaderDecide port) s = .next u ∧
        u = (s.setPort port { q with answers := q.answers ++ [r.tag + 0x10000 + c * 0x40000] }).countDefer port c)) ∧
  (∀ (port tag : Nat) (r : RxFrame) (s : State), ((s.port port).partial_.find? fun r => r.tag = tag && r.accepted && r.whole) = some r →
    let a := (s.releaseRx port r).setPort port { (s.releaseRx port r).port port with partial_ := (s.port port).partial_.erase r }
    let h := r.header
    let body := (r.bytes.take (field h 8 2)).drop 32
    (field h 2 2 = a.mgmt.moduleId → ∃ u, exec (.frameDeliver port tag) s = .next u ∧
      u = a.emit (.inbox (field h 4 2) r.cls (field h 10 2) (field h 24 2) (field h 16 8) body)) ∧
    (field h 2 2 ≠ a.mgmt.moduleId → ∃ u, exec (.frameDeliver port tag) s = .next u ∧ u = a.routeFrame {
      tag := 0, dest := field h 2 2, src := field h 4 2, cls := r.cls, hops := field h 7 1 - 1, kind := field h 10 2, demand := field h 12 4,
      mapEpoch := field h 16 8, tenant := field h 24 2, body })) ∧
  (∀ (port word : Nat) (f : Frame) (s : State), bit word 16 = true →
    ((s.port port).flying.find? fun f => f.tag = bits word 15 0 && !f.accepted && f.backoffUntil = 0) = some f →
    (bit word 17 = true → ∃ u, exec (.answerReceive port word) s = .next u ∧ u = (s.setPort port { s.port port with
      flying := replaceFirst (fun x => x.tag = f.tag) (fun x => { x with accepted := true, defers := 0 }) (s.port port).flying,
      headerFirst := (s.port port).headerFirst.filter fun k => k ≠ f.dest * 8 + f.cls }).settleFrames port) ∧
    (bit word 17 = false → ∃ u, exec (.answerReceive port word) s = .next u ∧ u = s.deferFrame port f)) ∧
  (∀ (port tag t : Nat) (f : Frame) (s : State),
    let a := s.advance t
    ((a.port port).flying.find? (fun f => f.tag = tag && f.backoffUntil ≠ 0 && f.backoffUntil ≤ a.time) = some f →
      ∃ u, exec (.deferBackoff port tag t) s = .next u ∧ u = a.setPort port { a.port port with
        flying := (a.port port).flying.erase f,
        queues := (a.port port).queues.set f.cls ({ f with backoffUntil := 0, sent := 0 } :: (a.port port).queues.getD f.cls []) }) ∧
    ((a.port port).flying.find? (fun f => f.tag = tag && !f.accepted && f.backoffUntil = 0 && a.time ≥ f.headerAt + nsCycles f.timeoutNs) = some f →
      ∃ u, exec (.answerTimeout port tag t) s = .next u ∧ u = a.deferFrame port f)) ∧
  (∀ (port t : Nat) (s : State), (s.advance t).portUp port = true →
    let a := ([4, 1, 0, 2, 3] : List Nat).foldl (fun s c => s.dropRefused port c) (s.advance t)
    (∀ f cont, (([4, 1, 0, 2, 3] : List Nat).findSome? fun c => a.mayStart port c) = some (f, cont) →
      ∃ u, exec (.frameStart port t) s = .next u ∧ u = a.startFrame port f cont) ∧
    ((([4, 1, 0, 2, 3] : List Nat).findSome? fun c => a.mayStart port c) = none →
      ∃ u, exec (.frameStart port t) s = .next u ∧ u = a.sendFlit port 0 false false 0 [])) ∧
  (∀ (port t : Nat) (s : State),
    let a := s.advance t
    let start := a.time / gateCycle * gateCycle
    let p : Port := if ((a.port port).switchAt.map fun c => decide (c ≤ start)).getD false then
      { a.port port with active := 1 - (a.port port).active, switchAt := none } else a.port port
    let e := gateAtOffset (gateList p p.active) 0 0 (a.time - start)
    ∃ u, exec (.gateEntry port t) s = .next u ∧ u = a.setPort port { p with gate := e.1, gateAt := start + e.2, cycleAt := start }) ∧
  (∀ (port t : Nat) (s : State),
    let a := s.advance t
    let c := a.gclCheck (a.port port) (1 - (a.port port).active)
    let next := (a.time / gateCycle + 1) * gateCycle
    ∃ u, exec (.gclSwitch port t) s = .next u ∧ u = a.setPort port (if c ≠ 0 then { a.port port with gclStatus := c }
      else { a.port port with switchAt := some (if a.time + cyclesPerUs ≥ next then next + gateCycle else next) })) ∧
  (∀ (t : Nat) (s : State), max s.time t % cyclesPerUs = 0 → ∃ u, exec (.shaperRefill t) s = .next u ∧
    u = (List.range 32).foldl (fun s n => s.setPort n ((List.range 5).foldl (refillPort s.time) (s.port n))) (s.advance t))

/-- A placement call of the PF or of the management firmware queues one move per object and changes a list's preference; a cancelling call
abandons the moves and completes (R254, R425); DESCRIBE answers an object's descriptor (R252). A move starts with its whole object to copy
(R255), marks a source chunk that fails for repair (R257), is abandoned when a write of its destination fails (R257), copies what was written meanwhile, or switches and is journalled (R255,
R258), and its source is freed. A page in REPAIR is regenerated (R262); a device retires (R263). -/
def Obligations.PlacementCommandsComplete : Prop :=
  (∀ (call : List Byte) (o : TierObj) (s : State), s.placeRefusal false call = none → s.liveObj (field call 0 8) = some o →
    bit (field call 9 1) 0 = false →
    let n := field call 0 8 % 2 ^ 28
    let os := s.callObjs n (field call 8 1) o
    os ≠ [] →
    ∃ u, exec (.mgmtPlace call) s = .next u ∧ u = { s with tiers := { s.tiers with
      objs := if o.kind = 0 then s.tiers.objs.set n { o with pref := field call 8 1 } else s.tiers.objs,
      moves := s.tiers.moves ++ os.map (s.queuedMove (field call 8 1)),
      calls := s.tiers.calls.set s.tiers.nextCall ⟨field call 0 8, .mgmt s.tiers.nextCall⟩, nextCall := s.tiers.nextCall + 1 } }) ∧
  (∀ (cmd : AdminCmd) (o : TierObj) (s : State), s.adminRuns cmd 0x60 16 true false = true →
    let a := s.adminTaken cmd
    let b := slice (cmd.entry.drop 48) 0 16
    a.placeRefusal (decide (cmd.fn ≠ 0)) b = none → a.liveObj (field b 0 8) = some o →
    let n := field b 0 8 % 2 ^ 28
    let os := a.callObjs n (field b 8 1) o
    (bit (field b 9 1) 0 = false → os ≠ [] → ∃ u, exec (.place cmd) s = .next u ∧ u = ({ a with tiers := { a.tiers with
      objs := if o.kind = 0 then a.tiers.objs.set n { o with pref := field b 8 1 } else a.tiers.objs,
      moves := a.tiers.moves ++ os.map (a.queuedMove (field b 8 1)),
      calls := a.tiers.calls.set a.tiers.nextCall ⟨field b 0 8, .admin (adminRef cmd)⟩, nextCall := a.tiers.nextCall + 1 } } : State).resumeRequests) ∧
    (bit (field b 9 1) 0 = true → bit (field cmd.entry 57 1) 0 = true →
      ∃ u, exec (.placeCancel cmd) s = .next u ∧
        u = ((a.cancelMoves (a.objMoves n o)).answerCall (.admin (adminRef cmd)) 0).resumeRequests)) ∧
  (∀ (cmd : AdminCmd) (o : TierObj) (s : State), s.adminRuns cmd 0x61 9 (field cmd.entry 56 1 < 2) true = true →
    let a := s.adminTaken cmd
    let h := field cmd.entry 48 8
    a.liveObj h = some o → (bit (field cmd.entry 56 1) 0 = false ∨ o.kind ≠ 0) →
    ∃ u, exec (.describe cmd) s = .next u ∧ u = a.adminDone (adminRef cmd) 0 (a.descriptor (h % 2 ^ 28) o) []) ∧
  (∀ (m : Move) (o : TierObj) (s : State), (s.tiers.moves.find? fun m => !m.running) = some m → s.tiers.objs.get m.obj = some o →
    (s.tiers.moves.filter fun x => x.running && !x.switched).length < 8 → s.upkeepRuns = true → o.size ≤ s.tierRoom m.target false →
    ∃ u, exec .moveStart s = .next u ∧ u = s.updTierMove m.obj fun x => { x with running := true, source := o.tier, copied := o.size, dirty := [] }) ∧
  (∀ (obj : Nat) (m : Move) (s : State), (s.tiers.moves.find? fun m => m.obj = obj && m.running && !m.switched) = some m →
    s.movesRun m = true → (s.tiers.repair.any fun r => r.obj = obj) = false →
    (m.source ≤ 1 → ∃ u, exec (.moveRoundComplete obj ⟨false, true⟩) s = .next u ∧ u = (s.markRepair m.source obj).readFailed) ∧
    (∃ u, exec (.moveRoundComplete obj ⟨true, false⟩) s = .next u ∧ u = (s.failMove m 0x409).resumeRequests) ∧
    (let a := s.count (objKey 0x2810 1) m.copied
      ∃ u, exec (.moveRoundComplete obj ⟨true, true⟩) s = .next u ∧ u = if 65536 * m.dirty.length > a.tailBytes
        then a.updTierMove obj fun x => { x with copied := 65536 * m.dirty.length, dirty := [] }
        else ((a.count (objKey 0x2810 1) (65536 * m.dirty.length)).switchMove m).resumeRequests)) ∧
  (∀ (obj : Nat) (m : Move) (s : State), (s.tiers.moves.find? fun m => m.obj = obj && m.switched) = some m → s.sourceReads m = false →
    ∃ u, exec (.moveSourceFree obj) s = .next u ∧
      u = { s with tiers := { s.tiers with moves := s.tiers.moves.filter fun x => !(x.obj = obj && x.switched) } }) ∧
  (∀ (tier device page : Nat) (r : RepairPage) (s : State),
    ((s.tiers.repair.take 64).find? fun r => r.tier = tier && r.device = device && r.page = page) = some r →
    ∃ u, exec (.repairComplete tier device page) s = .next u ∧ u = (({ s with tiers := { s.tiers with
      repair := s.tiers.repair.filter fun x => !(x.tier = tier && x.device = device && x.page = page),
      remapped := if s.tiers.retired.contains (tier * 256 + device) then s.tiers.remapped
        else s.tiers.remapped.set (tier * 256 + device) (s.tiers.remapped.getD (tier * 256 + device) 0 + 1) } } : State).regenPage r.obj page).count
        (objKey 0x2810 2) 4096) ∧
  (∀ (tier device : Nat) (s : State), tier ≤ 1 → device < (if tier = 0 then 10 else 24) →
    s.tiers.retired.contains (tier * 256 + device) = false →
    let unit := if tier = 0 then unitStack device else unitPackage device
    let pages := (Config.pagesHeld s.freeCount).map fun p => (⟨tier, device, p.1, p.2⟩ : RepairPage)
    let a : State := { s with
      freeCount := s.freeCount + 1,
      tiers := { s.tiers with
        retired := s.tiers.retired ++ [tier * 256 + device],
        repair := (s.tiers.repair.filter fun (r : RepairPage) => !(r.tier = tier && r.device = device)) ++ pages } }
    let b := ((a.markRetired unit).logState 0x2810 7 unit 0 1).count (objKey 0x2810 7) pages.length
    ∃ u, exec (.deviceRetire tier device) s = .next u ∧
      u = (((b.makeRoom 1).makeRoom 0).makeRoom 1).dropSketches.settle.resumeRequests)

/-- A bank goes to the owner that its master or management names, and another master is refused and counted (R266, R270); the owner's access is
served, a read together with a write with the new data (R269), a refused one counted, a refused read answered with zeros and a bus error, and a refused access of a batch's own tile withdraws the batch
(R265, R267). The march takes the next word into its save register (R271, R274), puts it back at the end, into a spare word when it failed
(R271, R273), and defers a word whose test is not finished in time (R272). -/
def Obligations.StagingCommandsComplete : Prop :=
  (∀ (part strand bank master value : Nat) (s : State), part < 4 → strand < 9 → bank < 32 → master < 4 →
    let id := bankId part strand bank
    (master = s.ownerOf id ∨ master = 3 → ∃ u, exec (.bankOwner part strand bank master value none) s = .next u ∧ u = s.giveBank id (value % 4)) ∧
    (master ≠ s.ownerOf id → master ≠ 3 →
      ∃ u, exec (.bankOwner part strand bank master value none) s = .next u ∧ u = s.stagingCount part strand (master + 1)) ∧
    (∀ v, ∃ u, exec (.bankOwner part strand bank 3 value (some v)) s = .next u ∧ u = s.giveBank id (v % 4))) ∧
  (∀ (a : StagingAccess) (s : State), a.part < 4 → a.strand < 9 → a.bank < 32 → a.word < 2048 → a.master < 4 →
    (s.ownerOf (bankId a.part a.strand a.bank) = a.master →
      (∀ b, a.write = some b → a.read = false → ∃ u, exec (.stagingRefused a) s = .next u ∧ u = s.writeWord a.part (accessWord a) b) ∧
      (∀ b, a.write = some b → a.read = true → ∃ u, exec (.stagingRefused a) s = .next u ∧
        u = (s.writeWord a.part (accessWord a) b).emit (.staging ((s.writeWord a.part (accessWord a) b).readWord a.part (accessWord a)))) ∧
      (a.write = none → a.ecc = 0 → ∃ u, exec (.stagingRefused a) s = .next u ∧ u = s.emit (.staging (s.readWord a.part (accessWord a))))) ∧
    (s.ownerOf (bankId a.part a.strand a.bank) ≠ a.master →
      let c := s.stagingCount a.part a.strand (a.master + 1)
      (a.write = none → a.batch = none → ∃ u, exec (.stagingRefused a) s = .next u ∧
        u = (c.emit (.staging (List.replicate wordBytes 0))).emit (.busError a.master)) ∧
      (∀ b n, a.write = some b → a.read = false → a.batch = some n → ∃ u, exec (.stagingRefused a) s = .next u ∧
        u = (c.withdrawBatch n).scorePhys a.part a.strand 250))) ∧
  (∀ (part t : Nat) (s : State),
    let a := s.advance t
    let h := a.staging.hb.getD part {}
    part < 4 → h.active = false → a.setting 0x2800 4 1 ≠ 0 → a.upkeepRuns = true →
    h.lastDone + a.setting 0x2800 3 24000 * cyclesPerUs ≤ a.time →
    ∃ u, exec (.harebellWord part t) s = .next u ∧ u = { a with staging := { a.staging with
      hb := a.staging.hb.set part { h with
        active := true, word := nextWord h, startedAt := a.time, save := readMem a.staging.mem (wordAddr part (nextWord h)) wordBytes } } }) ∧
  (∀ (part t : Nat) (s : State), part < 4 → ((s.advance t).staging.hb.getD part {}).active = true →
    (∃ u, exec (.harebellTestComplete part true t) s = .next u ∧
      u = ((s.advance t).count (objKey (0x2840 + part) 1) wordBytes).leaveWord part false) ∧
    (∃ u, exec (.harebellTestComplete part false t) s = .next u ∧ u = (s.advance t).testDone part false)) ∧
  (∀ (part t : Nat) (s : State), part < 4 → ((s.advance t).staging.hb.getD part {}).active = true →
    ((s.advance t).staging.hb.getD part {}).startedAt + 4096 ≤ (s.advance t).time →
    ∃ u, exec (.hbDeferred part t) s = .next u ∧ u = ((s.advance t).leaveWord part true).tally (0x2840 + part) 5)

/-- A unit read counts an unmapped unit, or decodes at a retry level, is rebuilt or fails (R285, R287, R289, R306); a page is programmed, or its
units are assigned again and its block is retired (R287, R290, R305); a DISCARD unmaps its units, a journal page makes records durable (R285,
R293), and a checkpoint starts and ends (R295); a row takes a victim, erases a freed superblock and takes it back (R280, R302, R304, R305); a die
leaves service (R306); buffers go to the longest waiting page (R301). -/
def Obligations.FlashCommandsComplete : Prop :=
  (∀ (lba : Nat) (level : Option Nat) (rebuilt : Bool) (s : State),
    let entry := s.flash.map.getD lba 0
    let at_ := s.locate lba entry
    let k := keyParts at_.1
    let c := k.2.2.2
    let p := s.flash.pages.getD at_.1 { units := [] }
    let data := (p.units[at_.2]?.map (·.data)).getD []
    let a := ((s.wake .onfi c 2).count (objKey (0x2920 + c) 1) 4096).spendCycles (0x2920 + c) 3
    let second := (maskChannels (a.sb k.1 k.2.1).chMask).any fun d => d ≠ c && (a.row k.1).retired.contains d
    (entry = 0 → ∃ u, exec (.flashUnitRead lba level rebuilt) s = .next u ∧ u = s.tally 0x2910 4) ∧
    (entry ≠ 0 → 2 ≤ p.state → (a.row k.1).retired.contains c = true → second = false → level.isSome = true ∨ rebuilt = true →
      ∃ u, exec (.flashUnitRead lba level rebuilt) s = .next u ∧ u = a.rebuildUnit lba entry data k.1 k.2.1 c) ∧
    (entry ≠ 0 → 2 ≤ p.state → (a.row k.1).retired.contains c = false →
      (level = some 0 → ∃ u, exec (.flashUnitRead lba level rebuilt) s = .next u ∧ u = a) ∧
      (∀ l, level = some l → l ≠ 0 → ∃ u, exec (.flashUnitRead lba level rebuilt) s = .next u ∧ u = a.retryRead k.1 k.2.1 c (min 15 l)) ∧
      (level = none → rebuilt = false → ∃ u, exec (.flashUnitRead lba level rebuilt) s = .next u ∧
        u = ((a.retryRead k.1 k.2.1 c 15).tally 0x2910 6).tally 0x2810 6)) ∧
    (entry ≠ 0 → 2 ≤ p.state → (a.row k.1).retired.contains c = true → second = true →
      ∃ u, exec (.flashUnitRead lba level rebuilt) s = .next u ∧ u = (a.tally 0x2910 6).tally 0x2810 6)) ∧
  (∀ (page : Nat) (p : FlashPage) (s : State), s.flash.pages.get page = some p → p.state = 1 →
    let k := keyParts page
    s.jWaits 2 k.1 k.2.1 = false →
    let a := ((s.advance p.startAt).freeBuffers page p).count (objKey (0x2920 + k.2.2.2) 2) 16384
    let mark := fun (n : Nat) => ({ a with flash := { a.flash with pages := a.flash.pages.alter page fun p => { p with state := n } } } : State)
    (∃ u, exec (.pageProgramComplete page true) s = .next u ∧
      u = ((((if p.parity then mark 2 else (mark 2).count (objKey 0x2910 (progCounter p.stream)) (4096 * p.units.length)).tryParity
        k.1 k.2.1 k.2.2.1).freeRow k.1).setThrottle)) ∧
    (∃ u, exec (.pageProgramComplete page false) s = .next u ∧
      u = ((((if p.parity then (mark 3).tally 0x2910 9 else ((mark 3).tally 0x2910 9).reassign page p).retireBlock k.1 k.2.1 k.2.2.2).tryParity
        k.1 k.2.1 k.2.2.1).setThrottle))) ∧
  (∀ (first count owner : Nat) (s : State), 1 ≤ count → count ≤ 1048576 → first + count ≤ 2 ^ 35 →
    ∃ u, exec (.discard first count owner) s = .next u ∧ u = s.discard first count owner) ∧
  (∀ (t : Nat) (j : JournalRec) (s : State), s.flash.jPending.head? = some j →
    512 ≤ s.flash.jPending.length ∨ j.madeAt + 200 * cyclesPerUs ≤ max s.time t →
    ∃ u, exec (.journalPageProgram t) s = .next u ∧ u = (s.advance t).journalPage ∧
      u.flash.jPending = s.flash.jPending.drop 512 ∧ u.flash.jDurable = s.flash.jDurable ++ s.flash.jPending.take 512) ∧
  (∀ (t : Nat) (s : State), let a := s.advance t
    a.flash.ckpt.running = false → a.flash.ckpt.startedAt + a.setting 0x2900 4 30 * cyclesPerS ≤ a.time ∨ a.setting 0x2900 5 64 ≤ a.flash.ckpt.opened →
    ∃ u, exec (.checkpointStart t) s = .next u ∧ u = a.startCheckpoint) ∧
  (∀ s : State, s.flash.ckpt.running = true → (s.flash.jPending.any fun j => decide (j.seq ≤ s.flash.ckpt.segSeq)) = false →
    (s.flash.pages.any fun kp => kp.2.state < 2 && !kp.2.parity && kp.2.units.any fun u => decide (u.seq ≤ s.flash.ckpt.segSeq)) = false →
    ∃ u, exec .checkpoints s = .next u ∧ u = s.endCheckpoint) ∧
  (∀ (row n : Nat) (s : State), row < 16 → s.collects row = true → s.chooseVictim row = some n →
    ∃ u, exec (.gcVictim row) s = .next u ∧ u = s.collectSb row n) ∧
  (∀ (row sb : Nat) (s : State), let a := s.tryFree row sb
    row < 16 → (a.sb row sb).state = 3 → (a.sb row sb).erasing = false → a.flash.flushing = false → a.jWaits 4 row sb = false →
    ∃ u, exec (.sbErase row sb) s = .next u ∧ u = a.startErase row sb) ∧
  (∀ (row sb : Nat) (failed : Option Nat) (s : State), row < 16 → (s.sb row sb).erasing = true →
    ∃ u, exec (.eraseComplete row sb failed) s = .next u ∧ u = s.eraseDone row sb failed) ∧
  (∀ (chan die : Nat) (s : State), chan < 32 → die < 16 → (s.row die).retired.contains chan = false →
    ∃ u, exec (.diesRetired chan die) s = .next u ∧ u = s.retireDie chan die) ∧
  (∀ (chan k : Nat) (rest : List Nat) (s : State), (s.flash.chans.getD chan {}).writeWait = k :: rest → (s.flash.chans.getD chan {}).writeBufs + 4 ≤ 256 →
    ∃ u, exec (.bufferGrant chan true) s = .next u ∧ u = ({ s with flash := { s.flash with
      chans := s.flash.chans.set chan { s.flash.chans.getD chan {} with writeWait := rest, writeBufs := (s.flash.chans.getD chan {}).writeBufs + 4 },
      pages := s.flash.pages.alter k fun p => { p with shared := false, buffered := true } } } : State).tryProgram k)

/-- A message goes into its channel, is refused or dropped (R443, R446, R448), and is removed (R447); dropped notices are reported (R452); the
firmware serves FW_FETCH, FW_ACTIVATE and a key enrolment (R448, R465) and the update of the dictionary (R465); the watchdog resets it (R467);
the link and its HELLO (R434), a request of the field network (R435), telemetry (R468) and an unfinished segmented write (R421); log records are
copied (R451), sensors sampled (R449), and a full settings area compacted (R460). -/
def Obligations.ManagementCommandsComplete : Prop :=
  (∀ (master channel : Nat) (bytes : List Byte) (s : State), channel < 32 → senderOk master channel = true → master ≠ 0x100 →
    ((s.channel channel).length < 8 → ∃ u, exec (.mbxPush master channel .onDie bytes) s = .next u ∧ u = s.storeMessage master channel bytes) ∧
    (8 ≤ (s.channel channel).length →
      ∃ u, exec (.mbxPush master channel .onDie bytes) s = .next u ∧ u = (s.tally 0x2E0C 4).emit (.busError master))) ∧
  (∀ (master channel : Nat) (path : PushPath) (bytes : List Byte) (s : State), path ≠ .onDie → channel ≤ 3 → bytes.length = 64 →
    (s.channel channel).length < 8 →
    ∃ u, exec (.mbxPush master channel path bytes) s = .next u ∧ u = (s.storeMessage 0x100 channel bytes).serveHost) ∧
  (∀ (mask : Nat) (s : State), ∃ u, exec (.mbxPop mask) s = .next u ∧
    u = ([4, 5, 6, 7] : List Nat).foldl (fun s c => if bit mask (c - 4) then s.popMessage c else s) s) ∧
  (∀ s : State, s.log.dropped ≠ 0 → (s.channel 4).length < 8 → ∃ u, exec .noticesLost s = .next u ∧
    u = ({ s with log := { s.log with dropped := 0 } } : State).hostMessage 4 0x0201 (leBytes 4 s.log.dropped)) ∧
  (∀ (image : List Byte) (c : Nat) (m : List Byte) (s : State), s.hostRequest 0x100 = some (c, m) → s.mgmt.serverUp = true →
    ∃ u, exec (.fwFetch image) s = .next u ∧ u = ((s.popMessage c).takeImage c m image).serveHost) ∧
  (∀ (c : Nat) (m : List Byte) (s : State), s.hostRequest 0x101 = some (c, m) → s.mgmt.serverUp = true →
    let a := (s.popMessage c).serveHost
    a.mgmt.committed = true → a.mgmt.update.isSome = true → ∃ u, exec .fwActivate s = .next u ∧ u = (({ a with mgmt := { a.mgmt with
      previous := a.mgmt.preferred, preferred := 1 - a.mgmt.preferred, trial := true, update := none, committed := false,
      partPending := hasPart (a.slot (1 - a.mgmt.preferred)).image, rounds := 0 } } : State).restartMgmt (1 - a.mgmt.preferred)).fwResult c 0
        (1 - a.mgmt.preferred)) ∧
  (∀ (record : List Byte) (c : Nat) (m : List Byte) (s : State), s.hostRequest 0x300 = some (c, m) → s.mgmt.serverUp = true →
    ∃ u, exec (.keyEnrol record) s = .next u ∧ u = ((s.popMessage c).enrolKey c m record).serveHost) ∧
  (∀ (count : Nat) (s : State), s.mgmt.serverUp = true → ∃ u, exec (.logCopy count) s = .next u ∧ u = s.copyLog count) ∧
  (∀ (t : Nat) (values : List (Nat × Nat × F32)) (s : State), max s.time t % (10 * cyclesPerMs) = 0 →
    ∃ u, exec (.sensorSample t values) s = .next u ∧ u = (sensorKeys.foldl (fun s k =>
      let v := (values.find? fun x => objKey x.1 x.2.1 = k).map (·.2.2)
      let s : State := { s with sensors := s.sensors.set k (v.getD f32Silent) }
      if v.isNone && !s.mgmt.silent.contains k then
        ({ s with mgmt := { s.mgmt with silent := s.mgmt.silent ++ [k] } } : State).logEvent (k / 256) (k % 256) 2 (sensorUnitOf k) []
      else s) (s.advance t)).watchCaps) ∧
  (∀ s : State, 2097152 < s.dict.storeUsed + 65583 → ∃ u, exec .settingsCompact s = .next u ∧ u = s.compactStore) ∧
  (∀ (length : Nat) (bytes : List Byte) (s : State), s.mgmt.serverUp = true →
    (370 ≤ length → length ≤ fwMax → s.mgmt.update = none → ∃ u, exec (.fwBegin length) s = .next u ∧
      u = { s with mgmt := { s.mgmt with update := some (length, []), committed := false } }) ∧
    (∀ len got, s.mgmt.update = some (len, got) →
      (bytes.length = 65536 → got.length < len → ∃ u, exec (.fwData bytes) s = .next u ∧
        u = { s with mgmt := { s.mgmt with update := some (len, (got ++ bytes).take len) } }) ∧
      (len ≤ got.length → s.mgmt.committed = false → s.fwStatus 1 got ≠ 0 → ∃ u, exec .fwCommit s = .next u ∧
        u = { s with mgmt := { s.mgmt with update := none } }) ∧
      (len ≤ got.length → s.mgmt.committed = false → s.fwStatus 1 got = 0 → ∃ u, exec .fwCommit s = .next u ∧
        u = ({ s with mgmt := { s.mgmt with committed := true } } : State).setSlot (1 - s.mgmt.preferred)
          { valid := true, image := got, version := field got 16 4, security := field got 12 4 }) ∧
      (∃ u, exec .fwAbort s = .next u ∧ u = { s with mgmt := { s.mgmt with update := none, committed := false } }))) ∧
  (∀ (t : Nat) (s : State),
    let a := s.advance t
    a.mgmt.serverUp = true → a.mgmt.update.isSome = true → a.mgmt.committed = true →
    ∃ u, exec (.fwActivateSlot t) s = .next u ∧ u = ({ a with mgmt := { a.mgmt with
      previous := a.mgmt.preferred, preferred := 1 - a.mgmt.preferred, trial := true, update := none, committed := false,
      partPending := hasPart (a.slot (1 - a.mgmt.preferred)).image, rounds := 0 } } : State).restartMgmt (1 - a.mgmt.preferred)) ∧
  (∀ (t slot : Nat) (s : State), (s.advance t).mgmt.boot = .healthy slot → (s.advance t).mgmt.serviced + 2 * cyclesPerS ≤ (s.advance t).time →
    ∃ u, exec (.watchdogResets t) s = .next u ∧ u = ((s.advance t).tally 0x2E0C 7).restartMgmt slot) ∧
  (∀ s : State, s.dict.linkUp = false → ∃ u, exec .fieldLinkUp s = .next u ∧
    u = ({ s with dict := { s.dict with linkUp := true } } : State).sendHello) ∧
  (∀ s : State, ∃ u, exec .fieldLinkDown s = .next u ∧ u = { s with dict := { s.dict with linkUp := false } }) ∧
  (∀ (t : Nat) (s : State), s.dict.linkUp = true → s.dict.lastHello + 10 * cyclesPerS ≤ max s.time t →
    ∃ u, exec (.hello t) s = .next u ∧ u = (s.advance t).sendHello) ∧
  (∀ (frame : List Byte) (s : State), s.mgmt.serverUp = true →
    let a := s.count (objKey 0x2E08 1) frame.length
    let slot := field frame 6 1
    let seq := field frame 24 8
    (a.oapFormOk frame = false → ∃ u, exec (.oapRequest frame) s = .next u ∧ u = a.tally 0x2E08 4) ∧
    (a.oapFormOk frame = true → a.oapSigned frame = false → ∃ u, exec (.oapRequest frame) s = .next u ∧ u = a.tally 0x2E08 5) ∧
    (a.oapFormOk frame = true → a.oapSigned frame = true → field frame 16 8 = a.dict.incarnation →
      a.dict.oapSeq.get slot = none → a.dict.waitingReqs = [] →
      ∃ u, exec (.oapRequest frame) s = .next u ∧ u = ({ a with dict := { a.dict with oapSeq := a.dict.oapSeq.set slot seq } } : State).runRequest
        (.oap seq) (if a.keyRole slot = 2 then .operator else .reader) (slice frame 32 (field frame 12 4)))) ∧
  (∀ (t : Nat) (s : State), let a := s.advance t
    a.mgmt.lastExport + a.mgmt.exportS * cyclesPerS ≤ a.time →
    ∃ u, exec (.telemetryExport t) s = .next u ∧
      let b := if a.mgmt.exportMode ≠ 0 && a.mgmt.serverUp && a.dict.linkUp then a.sendTelemetry a.mgmt.exportMode else a
      u = { b with mgmt := { b.mgmt with lastExport := b.time, exportMode := b.setting 0x2E03 1 0, exportS := b.setting 0x2E03 2 10 } }) ∧
  (∀ (t : Nat) (s : State), let a := s.advance t
    ∃ u, exec (.segmentWriteTimeout t) s = .next u ∧
      u = { a with dict := { a.dict with segWrites := a.dict.segWrites.filter fun w => decide (a.time < w.at_ + cyclesPerS) } })

/-- BOOT_START begins a start once the input and the bank are good, with the settings store checked (R454, R460, R462); the boot steps fall to the other slot, recovery, and a wait
(R462, R463); HEALTHY brings the object server up (R466, R487); training, memory test, replay, reload and receipt recovery lead the start through
its phases (R222, R243, R258, R297, R487, R488), and READY or the end of TOPOLOGY_WAIT ends it (R490, R491). -/
def Obligations.StartCommandsComplete : Prop :=
  (∀ (t c : Nat) (store : StoreCheck) (s : State), let a := s.advance t
    a.mgmt.boot = .off → a.power.startSince = some c → c + 100 * cyclesPerMs ≤ a.time → 70000 ≤ a.pins.bankMv → 9000 ≤ a.pins.bankMj →
    a.power.flushing = false ∨ a.power.busOff = true →
    (∃ u, exec (.bootStart t ⟨true, store⟩) s = .next u ∧
      u = (((a.loadStore store).startModule).logStore (a.storeFaults store) store.budgets).bootRound.settleStat) ∧
    (∃ u, exec (.bootStart t ⟨false, store⟩) s = .next u ∧
      u = ({ a.startModule with mgmt := { a.startModule.mgmt with boot := .noIdentity } } : State).settleStat)) ∧
  (∀ (t slot at_ : Nat) (s : State), let a := s.advance t
    a.mgmt.boot = .running slot at_ →
    (at_ + a.mgmt.watchdogS * cyclesPerS ≤ a.time → a.mgmt.trial = false →
      (slot = a.bootFails.mgmt.preferred → ∃ u, exec (.bootWatchdog t) s = .next u ∧ u = a.bootFails.bootOther.settleStat) ∧
      (slot ≠ a.bootFails.mgmt.preferred → ∃ u, exec (.bootWatchdog t) s = .next u ∧ u = ({ a.bootFails with mgmt := { a.bootFails.mgmt with
        boot := .recovery a.bootFails.time, recStatus := 0, update := none } } : State).settleStat)) ∧
    (let b : State := { a with mgmt := { a.mgmt with boot := .healthy slot, serverUp := true, serviced := a.time, trial := false } }
      let c := if b.repair.started && b.repair.phase = 0 then b.startRails else b
      c.mgmt.partPending = false → ∃ u, exec (.healthy t) s = .next u ∧ u = c.serveHost.settleStat)) ∧
  (∀ (t at_ : Nat) (s : State), let a := s.advance t
    (a.mgmt.boot = .recovery at_ → at_ + 30 * cyclesPerS ≤ a.time → ∃ u, exec (.recoveryOfferEnd t) s = .next u ∧
      u = ({ a.bootFails with mgmt := { a.bootFails.mgmt with
        boot := .wait a.bootFails.time, rounds := a.bootFails.mgmt.rounds + 1, update := none } } : State).settleStat) ∧
    (a.mgmt.boot = .wait at_ → at_ + min 60 (2 ^ (min 6 (a.mgmt.rounds - 1))) * cyclesPerS ≤ a.time →
      ∃ u, exec (.bootWaitEnd t) s = .next u ∧ u = a.bootRound.settleStat)) ∧
  (∀ (image : List Byte) (at_ : Nat) (s : State), s.mgmt.boot = .recovery at_ →
    (fwMax < s.mgmt.recLen ∨ s.mgmt.recAddr % 4096 ≠ 0 → ∃ u, exec (.recGo image) s = .next u ∧ u = { s with mgmt := { s.mgmt with recStatus := 1 } }) ∧
    (s.mgmt.recLen ≤ fwMax → s.mgmt.recAddr % 4096 = 0 → ∃ u, exec (.recGo image) s = .next u ∧
      u = ((s.count (objKey 0x2040 1) s.mgmt.recLen).tryRecovery (image.take s.mgmt.recLen)).1)) ∧
  (∀ (failed : List (Nat × Nat)) (s : State), s.repair.phase = 3 → ∃ u, exec (.memoryTrainingComplete failed) s = .next u ∧
    let a := (List.range 32).foldl (fun s c => s.wake .onfi c 2) (failed.foldl (fun s d => s.retireDevice d.1 d.2) s)
    u = ({ a with log := { a.log with flashReady := true } } : State).toPhase 4) ∧
  (∀ (pages : List (Nat × Nat × Nat)) (devices : List (Nat × Nat)) (s : State), s.repair.phase = 4 →
    ∃ u, exec (.memtestComplete pages devices) s = .next u ∧
      let a := devices.foldl (fun s d => s.retireDevice d.1 d.2) s
      u = ({ a with tiers := { a.tiers with remapped := pages.foldl (fun (t : Table Nat) p =>
        Table.set t (p.1 * 256 + p.2.1) (Table.getD t (p.1 * 256 + p.2.1) 0 + 1)) a.tiers.remapped } } : State).toPhase 5) ∧
  (∀ (t : Nat) (clean : Bool) (lost : List (Nat × Nat)) (s : State), (s.advance t).repair.phase = 5 →
    ∃ u, exec (.replay t clean lost) s = .next u ∧ u = (s.advance t).replayAll clean lost) ∧
  (∀ s : State, s.repair.phase = 6 → ∃ u, exec .reloadComplete s = .next u ∧ u.repair.phase = 7 ∧ u.tiers.repair = [] ∧
    (∀ n o, (n, o) ∈ u.tiers.objs → ∃ o', (n, o') ∈ s.tiers.objs ∧ (o = o' ∨ o'.kind ≠ 0 ∧ ∃ k tier, (k, tier) ∈ s.tiers.journal ∧ k = n ∧ o = { o' with tier }))) ∧
  (∀ (t : Nat) (s : State), let a := s.advance t
    a.repair.phase = 7 → a.repair.phasesDone = false → ∃ u, exec (.receiptRecovery t) s = .next u ∧
      let b := a.recoverReceipts
      let fits := fun (i : Image) (p : Nat) => decide (i.encodeTiles ≤ 16 - (b.pool p).out.length) && decide (i.scoreTiles ≤ 16 - (b.pool p).out.length)
      let parts := (upTo 4 fun p => !b.repair.partsOut.contains p)
      let c : State := { b with
        images := b.images.mapVals fun i => { i with installed := parts.filter (fits i) },
        repair := { b.repair with phasesDone := true, phase7At := b.time } }
      u = c.toPhase (if c.beaconMet && c.topologyMet then 8 else 9)) ∧
  (∀ (t : Nat) (s : State), let a := s.advance t
    a.repair.ready = false → a.repair.phasesDone = true → a.beaconMet = true → a.topologyMet = true → ∃ u, exec (.ready t) s = .next u ∧
      let b := (upTo 32 fun g => a.strandUp g).foldl (fun s g => s.setBanks g) a
      u = ((({ b with repair := { b.repair with ready := true } } : State).toPhase 8).logState 0x2D00 6 unitModule 0 1).causeAll 2) ∧
  (∀ (t : Nat) (s : State), let a := s.advance t
    a.repair.phase = 9 → a.repair.ready = false → (a.beaconMet && a.topologyMet) = false →
    a.repair.phase7At + a.repair.topoWait * cyclesPerS ≤ a.time → ∃ u, exec (.topologyWait t) s = .next u ∧
      u = (if (a.toPhase 15).beaconMet then (a.toPhase 15).logState 0x2D00 7 unitModule 9 15 else (a.toPhase 15).logState 0x2700 2 unitModule 9 15))

/-- A probe goes to the next strand or tensor tile of its rotation (R502); its pass is remembered and its failure handled (R503); a dual check
counts agreement or scores both strands (R504). A leader marks the shadowed set, and partner and shadow take it up (R507); an equal digest of a
probe counts when the query's last one has come, a different one once per query (R508 to R510); a failed peer ends the shadow (R511). PRESENT_N
open and an overvoltage open the input switch and flush (R518, R526); PERST_N resets every function (R520); the bank is measured (R530). -/
def Obligations.CheckAndPinCommandsComplete : Prop :=
  (∀ (t x : Nat) (s : State), let a := (s.advance t).takeRate
    let p := a.repair.nextCampion
    a.repair.ready = true → a.power.step < 2 → a.repair.campionRate ≠ 0 → a.repair.lastCampion + cyclesPerS / a.repair.campionRate ≤ a.time →
    (if p % 4 = 3 then rotation a.tensorTiles (p / 4) else rotation (upTo 32 a.strandUp) (p - p / 4)) = some x →
    ∃ u, exec (.campionIssue t) s = .next u ∧
      u = ({ a with repair := { a.repair with lastCampion := a.time } } : State).addCampion (decide (p % 4 = 3)) x) ∧
  (∀ (num stage load : Nat) (c : Campion) (s : State), (s.repair.campions.find? fun c => c.num = num) = some c → campionStageOk c stage = true →
    let a := ({ s with repair := { s.repair with campions := s.repair.campions.filter fun x => x.num ≠ num } } : State).tally 0x2D10 6
    (stage = 0 → ∃ u, exec (.campionResult num stage load) s = .next u ∧ u = a.campionPassed c) ∧
    (stage ≠ 0 → ∃ u, exec (.campionResult num stage load) s = .next u ∧ u = (a.campionFailed c stage load).settle)) ∧
  (∀ (q list : Nat) (first second : List Byte) (d : DualCheck) (s : State),
    (s.repair.duals.find? fun d => handleSerial d.handle = q && d.list = list && d.d1.isSome && d.d2.isSome) = some d →
    let a : State := { s with repair := { s.repair with duals := s.repair.duals.erase d } }
    (first = second → ∃ u, exec (.dualCheckCompare q list first second) s = .next u ∧ u = a.tally 0x2D10 8) ∧
    (first ≠ second → ∃ u, exec (.dualCheckCompare q list first second) s = .next u ∧ u = a.dualMismatch d)) ∧
  (∀ (peer n : Nat) (e : ShardEntry) (s : State), peer ≠ s.mgmt.moduleId → peer < 4096 → s.repair.shadow.state = 0 → s.exchange.moves = [] →
    (s.lastMap.bind fun m => m.shards[n]?) = some e →
    let m : ShardMove := { shard := n, source := s.mgmt.moduleId, dest := peer, f1 := s.newestMap, shadow := true }
    (e.home = s.mgmt.moduleId → e.state = 0 → s.leads = true → ∃ u, exec (.shadowStart peer true [n]) s = .next u ∧
      u = s.announceNext fun m => mapShard false n (fun x => { x with state := 1 }) m) ∧
    (e.home = s.mgmt.moduleId → e.state = 1 → ∃ u, exec (.shadowStart peer true [n]) s = .next u ∧ u = (({ s with
        repair := { s.repair with shadow := { role := 1, peer, shards := [n] } },
        exchange := { s.exchange with moves := [m] } } : State).setShadow 1).copyRound m) ∧
    (e.home = peer → e.state = 1 → ∃ u, exec (.shadowStart peer false [n]) s = .next u ∧ u = ({ s with
      repair := { s.repair with shadow := { role := 2, peer, shards := [n] } },
      exchange := { s.exchange with moves := [] } } : State).setShadow 1)) ∧
  (∀ (handle list : Nat) (digest : List Byte) (w : ShadowWait) (s : State), s.repair.shadow.role = 1 → s.repair.shadow.state = 2 →
    let live := s.repair.shadow.waiting.filter fun w => decide (s.time < w.deadlineAt)
    let put := fun (ws : List ShadowWait) => ({ s with repair := { s.repair with shadow := { s.repair.shadow with waiting := ws } } } : State)
    let mine := fun (w : ShadowWait) => decide (w.handle = handle) && decide (w.list = list) && decide (w.state = 0)
    List.find? mine live = some w →
    (w.digest ≠ digest → (live.any fun w => w.handle = handle && w.state = 2) = false →
      ∃ u, exec (.shadowDigest handle list digest) s = .next u ∧
        u = (put (replaceFirst mine (fun w => { w with state := 2 }) live)).shadowDisagrees w.g) ∧
    (let ws := replaceFirst mine (fun w => { w with state := 1 }) live;
      w.digest = digest → s.checkRuns handle = false → (ws.all fun w => w.handle ≠ handle || w.state = 1) = true →
      ∃ u, exec (.shadowDigest handle list digest) s = .next u ∧
        u = (put (ws.map fun w => if w.handle = handle then { w with state := 3 } else w)).shadowAgrees)) ∧
  (∀ s : State,
    (s.repair.shadow.state = 0 ∨ s.repair.shadow.role ≠ 2 ∨ s.endShadow.leads = false → ∃ u, exec .shadowPeerFail s = .next u ∧ u = s.endShadow) ∧
    (s.repair.shadow.state ≠ 0 → s.repair.shadow.role = 2 → s.endShadow.leads = true → ∃ u, exec .shadowPeerFail s = .next u ∧
      let a := s.endShadow
      let lost := fun (e : ShardEntry) => { e with state := 2, home := if a.tierRoom 0 false > 0 then a.mgmt.moduleId else e.home }
      u = a.announceNext fun m => s.repair.shadow.shards.foldl (fun (m : CompMap) n => mapShard false n lost m) m)) ∧
  (∀ s : State, s.pins.present = true → ∃ u, exec .presentNOpen s = .next u ∧ u = ((({ s with
    pins := { s.pins with present := false }, power := { s.power with switchOpen := true } } : State).forceFlush.logEvent 0x2C00 5 4 unitModule []).settleStat)) ∧
  (∀ (t : Nat) (s : State), (s.power.volts.take 10).length = 10 → 610000 < (s.power.volts.take 10).sum → s.power.switchOpen = false →
    let a := s.advance t
    ∃ u, exec (.overvoltage t) s = .next u ∧ u = ((({ a with power := { a.power with switchOpen := true } } : State).forceFlush.logEvent
      0x2CF1 1 2 unitModule (leBytes 8 ((s.power.volts.take 10).sum / 10))).settleStat)) ∧
  (∀ s : State,
    (let a := (s.host.fns.map (·.1)).foldl (fun s fn => s.resetFn fn) s
      ∃ u, exec (.perstN true) s = .next u ∧ u = { a with host := { a.host with perst := true, linkGen := 0, linkWidth := 0, vfEnable := false } }) ∧
    (∃ u, exec (.perstN false) s = .next u ∧ u = { s with host := { s.host with perst := false } })) ∧
  (∀ (mv mj : Nat) (s : State), s.mgmt.boot = .off →
    let a : State := { s with pins := { s.pins with bankMv := mv, bankMj := mj } }
    ∃ u, exec (.bankQualify mv mj) s = .next u ∧
      u = (if mv < 70000 ∨ mj < 9000 then a.logEvent 0x2C00 5 2 unitModule (leBytes 8 mv ++ leBytes 8 mj) else a).settleStat)

/-- The bytes that the model writes for a field of n bytes are its base-256 digits, the least significant first, and reading a field of n bytes at
an offset weighs the byte at place i by 256 to the i (R4). -/
def Obligations.FieldsAreLittleEndian : Prop :=
  (∀ n v : Nat, (leBytes n v).length = n ∧ ∀ i, i < n → (leBytes n v)[i]? = some (BitVec.ofNat 8 (v / 256 ^ i))) ∧
  (∀ (bs : List Byte) (off n : Nat), off + n ≤ bs.length →
    field bs off n = ((List.range n).map fun i => (bs[off + i]?.getD 0).toNat * 256 ^ i).sum)

/-- Adding to a free-running counter wraps it at 2^64 and never raises an event (R10); adding to any other counter stops it at 0xFFFF_FFFF, and only
the addition that reaches that value raises the event and sets the SAT bit of its group (R11). No other counter changes (R9). -/
def Obligations.CountersCountByClass : Prop :=
  ∀ (counters : Table Nat) (key n : Nat), Table.wf counters = true → summaryOf key ≠ some key →
    let r := bumpCounter counters key n
    let v := counters.getD key 0
    (isFreeRunning key = true → r.2 = false ∧ r.1.getD key 0 = (v + n) % 2 ^ 64) ∧
    (isFreeRunning key = false → (r.2 = true ↔ v < eventMax ∧ eventMax ≤ v + n) ∧ r.1.getD key 0 = min eventMax (v + n)) ∧
    (∀ g, r.2 = true → summaryOf key = some g → r.1.getD g 0 = 1) ∧
    (∀ j, j ≠ key → ¬ (r.2 = true ∧ summaryOf key = some j) → r.1.getD j 0 = counters.getD j 0)

/-- The comparison by which every selection and every merge orders its entries (R26) never sets an entry before itself, is transitive, and decides
between any two entries with different keys. A valid entry comes before a void one; of two that are both valid or both void, one whose score is no
NaN comes before one whose score is, the larger score comes first, and equal scores, zeros of either sign and two NaNs among them, leave the choice to
the smaller key. -/
def Obligations.SelectionOrderIsTotal : Prop :=
  ∀ a b c : Entry,
    entryPrecedes a a = false ∧
    (entryPrecedes a b = true → entryPrecedes b a = false) ∧
    (entryPrecedes a b = true → entryPrecedes b c = true → entryPrecedes a c = true) ∧
    (a.key ≠ b.key → entryPrecedes a b = true ∨ entryPrecedes b a = true) ∧
    (bit a.flags 0 = false → bit b.flags 0 = true → entryPrecedes a b = true) ∧
    (bit a.flags 0 = bit b.flags 0 →
      (f32IsNaN a.score = false → f32IsNaN b.score = true → entryPrecedes a b = true) ∧
      (f32Lt b.score a.score = true → entryPrecedes a b = true) ∧
      (sameScore a b = true → (entryPrecedes a b = true ↔ a.key < b.key)))

/-- Entries with different keys, offered one after another to an empty list of capacity k, leave exactly the first k of them under R26, with their
scores written by R27; so any other order of arrival leaves the same list (R29). The tie at the k-th place is settled by the keys. -/
def Obligations.SelectionIsIndependentOfArrival : Prop :=
  ∀ (k : Nat) (es fs : List Entry), (es.map Entry.key).Nodup → es.Perm fs →
    (offerAll k [] es).1 = (sortBy entryPrecedes (es.map writtenEntry)).take k ∧ (offerAll k [] fs).1 = (offerAll k [] es).1

/-- A channel holds 8 slots (R441), and a push to a full channel is refused (R444); the event unit keeps the latest 4,096 records (R451). No step of
the machine, whichever command and however many records its counting and reporting make, leaves more than that in either. -/
def Obligations.MailboxesAndEventRingStayWithinTheirSizes : Prop :=
  (∀ (s t : State), MailFits s.mbx → step s = .next t → MailFits t.mbx) ∧
  (∀ (s t : State), RingFits s.log → step s = .next t → RingFits t.log)

/-- A record with an insert epoch and perhaps a delete epoch is visible at a snapshot exactly when it was inserted at or before the snapshot and has
no delete epoch at or before it (R19). A list's strand applies that to the slots of a view: the insert epoch is the item's, or where the segment is
a base, the epoch from which the base is valid; the delete epoch is the earliest that a mark of the view's segments gives the slot; a slot that
the segment does not hold is not visible. -/
def Obligations.VisibilityFollowsTheEpochs : Prop :=
  (∀ (inserted : Nat) (deleted : Option Nat) (snap : Nat),
    existsAt inserted deleted snap = true ↔ ¬ inserted > snap ∧ (deleted = none ∨ ∃ d, deleted = some d ∧ d > snap)) ∧
  (∀ (l : ListData) (view : List Nat) (g : Segment) (slot snap : Nat) (i : Item), g.items[slot]? = some i →
    visibleAt l view g slot snap = existsAt (if g.isBase then g.validFrom else i.insert) (deleteEpoch l view g.segIndex slot) snap) ∧
  (∀ (l : ListData) (view : List Nat) (g : Segment) (slot snap : Nat), g.items[slot]? = none → visibleAt l view g slot snap = false) ∧
  (∀ (l : ListData) (view : List Nat) (seg slot d : Nat), deleteEpoch l view seg slot = some d ↔
    (∃ k ∈ view, ∃ h, l.segs.get k = some h ∧ ∃ m ∈ h.marks, m.seg = seg ∧ m.slot = slot ∧ m.epoch = d) ∧
    ∀ k ∈ view, ∀ h, l.segs.get k = some h → ∀ m ∈ h.marks, m.seg = seg → m.slot = slot → d ≤ m.epoch)

/-- At a defined index, sub-index 0x00 is a U8 that can only be read and holds the highest sub-index defined there; a sub-index between 0x01 and that
value that is not defined is refused with ABORT_NO_SUB, code 2, and no sub-index above it is defined. -/
def Obligations.SubIndexZeroHoldsTheHighest : Prop :=
  ∀ (index h : Nat), highestSub index = some h →
    (∃ d, objDef index 0 = some d ∧ d.ty = 1 ∧ d.len = 1 ∧ d.access = .ro ∧ ∀ (s : State) (who : Accessor), s.objValue who index 0 d = h) ∧
    (objDef index h).isSome = true ∧ (∀ sub, (objDef index sub).isSome = true → sub ≤ h) ∧
    (∀ (s : State) (who : Accessor) (i : ObjItem), i.formOk = true → i.index = index → 1 ≤ i.sub → i.sub ≤ h → objDef index i.sub = none →
      s.itemRefusal who i = 2)

/-- Sub-indices .01 to .04 of 0x2E04 are two-byte values that can only be read: the budgets 4, 16, 64 and 8 of TENANT_ISOLATION_MODE, COMPOSITION_SEAL,
ANTI_ROLLBACK_FLOOR and TELEMETRY_EXPORT_MODE, each less the changes consumed, and 0 when the budget is spent or is treated as spent. -/
def Obligations.RemainingBudgetsAreReadable : Prop :=
  ∀ (s : State) (who : Accessor) (k index sub budget : Nat), (k, index, sub, budget) ∈ [(1, 0x2030, 2, 4), (2, 0x2E01, 1, 16), (3, 0x2E02, 1, 64), (4, 0x2E03, 1, 8)] →
    ∃ d, objDef 0x2E04 k = some d ∧ d.ty = 2 ∧ d.len = 2 ∧ d.access = .ro ∧
      (s.dict.spent.contains (objKey index sub) = true → s.objValue who 0x2E04 k d = 0) ∧
      (s.dict.spent.contains (objKey index sub) = false → s.objValue who 0x2E04 k d = budget - s.dict.used.getD (objKey index sub) 0) ∧
      (budget ≤ s.dict.used.getD (objKey index sub) 0 → s.objValue who 0x2E04 k d = 0)

/-- The tenant test at a snapshot epoch (R187): unbound and reserved tenants never pass (R182). The owner of the namespace that exists there passes with no
forced groups. Another tenant passes only while the mode in force at the snapshot is DELEGATED, and exactly when the namespace holds a grant to it that is
valid there, with that grant's groups forced (R188). A namespace that does not exist at the snapshot lets nobody pass. -/
def Obligations.TenantTestPasses : Prop :=
  ∀ (s : State) (tenant ns e : Nat),
    ((tenant = 0 ∨ tenant = 0xFFFF ∨ s.nsAt ns e = none) → s.tenantTest tenant ns e = none) ∧
    (∀ n, tenant ≠ 0 → tenant ≠ 0xFFFF → s.nsAt ns e = some n →
      (n.owner = tenant → s.tenantTest tenant ns e = some 0) ∧
      (n.owner ≠ tenant → s.modeAt e ≠ 1 → s.tenantTest tenant ns e = none) ∧
      (n.owner ≠ tenant → s.modeAt e = 1 →
        ((s.tenantTest tenant ns e).isSome = true ↔ ∃ g ∈ s.catalog.grants, g.ns = ns ∧ g.grantee = tenant ∧ g.from_ ≤ e ∧ ∀ u, g.until_ = some u → e < u) ∧
        (∀ m, s.tenantTest tenant ns e = some m → ∃ g ∈ s.catalog.grants, g.ns = ns ∧ g.grantee = tenant ∧ existsAt g.from_ g.until_ e = true ∧ g.groups = m)))

/-- Offering an entry to an ordered list of distinct keys within its capacity leaves an ordered list of distinct keys within its capacity (R28, R142). What
it holds was held before, or is the entry with its score written (R144), or is the kept one of two occurrences of one key (R143). An entry leaves
only where the offered one has its key, or where the list was full and every entry that stays comes before it. -/
def Obligations.ContextsStayOrderedAndDistinct : Prop :=
  ∀ (k : Nat) (es : List Entry) (e : Entry), (es.Pairwise fun a b => entryPrecedes a b = true) → (es.map Entry.key).Nodup → es.length ≤ k →
    let r := (offerList k es e).1
    (r.Pairwise fun a b => entryPrecedes a b = true) ∧ (r.map Entry.key).Nodup ∧ r.length ≤ k ∧
    (∀ x ∈ r, x ∈ es ∨ x = writtenEntry e ∨ ∃ o ∈ es, o.key = e.key ∧ x = keepOccurrence o (writtenEntry e)) ∧
    (∀ x ∈ es, x ∉ r → x.key = e.key ∨ (es.length = k ∧ ∀ y ∈ r, entryPrecedes y x = true))

/-- Of two occurrences of a key, where their scores are equal or both NaN the more exact one is kept, and between equals the one that arrived first; otherwise
the one that comes first under R26 (R143). The kept occurrence keeps its own key, score, shard and flags, and gains DUP_MERGED. -/
def Obligations.TheBetterOccurrenceIsKept : Prop :=
  ∀ (old new : Entry), ∃ kept, keepOccurrence old new = { kept with flags := setBit kept.flags 7 true } ∧
    (kept = old ∨ kept = new) ∧
    (sameScore old new = true → exactRank new < exactRank old → kept = new) ∧
    (sameScore old new = true → exactRank old ≤ exactRank new → kept = old) ∧
    (sameScore old new = false → entryPrecedes new old = true → kept = new) ∧
    (sameScore old new = false → entryPrecedes new old = false → kept = old) ∧
    bit (keepOccurrence old new).flags 7 = true ∧ ∀ b, b ≠ 7 → bit (keepOccurrence old new).flags b = bit kept.flags b

/-- A query's answer is exactly k entries: its valid ones, at most k, and void entries after them (R30). Where its status is STALE_MAP, RETRY, ORPHANED or
REJECTED no entry is valid (R42). Its bytes are 16 for each entry, KEY at 0, SCORE at 8, FLAGS at 12 and SHARD_HINT at 14, the last two zero at the basic
level (R31, R406); a void entry carries the key of all ones, −∞, VOID and the shard 0xFFFF. -/
def Obligations.AnswersHoldKEntries : Prop :=
  ∀ (x : Query),
    (resultEntries x).length = x.fields.k ∧ (validEntries x).length ≤ x.fields.k ∧ (resultEntries x).take (validEntries x).length = validEntries x ∧
    (∀ i, (validEntries x).length ≤ i → i < x.fields.k → (resultEntries x)[i]? = some ⟨0xFFFFFFFFFFFFFFFF, 0xFF800000, 1, 0xFFFF⟩) ∧
    (statusOf x ∈ [4, 5, 6, 8] → validEntries x = []) ∧
    (resultBytes x).length = 16 * x.fields.k ∧
    (∀ (i : Nat) (e : Entry), (resultEntries x)[i]? = some e →
      field (resultBytes x) (16 * i) 8 = e.key % 2 ^ 64 ∧ field (resultBytes x) (16 * i + 8) 4 = e.score.toNat ∧
      field (resultBytes x) (16 * i + 12) 2 = (if x.basic then 0 else e.flags % 2 ^ 16) ∧
      field (resultBytes x) (16 * i + 14) 2 = (if x.basic then 0 else e.shard % 2 ^ 16))

/-- Whatever else an image holds, a product whose operand pair is not among those of R158, in the graph of a model section that the image
has, makes its status IMAGE_FORMAT (R159, R72); and no pair of R158 joins an integer with an MX or bf16 operand. The
graphs of an image are the operand of log entry 10. -/
def Obligations.UnknownProductsAreRefused : Prop :=
  (∀ (s : State) (b : List Byte) (f : ImageFacts) (x : Section × List Byte) (l r : ProdSide) (tr : Bool) (heads : Nat), x ∈ modelSections b →
    GraphNode.product l r tr heads ∈ (if x.1.stage = 9 then f.encoder else f.scorer).nodes → productPair (sideFmt l) (sideFmt r) = false →
    s.imageStatus b f = 0x100) ∧
  (∀ l r : NumFmt, productPair l r = true →
    ((l = .int8 ∨ l = .int4) ↔ (r = .int8 ∨ r = .int4)) ∧ (l = .bf16 ↔ r = .bf16) ∧ productPair r l = true)

/-- The exact sum of a block of at most 32 products of integer operands, be they converted activations or weight codes, is an integer of
magnitude at most 2^19 (R160). -/
def Obligations.IntegerBlocksAreSmall : Prop :=
  let whole (a : ProdRow) : Prop :=
    (∃ scale xs, a = activationRow .int8 scale xs ∨ a = activationRow .int4 scale xs) ∨ (∃ codes, a = weightRow .int8 codes [] ∨ a = weightRow .int4 codes [])
  ∀ a b : ProdRow, whole a → whole b → a.vals.length ≤ 32 →
    ∃ v : Int, blockSum a.vals b.vals = .fin (decide (v < 0)) v.natAbs 0 ∧ v.natAbs ≤ 2 ^ 19

/-- The header's fields lie at the offsets of R83; plane word p of the entry in slot s lies in block s div 64 at p × 512 + (s mod 64) × 8, its
attribute word behind the planes (R84); a delta's stamps and a segment's delete marks follow the blocks in slot and mark order (R85); the key
column gives slot s at 8 s (R117); the image is as long as the object's size counts. Block 0 starts 512 bytes behind the header: log entry 81. -/
def Obligations.SegmentImagesFollowTheLayout : Prop :=
  ∀ (l : ListData) (v : Version) (g : Segment),
    let b := segmentBytes l v g
    b.length = sketchSegBytes g (widthBits v.width) ∧
    field b 0 2 = (if g.isBase then 1 else 2) ∧ field b 2 1 = v.width % 2 ^ 8 ∧ field b 3 1 = g.gen % 2 ^ 8 ∧ field b 4 4 = l.listId % 2 ^ 20 ∧
    field b 8 4 = g.items.length % 2 ^ 32 ∧ field b 12 4 = g.marks.length % 2 ^ 32 ∧ field b 16 8 = g.validFrom % 2 ^ 64 ∧
    field b 24 8 = (g.validUntil.getD 0xFFFFFFFFFFFFFFFF) % 2 ^ 64 ∧ field b 32 8 = blocksOffset ∧ field b 40 8 = stampsOffset v g % 2 ^ 64 ∧
    field b 48 8 = marksOffset v g % 2 ^ 64 ∧ field b 56 1 = g.segIndex % 2 ^ 8 ∧ field b 57 7 = 0 ∧
    (∀ (s : Nat) (i : Item), g.items[s]? = some i →
      (∀ p, p < planes v → field b (blocksOffset + s / 64 * blockSize v + p * 512 + s % 64 * 8) 8 = i.sketch >>> (64 * p) % 2 ^ 64) ∧
      field b (blocksOffset + s / 64 * blockSize v + planes v * 512 + s % 64 * 8) 8 = i.attr % 2 ^ 64 ∧
      (g.isBase = false → field b (stampsOffset v g + 8 * s) 8 = i.insert % 2 ^ 64) ∧
      field (keyColumn g) (8 * s) 8 = i.key % 2 ^ 64) ∧
    (∀ (n : Nat) (m : Mark), g.marks[n]? = some m → g.isBase = false →
      field b (marksOffset v g + 16 * n) 1 = m.seg % 2 ^ 8 ∧ field b (marksOffset v g + 16 * n + 4) 4 = m.slot % 2 ^ 32 ∧
      field b (marksOffset v g + 16 * n + 8) 8 = m.epoch % 2 ^ 64)

/-- The location word of an entry gives back home, handle, generations and state (R103); the successor word both successors with their
generations, its top bit set where there is a second one (R105); the load word the two counts (R104); an edge word the target, its tag and the
valid bit (R106); an entry has 48 bytes, its edges 128 and a candidate record 16 (R99, R102). -/
def Obligations.DirectoryWordsCarryTheirFields : Prop :=
  (∀ e : DirEntry, let w := locationWord e
    bits w 11 0 = e.home % 2 ^ 12 ∧ bits w 39 12 = e.handle % 2 ^ 28 ∧ bits w 47 40 = e.entryGen % 256 ∧ bits w 55 48 = e.projGen % 256 ∧
    bits w 57 56 = e.state % 4 ∧ bits w 63 58 = 0) ∧
  (∀ e : DirEntry, let w := succWord e
    bits w 19 0 = e.succA % 2 ^ 20 ∧ bits w 27 20 = e.succAGen % 256 ∧ bits w 62 56 = 0 ∧ (bits w 63 63 = 1 ↔ e.succB.isSome = true) ∧
    (∀ b g, e.succB = some (b, g) → bits w 47 28 = b % 2 ^ 20 ∧ bits w 55 48 = g % 256)) ∧
  (∀ (s : State) (p list : Nat) (e : DirEntry), let w := s.loadWord p list e
    bits w 31 0 = s.counter (probesKey p list) % 2 ^ 32 ∧ bits w 63 32 = e.items % 2 ^ 32) ∧
  (∀ t : Nat × Nat, let w := edgeWord t; bits w 19 0 = t.1 % 2 ^ 20 ∧ bits w 27 20 = t.2 % 256 ∧ bits w 30 28 = 0 ∧ bits w 31 31 = 1) ∧
  (∀ (s : State) (p list : Nat) (e : DirEntry), (s.entryBytes p list e).length = 48 ∧ (edgeBytes e).length = 128) ∧
  (∀ (s : State) (c : Cand), (s.candBytes c).length = 16)

/-- The n-th word of a region stands in one of its banks, the bank after the last word's, in ascending order; every place of the region is
one word's, and no two words share a place (R264). -/
def Obligations.RegionWordsRotate : Prop :=
  ∀ b, b < 32 → let r := regionOf b
    (r.1 ≤ b ∧ b < r.1 + r.2 ∧ r.1 + r.2 ≤ 32) ∧
    (∀ n, n < 2048 * r.2 → r.1 ≤ (regionWord r n).1 ∧ (regionWord r n).1 < r.1 + r.2 ∧ (regionWord r n).2 < 2048 ∧ regionOf (regionWord r n).1 = r) ∧
    (∀ n, (regionWord r (n + 1)).1 = (if (regionWord r n).1 + 1 = r.1 + r.2 then r.1 else (regionWord r n).1 + 1)) ∧
    (∀ m n, regionWord r m = regionWord r n → m = n) ∧
    (∀ w, w < 2048 → ∃ n, n < 2048 * r.2 ∧ regionWord r n = (b, w))

/-- A page's header is 128 bytes, its last word the CRC-32C of the others, its first bytes KIND, stream and row (R288); its second copy repeats it
but in a parity page (R288); a journal record is 32 bytes with its fields in place (R293). -/
def Obligations.FlashHeadersFollowTheLayout : Prop :=
  (∀ (s : State) (key : Nat) (p : FlashPage), let h := s.pageHeader key p
    h.length = 128 ∧ field h 124 4 = crc32c (h.take 124) % 2 ^ 32 ∧ field h 0 1 = pageKind p ∧ field h 1 1 = p.stream % 2 ^ 8 ∧
    field h 2 1 = (keyParts key).1 % 2 ^ 8 ∧ field h 4 2 = (keyParts key).2.1 % 2 ^ 16 ∧ field h 6 2 = (keyParts key).2.2.1 % 2 ^ 16 ∧
    (p.parity = false → s.pageHeader2 key p = h)) ∧
  (∀ j : JournalRec, let b := journalBytes j
    b.length = 32 ∧ field b 0 1 = j.ty % 2 ^ 8 ∧ field b 1 1 = j.row % 2 ^ 8 ∧ field b 2 2 = j.sb % 2 ^ 16 ∧ field b 4 4 = j.argA % 2 ^ 32 ∧
    field b 8 8 = j.seq % 2 ^ 64 ∧ field b 16 8 = j.argB % 2 ^ 64 ∧ field b 24 8 = j.argC % 2 ^ 64)
end

