-- ==== Sys2Proof/Laws/Memory.lean ====
section
/-! SUPPORT. The laws of the staging SRAM's bytes: a read after a write, and the canonical form that every operation keeps. -/
namespace Sys2Proof.Machine

/-- A memory in canonical form from `lo` on is in canonical form from any lower address on. -/
theorem memWf_nil : memWf [] = true := rfl

theorem memFrom_mono {lo hi : Nat} {m : List Host.Cell} (hl : lo ≤ hi) (h : memFrom hi m = true) : memFrom lo m = true := by
  cases m with
  | nil => rfl
  | cons c cs =>
    simp only [memFrom, Bool.and_eq_true, decide_eq_true_eq] at h ⊢
    exact ⟨⟨Nat.le_trans hl h.1.1, h.1.2⟩, h.2⟩

/-- Every cell of a canonical memory lies at or above its bound. -/
theorem readByte_below {lo a : Nat} {m : List Host.Cell} (h : memFrom lo m = true) (ha : a < lo) : readByte m a = emptyByte := by
  induction m generalizing lo with
  | nil => rfl
  | cons c cs ih =>
    simp only [memFrom, Bool.and_eq_true, decide_eq_true_eq] at h
    rw [readByte, if_neg (by omega)]
    exact ih h.2 (by omega)

theorem writeByte_memFrom {lo a : Nat} {m : List Host.Cell} (v : Byte) (h : memFrom lo m = true) (ha : lo ≤ a) :
    memFrom lo (writeByte m a v) = true := by
  induction m generalizing lo with
  | nil =>
    unfold writeByte
    split
    · rfl
    · simp_all [memFrom]
  | cons c cs ih =>
    have h0 := h
    simp only [memFrom, Bool.and_eq_true, decide_eq_true_eq] at h
    unfold writeByte
    split
    · simp only [memFrom, Bool.and_eq_true, decide_eq_true_eq]
      exact ⟨h.1, ih h.2 (by omega)⟩
    · split
      · split
        · exact memFrom_mono (by omega) h.2
        · rename_i e _
          simp only [memFrom, Bool.and_eq_true, decide_eq_true_eq]
          exact ⟨⟨ha, by assumption⟩, by rw [← e]; exact h.2⟩
      · split
        · exact h0
        · simp only [memFrom, Bool.and_eq_true, decide_eq_true_eq]
          exact ⟨⟨ha, by assumption⟩, ⟨by omega, h.1.2⟩, h.2⟩

/-- A write keeps the canonical form. -/
theorem writeByte_memWf {m : List Host.Cell} (a : Nat) (v : Byte) (h : memWf m = true) : memWf (writeByte m a v) = true :=
  writeByte_memFrom v h (Nat.zero_le a)

theorem writeMem_memWf {m : List Host.Cell} (a : Nat) (bs : List Byte) (h : memWf m = true) : memWf (writeMem m a bs) = true := by
  induction bs generalizing m a with
  | nil => exact h
  | cons b bs ih => exact ih (a + 1) (writeByte_memWf a b h)

theorem filter_memFrom {lo : Nat} {m : List Host.Cell} (p : Host.Cell → Bool) (h : memFrom lo m = true) : memFrom lo (m.filter p) = true := by
  induction m generalizing lo with
  | nil => rfl
  | cons c cs ih =>
    simp only [memFrom, Bool.and_eq_true, decide_eq_true_eq] at h
    rw [List.filter_cons]
    split
    · simp only [memFrom, Bool.and_eq_true, decide_eq_true_eq]
      exact ⟨h.1, ih h.2⟩
    · exact memFrom_mono (by omega) (ih h.2)

theorem clearMem_memWf {m : List Host.Cell} (lo hi : Nat) (h : memWf m = true) : memWf (clearMem m lo hi) = true := filter_memFrom _ h

/-- A read of the byte written gives it; every other address reads as before. -/
theorem readByte_writeByte {lo : Nat} {m : List Host.Cell} (a : Nat) (v : Byte) (h : memFrom lo m = true) (x : Nat) :
    readByte (writeByte m a v) x = if x = a then v else readByte m x := by
  induction m generalizing lo with
  | nil =>
    unfold writeByte
    split
    · simp_all [readByte]
    · by_cases hx : x = a
      · rw [if_pos hx, readByte, if_pos hx.symm]
      · simp only [readByte]
        rw [if_neg (Ne.symm hx), if_neg hx]
  | cons c cs ih =>
    simp only [memFrom, Bool.and_eq_true, decide_eq_true_eq] at h
    have hb : x ≤ c.1 → readByte cs x = emptyByte := fun hx => readByte_below h.2 (by omega)
    unfold writeByte
    split
    · simp only [readByte, ih h.2]
      by_cases hx : x = a
      · rw [if_pos hx, if_neg (by omega), if_pos hx]
      · rw [if_neg hx, if_neg hx]
    · split
      · split
        · by_cases hx : x = a
          · rw [if_pos hx, hb (by omega)]; simp_all
          · rw [if_neg hx, readByte, if_neg (by omega)]
        · simp only [readByte]
          by_cases hx : x = a
          · rw [if_pos hx, if_pos hx.symm]
          · rw [if_neg hx, if_neg (by omega), if_neg (by omega)]
      · split
        · by_cases hx : x = a
          · rw [if_pos hx, readByte, if_neg (by omega), hb (by omega)]; simp_all
          · rw [if_neg hx]
        · by_cases hx : x = a
          · rw [readByte, if_pos hx.symm, if_pos hx]
          · rw [readByte, if_neg (fun e => hx e.symm), if_neg hx]

/-- Bytes outside those written read as before. -/
theorem readByte_writeMem_other {m : List Host.Cell} (a : Nat) (bs : List Byte) (h : memWf m = true) (x : Nat) (hx : x < a ∨ a + bs.length ≤ x) :
    readByte (writeMem m a bs) x = readByte m x := by
  induction bs generalizing m a with
  | nil => rfl
  | cons b bs ih =>
    simp only [List.length_cons] at hx
    rw [writeMem, ih (a + 1) (writeByte_memWf a b h) (by omega), readByte_writeByte a b h, if_neg (by omega)]

/-- The bytes written read as written. -/
theorem readByte_writeMem {m : List Host.Cell} (a : Nat) (bs : List Byte) (h : memWf m = true) (i : Nat) (hi : i < bs.length) :
    readByte (writeMem m a bs) (a + i) = bs[i] := by
  induction bs generalizing m a i with
  | nil => exact absurd hi (Nat.not_lt_zero _)
  | cons b bs ih =>
    rw [writeMem]
    cases i with
    | zero => rw [readByte_writeMem_other _ _ (writeByte_memWf a b h) _ (by omega), readByte_writeByte a b h, if_pos (Nat.add_zero a)]; rfl
    | succ i =>
      have := ih (a + 1) (writeByte_memWf a b h) i (by simpa using hi)
      rw [show a + (i + 1) = a + 1 + i by omega, this]
      rfl

end Sys2Proof.Machine
end

