-- ==== Sys2Proof/Laws/State.lean ====
section
/-! SUPPORT. What the shared updates of State change and what they leave: one lemma per field per update, so that no proof unfolds a
record update or the event log. -/
namespace Sys2Proof.Machine

/-! ## Updates of one field -/

@[simp] theorem State.emit_time (s : State) (o : Output) : (s.emit o).time = s.time := rfl
@[simp] theorem State.emit_pipe (s : State) (o : Output) : (s.emit o).pipe = s.pipe := rfl
@[simp] theorem State.emit_corpus (s : State) (o : Output) : (s.emit o).corpus = s.corpus := rfl
@[simp] theorem State.emit_epochs (s : State) (o : Output) : (s.emit o).epochs = s.epochs := rfl
@[simp] theorem State.emit_catalog (s : State) (o : Output) : (s.emit o).catalog = s.catalog := rfl
@[simp] theorem State.emit_maint (s : State) (o : Output) : (s.emit o).maint = s.maint := rfl
@[simp] theorem State.emit_receipts (s : State) (o : Output) : (s.emit o).receipts = s.receipts := rfl
@[simp] theorem State.emit_images (s : State) (o : Output) : (s.emit o).images = s.images := rfl
@[simp] theorem State.emit_installs (s : State) (o : Output) : (s.emit o).installs = s.installs := rfl
@[simp] theorem State.emit_tenants (s : State) (o : Output) : (s.emit o).tenants = s.tenants := rfl
@[simp] theorem State.emit_host (s : State) (o : Output) : (s.emit o).host = s.host := rfl
@[simp] theorem State.emit_dict (s : State) (o : Output) : (s.emit o).dict = s.dict := rfl
@[simp] theorem State.emit_counters (s : State) (o : Output) : (s.emit o).counters = s.counters := rfl
@[simp] theorem State.emit_log (s : State) (o : Output) : (s.emit o).log = s.log := rfl
@[simp] theorem State.emit_mbx (s : State) (o : Output) : (s.emit o).mbx = s.mbx := rfl
@[simp] theorem State.emit_mgmt (s : State) (o : Output) : (s.emit o).mgmt = s.mgmt := rfl
@[simp] theorem State.emit_sensors (s : State) (o : Output) : (s.emit o).sensors = s.sensors := rfl
@[simp] theorem State.emit_tiers (s : State) (o : Output) : (s.emit o).tiers = s.tiers := rfl
@[simp] theorem State.emit_staging (s : State) (o : Output) : (s.emit o).staging = s.staging := rfl
@[simp] theorem State.emit_flash (s : State) (o : Output) : (s.emit o).flash = s.flash := rfl
@[simp] theorem State.emit_fabric (s : State) (o : Output) : (s.emit o).fabric = s.fabric := rfl
@[simp] theorem State.emit_exchange (s : State) (o : Output) : (s.emit o).exchange = s.exchange := rfl
@[simp] theorem State.emit_power (s : State) (o : Output) : (s.emit o).power = s.power := rfl
@[simp] theorem State.emit_repair (s : State) (o : Output) : (s.emit o).repair = s.repair := rfl
@[simp] theorem State.emit_pins (s : State) (o : Output) : (s.emit o).pins = s.pins := rfl
@[simp] theorem State.emit_freeCount (s : State) (o : Output) : (s.emit o).freeCount = s.freeCount := rfl
@[simp] theorem State.emit_pending (s : State) (o : Output) : (s.emit o).pending = s.pending := rfl
@[simp] theorem State.emit_out (s : State) (o : Output) : (s.emit o).out = s.out ++ [o] := rfl

@[simp] theorem State.setFn_time (s : State) (fn : Nat) (f : FnState) : (s.setFn fn f).time = s.time := rfl
@[simp] theorem State.setFn_pipe (s : State) (fn : Nat) (f : FnState) : (s.setFn fn f).pipe = s.pipe := rfl
@[simp] theorem State.setFn_corpus (s : State) (fn : Nat) (f : FnState) : (s.setFn fn f).corpus = s.corpus := rfl
@[simp] theorem State.setFn_epochs (s : State) (fn : Nat) (f : FnState) : (s.setFn fn f).epochs = s.epochs := rfl
@[simp] theorem State.setFn_catalog (s : State) (fn : Nat) (f : FnState) : (s.setFn fn f).catalog = s.catalog := rfl
@[simp] theorem State.setFn_maint (s : State) (fn : Nat) (f : FnState) : (s.setFn fn f).maint = s.maint := rfl
@[simp] theorem State.setFn_receipts (s : State) (fn : Nat) (f : FnState) : (s.setFn fn f).receipts = s.receipts := rfl
@[simp] theorem State.setFn_images (s : State) (fn : Nat) (f : FnState) : (s.setFn fn f).images = s.images := rfl
@[simp] theorem State.setFn_installs (s : State) (fn : Nat) (f : FnState) : (s.setFn fn f).installs = s.installs := rfl
@[simp] theorem State.setFn_tenants (s : State) (fn : Nat) (f : FnState) : (s.setFn fn f).tenants = s.tenants := rfl
@[simp] theorem State.setFn_dict (s : State) (fn : Nat) (f : FnState) : (s.setFn fn f).dict = s.dict := rfl
@[simp] theorem State.setFn_counters (s : State) (fn : Nat) (f : FnState) : (s.setFn fn f).counters = s.counters := rfl
@[simp] theorem State.setFn_log (s : State) (fn : Nat) (f : FnState) : (s.setFn fn f).log = s.log := rfl
@[simp] theorem State.setFn_mbx (s : State) (fn : Nat) (f : FnState) : (s.setFn fn f).mbx = s.mbx := rfl
@[simp] theorem State.setFn_mgmt (s : State) (fn : Nat) (f : FnState) : (s.setFn fn f).mgmt = s.mgmt := rfl
@[simp] theorem State.setFn_sensors (s : State) (fn : Nat) (f : FnState) : (s.setFn fn f).sensors = s.sensors := rfl
@[simp] theorem State.setFn_tiers (s : State) (fn : Nat) (f : FnState) : (s.setFn fn f).tiers = s.tiers := rfl
@[simp] theorem State.setFn_staging (s : State) (fn : Nat) (f : FnState) : (s.setFn fn f).staging = s.staging := rfl
@[simp] theorem State.setFn_flash (s : State) (fn : Nat) (f : FnState) : (s.setFn fn f).flash = s.flash := rfl
@[simp] theorem State.setFn_fabric (s : State) (fn : Nat) (f : FnState) : (s.setFn fn f).fabric = s.fabric := rfl
@[simp] theorem State.setFn_exchange (s : State) (fn : Nat) (f : FnState) : (s.setFn fn f).exchange = s.exchange := rfl
@[simp] theorem State.setFn_power (s : State) (fn : Nat) (f : FnState) : (s.setFn fn f).power = s.power := rfl
@[simp] theorem State.setFn_repair (s : State) (fn : Nat) (f : FnState) : (s.setFn fn f).repair = s.repair := rfl
@[simp] theorem State.setFn_pins (s : State) (fn : Nat) (f : FnState) : (s.setFn fn f).pins = s.pins := rfl
@[simp] theorem State.setFn_freeCount (s : State) (fn : Nat) (f : FnState) : (s.setFn fn f).freeCount = s.freeCount := rfl
@[simp] theorem State.setFn_out (s : State) (fn : Nat) (f : FnState) : (s.setFn fn f).out = s.out := rfl
@[simp] theorem State.setFn_pending (s : State) (fn : Nat) (f : FnState) : (s.setFn fn f).pending = s.pending := rfl
@[simp] theorem State.setFn_host (s : State) (fn : Nat) (f : FnState) : (s.setFn fn f).host = { s.host with fns := s.host.fns.set fn f } := rfl

@[simp] theorem State.updFn_time (s : State) (fn : Nat) (g : FnState → FnState) : (s.updFn fn g).time = s.time := rfl
@[simp] theorem State.updFn_pipe (s : State) (fn : Nat) (g : FnState → FnState) : (s.updFn fn g).pipe = s.pipe := rfl
@[simp] theorem State.updFn_corpus (s : State) (fn : Nat) (g : FnState → FnState) : (s.updFn fn g).corpus = s.corpus := rfl
@[simp] theorem State.updFn_epochs (s : State) (fn : Nat) (g : FnState → FnState) : (s.updFn fn g).epochs = s.epochs := rfl
@[simp] theorem State.updFn_catalog (s : State) (fn : Nat) (g : FnState → FnState) : (s.updFn fn g).catalog = s.catalog := rfl
@[simp] theorem State.updFn_maint (s : State) (fn : Nat) (g : FnState → FnState) : (s.updFn fn g).maint = s.maint := rfl
@[simp] theorem State.updFn_receipts (s : State) (fn : Nat) (g : FnState → FnState) : (s.updFn fn g).receipts = s.receipts := rfl
@[simp] theorem State.updFn_images (s : State) (fn : Nat) (g : FnState → FnState) : (s.updFn fn g).images = s.images := rfl
@[simp] theorem State.updFn_installs (s : State) (fn : Nat) (g : FnState → FnState) : (s.updFn fn g).installs = s.installs := rfl
@[simp] theorem State.updFn_tenants (s : State) (fn : Nat) (g : FnState → FnState) : (s.updFn fn g).tenants = s.tenants := rfl
@[simp] theorem State.updFn_dict (s : State) (fn : Nat) (g : FnState → FnState) : (s.updFn fn g).dict = s.dict := rfl
@[simp] theorem State.updFn_counters (s : State) (fn : Nat) (g : FnState → FnState) : (s.updFn fn g).counters = s.counters := rfl
@[simp] theorem State.updFn_log (s : State) (fn : Nat) (g : FnState → FnState) : (s.updFn fn g).log = s.log := rfl
@[simp] theorem State.updFn_mbx (s : State) (fn : Nat) (g : FnState → FnState) : (s.updFn fn g).mbx = s.mbx := rfl
@[simp] theorem State.updFn_mgmt (s : State) (fn : Nat) (g : FnState → FnState) : (s.updFn fn g).mgmt = s.mgmt := rfl
@[simp] theorem State.updFn_sensors (s : State) (fn : Nat) (g : FnState → FnState) : (s.updFn fn g).sensors = s.sensors := rfl
@[simp] theorem State.updFn_tiers (s : State) (fn : Nat) (g : FnState → FnState) : (s.updFn fn g).tiers = s.tiers := rfl
@[simp] theorem State.updFn_staging (s : State) (fn : Nat) (g : FnState → FnState) : (s.updFn fn g).staging = s.staging := rfl
@[simp] theorem State.updFn_flash (s : State) (fn : Nat) (g : FnState → FnState) : (s.updFn fn g).flash = s.flash := rfl
@[simp] theorem State.updFn_fabric (s : State) (fn : Nat) (g : FnState → FnState) : (s.updFn fn g).fabric = s.fabric := rfl
@[simp] theorem State.updFn_exchange (s : State) (fn : Nat) (g : FnState → FnState) : (s.updFn fn g).exchange = s.exchange := rfl
@[simp] theorem State.updFn_power (s : State) (fn : Nat) (g : FnState → FnState) : (s.updFn fn g).power = s.power := rfl
@[simp] theorem State.updFn_repair (s : State) (fn : Nat) (g : FnState → FnState) : (s.updFn fn g).repair = s.repair := rfl
@[simp] theorem State.updFn_pins (s : State) (fn : Nat) (g : FnState → FnState) : (s.updFn fn g).pins = s.pins := rfl
@[simp] theorem State.updFn_freeCount (s : State) (fn : Nat) (g : FnState → FnState) : (s.updFn fn g).freeCount = s.freeCount := rfl
@[simp] theorem State.updFn_out (s : State) (fn : Nat) (g : FnState → FnState) : (s.updFn fn g).out = s.out := rfl
@[simp] theorem State.updFn_pending (s : State) (fn : Nat) (g : FnState → FnState) : (s.updFn fn g).pending = s.pending := rfl
@[simp] theorem State.updFn_host (s : State) (fn : Nat) (g : FnState → FnState) : (s.updFn fn g).host = { s.host with fns := s.host.fns.set fn (g (s.fnState fn)) } := rfl

@[simp] theorem State.setQuery_time (s : State) (q : Nat) (x : Query) : (s.setQuery q x).time = s.time := rfl
@[simp] theorem State.setQuery_corpus (s : State) (q : Nat) (x : Query) : (s.setQuery q x).corpus = s.corpus := rfl
@[simp] theorem State.setQuery_epochs (s : State) (q : Nat) (x : Query) : (s.setQuery q x).epochs = s.epochs := rfl
@[simp] theorem State.setQuery_catalog (s : State) (q : Nat) (x : Query) : (s.setQuery q x).catalog = s.catalog := rfl
@[simp] theorem State.setQuery_maint (s : State) (q : Nat) (x : Query) : (s.setQuery q x).maint = s.maint := rfl
@[simp] theorem State.setQuery_receipts (s : State) (q : Nat) (x : Query) : (s.setQuery q x).receipts = s.receipts := rfl
@[simp] theorem State.setQuery_images (s : State) (q : Nat) (x : Query) : (s.setQuery q x).images = s.images := rfl
@[simp] theorem State.setQuery_installs (s : State) (q : Nat) (x : Query) : (s.setQuery q x).installs = s.installs := rfl
@[simp] theorem State.setQuery_tenants (s : State) (q : Nat) (x : Query) : (s.setQuery q x).tenants = s.tenants := rfl
@[simp] theorem State.setQuery_host (s : State) (q : Nat) (x : Query) : (s.setQuery q x).host = s.host := rfl
@[simp] theorem State.setQuery_dict (s : State) (q : Nat) (x : Query) : (s.setQuery q x).dict = s.dict := rfl
@[simp] theorem State.setQuery_counters (s : State) (q : Nat) (x : Query) : (s.setQuery q x).counters = s.counters := rfl
@[simp] theorem State.setQuery_log (s : State) (q : Nat) (x : Query) : (s.setQuery q x).log = s.log := rfl
@[simp] theorem State.setQuery_mbx (s : State) (q : Nat) (x : Query) : (s.setQuery q x).mbx = s.mbx := rfl
@[simp] theorem State.setQuery_mgmt (s : State) (q : Nat) (x : Query) : (s.setQuery q x).mgmt = s.mgmt := rfl
@[simp] theorem State.setQuery_sensors (s : State) (q : Nat) (x : Query) : (s.setQuery q x).sensors = s.sensors := rfl
@[simp] theorem State.setQuery_tiers (s : State) (q : Nat) (x : Query) : (s.setQuery q x).tiers = s.tiers := rfl
@[simp] theorem State.setQuery_staging (s : State) (q : Nat) (x : Query) : (s.setQuery q x).staging = s.staging := rfl
@[simp] theorem State.setQuery_flash (s : State) (q : Nat) (x : Query) : (s.setQuery q x).flash = s.flash := rfl
@[simp] theorem State.setQuery_fabric (s : State) (q : Nat) (x : Query) : (s.setQuery q x).fabric = s.fabric := rfl
@[simp] theorem State.setQuery_exchange (s : State) (q : Nat) (x : Query) : (s.setQuery q x).exchange = s.exchange := rfl
@[simp] theorem State.setQuery_power (s : State) (q : Nat) (x : Query) : (s.setQuery q x).power = s.power := rfl
@[simp] theorem State.setQuery_repair (s : State) (q : Nat) (x : Query) : (s.setQuery q x).repair = s.repair := rfl
@[simp] theorem State.setQuery_pins (s : State) (q : Nat) (x : Query) : (s.setQuery q x).pins = s.pins := rfl
@[simp] theorem State.setQuery_freeCount (s : State) (q : Nat) (x : Query) : (s.setQuery q x).freeCount = s.freeCount := rfl
@[simp] theorem State.setQuery_out (s : State) (q : Nat) (x : Query) : (s.setQuery q x).out = s.out := rfl
@[simp] theorem State.setQuery_pending (s : State) (q : Nat) (x : Query) : (s.setQuery q x).pending = s.pending := rfl
@[simp] theorem State.setQuery_pipe (s : State) (q : Nat) (x : Query) : (s.setQuery q x).pipe = { s.pipe with queries := s.pipe.queries.set q x } := rfl

@[simp] theorem State.setBatch_time (s : State) (b : Nat) (x : Batch) : (s.setBatch b x).time = s.time := rfl
@[simp] theorem State.setBatch_corpus (s : State) (b : Nat) (x : Batch) : (s.setBatch b x).corpus = s.corpus := rfl
@[simp] theorem State.setBatch_epochs (s : State) (b : Nat) (x : Batch) : (s.setBatch b x).epochs = s.epochs := rfl
@[simp] theorem State.setBatch_catalog (s : State) (b : Nat) (x : Batch) : (s.setBatch b x).catalog = s.catalog := rfl
@[simp] theorem State.setBatch_maint (s : State) (b : Nat) (x : Batch) : (s.setBatch b x).maint = s.maint := rfl
@[simp] theorem State.setBatch_receipts (s : State) (b : Nat) (x : Batch) : (s.setBatch b x).receipts = s.receipts := rfl
@[simp] theorem State.setBatch_images (s : State) (b : Nat) (x : Batch) : (s.setBatch b x).images = s.images := rfl
@[simp] theorem State.setBatch_installs (s : State) (b : Nat) (x : Batch) : (s.setBatch b x).installs = s.installs := rfl
@[simp] theorem State.setBatch_tenants (s : State) (b : Nat) (x : Batch) : (s.setBatch b x).tenants = s.tenants := rfl
@[simp] theorem State.setBatch_host (s : State) (b : Nat) (x : Batch) : (s.setBatch b x).host = s.host := rfl
@[simp] theorem State.setBatch_dict (s : State) (b : Nat) (x : Batch) : (s.setBatch b x).dict = s.dict := rfl
@[simp] theorem State.setBatch_counters (s : State) (b : Nat) (x : Batch) : (s.setBatch b x).counters = s.counters := rfl
@[simp] theorem State.setBatch_log (s : State) (b : Nat) (x : Batch) : (s.setBatch b x).log = s.log := rfl
@[simp] theorem State.setBatch_mbx (s : State) (b : Nat) (x : Batch) : (s.setBatch b x).mbx = s.mbx := rfl
@[simp] theorem State.setBatch_mgmt (s : State) (b : Nat) (x : Batch) : (s.setBatch b x).mgmt = s.mgmt := rfl
@[simp] theorem State.setBatch_sensors (s : State) (b : Nat) (x : Batch) : (s.setBatch b x).sensors = s.sensors := rfl
@[simp] theorem State.setBatch_tiers (s : State) (b : Nat) (x : Batch) : (s.setBatch b x).tiers = s.tiers := rfl
@[simp] theorem State.setBatch_staging (s : State) (b : Nat) (x : Batch) : (s.setBatch b x).staging = s.staging := rfl
@[simp] theorem State.setBatch_flash (s : State) (b : Nat) (x : Batch) : (s.setBatch b x).flash = s.flash := rfl
@[simp] theorem State.setBatch_fabric (s : State) (b : Nat) (x : Batch) : (s.setBatch b x).fabric = s.fabric := rfl
@[simp] theorem State.setBatch_exchange (s : State) (b : Nat) (x : Batch) : (s.setBatch b x).exchange = s.exchange := rfl
@[simp] theorem State.setBatch_power (s : State) (b : Nat) (x : Batch) : (s.setBatch b x).power = s.power := rfl
@[simp] theorem State.setBatch_repair (s : State) (b : Nat) (x : Batch) : (s.setBatch b x).repair = s.repair := rfl
@[simp] theorem State.setBatch_pins (s : State) (b : Nat) (x : Batch) : (s.setBatch b x).pins = s.pins := rfl
@[simp] theorem State.setBatch_freeCount (s : State) (b : Nat) (x : Batch) : (s.setBatch b x).freeCount = s.freeCount := rfl
@[simp] theorem State.setBatch_out (s : State) (b : Nat) (x : Batch) : (s.setBatch b x).out = s.out := rfl
@[simp] theorem State.setBatch_pending (s : State) (b : Nat) (x : Batch) : (s.setBatch b x).pending = s.pending := rfl
@[simp] theorem State.setBatch_pipe (s : State) (b : Nat) (x : Batch) : (s.setBatch b x).pipe = { s.pipe with batches := s.pipe.batches.set b x } := rfl

@[simp] theorem State.setList_time (s : State) (h : Nat) (x : ListData) : (s.setList h x).time = s.time := rfl
@[simp] theorem State.setList_pipe (s : State) (h : Nat) (x : ListData) : (s.setList h x).pipe = s.pipe := rfl
@[simp] theorem State.setList_epochs (s : State) (h : Nat) (x : ListData) : (s.setList h x).epochs = s.epochs := rfl
@[simp] theorem State.setList_catalog (s : State) (h : Nat) (x : ListData) : (s.setList h x).catalog = s.catalog := rfl
@[simp] theorem State.setList_maint (s : State) (h : Nat) (x : ListData) : (s.setList h x).maint = s.maint := rfl
@[simp] theorem State.setList_receipts (s : State) (h : Nat) (x : ListData) : (s.setList h x).receipts = s.receipts := rfl
@[simp] theorem State.setList_images (s : State) (h : Nat) (x : ListData) : (s.setList h x).images = s.images := rfl
@[simp] theorem State.setList_installs (s : State) (h : Nat) (x : ListData) : (s.setList h x).installs = s.installs := rfl
@[simp] theorem State.setList_tenants (s : State) (h : Nat) (x : ListData) : (s.setList h x).tenants = s.tenants := rfl
@[simp] theorem State.setList_host (s : State) (h : Nat) (x : ListData) : (s.setList h x).host = s.host := rfl
@[simp] theorem State.setList_dict (s : State) (h : Nat) (x : ListData) : (s.setList h x).dict = s.dict := rfl
@[simp] theorem State.setList_counters (s : State) (h : Nat) (x : ListData) : (s.setList h x).counters = s.counters := rfl
@[simp] theorem State.setList_log (s : State) (h : Nat) (x : ListData) : (s.setList h x).log = s.log := rfl
@[simp] theorem State.setList_mbx (s : State) (h : Nat) (x : ListData) : (s.setList h x).mbx = s.mbx := rfl
@[simp] theorem State.setList_mgmt (s : State) (h : Nat) (x : ListData) : (s.setList h x).mgmt = s.mgmt := rfl
@[simp] theorem State.setList_sensors (s : State) (h : Nat) (x : ListData) : (s.setList h x).sensors = s.sensors := rfl
@[simp] theorem State.setList_tiers (s : State) (h : Nat) (x : ListData) : (s.setList h x).tiers = s.tiers := rfl
@[simp] theorem State.setList_staging (s : State) (h : Nat) (x : ListData) : (s.setList h x).staging = s.staging := rfl
@[simp] theorem State.setList_flash (s : State) (h : Nat) (x : ListData) : (s.setList h x).flash = s.flash := rfl
@[simp] theorem State.setList_fabric (s : State) (h : Nat) (x : ListData) : (s.setList h x).fabric = s.fabric := rfl
@[simp] theorem State.setList_exchange (s : State) (h : Nat) (x : ListData) : (s.setList h x).exchange = s.exchange := rfl
@[simp] theorem State.setList_power (s : State) (h : Nat) (x : ListData) : (s.setList h x).power = s.power := rfl
@[simp] theorem State.setList_repair (s : State) (h : Nat) (x : ListData) : (s.setList h x).repair = s.repair := rfl
@[simp] theorem State.setList_pins (s : State) (h : Nat) (x : ListData) : (s.setList h x).pins = s.pins := rfl
@[simp] theorem State.setList_freeCount (s : State) (h : Nat) (x : ListData) : (s.setList h x).freeCount = s.freeCount := rfl
@[simp] theorem State.setList_out (s : State) (h : Nat) (x : ListData) : (s.setList h x).out = s.out := rfl
@[simp] theorem State.setList_pending (s : State) (h : Nat) (x : ListData) : (s.setList h x).pending = s.pending := rfl
@[simp] theorem State.setList_corpus (s : State) (h : Nat) (x : ListData) : (s.setList h x).corpus = { s.corpus with lists := s.corpus.lists.set h x } := rfl

@[simp] theorem State.setPort_time (s : State) (p : Nat) (x : Port) : (s.setPort p x).time = s.time := rfl
@[simp] theorem State.setPort_pipe (s : State) (p : Nat) (x : Port) : (s.setPort p x).pipe = s.pipe := rfl
@[simp] theorem State.setPort_corpus (s : State) (p : Nat) (x : Port) : (s.setPort p x).corpus = s.corpus := rfl
@[simp] theorem State.setPort_epochs (s : State) (p : Nat) (x : Port) : (s.setPort p x).epochs = s.epochs := rfl
@[simp] theorem State.setPort_catalog (s : State) (p : Nat) (x : Port) : (s.setPort p x).catalog = s.catalog := rfl
@[simp] theorem State.setPort_maint (s : State) (p : Nat) (x : Port) : (s.setPort p x).maint = s.maint := rfl
@[simp] theorem State.setPort_receipts (s : State) (p : Nat) (x : Port) : (s.setPort p x).receipts = s.receipts := rfl
@[simp] theorem State.setPort_images (s : State) (p : Nat) (x : Port) : (s.setPort p x).images = s.images := rfl
@[simp] theorem State.setPort_installs (s : State) (p : Nat) (x : Port) : (s.setPort p x).installs = s.installs := rfl
@[simp] theorem State.setPort_tenants (s : State) (p : Nat) (x : Port) : (s.setPort p x).tenants = s.tenants := rfl
@[simp] theorem State.setPort_host (s : State) (p : Nat) (x : Port) : (s.setPort p x).host = s.host := rfl
@[simp] theorem State.setPort_dict (s : State) (p : Nat) (x : Port) : (s.setPort p x).dict = s.dict := rfl
@[simp] theorem State.setPort_counters (s : State) (p : Nat) (x : Port) : (s.setPort p x).counters = s.counters := rfl
@[simp] theorem State.setPort_log (s : State) (p : Nat) (x : Port) : (s.setPort p x).log = s.log := rfl
@[simp] theorem State.setPort_mbx (s : State) (p : Nat) (x : Port) : (s.setPort p x).mbx = s.mbx := rfl
@[simp] theorem State.setPort_mgmt (s : State) (p : Nat) (x : Port) : (s.setPort p x).mgmt = s.mgmt := rfl
@[simp] theorem State.setPort_sensors (s : State) (p : Nat) (x : Port) : (s.setPort p x).sensors = s.sensors := rfl
@[simp] theorem State.setPort_tiers (s : State) (p : Nat) (x : Port) : (s.setPort p x).tiers = s.tiers := rfl
@[simp] theorem State.setPort_staging (s : State) (p : Nat) (x : Port) : (s.setPort p x).staging = s.staging := rfl
@[simp] theorem State.setPort_flash (s : State) (p : Nat) (x : Port) : (s.setPort p x).flash = s.flash := rfl
@[simp] theorem State.setPort_exchange (s : State) (p : Nat) (x : Port) : (s.setPort p x).exchange = s.exchange := rfl
@[simp] theorem State.setPort_power (s : State) (p : Nat) (x : Port) : (s.setPort p x).power = s.power := rfl
@[simp] theorem State.setPort_repair (s : State) (p : Nat) (x : Port) : (s.setPort p x).repair = s.repair := rfl
@[simp] theorem State.setPort_pins (s : State) (p : Nat) (x : Port) : (s.setPort p x).pins = s.pins := rfl
@[simp] theorem State.setPort_freeCount (s : State) (p : Nat) (x : Port) : (s.setPort p x).freeCount = s.freeCount := rfl
@[simp] theorem State.setPort_out (s : State) (p : Nat) (x : Port) : (s.setPort p x).out = s.out := rfl
@[simp] theorem State.setPort_pending (s : State) (p : Nat) (x : Port) : (s.setPort p x).pending = s.pending := rfl
@[simp] theorem State.setPort_fabric (s : State) (p : Nat) (x : Port) : (s.setPort p x).fabric = { s.fabric with ports := s.fabric.ports.set p x } := rfl

theorem State.meter_eq (s : State) (t n amount : Nat) : s.meter t n amount = { s with tenants := (s.meter t n amount).tenants } := by
  unfold State.meter
  dsimp only
  split
  · rfl
  · split <;> rfl
@[simp] theorem State.meter_time (s : State) (t n amount : Nat) : (s.meter t n amount).time = s.time := by rw [State.meter_eq]
@[simp] theorem State.meter_pipe (s : State) (t n amount : Nat) : (s.meter t n amount).pipe = s.pipe := by rw [State.meter_eq]
@[simp] theorem State.meter_corpus (s : State) (t n amount : Nat) : (s.meter t n amount).corpus = s.corpus := by rw [State.meter_eq]
@[simp] theorem State.meter_epochs (s : State) (t n amount : Nat) : (s.meter t n amount).epochs = s.epochs := by rw [State.meter_eq]
@[simp] theorem State.meter_catalog (s : State) (t n amount : Nat) : (s.meter t n amount).catalog = s.catalog := by rw [State.meter_eq]
@[simp] theorem State.meter_maint (s : State) (t n amount : Nat) : (s.meter t n amount).maint = s.maint := by rw [State.meter_eq]
@[simp] theorem State.meter_receipts (s : State) (t n amount : Nat) : (s.meter t n amount).receipts = s.receipts := by rw [State.meter_eq]
@[simp] theorem State.meter_images (s : State) (t n amount : Nat) : (s.meter t n amount).images = s.images := by rw [State.meter_eq]
@[simp] theorem State.meter_installs (s : State) (t n amount : Nat) : (s.meter t n amount).installs = s.installs := by rw [State.meter_eq]
@[simp] theorem State.meter_host (s : State) (t n amount : Nat) : (s.meter t n amount).host = s.host := by rw [State.meter_eq]
@[simp] theorem State.meter_dict (s : State) (t n amount : Nat) : (s.meter t n amount).dict = s.dict := by rw [State.meter_eq]
@[simp] theorem State.meter_counters (s : State) (t n amount : Nat) : (s.meter t n amount).counters = s.counters := by rw [State.meter_eq]
@[simp] theorem State.meter_log (s : State) (t n amount : Nat) : (s.meter t n amount).log = s.log := by rw [State.meter_eq]
@[simp] theorem State.meter_mbx (s : State) (t n amount : Nat) : (s.meter t n amount).mbx = s.mbx := by rw [State.meter_eq]
@[simp] theorem State.meter_mgmt (s : State) (t n amount : Nat) : (s.meter t n amount).mgmt = s.mgmt := by rw [State.meter_eq]
@[simp] theorem State.meter_sensors (s : State) (t n amount : Nat) : (s.meter t n amount).sensors = s.sensors := by rw [State.meter_eq]
@[simp] theorem State.meter_tiers (s : State) (t n amount : Nat) : (s.meter t n amount).tiers = s.tiers := by rw [State.meter_eq]
@[simp] theorem State.meter_staging (s : State) (t n amount : Nat) : (s.meter t n amount).staging = s.staging := by rw [State.meter_eq]
@[simp] theorem State.meter_flash (s : State) (t n amount : Nat) : (s.meter t n amount).flash = s.flash := by rw [State.meter_eq]
@[simp] theorem State.meter_fabric (s : State) (t n amount : Nat) : (s.meter t n amount).fabric = s.fabric := by rw [State.meter_eq]
@[simp] theorem State.meter_exchange (s : State) (t n amount : Nat) : (s.meter t n amount).exchange = s.exchange := by rw [State.meter_eq]
@[simp] theorem State.meter_power (s : State) (t n amount : Nat) : (s.meter t n amount).power = s.power := by rw [State.meter_eq]
@[simp] theorem State.meter_repair (s : State) (t n amount : Nat) : (s.meter t n amount).repair = s.repair := by rw [State.meter_eq]
@[simp] theorem State.meter_pins (s : State) (t n amount : Nat) : (s.meter t n amount).pins = s.pins := by rw [State.meter_eq]
@[simp] theorem State.meter_freeCount (s : State) (t n amount : Nat) : (s.meter t n amount).freeCount = s.freeCount := by rw [State.meter_eq]
@[simp] theorem State.meter_out (s : State) (t n amount : Nat) : (s.meter t n amount).out = s.out := by rw [State.meter_eq]
@[simp] theorem State.meter_pending (s : State) (t n amount : Nat) : (s.meter t n amount).pending = s.pending := by rw [State.meter_eq]
@[simp] theorem State.setMember_time (s : State) (b m : Nat) (x : Member) : (s.setMember b m x).time = s.time := by unfold State.setMember; split <;> rfl
@[simp] theorem State.setMember_corpus (s : State) (b m : Nat) (x : Member) : (s.setMember b m x).corpus = s.corpus := by unfold State.setMember; split <;> rfl
@[simp] theorem State.setMember_epochs (s : State) (b m : Nat) (x : Member) : (s.setMember b m x).epochs = s.epochs := by unfold State.setMember; split <;> rfl
@[simp] theorem State.setMember_catalog (s : State) (b m : Nat) (x : Member) : (s.setMember b m x).catalog = s.catalog := by unfold State.setMember; split <;> rfl
@[simp] theorem State.setMember_maint (s : State) (b m : Nat) (x : Member) : (s.setMember b m x).maint = s.maint := by unfold State.setMember; split <;> rfl
@[simp] theorem State.setMember_receipts (s : State) (b m : Nat) (x : Member) : (s.setMember b m x).receipts = s.receipts := by unfold State.setMember; split <;> rfl
@[simp] theorem State.setMember_images (s : State) (b m : Nat) (x : Member) : (s.setMember b m x).images = s.images := by unfold State.setMember; split <;> rfl
@[simp] theorem State.setMember_installs (s : State) (b m : Nat) (x : Member) : (s.setMember b m x).installs = s.installs := by unfold State.setMember; split <;> rfl
@[simp] theorem State.setMember_tenants (s : State) (b m : Nat) (x : Member) : (s.setMember b m x).tenants = s.tenants := by unfold State.setMember; split <;> rfl
@[simp] theorem State.setMember_host (s : State) (b m : Nat) (x : Member) : (s.setMember b m x).host = s.host := by unfold State.setMember; split <;> rfl
@[simp] theorem State.setMember_dict (s : State) (b m : Nat) (x : Member) : (s.setMember b m x).dict = s.dict := by unfold State.setMember; split <;> rfl
@[simp] theorem State.setMember_counters (s : State) (b m : Nat) (x : Member) : (s.setMember b m x).counters = s.counters := by unfold State.setMember; split <;> rfl
@[simp] theorem State.setMember_log (s : State) (b m : Nat) (x : Member) : (s.setMember b m x).log = s.log := by unfold State.setMember; split <;> rfl
@[simp] theorem State.setMember_mbx (s : State) (b m : Nat) (x : Member) : (s.setMember b m x).mbx = s.mbx := by unfold State.setMember; split <;> rfl
@[simp] theorem State.setMember_mgmt (s : State) (b m : Nat) (x : Member) : (s.setMember b m x).mgmt = s.mgmt := by unfold State.setMember; split <;> rfl
@[simp] theorem State.setMember_sensors (s : State) (b m : Nat) (x : Member) : (s.setMember b m x).sensors = s.sensors := by unfold State.setMember; split <;> rfl
@[simp] theorem State.setMember_tiers (s : State) (b m : Nat) (x : Member) : (s.setMember b m x).tiers = s.tiers := by unfold State.setMember; split <;> rfl
@[simp] theorem State.setMember_staging (s : State) (b m : Nat) (x : Member) : (s.setMember b m x).staging = s.staging := by unfold State.setMember; split <;> rfl
@[simp] theorem State.setMember_flash (s : State) (b m : Nat) (x : Member) : (s.setMember b m x).flash = s.flash := by unfold State.setMember; split <;> rfl
@[simp] theorem State.setMember_fabric (s : State) (b m : Nat) (x : Member) : (s.setMember b m x).fabric = s.fabric := by unfold State.setMember; split <;> rfl
@[simp] theorem State.setMember_exchange (s : State) (b m : Nat) (x : Member) : (s.setMember b m x).exchange = s.exchange := by unfold State.setMember; split <;> rfl
@[simp] theorem State.setMember_power (s : State) (b m : Nat) (x : Member) : (s.setMember b m x).power = s.power := by unfold State.setMember; split <;> rfl
@[simp] theorem State.setMember_repair (s : State) (b m : Nat) (x : Member) : (s.setMember b m x).repair = s.repair := by unfold State.setMember; split <;> rfl
@[simp] theorem State.setMember_pins (s : State) (b m : Nat) (x : Member) : (s.setMember b m x).pins = s.pins := by unfold State.setMember; split <;> rfl
@[simp] theorem State.setMember_freeCount (s : State) (b m : Nat) (x : Member) : (s.setMember b m x).freeCount = s.freeCount := by unfold State.setMember; split <;> rfl
@[simp] theorem State.setMember_out (s : State) (b m : Nat) (x : Member) : (s.setMember b m x).out = s.out := by unfold State.setMember; split <;> rfl
@[simp] theorem State.setMember_pending (s : State) (b m : Nat) (x : Member) : (s.setMember b m x).pending = s.pending := by unfold State.setMember; split <;> rfl
@[simp] theorem State.raiseWake_time (s : State) (d : DomainId) (cls : Nat) : (s.raiseWake d cls).time = s.time := by unfold State.raiseWake; split <;> rfl
@[simp] theorem State.raiseWake_pipe (s : State) (d : DomainId) (cls : Nat) : (s.raiseWake d cls).pipe = s.pipe := by unfold State.raiseWake; split <;> rfl
@[simp] theorem State.raiseWake_corpus (s : State) (d : DomainId) (cls : Nat) : (s.raiseWake d cls).corpus = s.corpus := by unfold State.raiseWake; split <;> rfl
@[simp] theorem State.raiseWake_epochs (s : State) (d : DomainId) (cls : Nat) : (s.raiseWake d cls).epochs = s.epochs := by unfold State.raiseWake; split <;> rfl
@[simp] theorem State.raiseWake_catalog (s : State) (d : DomainId) (cls : Nat) : (s.raiseWake d cls).catalog = s.catalog := by unfold State.raiseWake; split <;> rfl
@[simp] theorem State.raiseWake_maint (s : State) (d : DomainId) (cls : Nat) : (s.raiseWake d cls).maint = s.maint := by unfold State.raiseWake; split <;> rfl
@[simp] theorem State.raiseWake_receipts (s : State) (d : DomainId) (cls : Nat) : (s.raiseWake d cls).receipts = s.receipts := by unfold State.raiseWake; split <;> rfl
@[simp] theorem State.raiseWake_images (s : State) (d : DomainId) (cls : Nat) : (s.raiseWake d cls).images = s.images := by unfold State.raiseWake; split <;> rfl
@[simp] theorem State.raiseWake_installs (s : State) (d : DomainId) (cls : Nat) : (s.raiseWake d cls).installs = s.installs := by unfold State.raiseWake; split <;> rfl
@[simp] theorem State.raiseWake_tenants (s : State) (d : DomainId) (cls : Nat) : (s.raiseWake d cls).tenants = s.tenants := by unfold State.raiseWake; split <;> rfl
@[simp] theorem State.raiseWake_host (s : State) (d : DomainId) (cls : Nat) : (s.raiseWake d cls).host = s.host := by unfold State.raiseWake; split <;> rfl
@[simp] theorem State.raiseWake_dict (s : State) (d : DomainId) (cls : Nat) : (s.raiseWake d cls).dict = s.dict := by unfold State.raiseWake; split <;> rfl
@[simp] theorem State.raiseWake_counters (s : State) (d : DomainId) (cls : Nat) : (s.raiseWake d cls).counters = s.counters := by unfold State.raiseWake; split <;> rfl
@[simp] theorem State.raiseWake_log (s : State) (d : DomainId) (cls : Nat) : (s.raiseWake d cls).log = s.log := by unfold State.raiseWake; split <;> rfl
@[simp] theorem State.raiseWake_mbx (s : State) (d : DomainId) (cls : Nat) : (s.raiseWake d cls).mbx = s.mbx := by unfold State.raiseWake; split <;> rfl
@[simp] theorem State.raiseWake_mgmt (s : State) (d : DomainId) (cls : Nat) : (s.raiseWake d cls).mgmt = s.mgmt := by unfold State.raiseWake; split <;> rfl
@[simp] theorem State.raiseWake_sensors (s : State) (d : DomainId) (cls : Nat) : (s.raiseWake d cls).sensors = s.sensors := by unfold State.raiseWake; split <;> rfl
@[simp] theorem State.raiseWake_tiers (s : State) (d : DomainId) (cls : Nat) : (s.raiseWake d cls).tiers = s.tiers := by unfold State.raiseWake; split <;> rfl
@[simp] theorem State.raiseWake_staging (s : State) (d : DomainId) (cls : Nat) : (s.raiseWake d cls).staging = s.staging := by unfold State.raiseWake; split <;> rfl
@[simp] theorem State.raiseWake_flash (s : State) (d : DomainId) (cls : Nat) : (s.raiseWake d cls).flash = s.flash := by unfold State.raiseWake; split <;> rfl
@[simp] theorem State.raiseWake_fabric (s : State) (d : DomainId) (cls : Nat) : (s.raiseWake d cls).fabric = s.fabric := by unfold State.raiseWake; split <;> rfl
@[simp] theorem State.raiseWake_exchange (s : State) (d : DomainId) (cls : Nat) : (s.raiseWake d cls).exchange = s.exchange := by unfold State.raiseWake; split <;> rfl
@[simp] theorem State.raiseWake_repair (s : State) (d : DomainId) (cls : Nat) : (s.raiseWake d cls).repair = s.repair := by unfold State.raiseWake; split <;> rfl
@[simp] theorem State.raiseWake_pins (s : State) (d : DomainId) (cls : Nat) : (s.raiseWake d cls).pins = s.pins := by unfold State.raiseWake; split <;> rfl
@[simp] theorem State.raiseWake_freeCount (s : State) (d : DomainId) (cls : Nat) : (s.raiseWake d cls).freeCount = s.freeCount := by unfold State.raiseWake; split <;> rfl
@[simp] theorem State.raiseWake_out (s : State) (d : DomainId) (cls : Nat) : (s.raiseWake d cls).out = s.out := by unfold State.raiseWake; split <;> rfl
@[simp] theorem State.raiseWake_pending (s : State) (d : DomainId) (cls : Nat) : (s.raiseWake d cls).pending = s.pending := by unfold State.raiseWake; split <;> rfl
@[simp] theorem State.wake_time (s : State) (k : DomainKind) (n cls : Nat) : (s.wake k n cls).time = s.time := by unfold State.wake; dsimp only; split <;> (try split) <;> simp
@[simp] theorem State.wake_pipe (s : State) (k : DomainKind) (n cls : Nat) : (s.wake k n cls).pipe = s.pipe := by unfold State.wake; dsimp only; split <;> (try split) <;> simp
@[simp] theorem State.wake_corpus (s : State) (k : DomainKind) (n cls : Nat) : (s.wake k n cls).corpus = s.corpus := by unfold State.wake; dsimp only; split <;> (try split) <;> simp
@[simp] theorem State.wake_epochs (s : State) (k : DomainKind) (n cls : Nat) : (s.wake k n cls).epochs = s.epochs := by unfold State.wake; dsimp only; split <;> (try split) <;> simp
@[simp] theorem State.wake_catalog (s : State) (k : DomainKind) (n cls : Nat) : (s.wake k n cls).catalog = s.catalog := by unfold State.wake; dsimp only; split <;> (try split) <;> simp
@[simp] theorem State.wake_maint (s : State) (k : DomainKind) (n cls : Nat) : (s.wake k n cls).maint = s.maint := by unfold State.wake; dsimp only; split <;> (try split) <;> simp
@[simp] theorem State.wake_receipts (s : State) (k : DomainKind) (n cls : Nat) : (s.wake k n cls).receipts = s.receipts := by unfold State.wake; dsimp only; split <;> (try split) <;> simp
@[simp] theorem State.wake_images (s : State) (k : DomainKind) (n cls : Nat) : (s.wake k n cls).images = s.images := by unfold State.wake; dsimp only; split <;> (try split) <;> simp
@[simp] theorem State.wake_installs (s : State) (k : DomainKind) (n cls : Nat) : (s.wake k n cls).installs = s.installs := by unfold State.wake; dsimp only; split <;> (try split) <;> simp
@[simp] theorem State.wake_tenants (s : State) (k : DomainKind) (n cls : Nat) : (s.wake k n cls).tenants = s.tenants := by unfold State.wake; dsimp only; split <;> (try split) <;> simp
@[simp] theorem State.wake_host (s : State) (k : DomainKind) (n cls : Nat) : (s.wake k n cls).host = s.host := by unfold State.wake; dsimp only; split <;> (try split) <;> simp
@[simp] theorem State.wake_dict (s : State) (k : DomainKind) (n cls : Nat) : (s.wake k n cls).dict = s.dict := by unfold State.wake; dsimp only; split <;> (try split) <;> simp
@[simp] theorem State.wake_counters (s : State) (k : DomainKind) (n cls : Nat) : (s.wake k n cls).counters = s.counters := by unfold State.wake; dsimp only; split <;> (try split) <;> simp
@[simp] theorem State.wake_log (s : State) (k : DomainKind) (n cls : Nat) : (s.wake k n cls).log = s.log := by unfold State.wake; dsimp only; split <;> (try split) <;> simp
@[simp] theorem State.wake_mbx (s : State) (k : DomainKind) (n cls : Nat) : (s.wake k n cls).mbx = s.mbx := by unfold State.wake; dsimp only; split <;> (try split) <;> simp
@[simp] theorem State.wake_mgmt (s : State) (k : DomainKind) (n cls : Nat) : (s.wake k n cls).mgmt = s.mgmt := by unfold State.wake; dsimp only; split <;> (try split) <;> simp
@[simp] theorem State.wake_sensors (s : State) (k : DomainKind) (n cls : Nat) : (s.wake k n cls).sensors = s.sensors := by unfold State.wake; dsimp only; split <;> (try split) <;> simp
@[simp] theorem State.wake_tiers (s : State) (k : DomainKind) (n cls : Nat) : (s.wake k n cls).tiers = s.tiers := by unfold State.wake; dsimp only; split <;> (try split) <;> simp
@[simp] theorem State.wake_staging (s : State) (k : DomainKind) (n cls : Nat) : (s.wake k n cls).staging = s.staging := by unfold State.wake; dsimp only; split <;> (try split) <;> simp
@[simp] theorem State.wake_flash (s : State) (k : DomainKind) (n cls : Nat) : (s.wake k n cls).flash = s.flash := by unfold State.wake; dsimp only; split <;> (try split) <;> simp
@[simp] theorem State.wake_fabric (s : State) (k : DomainKind) (n cls : Nat) : (s.wake k n cls).fabric = s.fabric := by unfold State.wake; dsimp only; split <;> (try split) <;> simp
@[simp] theorem State.wake_exchange (s : State) (k : DomainKind) (n cls : Nat) : (s.wake k n cls).exchange = s.exchange := by unfold State.wake; dsimp only; split <;> (try split) <;> simp
@[simp] theorem State.wake_repair (s : State) (k : DomainKind) (n cls : Nat) : (s.wake k n cls).repair = s.repair := by unfold State.wake; dsimp only; split <;> (try split) <;> simp
@[simp] theorem State.wake_pins (s : State) (k : DomainKind) (n cls : Nat) : (s.wake k n cls).pins = s.pins := by unfold State.wake; dsimp only; split <;> (try split) <;> simp
@[simp] theorem State.wake_freeCount (s : State) (k : DomainKind) (n cls : Nat) : (s.wake k n cls).freeCount = s.freeCount := by unfold State.wake; dsimp only; split <;> (try split) <;> simp
@[simp] theorem State.wake_out (s : State) (k : DomainKind) (n cls : Nat) : (s.wake k n cls).out = s.out := by unfold State.wake; dsimp only; split <;> (try split) <;> simp
@[simp] theorem State.wake_pending (s : State) (k : DomainKind) (n cls : Nat) : (s.wake k n cls).pending = s.pending := by unfold State.wake; dsimp only; split <;> (try split) <;> simp

/-! ## Counters, records and messages: they change the counters, the event log, the mailboxes, the functions' causes and what is sent -/

theorem Reports.refl (s : State) : Reports s s := ⟨s.host, s.counters, s.log, s.mbx, s.out, rfl⟩

theorem Reports.trans {s t u : State} (h : Reports s t) (k : Reports t u) : Reports s u := by
  obtain ⟨_, _, _, _, _, rfl⟩ := h
  obtain ⟨_, _, _, _, _, rfl⟩ := k
  exact ⟨_, _, _, _, _, rfl⟩

theorem Reports.foldl {α : Type} {f : State → α → State} (hf : ∀ a x, Reports a (f a x)) (xs : List α) (s : State) : Reports s (xs.foldl f s) := by
  induction xs generalizing s with
  | nil => exact Reports.refl s
  | cons x xs ih => exact (hf s x).trans (ih (f s x))

theorem Reports.emit (s : State) (o : Output) : Reports s (s.emit o) := ⟨_, _, _, _, _, rfl⟩
theorem Reports.setFn (s : State) (fn : Nat) (f : FnState) : Reports s (s.setFn fn f) := ⟨_, _, _, _, _, rfl⟩
theorem Reports.setCounters (s : State) (c : Table Nat) : Reports s { s with counters := c } := ⟨_, _, _, _, _, rfl⟩
theorem Reports.setLog (s : State) (l : EventLog) : Reports s { s with log := l } := ⟨_, _, _, _, _, rfl⟩
theorem Reports.setMbx (s : State) (m : Mailboxes) : Reports s { s with mbx := m } := ⟨_, _, _, _, _, rfl⟩

theorem msixWith_reports {cnt : State → Nat → Nat → State} (hc : ∀ s k n, Reports s (cnt s k n)) (s : State) (fn vec : Nat) :
    Reports s (msixWith cnt s fn vec) := by
  unfold msixWith
  dsimp only
  split
  · exact Reports.setFn _ _ _
  · exact (Reports.emit _ _).trans (hc _ _ _)

theorem causeWith_reports {cnt : State → Nat → Nat → State} (hc : ∀ s k n, Reports s (cnt s k n)) (s : State) (fn b : Nat) :
    Reports s (causeWith cnt s fn b) := by
  unfold causeWith
  dsimp only
  split
  · exact Reports.refl s
  · split
    · exact Reports.setFn _ _ _
    · exact (Reports.setFn _ _ _).trans (msixWith_reports hc _ _ _)

theorem hostMessageWith_reports {cnt : State → Nat → Nat → State} (hc : ∀ s k n, Reports s (cnt s k n)) (s : State) (c ty : Nat) (p : List Byte) :
    Reports s (hostMessageWith cnt s c ty p).1 := by
  unfold hostMessageWith
  dsimp only
  split
  · exact hc _ _ _
  · dsimp only
    split
    · exact ((Reports.setMbx _ _).trans (Reports.emit _ _)).trans (causeWith_reports hc _ _ _)
    · exact (Reports.setMbx _ _).trans (Reports.emit _ _)

theorem logWith_reports {cnt : State → Nat → Nat → State} (hc : ∀ s k n, Reports s (cnt s k n)) (s : State) (i j k u : Nat) (d : List Byte) :
    Reports s (logWith cnt s i j k u d) := by
  unfold logWith
  split
  · exact (Reports.setLog _ _).trans (hc _ _ _)
  · dsimp only
    split
    · split
      · exact ((Reports.setLog _ _).trans (hc _ _ _)).trans (hostMessageWith_reports hc _ _ _ _)
      · exact (((Reports.setLog _ _).trans (hc _ _ _)).trans (hostMessageWith_reports hc _ _ _ _)).trans ((Reports.setLog _ _).trans (hc _ _ _))
    · exact (Reports.setLog _ _).trans (hc _ _ _)

theorem countFuel_reports (f : Nat) : ∀ s k n, Reports s (countFuel f s k n) := by
  induction f with
  | zero => intro s k n; exact Reports.setCounters _ _
  | succ f ih =>
    intro s k n
    unfold countFuel
    split
    split
    · exact (Reports.setCounters _ _).trans (logWith_reports ih _ _ _ _ _ _)
    · exact Reports.setCounters _ _

theorem State.count_reports (s : State) (key n : Nat) : Reports s (s.count key n) := by
  unfold State.count
  split
  · exact Reports.refl s
  · exact countFuel_reports _ _ _ _

theorem State.tally_reports (s : State) (index sub : Nat) : Reports s (s.tally index sub) := State.count_reports _ _ _
theorem State.msix_reports (s : State) (fn vec : Nat) : Reports s (s.msix fn vec) := msixWith_reports (fun _ _ _ => State.count_reports _ _ _) _ _ _
theorem State.cause_reports (s : State) (fn b : Nat) : Reports s (s.cause fn b) := causeWith_reports (fun _ _ _ => State.count_reports _ _ _) _ _ _
theorem State.causeAll_reports (s : State) (b : Nat) : Reports s (s.causeAll b) :=
  Reports.foldl (fun a x => by split; exact State.cause_reports _ _ _; exact Reports.refl a) _ _
theorem State.logEvent_reports (s : State) (index sub kind unit : Nat) (data : List Byte) : Reports s (s.logEvent index sub kind unit data) :=
  logWith_reports (fun _ _ _ => State.count_reports _ _ _) _ _ _ _ _ _
theorem State.logState_reports (s : State) (index sub unit old new : Nat) : Reports s (s.logState index sub unit old new) := State.logEvent_reports _ _ _ _ _ _
theorem State.hostMessage_reports (s : State) (c ty : Nat) (p : List Byte) : Reports s (s.hostMessage c ty p) :=
  hostMessageWith_reports (fun _ _ _ => State.count_reports _ _ _) _ _ _ _

theorem Reports.time {s t : State} (h : Reports s t) : t.time = s.time := by obtain ⟨_, _, _, _, _, rfl⟩ := h; rfl
theorem Reports.pipe {s t : State} (h : Reports s t) : t.pipe = s.pipe := by obtain ⟨_, _, _, _, _, rfl⟩ := h; rfl
theorem Reports.corpus {s t : State} (h : Reports s t) : t.corpus = s.corpus := by obtain ⟨_, _, _, _, _, rfl⟩ := h; rfl
theorem Reports.epochs {s t : State} (h : Reports s t) : t.epochs = s.epochs := by obtain ⟨_, _, _, _, _, rfl⟩ := h; rfl
theorem Reports.catalog {s t : State} (h : Reports s t) : t.catalog = s.catalog := by obtain ⟨_, _, _, _, _, rfl⟩ := h; rfl
theorem Reports.maint {s t : State} (h : Reports s t) : t.maint = s.maint := by obtain ⟨_, _, _, _, _, rfl⟩ := h; rfl
theorem Reports.receipts {s t : State} (h : Reports s t) : t.receipts = s.receipts := by obtain ⟨_, _, _, _, _, rfl⟩ := h; rfl
theorem Reports.images {s t : State} (h : Reports s t) : t.images = s.images := by obtain ⟨_, _, _, _, _, rfl⟩ := h; rfl
theorem Reports.installs {s t : State} (h : Reports s t) : t.installs = s.installs := by obtain ⟨_, _, _, _, _, rfl⟩ := h; rfl
theorem Reports.tenants {s t : State} (h : Reports s t) : t.tenants = s.tenants := by obtain ⟨_, _, _, _, _, rfl⟩ := h; rfl
theorem Reports.dict {s t : State} (h : Reports s t) : t.dict = s.dict := by obtain ⟨_, _, _, _, _, rfl⟩ := h; rfl
theorem Reports.mgmt {s t : State} (h : Reports s t) : t.mgmt = s.mgmt := by obtain ⟨_, _, _, _, _, rfl⟩ := h; rfl
theorem Reports.sensors {s t : State} (h : Reports s t) : t.sensors = s.sensors := by obtain ⟨_, _, _, _, _, rfl⟩ := h; rfl
theorem Reports.tiers {s t : State} (h : Reports s t) : t.tiers = s.tiers := by obtain ⟨_, _, _, _, _, rfl⟩ := h; rfl
theorem Reports.staging {s t : State} (h : Reports s t) : t.staging = s.staging := by obtain ⟨_, _, _, _, _, rfl⟩ := h; rfl
theorem Reports.flash {s t : State} (h : Reports s t) : t.flash = s.flash := by obtain ⟨_, _, _, _, _, rfl⟩ := h; rfl
theorem Reports.fabric {s t : State} (h : Reports s t) : t.fabric = s.fabric := by obtain ⟨_, _, _, _, _, rfl⟩ := h; rfl
theorem Reports.exchange {s t : State} (h : Reports s t) : t.exchange = s.exchange := by obtain ⟨_, _, _, _, _, rfl⟩ := h; rfl
theorem Reports.power {s t : State} (h : Reports s t) : t.power = s.power := by obtain ⟨_, _, _, _, _, rfl⟩ := h; rfl
theorem Reports.repair {s t : State} (h : Reports s t) : t.repair = s.repair := by obtain ⟨_, _, _, _, _, rfl⟩ := h; rfl
theorem Reports.pins {s t : State} (h : Reports s t) : t.pins = s.pins := by obtain ⟨_, _, _, _, _, rfl⟩ := h; rfl
theorem Reports.freeCount {s t : State} (h : Reports s t) : t.freeCount = s.freeCount := by obtain ⟨_, _, _, _, _, rfl⟩ := h; rfl
theorem Reports.pending {s t : State} (h : Reports s t) : t.pending = s.pending := by obtain ⟨_, _, _, _, _, rfl⟩ := h; rfl

@[simp] theorem State.count_time (s : State) (key n : Nat) : (s.count key n).time = s.time := (State.count_reports s key n).time
@[simp] theorem State.count_pipe (s : State) (key n : Nat) : (s.count key n).pipe = s.pipe := (State.count_reports s key n).pipe
@[simp] theorem State.count_corpus (s : State) (key n : Nat) : (s.count key n).corpus = s.corpus := (State.count_reports s key n).corpus
@[simp] theorem State.count_epochs (s : State) (key n : Nat) : (s.count key n).epochs = s.epochs := (State.count_reports s key n).epochs
@[simp] theorem State.count_catalog (s : State) (key n : Nat) : (s.count key n).catalog = s.catalog := (State.count_reports s key n).catalog
@[simp] theorem State.count_maint (s : State) (key n : Nat) : (s.count key n).maint = s.maint := (State.count_reports s key n).maint
@[simp] theorem State.count_receipts (s : State) (key n : Nat) : (s.count key n).receipts = s.receipts := (State.count_reports s key n).receipts
@[simp] theorem State.count_images (s : State) (key n : Nat) : (s.count key n).images = s.images := (State.count_reports s key n).images
@[simp] theorem State.count_installs (s : State) (key n : Nat) : (s.count key n).installs = s.installs := (State.count_reports s key n).installs
@[simp] theorem State.count_tenants (s : State) (key n : Nat) : (s.count key n).tenants = s.tenants := (State.count_reports s key n).tenants
@[simp] theorem State.count_dict (s : State) (key n : Nat) : (s.count key n).dict = s.dict := (State.count_reports s key n).dict
@[simp] theorem State.count_mgmt (s : State) (key n : Nat) : (s.count key n).mgmt = s.mgmt := (State.count_reports s key n).mgmt
@[simp] theorem State.count_sensors (s : State) (key n : Nat) : (s.count key n).sensors = s.sensors := (State.count_reports s key n).sensors
@[simp] theorem State.count_tiers (s : State) (key n : Nat) : (s.count key n).tiers = s.tiers := (State.count_reports s key n).tiers
@[simp] theorem State.count_staging (s : State) (key n : Nat) : (s.count key n).staging = s.staging := (State.count_reports s key n).staging
@[simp] theorem State.count_flash (s : State) (key n : Nat) : (s.count key n).flash = s.flash := (State.count_reports s key n).flash
@[simp] theorem State.count_fabric (s : State) (key n : Nat) : (s.count key n).fabric = s.fabric := (State.count_reports s key n).fabric
@[simp] theorem State.count_exchange (s : State) (key n : Nat) : (s.count key n).exchange = s.exchange := (State.count_reports s key n).exchange
@[simp] theorem State.count_power (s : State) (key n : Nat) : (s.count key n).power = s.power := (State.count_reports s key n).power
@[simp] theorem State.count_repair (s : State) (key n : Nat) : (s.count key n).repair = s.repair := (State.count_reports s key n).repair
@[simp] theorem State.count_pins (s : State) (key n : Nat) : (s.count key n).pins = s.pins := (State.count_reports s key n).pins
@[simp] theorem State.count_freeCount (s : State) (key n : Nat) : (s.count key n).freeCount = s.freeCount := (State.count_reports s key n).freeCount
@[simp] theorem State.count_pending (s : State) (key n : Nat) : (s.count key n).pending = s.pending := (State.count_reports s key n).pending
@[simp] theorem State.tally_time (s : State) (index sub : Nat) : (s.tally index sub).time = s.time := (State.tally_reports s index sub).time
@[simp] theorem State.tally_pipe (s : State) (index sub : Nat) : (s.tally index sub).pipe = s.pipe := (State.tally_reports s index sub).pipe
@[simp] theorem State.tally_corpus (s : State) (index sub : Nat) : (s.tally index sub).corpus = s.corpus := (State.tally_reports s index sub).corpus
@[simp] theorem State.tally_epochs (s : State) (index sub : Nat) : (s.tally index sub).epochs = s.epochs := (State.tally_reports s index sub).epochs
@[simp] theorem State.tally_catalog (s : State) (index sub : Nat) : (s.tally index sub).catalog = s.catalog := (State.tally_reports s index sub).catalog
@[simp] theorem State.tally_maint (s : State) (index sub : Nat) : (s.tally index sub).maint = s.maint := (State.tally_reports s index sub).maint
@[simp] theorem State.tally_receipts (s : State) (index sub : Nat) : (s.tally index sub).receipts = s.receipts := (State.tally_reports s index sub).receipts
@[simp] theorem State.tally_images (s : State) (index sub : Nat) : (s.tally index sub).images = s.images := (State.tally_reports s index sub).images
@[simp] theorem State.tally_installs (s : State) (index sub : Nat) : (s.tally index sub).installs = s.installs := (State.tally_reports s index sub).installs
@[simp] theorem State.tally_tenants (s : State) (index sub : Nat) : (s.tally index sub).tenants = s.tenants := (State.tally_reports s index sub).tenants
@[simp] theorem State.tally_dict (s : State) (index sub : Nat) : (s.tally index sub).dict = s.dict := (State.tally_reports s index sub).dict
@[simp] theorem State.tally_mgmt (s : State) (index sub : Nat) : (s.tally index sub).mgmt = s.mgmt := (State.tally_reports s index sub).mgmt
@[simp] theorem State.tally_sensors (s : State) (index sub : Nat) : (s.tally index sub).sensors = s.sensors := (State.tally_reports s index sub).sensors
@[simp] theorem State.tally_tiers (s : State) (index sub : Nat) : (s.tally index sub).tiers = s.tiers := (State.tally_reports s index sub).tiers
@[simp] theorem State.tally_staging (s : State) (index sub : Nat) : (s.tally index sub).staging = s.staging := (State.tally_reports s index sub).staging
@[simp] theorem State.tally_flash (s : State) (index sub : Nat) : (s.tally index sub).flash = s.flash := (State.tally_reports s index sub).flash
@[simp] theorem State.tally_fabric (s : State) (index sub : Nat) : (s.tally index sub).fabric = s.fabric := (State.tally_reports s index sub).fabric
@[simp] theorem State.tally_exchange (s : State) (index sub : Nat) : (s.tally index sub).exchange = s.exchange := (State.tally_reports s index sub).exchange
@[simp] theorem State.tally_power (s : State) (index sub : Nat) : (s.tally index sub).power = s.power := (State.tally_reports s index sub).power
@[simp] theorem State.tally_repair (s : State) (index sub : Nat) : (s.tally index sub).repair = s.repair := (State.tally_reports s index sub).repair
@[simp] theorem State.tally_pins (s : State) (index sub : Nat) : (s.tally index sub).pins = s.pins := (State.tally_reports s index sub).pins
@[simp] theorem State.tally_freeCount (s : State) (index sub : Nat) : (s.tally index sub).freeCount = s.freeCount := (State.tally_reports s index sub).freeCount
@[simp] theorem State.tally_pending (s : State) (index sub : Nat) : (s.tally index sub).pending = s.pending := (State.tally_reports s index sub).pending
@[simp] theorem State.msix_time (s : State) (fn vec : Nat) : (s.msix fn vec).time = s.time := (State.msix_reports s fn vec).time
@[simp] theorem State.msix_pipe (s : State) (fn vec : Nat) : (s.msix fn vec).pipe = s.pipe := (State.msix_reports s fn vec).pipe
@[simp] theorem State.msix_corpus (s : State) (fn vec : Nat) : (s.msix fn vec).corpus = s.corpus := (State.msix_reports s fn vec).corpus
@[simp] theorem State.msix_epochs (s : State) (fn vec : Nat) : (s.msix fn vec).epochs = s.epochs := (State.msix_reports s fn vec).epochs
@[simp] theorem State.msix_catalog (s : State) (fn vec : Nat) : (s.msix fn vec).catalog = s.catalog := (State.msix_reports s fn vec).catalog
@[simp] theorem State.msix_maint (s : State) (fn vec : Nat) : (s.msix fn vec).maint = s.maint := (State.msix_reports s fn vec).maint
@[simp] theorem State.msix_receipts (s : State) (fn vec : Nat) : (s.msix fn vec).receipts = s.receipts := (State.msix_reports s fn vec).receipts
@[simp] theorem State.msix_images (s : State) (fn vec : Nat) : (s.msix fn vec).images = s.images := (State.msix_reports s fn vec).images
@[simp] theorem State.msix_installs (s : State) (fn vec : Nat) : (s.msix fn vec).installs = s.installs := (State.msix_reports s fn vec).installs
@[simp] theorem State.msix_tenants (s : State) (fn vec : Nat) : (s.msix fn vec).tenants = s.tenants := (State.msix_reports s fn vec).tenants
@[simp] theorem State.msix_dict (s : State) (fn vec : Nat) : (s.msix fn vec).dict = s.dict := (State.msix_reports s fn vec).dict
@[simp] theorem State.msix_mgmt (s : State) (fn vec : Nat) : (s.msix fn vec).mgmt = s.mgmt := (State.msix_reports s fn vec).mgmt
@[simp] theorem State.msix_sensors (s : State) (fn vec : Nat) : (s.msix fn vec).sensors = s.sensors := (State.msix_reports s fn vec).sensors
@[simp] theorem State.msix_tiers (s : State) (fn vec : Nat) : (s.msix fn vec).tiers = s.tiers := (State.msix_reports s fn vec).tiers
@[simp] theorem State.msix_staging (s : State) (fn vec : Nat) : (s.msix fn vec).staging = s.staging := (State.msix_reports s fn vec).staging
@[simp] theorem State.msix_flash (s : State) (fn vec : Nat) : (s.msix fn vec).flash = s.flash := (State.msix_reports s fn vec).flash
@[simp] theorem State.msix_fabric (s : State) (fn vec : Nat) : (s.msix fn vec).fabric = s.fabric := (State.msix_reports s fn vec).fabric
@[simp] theorem State.msix_exchange (s : State) (fn vec : Nat) : (s.msix fn vec).exchange = s.exchange := (State.msix_reports s fn vec).exchange
@[simp] theorem State.msix_power (s : State) (fn vec : Nat) : (s.msix fn vec).power = s.power := (State.msix_reports s fn vec).power
@[simp] theorem State.msix_repair (s : State) (fn vec : Nat) : (s.msix fn vec).repair = s.repair := (State.msix_reports s fn vec).repair
@[simp] theorem State.msix_pins (s : State) (fn vec : Nat) : (s.msix fn vec).pins = s.pins := (State.msix_reports s fn vec).pins
@[simp] theorem State.msix_freeCount (s : State) (fn vec : Nat) : (s.msix fn vec).freeCount = s.freeCount := (State.msix_reports s fn vec).freeCount
@[simp] theorem State.msix_pending (s : State) (fn vec : Nat) : (s.msix fn vec).pending = s.pending := (State.msix_reports s fn vec).pending
@[simp] theorem State.cause_time (s : State) (fn b : Nat) : (s.cause fn b).time = s.time := (State.cause_reports s fn b).time
@[simp] theorem State.cause_pipe (s : State) (fn b : Nat) : (s.cause fn b).pipe = s.pipe := (State.cause_reports s fn b).pipe
@[simp] theorem State.cause_corpus (s : State) (fn b : Nat) : (s.cause fn b).corpus = s.corpus := (State.cause_reports s fn b).corpus
@[simp] theorem State.cause_epochs (s : State) (fn b : Nat) : (s.cause fn b).epochs = s.epochs := (State.cause_reports s fn b).epochs
@[simp] theorem State.cause_catalog (s : State) (fn b : Nat) : (s.cause fn b).catalog = s.catalog := (State.cause_reports s fn b).catalog
@[simp] theorem State.cause_maint (s : State) (fn b : Nat) : (s.cause fn b).maint = s.maint := (State.cause_reports s fn b).maint
@[simp] theorem State.cause_receipts (s : State) (fn b : Nat) : (s.cause fn b).receipts = s.receipts := (State.cause_reports s fn b).receipts
@[simp] theorem State.cause_images (s : State) (fn b : Nat) : (s.cause fn b).images = s.images := (State.cause_reports s fn b).images
@[simp] theorem State.cause_installs (s : State) (fn b : Nat) : (s.cause fn b).installs = s.installs := (State.cause_reports s fn b).installs
@[simp] theorem State.cause_tenants (s : State) (fn b : Nat) : (s.cause fn b).tenants = s.tenants := (State.cause_reports s fn b).tenants
@[simp] theorem State.cause_dict (s : State) (fn b : Nat) : (s.cause fn b).dict = s.dict := (State.cause_reports s fn b).dict
@[simp] theorem State.cause_mgmt (s : State) (fn b : Nat) : (s.cause fn b).mgmt = s.mgmt := (State.cause_reports s fn b).mgmt
@[simp] theorem State.cause_sensors (s : State) (fn b : Nat) : (s.cause fn b).sensors = s.sensors := (State.cause_reports s fn b).sensors
@[simp] theorem State.cause_tiers (s : State) (fn b : Nat) : (s.cause fn b).tiers = s.tiers := (State.cause_reports s fn b).tiers
@[simp] theorem State.cause_staging (s : State) (fn b : Nat) : (s.cause fn b).staging = s.staging := (State.cause_reports s fn b).staging
@[simp] theorem State.cause_flash (s : State) (fn b : Nat) : (s.cause fn b).flash = s.flash := (State.cause_reports s fn b).flash
@[simp] theorem State.cause_fabric (s : State) (fn b : Nat) : (s.cause fn b).fabric = s.fabric := (State.cause_reports s fn b).fabric
@[simp] theorem State.cause_exchange (s : State) (fn b : Nat) : (s.cause fn b).exchange = s.exchange := (State.cause_reports s fn b).exchange
@[simp] theorem State.cause_power (s : State) (fn b : Nat) : (s.cause fn b).power = s.power := (State.cause_reports s fn b).power
@[simp] theorem State.cause_repair (s : State) (fn b : Nat) : (s.cause fn b).repair = s.repair := (State.cause_reports s fn b).repair
@[simp] theorem State.cause_pins (s : State) (fn b : Nat) : (s.cause fn b).pins = s.pins := (State.cause_reports s fn b).pins
@[simp] theorem State.cause_freeCount (s : State) (fn b : Nat) : (s.cause fn b).freeCount = s.freeCount := (State.cause_reports s fn b).freeCount
@[simp] theorem State.cause_pending (s : State) (fn b : Nat) : (s.cause fn b).pending = s.pending := (State.cause_reports s fn b).pending
@[simp] theorem State.causeAll_time (s : State) (b : Nat) : (s.causeAll b).time = s.time := (State.causeAll_reports s b).time
@[simp] theorem State.causeAll_pipe (s : State) (b : Nat) : (s.causeAll b).pipe = s.pipe := (State.causeAll_reports s b).pipe
@[simp] theorem State.causeAll_corpus (s : State) (b : Nat) : (s.causeAll b).corpus = s.corpus := (State.causeAll_reports s b).corpus
@[simp] theorem State.causeAll_epochs (s : State) (b : Nat) : (s.causeAll b).epochs = s.epochs := (State.causeAll_reports s b).epochs
@[simp] theorem State.causeAll_catalog (s : State) (b : Nat) : (s.causeAll b).catalog = s.catalog := (State.causeAll_reports s b).catalog
@[simp] theorem State.causeAll_maint (s : State) (b : Nat) : (s.causeAll b).maint = s.maint := (State.causeAll_reports s b).maint
@[simp] theorem State.causeAll_receipts (s : State) (b : Nat) : (s.causeAll b).receipts = s.receipts := (State.causeAll_reports s b).receipts
@[simp] theorem State.causeAll_images (s : State) (b : Nat) : (s.causeAll b).images = s.images := (State.causeAll_reports s b).images
@[simp] theorem State.causeAll_installs (s : State) (b : Nat) : (s.causeAll b).installs = s.installs := (State.causeAll_reports s b).installs
@[simp] theorem State.causeAll_tenants (s : State) (b : Nat) : (s.causeAll b).tenants = s.tenants := (State.causeAll_reports s b).tenants
@[simp] theorem State.causeAll_dict (s : State) (b : Nat) : (s.causeAll b).dict = s.dict := (State.causeAll_reports s b).dict
@[simp] theorem State.causeAll_mgmt (s : State) (b : Nat) : (s.causeAll b).mgmt = s.mgmt := (State.causeAll_reports s b).mgmt
@[simp] theorem State.causeAll_sensors (s : State) (b : Nat) : (s.causeAll b).sensors = s.sensors := (State.causeAll_reports s b).sensors
@[simp] theorem State.causeAll_tiers (s : State) (b : Nat) : (s.causeAll b).tiers = s.tiers := (State.causeAll_reports s b).tiers
@[simp] theorem State.causeAll_staging (s : State) (b : Nat) : (s.causeAll b).staging = s.staging := (State.causeAll_reports s b).staging
@[simp] theorem State.causeAll_flash (s : State) (b : Nat) : (s.causeAll b).flash = s.flash := (State.causeAll_reports s b).flash
@[simp] theorem State.causeAll_fabric (s : State) (b : Nat) : (s.causeAll b).fabric = s.fabric := (State.causeAll_reports s b).fabric
@[simp] theorem State.causeAll_exchange (s : State) (b : Nat) : (s.causeAll b).exchange = s.exchange := (State.causeAll_reports s b).exchange
@[simp] theorem State.causeAll_power (s : State) (b : Nat) : (s.causeAll b).power = s.power := (State.causeAll_reports s b).power
@[simp] theorem State.causeAll_repair (s : State) (b : Nat) : (s.causeAll b).repair = s.repair := (State.causeAll_reports s b).repair
@[simp] theorem State.causeAll_pins (s : State) (b : Nat) : (s.causeAll b).pins = s.pins := (State.causeAll_reports s b).pins
@[simp] theorem State.causeAll_freeCount (s : State) (b : Nat) : (s.causeAll b).freeCount = s.freeCount := (State.causeAll_reports s b).freeCount
@[simp] theorem State.causeAll_pending (s : State) (b : Nat) : (s.causeAll b).pending = s.pending := (State.causeAll_reports s b).pending
@[simp] theorem State.logEvent_time (s : State) (index sub kind unit : Nat) (data : List Byte) : (s.logEvent index sub kind unit data).time = s.time := (State.logEvent_reports s index sub kind unit data).time
@[simp] theorem State.logEvent_pipe (s : State) (index sub kind unit : Nat) (data : List Byte) : (s.logEvent index sub kind unit data).pipe = s.pipe := (State.logEvent_reports s index sub kind unit data).pipe
@[simp] theorem State.logEvent_corpus (s : State) (index sub kind unit : Nat) (data : List Byte) : (s.logEvent index sub kind unit data).corpus = s.corpus := (State.logEvent_reports s index sub kind unit data).corpus
@[simp] theorem State.logEvent_epochs (s : State) (index sub kind unit : Nat) (data : List Byte) : (s.logEvent index sub kind unit data).epochs = s.epochs := (State.logEvent_reports s index sub kind unit data).epochs
@[simp] theorem State.logEvent_catalog (s : State) (index sub kind unit : Nat) (data : List Byte) : (s.logEvent index sub kind unit data).catalog = s.catalog := (State.logEvent_reports s index sub kind unit data).catalog
@[simp] theorem State.logEvent_maint (s : State) (index sub kind unit : Nat) (data : List Byte) : (s.logEvent index sub kind unit data).maint = s.maint := (State.logEvent_reports s index sub kind unit data).maint
@[simp] theorem State.logEvent_receipts (s : State) (index sub kind unit : Nat) (data : List Byte) : (s.logEvent index sub kind unit data).receipts = s.receipts := (State.logEvent_reports s index sub kind unit data).receipts
@[simp] theorem State.logEvent_images (s : State) (index sub kind unit : Nat) (data : List Byte) : (s.logEvent index sub kind unit data).images = s.images := (State.logEvent_reports s index sub kind unit data).images
@[simp] theorem State.logEvent_installs (s : State) (index sub kind unit : Nat) (data : List Byte) : (s.logEvent index sub kind unit data).installs = s.installs := (State.logEvent_reports s index sub kind unit data).installs
@[simp] theorem State.logEvent_tenants (s : State) (index sub kind unit : Nat) (data : List Byte) : (s.logEvent index sub kind unit data).tenants = s.tenants := (State.logEvent_reports s index sub kind unit data).tenants
@[simp] theorem State.logEvent_dict (s : State) (index sub kind unit : Nat) (data : List Byte) : (s.logEvent index sub kind unit data).dict = s.dict := (State.logEvent_reports s index sub kind unit data).dict
@[simp] theorem State.logEvent_mgmt (s : State) (index sub kind unit : Nat) (data : List Byte) : (s.logEvent index sub kind unit data).mgmt = s.mgmt := (State.logEvent_reports s index sub kind unit data).mgmt
@[simp] theorem State.logEvent_sensors (s : State) (index sub kind unit : Nat) (data : List Byte) : (s.logEvent index sub kind unit data).sensors = s.sensors := (State.logEvent_reports s index sub kind unit data).sensors
@[simp] theorem State.logEvent_tiers (s : State) (index sub kind unit : Nat) (data : List Byte) : (s.logEvent index sub kind unit data).tiers = s.tiers := (State.logEvent_reports s index sub kind unit data).tiers
@[simp] theorem State.logEvent_staging (s : State) (index sub kind unit : Nat) (data : List Byte) : (s.logEvent index sub kind unit data).staging = s.staging := (State.logEvent_reports s index sub kind unit data).staging
@[simp] theorem State.logEvent_flash (s : State) (index sub kind unit : Nat) (data : List Byte) : (s.logEvent index sub kind unit data).flash = s.flash := (State.logEvent_reports s index sub kind unit data).flash
@[simp] theorem State.logEvent_fabric (s : State) (index sub kind unit : Nat) (data : List Byte) : (s.logEvent index sub kind unit data).fabric = s.fabric := (State.logEvent_reports s index sub kind unit data).fabric
@[simp] theorem State.logEvent_exchange (s : State) (index sub kind unit : Nat) (data : List Byte) : (s.logEvent index sub kind unit data).exchange = s.exchange := (State.logEvent_reports s index sub kind unit data).exchange
@[simp] theorem State.logEvent_power (s : State) (index sub kind unit : Nat) (data : List Byte) : (s.logEvent index sub kind unit data).power = s.power := (State.logEvent_reports s index sub kind unit data).power
@[simp] theorem State.logEvent_repair (s : State) (index sub kind unit : Nat) (data : List Byte) : (s.logEvent index sub kind unit data).repair = s.repair := (State.logEvent_reports s index sub kind unit data).repair
@[simp] theorem State.logEvent_pins (s : State) (index sub kind unit : Nat) (data : List Byte) : (s.logEvent index sub kind unit data).pins = s.pins := (State.logEvent_reports s index sub kind unit data).pins
@[simp] theorem State.logEvent_freeCount (s : State) (index sub kind unit : Nat) (data : List Byte) : (s.logEvent index sub kind unit data).freeCount = s.freeCount := (State.logEvent_reports s index sub kind unit data).freeCount
@[simp] theorem State.logEvent_pending (s : State) (index sub kind unit : Nat) (data : List Byte) : (s.logEvent index sub kind unit data).pending = s.pending := (State.logEvent_reports s index sub kind unit data).pending
@[simp] theorem State.logState_time (s : State) (index sub unit old new : Nat) : (s.logState index sub unit old new).time = s.time := (State.logState_reports s index sub unit old new).time
@[simp] theorem State.logState_pipe (s : State) (index sub unit old new : Nat) : (s.logState index sub unit old new).pipe = s.pipe := (State.logState_reports s index sub unit old new).pipe
@[simp] theorem State.logState_corpus (s : State) (index sub unit old new : Nat) : (s.logState index sub unit old new).corpus = s.corpus := (State.logState_reports s index sub unit old new).corpus
@[simp] theorem State.logState_epochs (s : State) (index sub unit old new : Nat) : (s.logState index sub unit old new).epochs = s.epochs := (State.logState_reports s index sub unit old new).epochs
@[simp] theorem State.logState_catalog (s : State) (index sub unit old new : Nat) : (s.logState index sub unit old new).catalog = s.catalog := (State.logState_reports s index sub unit old new).catalog
@[simp] theorem State.logState_maint (s : State) (index sub unit old new : Nat) : (s.logState index sub unit old new).maint = s.maint := (State.logState_reports s index sub unit old new).maint
@[simp] theorem State.logState_receipts (s : State) (index sub unit old new : Nat) : (s.logState index sub unit old new).receipts = s.receipts := (State.logState_reports s index sub unit old new).receipts
@[simp] theorem State.logState_images (s : State) (index sub unit old new : Nat) : (s.logState index sub unit old new).images = s.images := (State.logState_reports s index sub unit old new).images
@[simp] theorem State.logState_installs (s : State) (index sub unit old new : Nat) : (s.logState index sub unit old new).installs = s.installs := (State.logState_reports s index sub unit old new).installs
@[simp] theorem State.logState_tenants (s : State) (index sub unit old new : Nat) : (s.logState index sub unit old new).tenants = s.tenants := (State.logState_reports s index sub unit old new).tenants
@[simp] theorem State.logState_dict (s : State) (index sub unit old new : Nat) : (s.logState index sub unit old new).dict = s.dict := (State.logState_reports s index sub unit old new).dict
@[simp] theorem State.logState_mgmt (s : State) (index sub unit old new : Nat) : (s.logState index sub unit old new).mgmt = s.mgmt := (State.logState_reports s index sub unit old new).mgmt
@[simp] theorem State.logState_sensors (s : State) (index sub unit old new : Nat) : (s.logState index sub unit old new).sensors = s.sensors := (State.logState_reports s index sub unit old new).sensors
@[simp] theorem State.logState_tiers (s : State) (index sub unit old new : Nat) : (s.logState index sub unit old new).tiers = s.tiers := (State.logState_reports s index sub unit old new).tiers
@[simp] theorem State.logState_staging (s : State) (index sub unit old new : Nat) : (s.logState index sub unit old new).staging = s.staging := (State.logState_reports s index sub unit old new).staging
@[simp] theorem State.logState_flash (s : State) (index sub unit old new : Nat) : (s.logState index sub unit old new).flash = s.flash := (State.logState_reports s index sub unit old new).flash
@[simp] theorem State.logState_fabric (s : State) (index sub unit old new : Nat) : (s.logState index sub unit old new).fabric = s.fabric := (State.logState_reports s index sub unit old new).fabric
@[simp] theorem State.logState_exchange (s : State) (index sub unit old new : Nat) : (s.logState index sub unit old new).exchange = s.exchange := (State.logState_reports s index sub unit old new).exchange
@[simp] theorem State.logState_power (s : State) (index sub unit old new : Nat) : (s.logState index sub unit old new).power = s.power := (State.logState_reports s index sub unit old new).power
@[simp] theorem State.logState_repair (s : State) (index sub unit old new : Nat) : (s.logState index sub unit old new).repair = s.repair := (State.logState_reports s index sub unit old new).repair
@[simp] theorem State.logState_pins (s : State) (index sub unit old new : Nat) : (s.logState index sub unit old new).pins = s.pins := (State.logState_reports s index sub unit old new).pins
@[simp] theorem State.logState_freeCount (s : State) (index sub unit old new : Nat) : (s.logState index sub unit old new).freeCount = s.freeCount := (State.logState_reports s index sub unit old new).freeCount
@[simp] theorem State.logState_pending (s : State) (index sub unit old new : Nat) : (s.logState index sub unit old new).pending = s.pending := (State.logState_reports s index sub unit old new).pending
@[simp] theorem State.hostMessage_time (s : State) (c ty : Nat) (p : List Byte) : (s.hostMessage c ty p).time = s.time := (State.hostMessage_reports s c ty p).time
@[simp] theorem State.hostMessage_pipe (s : State) (c ty : Nat) (p : List Byte) : (s.hostMessage c ty p).pipe = s.pipe := (State.hostMessage_reports s c ty p).pipe
@[simp] theorem State.hostMessage_corpus (s : State) (c ty : Nat) (p : List Byte) : (s.hostMessage c ty p).corpus = s.corpus := (State.hostMessage_reports s c ty p).corpus
@[simp] theorem State.hostMessage_epochs (s : State) (c ty : Nat) (p : List Byte) : (s.hostMessage c ty p).epochs = s.epochs := (State.hostMessage_reports s c ty p).epochs
@[simp] theorem State.hostMessage_catalog (s : State) (c ty : Nat) (p : List Byte) : (s.hostMessage c ty p).catalog = s.catalog := (State.hostMessage_reports s c ty p).catalog
@[simp] theorem State.hostMessage_maint (s : State) (c ty : Nat) (p : List Byte) : (s.hostMessage c ty p).maint = s.maint := (State.hostMessage_reports s c ty p).maint
@[simp] theorem State.hostMessage_receipts (s : State) (c ty : Nat) (p : List Byte) : (s.hostMessage c ty p).receipts = s.receipts := (State.hostMessage_reports s c ty p).receipts
@[simp] theorem State.hostMessage_images (s : State) (c ty : Nat) (p : List Byte) : (s.hostMessage c ty p).images = s.images := (State.hostMessage_reports s c ty p).images
@[simp] theorem State.hostMessage_installs (s : State) (c ty : Nat) (p : List Byte) : (s.hostMessage c ty p).installs = s.installs := (State.hostMessage_reports s c ty p).installs
@[simp] theorem State.hostMessage_tenants (s : State) (c ty : Nat) (p : List Byte) : (s.hostMessage c ty p).tenants = s.tenants := (State.hostMessage_reports s c ty p).tenants
@[simp] theorem State.hostMessage_dict (s : State) (c ty : Nat) (p : List Byte) : (s.hostMessage c ty p).dict = s.dict := (State.hostMessage_reports s c ty p).dict
@[simp] theorem State.hostMessage_mgmt (s : State) (c ty : Nat) (p : List Byte) : (s.hostMessage c ty p).mgmt = s.mgmt := (State.hostMessage_reports s c ty p).mgmt
@[simp] theorem State.hostMessage_sensors (s : State) (c ty : Nat) (p : List Byte) : (s.hostMessage c ty p).sensors = s.sensors := (State.hostMessage_reports s c ty p).sensors
@[simp] theorem State.hostMessage_tiers (s : State) (c ty : Nat) (p : List Byte) : (s.hostMessage c ty p).tiers = s.tiers := (State.hostMessage_reports s c ty p).tiers
@[simp] theorem State.hostMessage_staging (s : State) (c ty : Nat) (p : List Byte) : (s.hostMessage c ty p).staging = s.staging := (State.hostMessage_reports s c ty p).staging
@[simp] theorem State.hostMessage_flash (s : State) (c ty : Nat) (p : List Byte) : (s.hostMessage c ty p).flash = s.flash := (State.hostMessage_reports s c ty p).flash
@[simp] theorem State.hostMessage_fabric (s : State) (c ty : Nat) (p : List Byte) : (s.hostMessage c ty p).fabric = s.fabric := (State.hostMessage_reports s c ty p).fabric
@[simp] theorem State.hostMessage_exchange (s : State) (c ty : Nat) (p : List Byte) : (s.hostMessage c ty p).exchange = s.exchange := (State.hostMessage_reports s c ty p).exchange
@[simp] theorem State.hostMessage_power (s : State) (c ty : Nat) (p : List Byte) : (s.hostMessage c ty p).power = s.power := (State.hostMessage_reports s c ty p).power
@[simp] theorem State.hostMessage_repair (s : State) (c ty : Nat) (p : List Byte) : (s.hostMessage c ty p).repair = s.repair := (State.hostMessage_reports s c ty p).repair
@[simp] theorem State.hostMessage_pins (s : State) (c ty : Nat) (p : List Byte) : (s.hostMessage c ty p).pins = s.pins := (State.hostMessage_reports s c ty p).pins
@[simp] theorem State.hostMessage_freeCount (s : State) (c ty : Nat) (p : List Byte) : (s.hostMessage c ty p).freeCount = s.freeCount := (State.hostMessage_reports s c ty p).freeCount
@[simp] theorem State.hostMessage_pending (s : State) (c ty : Nat) (p : List Byte) : (s.hostMessage c ty p).pending = s.pending := (State.hostMessage_reports s c ty p).pending

/-! ## Health points and time -/

theorem State.setHealth_eq (s : State) (unit : Nat) (h : Health) :
    Reports { s with repair := { s.repair with health := s.repair.health.put unit {} h } } (s.setHealth unit h) := by
  unfold State.setHealth
  dsimp only
  split
  · exact Reports.refl _
  · exact State.logState_reports _ _ _ _ _ _

@[simp] theorem State.setHealth_repair (s : State) (unit : Nat) (h : Health) :
    (s.setHealth unit h).repair = { s.repair with health := s.repair.health.put unit {} h } := (State.setHealth_eq s unit h).repair

theorem Reports.idle {s x : State} (h : Reports s x) (idle : Table (Nat × Nat)) :
    ∃ i, Reports { s with power := { s.power with idleAt := i } } { x with power := { x.power with idleAt := idle } } := by
  obtain ⟨a, b, c, d, e, rfl⟩ := h
  exact ⟨idle, a, b, c, d, e, rfl⟩

theorem State.meterTiles_eq (s : State) (t0 t1 : Nat) : s.meterTiles t0 t1 = { s with tenants := (s.meterTiles t0 t1).tenants } := by
  have keep {α : Type} (f : State → α → State) (hf : ∀ (a : State) x, f a x = { a with tenants := (f a x).tenants }) (xs : List α) :
      ∀ a : State, xs.foldl f a = { a with tenants := (xs.foldl f a).tenants } := by
    induction xs with
    | nil => exact fun a => rfl
    | cons x xs ih =>
      intro a
      rw [List.foldl_cons, ih (f a x)]
      rw [hf a x]
  unfold State.meterTiles
  refine keep _ (fun a kp => keep _ (fun a i => ?_) _ a) _ s
  split
  · rfl
  · exact State.meter_eq _ _ _ _
  · rfl

theorem State.countStalls_reports (s : State) (t0 t1 : Nat) : Reports s (s.countStalls t0 t1) := by
  unfold State.countStalls
  refine Reports.foldl (fun a g => Reports.foldl (fun a sub => ?_) _ a) _ s
  split
  · exact State.count_reports _ _ _
  · exact Reports.refl a

theorem State.countTiles_reports (s : State) (t0 t1 : Nat) : Reports s (s.countTiles t0 t1) := by
  unfold State.countTiles
  exact Reports.foldl (fun a kp => Reports.foldl (fun a i => State.count_reports _ _ _) _ a) _ s

theorem State.countWalks_reports (s : State) (t0 t1 : Nat) : Reports s (s.countWalks t0 t1) := by
  unfold State.countWalks
  refine Reports.foldl (fun a p => ?_) _ s
  split
  · exact State.count_reports _ _ _
  · exact Reports.refl a

theorem State.elapse_eq (s : State) (t0 t1 : Nat) :
    ∃ idle, Reports { s with tenants := (s.meterTiles t0 t1).tenants, power := { s.power with idleAt := idle } } (s.elapse t0 t1) := by
  unfold State.elapse
  have h0 : Reports { s with tenants := (s.meterTiles t0 t1).tenants }
      ((((s.meterTiles t0 t1).countStalls t0 t1).countTiles t0 t1).countWalks t0 t1) := by
    rw [← State.meterTiles_eq]
    exact ((State.countStalls_reports _ _ _).trans (State.countTiles_reports _ _ _)).trans (State.countWalks_reports _ _ _)
  refine Reports.idle (s := { s with tenants := (s.meterTiles t0 t1).tenants }) ?_ _
  refine Reports.trans ?_ (Reports.foldl (fun a x => State.count_reports _ _ _) _ _)
  refine Reports.trans ?_ (Reports.foldl (fun a x => State.count_reports _ _ _) _ _)
  refine Reports.trans ?_ (State.count_reports _ _ _)
  refine h0.trans (Reports.foldl (fun a x => ?_) _ _)
  split
  · exact State.count_reports _ _ _
  · exact Reports.refl a

/-- What the passing of time changes: the clock, the counters of waiting and held work with what they report, the tenants' tile-cycles, and
until when each powered domain has been in use. -/
theorem State.advance_eq (s : State) (t : Nat) :
    Ticked s t (s.advance t) := by
  unfold State.advance Ticked State.tenantsAt
  split
  · rename_i h
    exact ⟨s.power.idleAt, by rw [Nat.max_eq_left h]; exact Reports.refl s⟩
  · rename_i h
    obtain ⟨i, a, b, c, d, e, hE⟩ := State.elapse_eq s s.time t
    exact ⟨i, a, b, c, d, e, by rw [hE, Nat.max_eq_right (Nat.le_of_not_le h)]⟩

@[simp] theorem State.advance_time (s : State) (t : Nat) : (s.advance t).time = max s.time t := by
  obtain ⟨_, h⟩ := State.advance_eq s t; exact h.time

@[simp] theorem State.advance_pipe (s : State) (t : Nat) : (s.advance t).pipe = s.pipe := by obtain ⟨_, h⟩ := State.advance_eq s t; exact h.pipe
@[simp] theorem State.advance_corpus (s : State) (t : Nat) : (s.advance t).corpus = s.corpus := by obtain ⟨_, h⟩ := State.advance_eq s t; exact h.corpus
@[simp] theorem State.advance_epochs (s : State) (t : Nat) : (s.advance t).epochs = s.epochs := by obtain ⟨_, h⟩ := State.advance_eq s t; exact h.epochs
@[simp] theorem State.advance_catalog (s : State) (t : Nat) : (s.advance t).catalog = s.catalog := by obtain ⟨_, h⟩ := State.advance_eq s t; exact h.catalog
@[simp] theorem State.advance_maint (s : State) (t : Nat) : (s.advance t).maint = s.maint := by obtain ⟨_, h⟩ := State.advance_eq s t; exact h.maint
@[simp] theorem State.advance_receipts (s : State) (t : Nat) : (s.advance t).receipts = s.receipts := by obtain ⟨_, h⟩ := State.advance_eq s t; exact h.receipts
@[simp] theorem State.advance_images (s : State) (t : Nat) : (s.advance t).images = s.images := by obtain ⟨_, h⟩ := State.advance_eq s t; exact h.images
@[simp] theorem State.advance_installs (s : State) (t : Nat) : (s.advance t).installs = s.installs := by obtain ⟨_, h⟩ := State.advance_eq s t; exact h.installs
@[simp] theorem State.advance_tenants (s : State) (t : Nat) : (s.advance t).tenants = s.tenantsAt t := by obtain ⟨_, h⟩ := State.advance_eq s t; exact h.tenants
@[simp] theorem State.advance_dict (s : State) (t : Nat) : (s.advance t).dict = s.dict := by obtain ⟨_, h⟩ := State.advance_eq s t; exact h.dict
@[simp] theorem State.advance_mgmt (s : State) (t : Nat) : (s.advance t).mgmt = s.mgmt := by obtain ⟨_, h⟩ := State.advance_eq s t; exact h.mgmt
@[simp] theorem State.advance_sensors (s : State) (t : Nat) : (s.advance t).sensors = s.sensors := by obtain ⟨_, h⟩ := State.advance_eq s t; exact h.sensors
@[simp] theorem State.advance_tiers (s : State) (t : Nat) : (s.advance t).tiers = s.tiers := by obtain ⟨_, h⟩ := State.advance_eq s t; exact h.tiers
@[simp] theorem State.advance_staging (s : State) (t : Nat) : (s.advance t).staging = s.staging := by obtain ⟨_, h⟩ := State.advance_eq s t; exact h.staging
@[simp] theorem State.advance_flash (s : State) (t : Nat) : (s.advance t).flash = s.flash := by obtain ⟨_, h⟩ := State.advance_eq s t; exact h.flash
@[simp] theorem State.advance_fabric (s : State) (t : Nat) : (s.advance t).fabric = s.fabric := by obtain ⟨_, h⟩ := State.advance_eq s t; exact h.fabric
@[simp] theorem State.advance_exchange (s : State) (t : Nat) : (s.advance t).exchange = s.exchange := by obtain ⟨_, h⟩ := State.advance_eq s t; exact h.exchange
@[simp] theorem State.advance_repair (s : State) (t : Nat) : (s.advance t).repair = s.repair := by obtain ⟨_, h⟩ := State.advance_eq s t; exact h.repair
@[simp] theorem State.advance_pins (s : State) (t : Nat) : (s.advance t).pins = s.pins := by obtain ⟨_, h⟩ := State.advance_eq s t; exact h.pins
@[simp] theorem State.advance_freeCount (s : State) (t : Nat) : (s.advance t).freeCount = s.freeCount := by obtain ⟨_, h⟩ := State.advance_eq s t; exact h.freeCount
@[simp] theorem State.advance_pending (s : State) (t : Nat) : (s.advance t).pending = s.pending := by obtain ⟨_, h⟩ := State.advance_eq s t; exact h.pending
@[simp] theorem State.setHealth_time (s : State) (unit : Nat) (h : Health) : (s.setHealth unit h).time = s.time := (State.setHealth_eq s unit h).time
@[simp] theorem State.score_time (s : State) (unit points : Nat) : (s.score unit points).time = s.time := by unfold State.score; dsimp only; split <;> simp
@[simp] theorem State.setHealth_pipe (s : State) (unit : Nat) (h : Health) : (s.setHealth unit h).pipe = s.pipe := (State.setHealth_eq s unit h).pipe
@[simp] theorem State.score_pipe (s : State) (unit points : Nat) : (s.score unit points).pipe = s.pipe := by unfold State.score; dsimp only; split <;> simp
@[simp] theorem State.setHealth_corpus (s : State) (unit : Nat) (h : Health) : (s.setHealth unit h).corpus = s.corpus := (State.setHealth_eq s unit h).corpus
@[simp] theorem State.score_corpus (s : State) (unit points : Nat) : (s.score unit points).corpus = s.corpus := by unfold State.score; dsimp only; split <;> simp
@[simp] theorem State.setHealth_epochs (s : State) (unit : Nat) (h : Health) : (s.setHealth unit h).epochs = s.epochs := (State.setHealth_eq s unit h).epochs
@[simp] theorem State.score_epochs (s : State) (unit points : Nat) : (s.score unit points).epochs = s.epochs := by unfold State.score; dsimp only; split <;> simp
@[simp] theorem State.setHealth_catalog (s : State) (unit : Nat) (h : Health) : (s.setHealth unit h).catalog = s.catalog := (State.setHealth_eq s unit h).catalog
@[simp] theorem State.score_catalog (s : State) (unit points : Nat) : (s.score unit points).catalog = s.catalog := by unfold State.score; dsimp only; split <;> simp
@[simp] theorem State.setHealth_maint (s : State) (unit : Nat) (h : Health) : (s.setHealth unit h).maint = s.maint := (State.setHealth_eq s unit h).maint
@[simp] theorem State.score_maint (s : State) (unit points : Nat) : (s.score unit points).maint = s.maint := by unfold State.score; dsimp only; split <;> simp
@[simp] theorem State.setHealth_receipts (s : State) (unit : Nat) (h : Health) : (s.setHealth unit h).receipts = s.receipts := (State.setHealth_eq s unit h).receipts
@[simp] theorem State.score_receipts (s : State) (unit points : Nat) : (s.score unit points).receipts = s.receipts := by unfold State.score; dsimp only; split <;> simp
@[simp] theorem State.setHealth_images (s : State) (unit : Nat) (h : Health) : (s.setHealth unit h).images = s.images := (State.setHealth_eq s unit h).images
@[simp] theorem State.score_images (s : State) (unit points : Nat) : (s.score unit points).images = s.images := by unfold State.score; dsimp only; split <;> simp
@[simp] theorem State.setHealth_installs (s : State) (unit : Nat) (h : Health) : (s.setHealth unit h).installs = s.installs := (State.setHealth_eq s unit h).installs
@[simp] theorem State.score_installs (s : State) (unit points : Nat) : (s.score unit points).installs = s.installs := by unfold State.score; dsimp only; split <;> simp
@[simp] theorem State.setHealth_tenants (s : State) (unit : Nat) (h : Health) : (s.setHealth unit h).tenants = s.tenants := (State.setHealth_eq s unit h).tenants
@[simp] theorem State.score_tenants (s : State) (unit points : Nat) : (s.score unit points).tenants = s.tenants := by unfold State.score; dsimp only; split <;> simp
@[simp] theorem State.setHealth_dict (s : State) (unit : Nat) (h : Health) : (s.setHealth unit h).dict = s.dict := (State.setHealth_eq s unit h).dict
@[simp] theorem State.score_dict (s : State) (unit points : Nat) : (s.score unit points).dict = s.dict := by unfold State.score; dsimp only; split <;> simp
@[simp] theorem State.setHealth_mgmt (s : State) (unit : Nat) (h : Health) : (s.setHealth unit h).mgmt = s.mgmt := (State.setHealth_eq s unit h).mgmt
@[simp] theorem State.score_mgmt (s : State) (unit points : Nat) : (s.score unit points).mgmt = s.mgmt := by unfold State.score; dsimp only; split <;> simp
@[simp] theorem State.setHealth_sensors (s : State) (unit : Nat) (h : Health) : (s.setHealth unit h).sensors = s.sensors := (State.setHealth_eq s unit h).sensors
@[simp] theorem State.score_sensors (s : State) (unit points : Nat) : (s.score unit points).sensors = s.sensors := by unfold State.score; dsimp only; split <;> simp
@[simp] theorem State.setHealth_tiers (s : State) (unit : Nat) (h : Health) : (s.setHealth unit h).tiers = s.tiers := (State.setHealth_eq s unit h).tiers
@[simp] theorem State.score_tiers (s : State) (unit points : Nat) : (s.score unit points).tiers = s.tiers := by unfold State.score; dsimp only; split <;> simp
@[simp] theorem State.setHealth_staging (s : State) (unit : Nat) (h : Health) : (s.setHealth unit h).staging = s.staging := (State.setHealth_eq s unit h).staging
@[simp] theorem State.score_staging (s : State) (unit points : Nat) : (s.score unit points).staging = s.staging := by unfold State.score; dsimp only; split <;> simp
@[simp] theorem State.setHealth_flash (s : State) (unit : Nat) (h : Health) : (s.setHealth unit h).flash = s.flash := (State.setHealth_eq s unit h).flash
@[simp] theorem State.score_flash (s : State) (unit points : Nat) : (s.score unit points).flash = s.flash := by unfold State.score; dsimp only; split <;> simp
@[simp] theorem State.setHealth_fabric (s : State) (unit : Nat) (h : Health) : (s.setHealth unit h).fabric = s.fabric := (State.setHealth_eq s unit h).fabric
@[simp] theorem State.score_fabric (s : State) (unit points : Nat) : (s.score unit points).fabric = s.fabric := by unfold State.score; dsimp only; split <;> simp
@[simp] theorem State.setHealth_exchange (s : State) (unit : Nat) (h : Health) : (s.setHealth unit h).exchange = s.exchange := (State.setHealth_eq s unit h).exchange
@[simp] theorem State.score_exchange (s : State) (unit points : Nat) : (s.score unit points).exchange = s.exchange := by unfold State.score; dsimp only; split <;> simp
@[simp] theorem State.setHealth_power (s : State) (unit : Nat) (h : Health) : (s.setHealth unit h).power = s.power := (State.setHealth_eq s unit h).power
@[simp] theorem State.score_power (s : State) (unit points : Nat) : (s.score unit points).power = s.power := by unfold State.score; dsimp only; split <;> simp
@[simp] theorem State.setHealth_pins (s : State) (unit : Nat) (h : Health) : (s.setHealth unit h).pins = s.pins := (State.setHealth_eq s unit h).pins
@[simp] theorem State.score_pins (s : State) (unit points : Nat) : (s.score unit points).pins = s.pins := by unfold State.score; dsimp only; split <;> simp
@[simp] theorem State.setHealth_freeCount (s : State) (unit : Nat) (h : Health) : (s.setHealth unit h).freeCount = s.freeCount := (State.setHealth_eq s unit h).freeCount
@[simp] theorem State.score_freeCount (s : State) (unit points : Nat) : (s.score unit points).freeCount = s.freeCount := by unfold State.score; dsimp only; split <;> simp
@[simp] theorem State.setHealth_pending (s : State) (unit : Nat) (h : Health) : (s.setHealth unit h).pending = s.pending := (State.setHealth_eq s unit h).pending
@[simp] theorem State.score_pending (s : State) (unit points : Nat) : (s.score unit points).pending = s.pending := by unfold State.score; dsimp only; split <;> simp
@[simp] theorem State.advance_power_f (s : State) (t : Nat) : (s.advance t).power.f = s.power.f := by obtain ⟨_, h⟩ := State.advance_eq s t; rw [h.power]
@[simp] theorem State.advance_power_doms (s : State) (t : Nat) : (s.advance t).power.doms = s.power.doms := by obtain ⟨_, h⟩ := State.advance_eq s t; rw [h.power]
@[simp] theorem State.advance_power_pllAt (s : State) (t : Nat) : (s.advance t).power.pllAt = s.power.pllAt := by obtain ⟨_, h⟩ := State.advance_eq s t; rw [h.power]
@[simp] theorem State.advance_power_requests (s : State) (t : Nat) : (s.advance t).power.requests = s.power.requests := by obtain ⟨_, h⟩ := State.advance_eq s t; rw [h.power]
@[simp] theorem State.advance_power_granted (s : State) (t : Nat) : (s.advance t).power.granted = s.power.granted := by obtain ⟨_, h⟩ := State.advance_eq s t; rw [h.power]
@[simp] theorem State.advance_power_lastSlot (s : State) (t : Nat) : (s.advance t).power.lastSlot = s.power.lastSlot := by obtain ⟨_, h⟩ := State.advance_eq s t; rw [h.power]
@[simp] theorem State.advance_power_histSnap (s : State) (t : Nat) : (s.advance t).power.histSnap = s.power.histSnap := by obtain ⟨_, h⟩ := State.advance_eq s t; rw [h.power]
@[simp] theorem State.advance_power_histSeq (s : State) (t : Nat) : (s.advance t).power.histSeq = s.power.histSeq := by obtain ⟨_, h⟩ := State.advance_eq s t; rw [h.power]
@[simp] theorem State.advance_power_voltStep (s : State) (t : Nat) : (s.advance t).power.voltStep = s.power.voltStep := by obtain ⟨_, h⟩ := State.advance_eq s t; rw [h.power]
@[simp] theorem State.advance_power_aboveSince (s : State) (t : Nat) : (s.advance t).power.aboveSince = s.power.aboveSince := by obtain ⟨_, h⟩ := State.advance_eq s t; rw [h.power]
@[simp] theorem State.advance_power_limiterUntil (s : State) (t : Nat) : (s.advance t).power.limiterUntil = s.power.limiterUntil := by obtain ⟨_, h⟩ := State.advance_eq s t; rw [h.power]
@[simp] theorem State.advance_power_limiterOn (s : State) (t : Nat) : (s.advance t).power.limiterOn = s.power.limiterOn := by obtain ⟨_, h⟩ := State.advance_eq s t; rw [h.power]
@[simp] theorem State.advance_power_overCurrentAt (s : State) (t : Nat) : (s.advance t).power.overCurrentAt = s.power.overCurrentAt := by obtain ⟨_, h⟩ := State.advance_eq s t; rw [h.power]
@[simp] theorem State.advance_power_step (s : State) (t : Nat) : (s.advance t).power.step = s.power.step := by obtain ⟨_, h⟩ := State.advance_eq s t; rw [h.power]
@[simp] theorem State.advance_power_volts (s : State) (t : Nat) : (s.advance t).power.volts = s.power.volts := by obtain ⟨_, h⟩ := State.advance_eq s t; rw [h.power]
@[simp] theorem State.advance_power_filtered (s : State) (t : Nat) : (s.advance t).power.filtered = s.power.filtered := by obtain ⟨_, h⟩ := State.advance_eq s t; rw [h.power]
@[simp] theorem State.advance_power_amps (s : State) (t : Nat) : (s.advance t).power.amps = s.power.amps := by obtain ⟨_, h⟩ := State.advance_eq s t; rw [h.power]
@[simp] theorem State.advance_power_belowSince (s : State) (t : Nat) : (s.advance t).power.belowSince = s.power.belowSince := by obtain ⟨_, h⟩ := State.advance_eq s t; rw [h.power]
@[simp] theorem State.advance_power_above (s : State) (t : Nat) : (s.advance t).power.above = s.power.above := by obtain ⟨_, h⟩ := State.advance_eq s t; rw [h.power]
@[simp] theorem State.advance_power_lastDown (s : State) (t : Nat) : (s.advance t).power.lastDown = s.power.lastDown := by obtain ⟨_, h⟩ := State.advance_eq s t; rw [h.power]
@[simp] theorem State.advance_power_lastUp (s : State) (t : Nat) : (s.advance t).power.lastUp = s.power.lastUp := by obtain ⟨_, h⟩ := State.advance_eq s t; rw [h.power]
@[simp] theorem State.advance_power_thermal (s : State) (t : Nat) : (s.advance t).power.thermal = s.power.thermal := by obtain ⟨_, h⟩ := State.advance_eq s t; rw [h.power]
@[simp] theorem State.advance_power_startSince (s : State) (t : Nat) : (s.advance t).power.startSince = s.power.startSince := by obtain ⟨_, h⟩ := State.advance_eq s t; rw [h.power]
@[simp] theorem State.advance_power_throttled (s : State) (t : Nat) : (s.advance t).power.throttled = s.power.throttled := by obtain ⟨_, h⟩ := State.advance_eq s t; rw [h.power]
@[simp] theorem State.advance_power_tripped (s : State) (t : Nat) : (s.advance t).power.tripped = s.power.tripped := by obtain ⟨_, h⟩ := State.advance_eq s t; rw [h.power]
@[simp] theorem State.advance_power_capSince (s : State) (t : Nat) : (s.advance t).power.capSince = s.power.capSince := by obtain ⟨_, h⟩ := State.advance_eq s t; rw [h.power]
@[simp] theorem State.advance_power_capCounted (s : State) (t : Nat) : (s.advance t).power.capCounted = s.power.capCounted := by obtain ⟨_, h⟩ := State.advance_eq s t; rw [h.power]
@[simp] theorem State.advance_power_flushing (s : State) (t : Nat) : (s.advance t).power.flushing = s.power.flushing := by obtain ⟨_, h⟩ := State.advance_eq s t; rw [h.power]
@[simp] theorem State.advance_power_switchOpen (s : State) (t : Nat) : (s.advance t).power.switchOpen = s.power.switchOpen := by obtain ⟨_, h⟩ := State.advance_eq s t; rw [h.power]
@[simp] theorem State.advance_power_busOff (s : State) (t : Nat) : (s.advance t).power.busOff = s.power.busOff := by obtain ⟨_, h⟩ := State.advance_eq s t; rw [h.power]
end Sys2Proof.Machine
end

