-- ==== Sys2Proof/Laws/Table.lean ====
section
/-! SUPPORT. The laws of the keyed table: a read after a write. -/
namespace Sys2Proof.Machine

/-- A key reads as it was last written; every other key reads as before. -/
theorem Table.get_set {α : Type} (m : Table α) (k : Nat) (v : α) (j : Nat) : Table.get (Table.set m k v) j = if j = k then some v else Table.get m j := by
  induction m with
  | nil =>
    simp only [Table.set, Table.get]
    by_cases h : j = k
    · rw [if_pos h, if_pos h]
    · rw [if_neg h, if_neg h]; split <;> rfl
  | cons c t ih =>
    obtain ⟨k', v'⟩ := c
    unfold Table.set
    by_cases hk : k = k'
    · rw [if_pos hk]
      subst hk
      simp only [Table.get]
      by_cases h : j = k
      · rw [if_pos h, if_pos h]
      · rw [if_neg h, if_neg h, if_neg h]
    · rw [if_neg hk]
      by_cases hl : k < k'
      · rw [if_pos hl]
        simp only [Table.get]
        by_cases h : j = k
        · rw [if_pos h, if_pos h]
        · rw [if_neg h, if_neg h]
          by_cases h2 : j < k
          · rw [if_pos h2, if_neg (by omega), if_pos (by omega)]
          · rw [if_neg h2]
      · rw [if_neg hl]
        simp only [Table.get, ih]
        by_cases h : j = k
        · rw [if_pos h, if_neg (by omega), if_neg (by omega), if_pos h]
        · rw [if_neg h, if_neg h]

@[simp] theorem Table.get_set_same {α : Type} (m : Table α) (k : Nat) (v : α) : Table.get (Table.set m k v) k = some v := by
  rw [Table.get_set, if_pos rfl]

theorem Table.get_set_other {α : Type} (m : Table α) (k : Nat) (v : α) {j : Nat} (h : j ≠ k) : Table.get (Table.set m k v) j = Table.get m j := by
  rw [Table.get_set, if_neg h]

@[simp] theorem Table.getD_set_same {α : Type} (m : Table α) (k : Nat) (v d : α) : Table.getD (Table.set m k v) k d = v := by
  rw [Table.getD, Table.get_set_same]; rfl

theorem Table.getD_set_other {α : Type} (m : Table α) (k : Nat) (v d : α) {j : Nat} (h : j ≠ k) :
    Table.getD (Table.set m k v) j d = Table.getD m j d := by
  rw [Table.getD, Table.get_set_other m k v h]; rfl

/-- A value that is not the default reads as it was put. -/
theorem Table.getD_put_same {α : Type} [DecidableEq α] (m : Table α) (k : Nat) (d v : α) (h : v ≠ d) : Table.getD (Table.put m k d v) k d = v := by
  rw [Table.put, if_neg h, Table.getD_set_same]

theorem Table.get_alter {α : Type} (m : Table α) (k : Nat) (f : α → α) (j : Nat) :
    Table.get (Table.alter m k f) j = if j = k then (Table.get m k).map f else Table.get m j := by
  unfold Table.alter
  split
  · rename_i v h
    rw [Table.get_set, h]; rfl
  · rename_i h
    by_cases e : j = k
    · rw [if_pos e, e, h]; rfl
    · rw [if_neg e]

theorem Table.get_mapVals {α : Type} (f : α → α) (m : Table α) (k : Nat) : Table.get (Table.mapVals f m) k = (Table.get m k).map f := by
  induction m with
  | nil => rfl
  | cons c t ih =>
    obtain ⟨k', v'⟩ := c
    simp only [Table.mapVals, List.map_cons, Table.get]
    split
    · rfl
    · split
      · rfl
      · exact ih

theorem Table.head_lt {α : Type} {k : Nat} {v : α} {t : Table α} (h : Table.wf ((k, v) :: t) = true) : ∀ j, Table.get t j ≠ none → k < j := by
  induction t generalizing k v with
  | nil => intro j hj; simp [Table.get] at hj
  | cons x t ih =>
    obtain ⟨k', v'⟩ := x
    simp only [Table.wf, Bool.and_eq_true, decide_eq_true_eq] at h
    intro j hj
    simp only [Table.get] at hj
    by_cases e : j = k'
    · omega
    · by_cases l : j < k'
      · simp [e, l] at hj
      · simp [e, l] at hj
        have := ih h.2 j hj
        omega

theorem Table.wf_tail {α : Type} {k : Nat} {v : α} {t : Table α} (h : Table.wf ((k, v) :: t) = true) : Table.wf t = true := by
  cases t with
  | nil => rfl
  | cons x t => simp only [Table.wf, Bool.and_eq_true] at h; exact h.2

theorem Table.get_erase {α : Type} (m : Table α) (k j : Nat) (h : Table.wf m = true) :
    Table.get (Table.erase m k) j = if j = k then none else Table.get m j := by
  induction m with
  | nil => simp [Table.erase, Table.get]
  | cons x t ih =>
    obtain ⟨k', v'⟩ := x
    simp only [Table.erase]
    have hw := Table.wf_tail h
    have hl := Table.head_lt h
    by_cases e : k = k'
    · subst e
      simp only [if_true, Table.get]
      by_cases ej : j = k
      · subst ej
        simp only [if_true]
        cases hx : Table.get t j with
        | none => rfl
        | some v => have := hl j (by simp [hx]); omega
      · by_cases lj : j < k
        · simp only [ej, lj, if_true, if_false]
          cases hx : Table.get t j with
          | none => rfl
          | some v => have := hl j (by simp [hx]); omega
        · simp [ej, lj]
    · by_cases l : k < k'
      · simp only [e, l, if_true, if_false, Table.get]
        by_cases ej : j = k
        · subst ej; simp [e, l]
        · simp [ej]
      · simp only [e, l, if_false, Table.get, ih hw]
        by_cases ej : j = k
        · subst ej; simp [e, l]
        · simp [ej]

theorem Table.getD_put {α : Type} [DecidableEq α] (m : Table α) (k j : Nat) (d v : α) (h : Table.wf m = true) :
    Table.getD (Table.put m k d v) j d = if j = k then v else Table.getD m j d := by
  unfold Table.put Table.getD
  split
  · rename_i e
    rw [Table.get_erase _ _ _ h]
    split <;> simp [e]
  · rw [Table.get_set]; split <;> simp

/-- A table whose keys all lie above a key stays in canonical form behind it. -/
theorem Table.wf_cons {α : Type} {k : Nat} {v : α} {t : Table α} (h : Table.wf t = true) (hl : ∀ c ∈ t, k < c.1) : Table.wf ((k, v) :: t) = true := by
  cases t with
  | nil => rfl
  | cons x t => simp only [Table.wf, Bool.and_eq_true, decide_eq_true_eq]; exact ⟨hl x List.mem_cons_self, h⟩

theorem Table.mem_lt {α : Type} {k : Nat} {v : α} {t : Table α} (h : Table.wf ((k, v) :: t) = true) : ∀ c ∈ t, k < c.1 := by
  induction t generalizing k v with
  | nil => intro c hc; cases hc
  | cons x t ih =>
    obtain ⟨k', v'⟩ := x
    simp only [Table.wf, Bool.and_eq_true, decide_eq_true_eq] at h
    intro c hc
    rcases List.mem_cons.1 hc with rfl | hc
    · exact h.1
    · exact Nat.lt_trans h.1 (ih h.2 c hc)

theorem Table.wf_filter {α : Type} (p : Nat × α → Bool) (m : Table α) (h : Table.wf m = true) : Table.wf (m.filter p) = true := by
  induction m with
  | nil => rfl
  | cons x t ih =>
    have hl := Table.mem_lt h
    have := ih (Table.wf_tail h)
    rw [List.filter_cons]
    split
    · exact Table.wf_cons this fun c hc => hl c ((List.mem_filter.1 hc).1)
    · exact this

theorem Table.wf_keep {α : Type} (p : Nat → α → Bool) (m : Table α) (h : Table.wf m = true) : Table.wf (m.keep p) = true :=
  Table.wf_filter _ m h

theorem Table.mem_erase {α : Type} {m : Table α} {k : Nat} {c : Nat × α} (h : c ∈ Table.erase m k) : c ∈ m := by
  induction m with
  | nil => exact h
  | cons x t ih =>
    obtain ⟨k', v'⟩ := x
    unfold Table.erase at h
    split at h
    · exact List.mem_cons_of_mem _ h
    · split at h
      · exact h
      · rcases List.mem_cons.1 h with rfl | h
        · exact List.mem_cons_self
        · exact List.mem_cons_of_mem _ (ih h)

theorem Table.wf_erase {α : Type} (m : Table α) (k : Nat) (h : Table.wf m = true) : Table.wf (Table.erase m k) = true := by
  induction m with
  | nil => rfl
  | cons x t ih =>
    obtain ⟨k', v'⟩ := x
    unfold Table.erase
    split
    · exact Table.wf_tail h
    · split
      · exact h
      · exact Table.wf_cons (ih (Table.wf_tail h)) fun c hc => Table.mem_lt h c (Table.mem_erase hc)

theorem Table.mem_set {α : Type} {m : Table α} {k : Nat} {v : α} {c : Nat × α} (h : c ∈ Table.set m k v) : c = (k, v) ∨ c ∈ m := by
  induction m with
  | nil => exact .inl (List.mem_singleton.1 h)
  | cons x t ih =>
    obtain ⟨k', v'⟩ := x
    unfold Table.set at h
    split at h
    · rcases List.mem_cons.1 h with h | h
      · exact .inl h
      · exact .inr (List.mem_cons_of_mem _ h)
    · split at h
      · rcases List.mem_cons.1 h with h | h
        · exact .inl h
        · exact .inr h
      · rcases List.mem_cons.1 h with rfl | h
        · exact .inr List.mem_cons_self
        · exact (ih h).imp_right (List.mem_cons_of_mem _)

theorem Table.mem_of_get {α : Type} {m : Table α} {k : Nat} {v : α} (h : Table.get m k = some v) : (k, v) ∈ m := by
  induction m with
  | nil => cases h
  | cons x t ih =>
    obtain ⟨k', v'⟩ := x
    unfold Table.get at h
    split at h
    · rename_i e
      cases h; subst e
      exact List.mem_cons_self
    · split at h
      · cases h
      · exact List.mem_cons_of_mem _ (ih h)

theorem Table.wf_set {α : Type} (m : Table α) (k : Nat) (v : α) (h : Table.wf m = true) : Table.wf (Table.set m k v) = true := by
  induction m with
  | nil => rfl
  | cons x t ih =>
    obtain ⟨k', v'⟩ := x
    unfold Table.set
    split
    · rename_i e
      subst e
      exact Table.wf_cons (Table.wf_tail h) (Table.mem_lt h)
    · split
      · rename_i l
        refine Table.wf_cons h fun c hc => ?_
        rcases List.mem_cons.1 hc with rfl | hc
        · exact l
        · exact Nat.lt_trans l (Table.mem_lt h c hc)
      · refine Table.wf_cons (ih (Table.wf_tail h)) fun c hc => ?_
        rcases Table.mem_set hc with rfl | hc
        · simp only; omega
        · exact Table.mem_lt h c hc

theorem Table.wf_put {α : Type} [DecidableEq α] (m : Table α) (k : Nat) (d v : α) (h : Table.wf m = true) : Table.wf (Table.put m k d v) = true := by
  unfold Table.put
  split
  · exact Table.wf_erase m k h
  · exact Table.wf_set m k v h

/-- Counting keeps the counters in canonical form. -/
theorem bumpCounter_wf (counters : Table Nat) (key n : Nat) (h : Table.wf counters = true) : Table.wf (bumpCounter counters key n).1 = true := by
  unfold bumpCounter
  dsimp only
  split
  · exact Table.wf_put _ _ _ _ h
  · split
    · split
      · exact Table.wf_set _ _ _ (Table.wf_put _ _ _ _ h)
      · exact Table.wf_put _ _ _ _ h
    · exact Table.wf_put _ _ _ _ h

end Sys2Proof.Machine
end

