-- ==== Sys2Proof/Laws/Later.lean ====
section
/-! SUPPORT. The order in which one state comes after another: it is reflexive, an update that moves none of its parts back keeps it, and so do folds and choices. -/
namespace Sys2Proof.Machine

theorem mailFits_push {m : Mailboxes} (h : MailFits m) {c : Nat} {x : List Byte} {seqs : Table Nat} (hq : (m.slots.getD c []).length < 8) :
    MailFits { m with slots := m.slots.set c (m.slots.getD c [] ++ [x]), seqs := seqs } := by
  intro k hk
  rcases Table.mem_set hk with rfl | hk
  · simp only [List.length_append, List.length_singleton]; omega
  · exact h k hk
theorem mailFits_pop {m : Mailboxes} (h : MailFits m) {c : Nat} : MailFits { m with slots := m.slots.put c [] (m.slots.getD c []).tail } := by
  intro k hk
  unfold Table.put at hk
  split at hk
  · exact h k (Table.mem_erase hk)
  · rcases Table.mem_set hk with rfl | hk
    · show (List.tail (m.slots.getD c [])).length ≤ 8
      have : (m.slots.getD c []).length ≤ 8 := by
        unfold Table.getD
        cases hg : Table.get m.slots c with
        | none => simp
        | some v => exact h _ (Table.mem_of_get hg)
      rw [List.length_tail]; omega
    · exact h k hk
theorem mailFits_of {m : Mailboxes} {o f : Nat} {q : Table Nat} (h : MailFits m) : MailFits ⟨m.slots, o, f, q⟩ := h
theorem ringFits_of {l : EventLog} {n w o d : Nat} {f b : List LogRec} {y : Bool} (h : RingFits l) : RingFits ⟨n, l.ring, w, f, b, y, o, d⟩ := h
theorem ringFits_add (l : EventLog) (r : LogRec) (n w : Nat) : RingFits { l with nextSeq := n, ring := (l.ring ++ [r]).drop ((l.ring ++ [r]).length - 4096), waiting := w } := by
  unfold RingFits
  rw [List.length_drop]; omega
theorem Later.refl (s : State) : Later s s := ⟨rfl, Nat.le_refl _, Or.inl (Nat.le_refl _), Nat.le_refl _, List.prefix_rfl, rfl, ⟨id, Nat.le_refl _, Nat.le_refl _, Nat.le_refl _, Nat.le_refl _, id, id, id⟩⟩
def State.upd (X : State) (time : Nat) (pipe : Pipe) (corpus : Corpus) (epochs : EpochState) (catalog : Catalog) (maint : Maint) (receipts : Receipts)
    (images : Table Image) (installs : List Install) (tenants : Table Tenant) (host : HostIf) (dict : Dict) (counters : Table Nat) (log : EventLog)
    (mbx : Mailboxes) (mgmt : Mgmt) (sensors : Table F32) (tiers : Tiers) (staging : Staging) (flash : Flash) (fabric : Fabric) (exchange : Exchange)
    (power : Power) (repair : Repair) (pins : Pins) (free : Nat) (out : List Output) : State :=
  State.mk time pipe corpus epochs catalog maint receipts images installs tenants host dict counters log mbx mgmt sensors tiers staging flash fabric exchange power repair pins free out X.pending
theorem State.mk_eq {X : State} {time : Nat} {pipe : Pipe} {corpus : Corpus} {epochs : EpochState} {catalog : Catalog} {maint : Maint} {receipts : Receipts}
    {images : Table Image} {installs : List Install} {tenants : Table Tenant} {host : HostIf} {dict : Dict} {counters : Table Nat} {log : EventLog}
    {mbx : Mailboxes} {mgmt : Mgmt} {sensors : Table F32} {tiers : Tiers} {staging : Staging} {flash : Flash} {fabric : Fabric} {exchange : Exchange}
    {power : Power} {repair : Repair} {pins : Pins} {free : Nat} {out : List Output} :
    State.mk time pipe corpus epochs catalog maint receipts images installs tenants host dict counters log mbx mgmt sensors tiers staging flash fabric exchange power repair pins free out X.pending = X.upd time pipe corpus epochs catalog maint receipts images installs tenants host dict counters log mbx mgmt sensors tiers staging flash fabric exchange power repair pins free out := rfl
theorem State.upd_later {s0 X : State} {time : Nat} {pipe : Pipe} {corpus : Corpus} {epochs : EpochState} {catalog : Catalog} {maint : Maint} {receipts : Receipts}
    {images : Table Image} {installs : List Install} {tenants : Table Tenant} {host : HostIf} {dict : Dict} {counters : Table Nat} {log : EventLog}
    {mbx : Mailboxes} {mgmt : Mgmt} {sensors : Table F32} {tiers : Tiers} {staging : Staging} {flash : Flash} {fabric : Fabric} {exchange : Exchange}
    {power : Power} {repair : Repair} {pins : Pins} {free : Nat} {out : List Output} (h : Later s0 X) (ht : X.time ≤ time) (he : X.epochs.open_ ≤ epochs.open_)
    (hf : X.freeCount ≤ free) (ho : X.out <+: out) (hs : pins.stepping = X.pins.stepping)
    (hm : memWf X.staging.mem = true → memWf staging.mem = true := by first | exact fun h => h | exact fun h => writeMem_memWf _ _ h | exact fun h => clearMem_memWf _ _ h | exact fun _ => memWf_nil)
    (hi : X.dict.incarnation ≤ dict.incarnation := by first | exact Nat.le_refl _ | exact Nat.le_succ _)
    (hl : X.receipts.nextLeaf ≤ receipts.nextLeaf := by first | exact Nat.le_refl _ | exact Nat.le_succ _)
    (hr : X.receipts.nextTree ≤ receipts.nextTree := by first | exact Nat.le_refl _ | exact Nat.le_succ _)
    (hn : X.log.nextSeq ≤ log.nextSeq := by first | exact Nat.le_refl _ | exact Nat.le_succ _)
    (hc : Table.wf X.counters = true → Table.wf counters = true := by first | exact fun h => h | exact Table.wf_set _ _ _ | exact Table.wf_erase _ _ | exact fun h => Table.wf_erase _ _ (Table.wf_erase _ _ h) | exact Table.wf_keep _ _ | exact Table.wf_filter _ _)
    (hx : MailFits X.mbx → MailFits mbx := by first | exact fun h => h | exact fun h => mailFits_of h)
    (hy : RingFits X.log → RingFits log := by first | exact fun h => h | exact fun h => ringFits_of h | (split <;> exact fun h => ringFits_of h)) : Later s0 (X.upd time pipe corpus epochs catalog maint receipts images installs tenants host dict counters log mbx mgmt sensors tiers staging flash fabric exchange power repair pins free out) :=
  ⟨h.queue, Nat.le_trans h.clock ht, h.epoch.imp_left fun x => Nat.le_trans x he, Nat.le_trans h.draws hf, h.sent.trans ho, hs.trans h.silicon,
    ⟨fun x => hm (h.kept.staged x), Nat.le_trans h.kept.starts hi, Nat.le_trans h.kept.leaves hl, Nat.le_trans h.kept.trees hr, Nat.le_trans h.kept.records hn, fun x => hc (h.kept.counted x), fun x => hx (h.kept.mail x), fun x => hy (h.kept.ring x)⟩⟩
theorem Later.foldl {α : Type} {s0 : State} {f : State → α → State} {xs : List α} {s : State} (h : Later s0 s)
    (hf : ∀ a x, Later s0 a → Later s0 (f a x)) : Later s0 (xs.foldl f s) := by
  induction xs generalizing s with
  | nil => exact h
  | cons x xs ih => exact ih (hf s x h)
theorem Later.foldlFst {α β : Type} {s0 : State} {f : State × β → α → State × β} {xs : List α} {p : State × β} (h : Later s0 p.1)
    (hf : ∀ a x, Later s0 a.1 → Later s0 (f a x).1) : Later s0 (xs.foldl f p).1 := by
  induction xs generalizing p with
  | nil => exact h
  | cons x xs ih => exact ih (hf p x h)
theorem Later.ite {s0 : State} {c : Prop} [Decidable c] {a b : State} (ha : c → Later s0 a) (hb : ¬c → Later s0 b) : Later s0 (if c then a else b) := by
  split
  · exact ha ‹_›
  · exact hb ‹_›
theorem Later.iteFst {β : Type} {s0 : State} {c : Prop} [Decidable c] {a b : State × β} (ha : c → Later s0 a.1) (hb : ¬c → Later s0 b.1) :
    Later s0 (if c then a else b).1 := by
  split
  · exact ha ‹_›
  · exact hb ‹_›
theorem Later.fst {β : Type} {s0 : State} {p : State × β} {a : State} {b : β} (h : Later s0 p.1) (e : p = (a, b)) : Later s0 a := by
  subst e; exact h

end Sys2Proof.Machine
end

