-- ==== Sys2Proof/Laws/Later1.lean ====
section
/-! SUPPORT. The operations of Ops, CatalogOps, FlashOps, HostOps move no clock, epoch or draw count back, take back nothing sent and leave the queue and the silicon alone. -/
set_option Elab.async false
set_option linter.all false

namespace Sys2Proof.Machine

theorem State.emit_later {s0 : State} (s : State) (o : Output) (hL : Later s0 s) : Later s0 (State.emit s o) := by
  unfold State.emit
  repeat'
    first
    | with_reducible assumption
    | with_reducible exact Nat.le_refl _
    | with_reducible exact List.prefix_rfl
    | with_reducible rfl
    | with_reducible exact Nat.le_add_right _ _
    | intro _
    | with_reducible refine State.upd_later ?_ ?_ ?_ ?_ ?_ ?_
    | with_reducible refine Later.ite ?_ ?_
    | with_reducible refine Later.iteFst ?_ ?_
    | with_reducible refine Later.foldl ?_ ?_
    | with_reducible refine Later.foldlFst ?_ ?_
    | with_reducible refine Later.fst ?_ (by assumption)
    | dsimp only
    | rw [State.mk_eq]
    | split
    | exact List.prefix_append _ _

theorem State.setFn_later {s0 : State} (s : State) (fn : Nat) (f : FnState) (hL : Later s0 s) : Later s0 (State.setFn s fn f) := by
  unfold State.setFn
  repeat'
    first
    | with_reducible assumption
    | with_reducible exact Nat.le_refl _
    | with_reducible exact List.prefix_rfl
    | with_reducible rfl
    | with_reducible exact Nat.le_add_right _ _
    | intro _
    | with_reducible refine State.upd_later ?_ ?_ ?_ ?_ ?_ ?_
    | with_reducible refine Later.ite ?_ ?_
    | with_reducible refine Later.iteFst ?_ ?_
    | with_reducible refine Later.foldl ?_ ?_
    | with_reducible refine Later.foldlFst ?_ ?_
    | with_reducible refine Later.fst ?_ (by assumption)
    | dsimp only
    | rw [State.mk_eq]
    | split
    | exact List.prefix_append _ _

theorem State.updFn_later {s0 : State} (s : State) (fn : Nat) (f : FnState → FnState) (hL : Later s0 s) : Later s0 (State.updFn s fn f) := by
  unfold State.updFn
  repeat'
    first
    | with_reducible assumption
    | with_reducible exact Nat.le_refl _
    | with_reducible exact List.prefix_rfl
    | with_reducible rfl
    | with_reducible exact Nat.le_add_right _ _
    | intro _
    | with_reducible refine State.upd_later ?_ ?_ ?_ ?_ ?_ ?_
    | with_reducible apply State.setFn_later
    | with_reducible refine Later.ite ?_ ?_
    | with_reducible refine Later.iteFst ?_ ?_
    | with_reducible refine Later.foldl ?_ ?_
    | with_reducible refine Later.foldlFst ?_ ?_
    | with_reducible refine Later.fst ?_ (by assumption)
    | dsimp only
    | rw [State.mk_eq]
    | split
    | exact List.prefix_append _ _

theorem msixWith_later {cnt : State → Nat → Nat → State} (hc : ∀ s0 s k n, Later s0 s → Later s0 (cnt s k n)) {s0 s : State} (fn vec : Nat) (h : Later s0 s) :
    Later s0 (msixWith cnt s fn vec) := by
  unfold msixWith
  dsimp only
  split
  · exact State.setFn_later _ _ _ h
  · exact hc _ _ _ _ (State.emit_later _ _ h)

theorem causeWith_later {cnt : State → Nat → Nat → State} (hc : ∀ s0 s k n, Later s0 s → Later s0 (cnt s k n)) {s0 s : State} (fn b : Nat) (h : Later s0 s) :
    Later s0 (causeWith cnt s fn b) := by
  unfold causeWith
  dsimp only
  split
  · exact h
  · split
    · exact State.setFn_later _ _ _ h
    · exact msixWith_later hc _ _ (State.setFn_later _ _ _ h)

theorem hostMessageWith_later {cnt : State → Nat → Nat → State} (hc : ∀ s0 s k n, Later s0 s → Later s0 (cnt s k n)) {s0 s : State} (c ty : Nat)
    (p : List Byte) (h : Later s0 s) : Later s0 (hostMessageWith cnt s c ty p).1 := by
  unfold hostMessageWith
  dsimp only
  split
  · exact hc _ _ _ _ h
  · rename_i hq
    have h1 : Later s0 (({ s with mbx := { s.mbx with
        slots := s.mbx.slots.set c (s.channel c ++ [mbxMessage ty (s.mbx.seqs.getD c 0) 1 p])
        seqs := s.mbx.seqs.set c ((s.mbx.seqs.getD c 0 + 1) % 65536) } } : State).emit (.mailbox c)) :=
      State.emit_later _ _ ⟨h.queue, h.clock, h.epoch, h.draws, h.sent, h.silicon, ⟨h.kept.staged, h.kept.starts, h.kept.leaves, h.kept.trees, h.kept.records, h.kept.counted, fun x => mailFits_push (h.kept.mail x) (Nat.lt_of_not_le hq), h.kept.ring⟩⟩
    dsimp only
    split
    · exact causeWith_later hc _ _ h1
    · exact h1

theorem logWith_later {cnt : State → Nat → Nat → State} (hc : ∀ s0 s k n, Later s0 s → Later s0 (cnt s k n)) {s0 s : State} (i j k u : Nat)
    (d : List Byte) (h : Later s0 s) : Later s0 (logWith cnt s i j k u d) := by
  unfold logWith
  split
  · exact hc _ _ _ _ ⟨h.queue, h.clock, h.epoch, h.draws, h.sent, h.silicon, ⟨h.kept.staged, h.kept.starts, h.kept.leaves, h.kept.trees, h.kept.records, h.kept.counted, h.kept.mail, h.kept.ring⟩⟩
  · dsimp only
    split
    · split
      · exact hostMessageWith_later hc _ _ _ (hc s0 _ _ _ ⟨h.queue, h.clock, h.epoch, h.draws, h.sent, h.silicon, ⟨h.kept.staged, h.kept.starts, h.kept.leaves, h.kept.trees, Nat.le_succ_of_le h.kept.records, h.kept.counted, h.kept.mail, fun _ => ringFits_add s.log _ _ _⟩⟩)
      · apply hc
        rw [State.mk_eq]
        refine State.upd_later ?_ (Nat.le_refl _) (Nat.le_refl _) (Nat.le_refl _) List.prefix_rfl rfl
        exact hostMessageWith_later hc _ _ _ (hc s0 _ _ _ ⟨h.queue, h.clock, h.epoch, h.draws, h.sent, h.silicon, ⟨h.kept.staged, h.kept.starts, h.kept.leaves, h.kept.trees, Nat.le_succ_of_le h.kept.records, h.kept.counted, h.kept.mail, fun _ => ringFits_add s.log _ _ _⟩⟩)
    · exact hc _ _ _ _ ⟨h.queue, h.clock, h.epoch, h.draws, h.sent, h.silicon, ⟨h.kept.staged, h.kept.starts, h.kept.leaves, h.kept.trees, Nat.le_succ_of_le h.kept.records, h.kept.counted, h.kept.mail, fun _ => ringFits_add s.log _ _ _⟩⟩

theorem countFuel_later (f : Nat) : ∀ s0 s k n, Later s0 s → Later s0 (countFuel f s k n) := by
  induction f with
  | zero => intro s0 s k n h; unfold countFuel; exact ⟨h.queue, h.clock, h.epoch, h.draws, h.sent, h.silicon, ⟨h.kept.staged, h.kept.starts, h.kept.leaves, h.kept.trees, h.kept.records, fun x => bumpCounter_wf _ _ _ (h.kept.counted x), h.kept.mail, h.kept.ring⟩⟩
  | succ f ih =>
    intro s0 s k n h
    unfold countFuel
    have hw := bumpCounter_wf s.counters k n
    split
    rename_i e
    rw [e] at hw
    split
    · exact logWith_later ih _ _ _ _ _ ⟨h.queue, h.clock, h.epoch, h.draws, h.sent, h.silicon, ⟨h.kept.staged, h.kept.starts, h.kept.leaves, h.kept.trees, h.kept.records, fun x => hw (h.kept.counted x), h.kept.mail, h.kept.ring⟩⟩
    · exact ⟨h.queue, h.clock, h.epoch, h.draws, h.sent, h.silicon, ⟨h.kept.staged, h.kept.starts, h.kept.leaves, h.kept.trees, h.kept.records, fun x => hw (h.kept.counted x), h.kept.mail, h.kept.ring⟩⟩

theorem State.count_later {s0 : State} (s : State) (key n : Nat) (h : Later s0 s) : Later s0 (s.count key n) := by
  unfold State.count
  split
  · exact h
  · exact countFuel_later _ _ _ _ _ h

theorem State.tally_later {s0 : State} (s : State) (index sub : Nat) (hL : Later s0 s) : Later s0 (State.tally s index sub) := by
  unfold State.tally
  repeat'
    first
    | with_reducible assumption
    | with_reducible exact Nat.le_refl _
    | with_reducible exact List.prefix_rfl
    | with_reducible rfl
    | with_reducible exact Nat.le_add_right _ _
    | intro _
    | with_reducible refine State.upd_later ?_ ?_ ?_ ?_ ?_ ?_
    | with_reducible apply State.count_later
    | with_reducible refine Later.ite ?_ ?_
    | with_reducible refine Later.iteFst ?_ ?_
    | with_reducible refine Later.foldl ?_ ?_
    | with_reducible refine Later.foldlFst ?_ ?_
    | with_reducible refine Later.fst ?_ (by assumption)
    | dsimp only
    | rw [State.mk_eq]
    | split
    | exact List.prefix_append _ _

theorem State.spendCycles_later {s0 : State} (s : State) (index sub : Nat) (hL : Later s0 s) : Later s0 (State.spendCycles s index sub) := by
  unfold State.spendCycles
  repeat'
    first
    | with_reducible assumption
    | with_reducible exact Nat.le_refl _
    | with_reducible exact List.prefix_rfl
    | with_reducible rfl
    | with_reducible exact Nat.le_add_right _ _
    | intro _
    | with_reducible refine State.upd_later ?_ ?_ ?_ ?_ ?_ ?_
    | with_reducible refine Later.ite ?_ ?_
    | with_reducible refine Later.iteFst ?_ ?_
    | with_reducible refine Later.foldl ?_ ?_
    | with_reducible refine Later.foldlFst ?_ ?_
    | with_reducible refine Later.fst ?_ (by assumption)
    | dsimp only
    | rw [State.mk_eq]
    | split
    | exact List.prefix_append _ _

theorem State.msix_later {s0 : State} (s : State) (fn vec : Nat) (h : Later s0 s) : Later s0 (s.msix fn vec) :=
  msixWith_later (fun _ s k n h => State.count_later s k n h) _ _ h

theorem State.cause_later {s0 : State} (s : State) (fn b : Nat) (h : Later s0 s) : Later s0 (s.cause fn b) :=
  causeWith_later (fun _ s k n h => State.count_later s k n h) _ _ h

theorem State.causeAll_later {s0 : State} (s : State) (b : Nat) (hL : Later s0 s) : Later s0 (State.causeAll s b) := by
  unfold State.causeAll
  repeat'
    first
    | with_reducible assumption
    | with_reducible exact Nat.le_refl _
    | with_reducible exact List.prefix_rfl
    | with_reducible rfl
    | with_reducible exact Nat.le_add_right _ _
    | intro _
    | with_reducible refine State.upd_later ?_ ?_ ?_ ?_ ?_ ?_
    | with_reducible apply State.cause_later
    | with_reducible refine Later.ite ?_ ?_
    | with_reducible refine Later.iteFst ?_ ?_
    | with_reducible refine Later.foldl ?_ ?_
    | with_reducible refine Later.foldlFst ?_ ?_
    | with_reducible refine Later.fst ?_ (by assumption)
    | dsimp only
    | rw [State.mk_eq]
    | split
    | exact List.prefix_append _ _

theorem State.logEvent_later {s0 : State} (s : State) (index sub kind unit : Nat) (data : List Byte) (h : Later s0 s) :
    Later s0 (s.logEvent index sub kind unit data) :=
  logWith_later (fun _ s k n h => State.count_later s k n h) _ _ _ _ _ h

theorem State.logState_later {s0 : State} (s : State) (index sub unit old new : Nat) (hL : Later s0 s) : Later s0 (State.logState s index sub unit old new) := by
  unfold State.logState
  repeat'
    first
    | with_reducible assumption
    | with_reducible exact Nat.le_refl _
    | with_reducible exact List.prefix_rfl
    | with_reducible rfl
    | with_reducible exact Nat.le_add_right _ _
    | intro _
    | with_reducible refine State.upd_later ?_ ?_ ?_ ?_ ?_ ?_
    | with_reducible apply State.logEvent_later
    | with_reducible refine Later.ite ?_ ?_
    | with_reducible refine Later.iteFst ?_ ?_
    | with_reducible refine Later.foldl ?_ ?_
    | with_reducible refine Later.foldlFst ?_ ?_
    | with_reducible refine Later.fst ?_ (by assumption)
    | dsimp only
    | rw [State.mk_eq]
    | split
    | exact List.prefix_append _ _

theorem State.hostMessage_later {s0 : State} (s : State) (c ty : Nat) (payload : List Byte) (h : Later s0 s) :
    Later s0 (s.hostMessage c ty payload) :=
  hostMessageWith_later (fun _ s k n h => State.count_later s k n h) _ _ _ h

theorem State.took_later {s0 : State} (s : State) (fn pair : Nat) (hL : Later s0 s) : Later s0 (State.took s fn pair) := by
  unfold State.took
  repeat'
    first
    | with_reducible assumption
    | with_reducible exact Nat.le_refl _
    | with_reducible exact List.prefix_rfl
    | with_reducible rfl
    | with_reducible exact Nat.le_add_right _ _
    | intro _
    | with_reducible refine State.upd_later ?_ ?_ ?_ ?_ ?_ ?_
    | with_reducible apply State.updFn_later
    | with_reducible apply State.tally_later
    | with_reducible refine Later.ite ?_ ?_
    | with_reducible refine Later.iteFst ?_ ?_
    | with_reducible refine Later.foldl ?_ ?_
    | with_reducible refine Later.foldlFst ?_ ?_
    | with_reducible refine Later.fst ?_ (by assumption)
    | dsimp only
    | rw [State.mk_eq]
    | split
    | exact List.prefix_append _ _

theorem State.meter_later {s0 : State} (s : State) (t n amount : Nat) (hL : Later s0 s) : Later s0 (State.meter s t n amount) := by
  unfold State.meter
  repeat'
    first
    | with_reducible assumption
    | with_reducible exact Nat.le_refl _
    | with_reducible exact List.prefix_rfl
    | with_reducible rfl
    | with_reducible exact Nat.le_add_right _ _
    | intro _
    | with_reducible refine State.upd_later ?_ ?_ ?_ ?_ ?_ ?_
    | with_reducible refine Later.ite ?_ ?_
    | with_reducible refine Later.iteFst ?_ ?_
    | with_reducible refine Later.foldl ?_ ?_
    | with_reducible refine Later.foldlFst ?_ ?_
    | with_reducible refine Later.fst ?_ (by assumption)
    | dsimp only
    | rw [State.mk_eq]
    | split
    | exact List.prefix_append _ _

theorem State.countStalls_later {s0 : State} (s : State) (t0 t1 : Nat) (hL : Later s0 s) : Later s0 (State.countStalls s t0 t1) := by
  unfold State.countStalls
  repeat'
    first
    | with_reducible assumption
    | with_reducible exact Nat.le_refl _
    | with_reducible exact List.prefix_rfl
    | with_reducible rfl
    | with_reducible exact Nat.le_add_right _ _
    | intro _
    | with_reducible refine State.upd_later ?_ ?_ ?_ ?_ ?_ ?_
    | with_reducible apply State.count_later
    | with_reducible refine Later.ite ?_ ?_
    | with_reducible refine Later.iteFst ?_ ?_
    | with_reducible refine Later.foldl ?_ ?_
    | with_reducible refine Later.foldlFst ?_ ?_
    | with_reducible refine Later.fst ?_ (by assumption)
    | dsimp only
    | rw [State.mk_eq]
    | split
    | exact List.prefix_append _ _

theorem State.countTiles_later {s0 : State} (s : State) (t0 t1 : Nat) (hL : Later s0 s) : Later s0 (State.countTiles s t0 t1) := by
  unfold State.countTiles
  repeat'
    first
    | with_reducible assumption
    | with_reducible exact Nat.le_refl _
    | with_reducible exact List.prefix_rfl
    | with_reducible rfl
    | with_reducible exact Nat.le_add_right _ _
    | intro _
    | with_reducible refine State.upd_later ?_ ?_ ?_ ?_ ?_ ?_
    | with_reducible apply State.count_later
    | with_reducible refine Later.ite ?_ ?_
    | with_reducible refine Later.iteFst ?_ ?_
    | with_reducible refine Later.foldl ?_ ?_
    | with_reducible refine Later.foldlFst ?_ ?_
    | with_reducible refine Later.fst ?_ (by assumption)
    | dsimp only
    | rw [State.mk_eq]
    | split
    | exact List.prefix_append _ _

theorem State.meterTiles_later {s0 : State} (s : State) (t0 t1 : Nat) (hL : Later s0 s) : Later s0 (State.meterTiles s t0 t1) := by
  unfold State.meterTiles
  repeat'
    first
    | with_reducible assumption
    | with_reducible exact Nat.le_refl _
    | with_reducible exact List.prefix_rfl
    | with_reducible rfl
    | with_reducible exact Nat.le_add_right _ _
    | intro _
    | with_reducible refine State.upd_later ?_ ?_ ?_ ?_ ?_ ?_
    | with_reducible apply State.meter_later
    | with_reducible refine Later.ite ?_ ?_
    | with_reducible refine Later.iteFst ?_ ?_
    | with_reducible refine Later.foldl ?_ ?_
    | with_reducible refine Later.foldlFst ?_ ?_
    | with_reducible refine Later.fst ?_ (by assumption)
    | dsimp only
    | rw [State.mk_eq]
    | split
    | exact List.prefix_append _ _

theorem State.countWalks_later {s0 : State} (s : State) (t0 t1 : Nat) (hL : Later s0 s) : Later s0 (State.countWalks s t0 t1) := by
  unfold State.countWalks
  repeat'
    first
    | with_reducible assumption
    | with_reducible exact Nat.le_refl _
    | with_reducible exact List.prefix_rfl
    | with_reducible rfl
    | with_reducible exact Nat.le_add_right _ _
    | intro _
    | with_reducible refine State.upd_later ?_ ?_ ?_ ?_ ?_ ?_
    | with_reducible apply State.count_later
    | with_reducible refine Later.ite ?_ ?_
    | with_reducible refine Later.iteFst ?_ ?_
    | with_reducible refine Later.foldl ?_ ?_
    | with_reducible refine Later.foldlFst ?_ ?_
    | with_reducible refine Later.fst ?_ (by assumption)
    | dsimp only
    | rw [State.mk_eq]
    | split
    | exact List.prefix_append _ _

theorem State.elapse_later {s0 : State} (s : State) (t0 t1 : Nat) (h : Later s0 s) : Later s0 (s.elapse t0 t1) := by
  unfold State.elapse
  repeat'
    first
    | with_reducible assumption
    | with_reducible exact Nat.le_refl _
    | with_reducible exact List.prefix_rfl
    | with_reducible rfl
    | intro _ _ _
    | with_reducible apply State.countWalks_later
    | with_reducible apply State.meterTiles_later
    | with_reducible apply State.countTiles_later
    | with_reducible apply State.countStalls_later
    | with_reducible apply State.count_later
    | with_reducible refine State.upd_later ?_ ?_ ?_ ?_ ?_ ?_
    | with_reducible refine Later.foldl ?_ ?_
    | dsimp only
    | rw [State.mk_eq]
    | split

theorem State.advance_later {s0 : State} (s : State) (t : Nat) (h : Later s0 s) : Later s0 (s.advance t) := by
  unfold State.advance
  split
  · exact h
  · rename_i hlt
    have h1 := State.elapse_later s s.time t h
    have ht : (s.elapse s.time t).time ≤ t := by
      obtain ⟨_, h⟩ := State.elapse_eq s s.time t
      have hs : (s.elapse s.time t).time = s.time := h.time
      omega
    rw [State.mk_eq]
    exact State.upd_later h1 ht (Nat.le_refl _) (Nat.le_refl _) List.prefix_rfl rfl

theorem State.raiseWake_later {s0 : State} (s : State) (d : DomainId) (cls : Nat) (hL : Later s0 s) : Later s0 (State.raiseWake s d cls) := by
  unfold State.raiseWake
  repeat'
    first
    | with_reducible assumption
    | with_reducible exact Nat.le_refl _
    | with_reducible exact List.prefix_rfl
    | with_reducible rfl
    | with_reducible exact Nat.le_add_right _ _
    | intro _
    | with_reducible refine State.upd_later ?_ ?_ ?_ ?_ ?_ ?_
    | with_reducible refine Later.ite ?_ ?_
    | with_reducible refine Later.iteFst ?_ ?_
    | with_reducible refine Later.foldl ?_ ?_
    | with_reducible refine Later.foldlFst ?_ ?_
    | with_reducible refine Later.fst ?_ (by assumption)
    | dsimp only
    | rw [State.mk_eq]
    | split
    | exact List.prefix_append _ _

theorem State.wake_later {s0 : State} (s : State) (k : DomainKind) (n cls : Nat) (hL : Later s0 s) : Later s0 (State.wake s k n cls) := by
  unfold State.wake
  repeat'
    first
    | with_reducible assumption
    | with_reducible exact Nat.le_refl _
    | with_reducible exact List.prefix_rfl
    | with_reducible rfl
    | with_reducible exact Nat.le_add_right _ _
    | intro _
    | with_reducible refine State.upd_later ?_ ?_ ?_ ?_ ?_ ?_
    | with_reducible apply State.raiseWake_later
    | with_reducible refine Later.ite ?_ ?_
    | with_reducible refine Later.iteFst ?_ ?_
    | with_reducible refine Later.foldl ?_ ?_
    | with_reducible refine Later.foldlFst ?_ ?_
    | with_reducible refine Later.fst ?_ (by assumption)
    | dsimp only
    | rw [State.mk_eq]
    | split
    | exact List.prefix_append _ _

theorem State.setHealth_later {s0 : State} (s : State) (unit : Nat) (h : Health) (hL : Later s0 s) : Later s0 (State.setHealth s unit h) := by
  unfold State.setHealth
  repeat'
    first
    | with_reducible assumption
    | with_reducible exact Nat.le_refl _
    | with_reducible exact List.prefix_rfl
    | with_reducible rfl
    | with_reducible exact Nat.le_add_right _ _
    | intro _
    | with_reducible refine State.upd_later ?_ ?_ ?_ ?_ ?_ ?_
    | with_reducible apply State.score_later
    | with_reducible apply State.logState_later
    | with_reducible refine Later.ite ?_ ?_
    | with_reducible refine Later.iteFst ?_ ?_
    | with_reducible refine Later.foldl ?_ ?_
    | with_reducible refine Later.foldlFst ?_ ?_
    | with_reducible refine Later.fst ?_ (by assumption)
    | dsimp only
    | rw [State.mk_eq]
    | split
    | exact List.prefix_append _ _

theorem State.score_later {s0 : State} (s : State) (unit points : Nat) (hL : Later s0 s) : Later s0 (State.score s unit points) := by
  unfold State.score
  repeat'
    first
    | with_reducible assumption
    | with_reducible exact Nat.le_refl _
    | with_reducible exact List.prefix_rfl
    | with_reducible rfl
    | with_reducible exact Nat.le_add_right _ _
    | intro _
    | with_reducible refine State.upd_later ?_ ?_ ?_ ?_ ?_ ?_
    | with_reducible apply State.setHealth_later
    | with_reducible refine Later.ite ?_ ?_
    | with_reducible refine Later.iteFst ?_ ?_
    | with_reducible refine Later.foldl ?_ ?_
    | with_reducible refine Later.foldlFst ?_ ?_
    | with_reducible refine Later.fst ?_ (by assumption)
    | dsimp only
    | rw [State.mk_eq]
    | split
    | exact List.prefix_append _ _

theorem State.setQuery_later {s0 : State} (s : State) (q : Nat) (x : Query) (hL : Later s0 s) : Later s0 (State.setQuery s q x) := by
  unfold State.setQuery
  repeat'
    first
    | with_reducible assumption
    | with_reducible exact Nat.le_refl _
    | with_reducible exact List.prefix_rfl
    | with_reducible rfl
    | with_reducible exact Nat.le_add_right _ _
    | intro _
    | with_reducible refine State.upd_later ?_ ?_ ?_ ?_ ?_ ?_
    | with_reducible refine Later.ite ?_ ?_
    | with_reducible refine Later.iteFst ?_ ?_
    | with_reducible refine Later.foldl ?_ ?_
    | with_reducible refine Later.foldlFst ?_ ?_
    | with_reducible refine Later.fst ?_ (by assumption)
    | dsimp only
    | rw [State.mk_eq]
    | split
    | exact List.prefix_append _ _

theorem State.setBatch_later {s0 : State} (s : State) (b : Nat) (x : Batch) (hL : Later s0 s) : Later s0 (State.setBatch s b x) := by
  unfold State.setBatch
  repeat'
    first
    | with_reducible assumption
    | with_reducible exact Nat.le_refl _
    | with_reducible exact List.prefix_rfl
    | with_reducible rfl
    | with_reducible exact Nat.le_add_right _ _
    | intro _
    | with_reducible refine State.upd_later ?_ ?_ ?_ ?_ ?_ ?_
    | with_reducible refine Later.ite ?_ ?_
    | with_reducible refine Later.iteFst ?_ ?_
    | with_reducible refine Later.foldl ?_ ?_
    | with_reducible refine Later.foldlFst ?_ ?_
    | with_reducible refine Later.fst ?_ (by assumption)
    | dsimp only
    | rw [State.mk_eq]
    | split
    | exact List.prefix_append _ _

theorem State.setMember_later {s0 : State} (s : State) (b m : Nat) (x : Member) (hL : Later s0 s) : Later s0 (State.setMember s b m x) := by
  unfold State.setMember
  repeat'
    first
    | with_reducible assumption
    | with_reducible exact Nat.le_refl _
    | with_reducible exact List.prefix_rfl
    | with_reducible rfl
    | with_reducible exact Nat.le_add_right _ _
    | intro _
    | with_reducible refine State.upd_later ?_ ?_ ?_ ?_ ?_ ?_
    | with_reducible apply State.setBatch_later
    | with_reducible refine Later.ite ?_ ?_
    | with_reducible refine Later.iteFst ?_ ?_
    | with_reducible refine Later.foldl ?_ ?_
    | with_reducible refine Later.foldlFst ?_ ?_
    | with_reducible refine Later.fst ?_ (by assumption)
    | dsimp only
    | rw [State.mk_eq]
    | split
    | exact List.prefix_append _ _

theorem State.setList_later {s0 : State} (s : State) (h : Nat) (x : ListData) (hL : Later s0 s) : Later s0 (State.setList s h x) := by
  unfold State.setList
  repeat'
    first
    | with_reducible assumption
    | with_reducible exact Nat.le_refl _
    | with_reducible exact List.prefix_rfl
    | with_reducible rfl
    | with_reducible exact Nat.le_add_right _ _
    | intro _
    | with_reducible refine State.upd_later ?_ ?_ ?_ ?_ ?_ ?_
    | with_reducible refine Later.ite ?_ ?_
    | with_reducible refine Later.iteFst ?_ ?_
    | with_reducible refine Later.foldl ?_ ?_
    | with_reducible refine Later.foldlFst ?_ ?_
    | with_reducible refine Later.fst ?_ (by assumption)
    | dsimp only
    | rw [State.mk_eq]
    | split
    | exact List.prefix_append _ _

theorem State.noteSettled_later {s0 : State} (s : State) (e : Nat) (hL : Later s0 s) : Later s0 (State.noteSettled s e) := by
  unfold State.noteSettled
  repeat'
    first
    | with_reducible assumption
    | with_reducible exact Nat.le_refl _
    | with_reducible exact List.prefix_rfl
    | with_reducible rfl
    | with_reducible exact Nat.le_add_right _ _
    | intro _
    | with_reducible refine State.upd_later ?_ ?_ ?_ ?_ ?_ ?_
    | with_reducible refine Later.ite ?_ ?_
    | with_reducible refine Later.iteFst ?_ ?_
    | with_reducible refine Later.foldl ?_ ?_
    | with_reducible refine Later.foldlFst ?_ ?_
    | with_reducible refine Later.fst ?_ (by assumption)
    | dsimp only
    | rw [State.mk_eq]
    | split
    | exact List.prefix_append _ _

theorem State.objRead_later {s0 : State} (s : State) (obj bytes : Nat) (hL : Later s0 s) : Later s0 (State.objRead s obj bytes) := by
  unfold State.objRead
  repeat'
    first
    | with_reducible assumption
    | with_reducible exact Nat.le_refl _
    | with_reducible exact List.prefix_rfl
    | with_reducible rfl
    | with_reducible exact Nat.le_add_right _ _
    | intro _
    | with_reducible refine State.upd_later ?_ ?_ ?_ ?_ ?_ ?_
    | with_reducible refine Later.ite ?_ ?_
    | with_reducible refine Later.iteFst ?_ ?_
    | with_reducible refine Later.foldl ?_ ?_
    | with_reducible refine Later.foldlFst ?_ ?_
    | with_reducible refine Later.fst ?_ (by assumption)
    | dsimp only
    | rw [State.mk_eq]
    | split
    | exact List.prefix_append _ _

theorem State.setPort_later {s0 : State} (s : State) (p : Nat) (x : Port) (hL : Later s0 s) : Later s0 (State.setPort s p x) := by
  unfold State.setPort
  repeat'
    first
    | with_reducible assumption
    | with_reducible exact Nat.le_refl _
    | with_reducible exact List.prefix_rfl
    | with_reducible rfl
    | with_reducible exact Nat.le_add_right _ _
    | intro _
    | with_reducible refine State.upd_later ?_ ?_ ?_ ?_ ?_ ?_
    | with_reducible refine Later.ite ?_ ?_
    | with_reducible refine Later.iteFst ?_ ?_
    | with_reducible refine Later.foldl ?_ ?_
    | with_reducible refine Later.foldlFst ?_ ?_
    | with_reducible refine Later.fst ?_ (by assumption)
    | dsimp only
    | rw [State.mk_eq]
    | split
    | exact List.prefix_append _ _

theorem State.giveBank_later {s0 : State} (s : State) (id owner : Nat) (hL : Later s0 s) : Later s0 (State.giveBank s id owner) := by
  unfold State.giveBank
  repeat'
    first
    | with_reducible assumption
    | with_reducible exact Nat.le_refl _
    | with_reducible exact List.prefix_rfl
    | with_reducible rfl
    | with_reducible exact Nat.le_add_right _ _
    | intro _
    | with_reducible refine State.upd_later ?_ ?_ ?_ ?_ ?_ ?_
    | with_reducible refine Later.ite ?_ ?_
    | with_reducible refine Later.iteFst ?_ ?_
    | with_reducible refine Later.foldl ?_ ?_
    | with_reducible refine Later.foldlFst ?_ ?_
    | with_reducible refine Later.fst ?_ (by assumption)
    | dsimp only
    | rw [State.mk_eq]
    | split
    | exact List.prefix_append _ _

theorem State.handBuffer_later {s0 : State} (s : State) (g tile buffer owner : Nat) (hL : Later s0 s) : Later s0 (State.handBuffer s g tile buffer owner) := by
  unfold State.handBuffer
  repeat'
    first
    | with_reducible assumption
    | with_reducible exact Nat.le_refl _
    | with_reducible exact List.prefix_rfl
    | with_reducible rfl
    | with_reducible exact Nat.le_add_right _ _
    | intro _
    | with_reducible refine State.upd_later ?_ ?_ ?_ ?_ ?_ ?_
    | with_reducible apply State.giveBank_later
    | with_reducible refine Later.ite ?_ ?_
    | with_reducible refine Later.iteFst ?_ ?_
    | with_reducible refine Later.foldl ?_ ?_
    | with_reducible refine Later.foldlFst ?_ ?_
    | with_reducible refine Later.fst ?_ (by assumption)
    | dsimp only
    | rw [State.mk_eq]
    | split
    | exact List.prefix_append _ _

theorem State.returnBuffer_later {s0 : State} (s : State) (b : Batch) (hL : Later s0 s) : Later s0 (State.returnBuffer s b) := by
  unfold State.returnBuffer
  repeat'
    first
    | with_reducible assumption
    | with_reducible exact Nat.le_refl _
    | with_reducible exact List.prefix_rfl
    | with_reducible rfl
    | with_reducible exact Nat.le_add_right _ _
    | intro _
    | with_reducible refine State.upd_later ?_ ?_ ?_ ?_ ?_ ?_
    | with_reducible apply State.handBuffer_later
    | with_reducible refine Later.ite ?_ ?_
    | with_reducible refine Later.iteFst ?_ ?_
    | with_reducible refine Later.foldl ?_ ?_
    | with_reducible refine Later.foldlFst ?_ ?_
    | with_reducible refine Later.fst ?_ (by assumption)
    | dsimp only
    | rw [State.mk_eq]
    | split
    | exact List.prefix_append _ _

theorem State.updVersion_later {s0 : State} (s : State) (ns idx ver : Nat) (f : Version → Version) (hL : Later s0 s) : Later s0 (State.updVersion s ns idx ver f) := by
  unfold State.updVersion
  repeat'
    first
    | with_reducible assumption
    | with_reducible exact Nat.le_refl _
    | with_reducible exact List.prefix_rfl
    | with_reducible rfl
    | with_reducible exact Nat.le_add_right _ _
    | intro _
    | with_reducible refine State.upd_later ?_ ?_ ?_ ?_ ?_ ?_
    | with_reducible refine Later.ite ?_ ?_
    | with_reducible refine Later.iteFst ?_ ?_
    | with_reducible refine Later.foldl ?_ ?_
    | with_reducible refine Later.foldlFst ?_ ?_
    | with_reducible refine Later.fst ?_ (by assumption)
    | dsimp only
    | rw [State.mk_eq]
    | split
    | exact List.prefix_append _ _

theorem State.updRow_later {s0 : State} (s : State) (r : Nat) (f : FlashRow → FlashRow) (hL : Later s0 s) : Later s0 (State.updRow s r f) := by
  unfold State.updRow
  repeat'
    first
    | with_reducible assumption
    | with_reducible exact Nat.le_refl _
    | with_reducible exact List.prefix_rfl
    | with_reducible rfl
    | with_reducible exact Nat.le_add_right _ _
    | intro _
    | with_reducible refine State.upd_later ?_ ?_ ?_ ?_ ?_ ?_
    | with_reducible refine Later.ite ?_ ?_
    | with_reducible refine Later.iteFst ?_ ?_
    | with_reducible refine Later.foldl ?_ ?_
    | with_reducible refine Later.foldlFst ?_ ?_
    | with_reducible refine Later.fst ?_ (by assumption)
    | dsimp only
    | rw [State.mk_eq]
    | split
    | exact List.prefix_append _ _

theorem State.updSb_later {s0 : State} (s : State) (r n : Nat) (f : Superblock → Superblock) (hL : Later s0 s) : Later s0 (State.updSb s r n f) := by
  unfold State.updSb
  repeat'
    first
    | with_reducible assumption
    | with_reducible exact Nat.le_refl _
    | with_reducible exact List.prefix_rfl
    | with_reducible rfl
    | with_reducible exact Nat.le_add_right _ _
    | intro _
    | with_reducible refine State.upd_later ?_ ?_ ?_ ?_ ?_ ?_
    | with_reducible apply State.updRow_later
    | with_reducible refine Later.ite ?_ ?_
    | with_reducible refine Later.iteFst ?_ ?_
    | with_reducible refine Later.foldl ?_ ?_
    | with_reducible refine Later.foldlFst ?_ ?_
    | with_reducible refine Later.fst ?_ (by assumption)
    | dsimp only
    | rw [State.mk_eq]
    | split
    | exact List.prefix_append _ _

theorem State.nextSeq_later {s0 : State} (s : State) (hL : Later s0 s) : Later s0 (State.nextSeq s).1 := by
  unfold State.nextSeq
  repeat'
    first
    | with_reducible assumption
    | with_reducible exact Nat.le_refl _
    | with_reducible exact List.prefix_rfl
    | with_reducible rfl
    | with_reducible exact Nat.le_add_right _ _
    | intro _
    | with_reducible refine State.upd_later ?_ ?_ ?_ ?_ ?_ ?_
    | with_reducible refine Later.ite ?_ ?_
    | with_reducible refine Later.iteFst ?_ ?_
    | with_reducible refine Later.foldl ?_ ?_
    | with_reducible refine Later.foldlFst ?_ ?_
    | with_reducible refine Later.fst ?_ (by assumption)
    | dsimp only
    | rw [State.mk_eq]
    | split
    | exact List.prefix_append _ _

theorem State.journal_later {s0 : State} (s : State) (ty row sb argA argB argC : Nat) (hL : Later s0 s) : Later s0 (State.journal s ty row sb argA argB argC).1 := by
  unfold State.journal
  repeat'
    first
    | with_reducible assumption
    | with_reducible exact Nat.le_refl _
    | with_reducible exact List.prefix_rfl
    | with_reducible rfl
    | with_reducible exact Nat.le_add_right _ _
    | intro _
    | with_reducible refine State.upd_later ?_ ?_ ?_ ?_ ?_ ?_
    | with_reducible apply State.nextSeq_later
    | with_reducible refine Later.ite ?_ ?_
    | with_reducible refine Later.iteFst ?_ ?_
    | with_reducible refine Later.foldl ?_ ?_
    | with_reducible refine Later.foldlFst ?_ ?_
    | with_reducible refine Later.fst ?_ (by assumption)
    | dsimp only
    | rw [State.mk_eq]
    | split
    | exact List.prefix_append _ _

theorem State.setThrottle_later {s0 : State} (s : State) (hL : Later s0 s) : Later s0 (State.setThrottle s) := by
  unfold State.setThrottle
  repeat'
    first
    | with_reducible assumption
    | with_reducible exact Nat.le_refl _
    | with_reducible exact List.prefix_rfl
    | with_reducible rfl
    | with_reducible exact Nat.le_add_right _ _
    | intro _
    | with_reducible refine State.upd_later ?_ ?_ ?_ ?_ ?_ ?_
    | with_reducible apply State.causeAll_later
    | with_reducible apply State.tally_later
    | with_reducible refine Later.ite ?_ ?_
    | with_reducible refine Later.iteFst ?_ ?_
    | with_reducible refine Later.foldl ?_ ?_
    | with_reducible refine Later.foldlFst ?_ ?_
    | with_reducible refine Later.fst ?_ (by assumption)
    | dsimp only
    | rw [State.mk_eq]
    | split
    | exact List.prefix_append _ _

theorem State.checkReadOnly_later {s0 : State} (s : State) (hL : Later s0 s) : Later s0 (State.checkReadOnly s) := by
  unfold State.checkReadOnly
  repeat'
    first
    | with_reducible assumption
    | with_reducible exact Nat.le_refl _
    | with_reducible exact List.prefix_rfl
    | with_reducible rfl
    | with_reducible exact Nat.le_add_right _ _
    | intro _
    | with_reducible refine State.upd_later ?_ ?_ ?_ ?_ ?_ ?_
    | with_reducible apply State.logState_later
    | with_reducible apply State.causeAll_later
    | with_reducible refine Later.ite ?_ ?_
    | with_reducible refine Later.iteFst ?_ ?_
    | with_reducible refine Later.foldl ?_ ?_
    | with_reducible refine Later.foldlFst ?_ ?_
    | with_reducible refine Later.fst ?_ (by assumption)
    | dsimp only
    | rw [State.mk_eq]
    | split
    | exact List.prefix_append _ _

theorem State.openSb_later {s0 : State} (s : State) (r stream : Nat) (hL : Later s0 s) : Later s0 (State.openSb s r stream).1 := by
  unfold State.openSb
  repeat'
    first
    | with_reducible assumption
    | with_reducible exact Nat.le_refl _
    | with_reducible exact List.prefix_rfl
    | with_reducible rfl
    | with_reducible exact Nat.le_add_right _ _
    | intro _
    | with_reducible refine State.upd_later ?_ ?_ ?_ ?_ ?_ ?_
    | with_reducible apply State.updRow_later
    | with_reducible apply State.setThrottle_later
    | with_reducible apply State.journal_later
    | with_reducible apply State.updSb_later
    | with_reducible refine Later.ite ?_ ?_
    | with_reducible refine Later.iteFst ?_ ?_
    | with_reducible refine Later.foldl ?_ ?_
    | with_reducible refine Later.foldlFst ?_ ?_
    | with_reducible refine Later.fst ?_ (by assumption)
    | dsimp only
    | rw [State.mk_eq]
    | split
    | exact List.prefix_append _ _

theorem State.takeBuffers_later {s0 : State} (s : State) (k : Nat) (hL : Later s0 s) : Later s0 (State.takeBuffers s k) := by
  unfold State.takeBuffers
  repeat'
    first
    | with_reducible assumption
    | with_reducible exact Nat.le_refl _
    | with_reducible exact List.prefix_rfl
    | with_reducible rfl
    | with_reducible exact Nat.le_add_right _ _
    | intro _
    | with_reducible refine State.upd_later ?_ ?_ ?_ ?_ ?_ ?_
    | with_reducible apply State.tally_later
    | with_reducible refine Later.ite ?_ ?_
    | with_reducible refine Later.iteFst ?_ ?_
    | with_reducible refine Later.foldl ?_ ?_
    | with_reducible refine Later.foldlFst ?_ ?_
    | with_reducible refine Later.fst ?_ (by assumption)
    | dsimp only
    | rw [State.mk_eq]
    | split
    | exact List.prefix_append _ _

theorem State.freeBuffers_later {s0 : State} (s : State) (k : Nat) (p : FlashPage) (hL : Later s0 s) : Later s0 (State.freeBuffers s k p) := by
  unfold State.freeBuffers
  repeat'
    first
    | with_reducible assumption
    | with_reducible exact Nat.le_refl _
    | with_reducible exact List.prefix_rfl
    | with_reducible rfl
    | with_reducible exact Nat.le_add_right _ _
    | intro _
    | with_reducible refine State.upd_later ?_ ?_ ?_ ?_ ?_ ?_
    | with_reducible refine Later.ite ?_ ?_
    | with_reducible refine Later.iteFst ?_ ?_
    | with_reducible refine Later.foldl ?_ ?_
    | with_reducible refine Later.foldlFst ?_ ?_
    | with_reducible refine Later.fst ?_ (by assumption)
    | dsimp only
    | rw [State.mk_eq]
    | split
    | exact List.prefix_append _ _

theorem State.issueProgram_later {s0 : State} (s : State) (k : Nat) (hL : Later s0 s) : Later s0 (State.issueProgram s k) := by
  unfold State.issueProgram
  repeat'
    first
    | with_reducible assumption
    | with_reducible exact Nat.le_refl _
    | with_reducible exact List.prefix_rfl
    | with_reducible rfl
    | with_reducible exact Nat.le_add_right _ _
    | intro _
    | with_reducible refine State.upd_later ?_ ?_ ?_ ?_ ?_ ?_
    | with_reducible apply State.updRow_later
    | with_reducible apply State.wake_later
    | with_reducible apply State.nextSeq_later
    | with_reducible apply State.spendCycles_later
    | with_reducible refine Later.ite ?_ ?_
    | with_reducible refine Later.iteFst ?_ ?_
    | with_reducible refine Later.foldl ?_ ?_
    | with_reducible refine Later.foldlFst ?_ ?_
    | with_reducible refine Later.fst ?_ (by assumption)
    | dsimp only
    | rw [State.mk_eq]
    | split
    | exact List.prefix_append _ _

theorem State.tryProgram_later {s0 : State} (s : State) (k : Nat) (hL : Later s0 s) : Later s0 (State.tryProgram s k) := by
  unfold State.tryProgram
  repeat'
    first
    | with_reducible assumption
    | with_reducible exact Nat.le_refl _
    | with_reducible exact List.prefix_rfl
    | with_reducible rfl
    | with_reducible exact Nat.le_add_right _ _
    | intro _
    | with_reducible refine State.upd_later ?_ ?_ ?_ ?_ ?_ ?_
    | with_reducible apply State.issueProgram_later
    | with_reducible refine Later.ite ?_ ?_
    | with_reducible refine Later.iteFst ?_ ?_
    | with_reducible refine Later.foldl ?_ ?_
    | with_reducible refine Later.foldlFst ?_ ?_
    | with_reducible refine Later.fst ?_ (by assumption)
    | dsimp only
    | rw [State.mk_eq]
    | split
    | exact List.prefix_append _ _

theorem State.addParity_later {s0 : State} (s : State) (row sb page : Nat) (hL : Later s0 s) : Later s0 (State.addParity s row sb page) := by
  unfold State.addParity
  repeat'
    first
    | with_reducible assumption
    | with_reducible exact Nat.le_refl _
    | with_reducible exact List.prefix_rfl
    | with_reducible rfl
    | with_reducible exact Nat.le_add_right _ _
    | intro _
    | with_reducible refine State.upd_later ?_ ?_ ?_ ?_ ?_ ?_
    | with_reducible refine Later.ite ?_ ?_
    | with_reducible refine Later.iteFst ?_ ?_
    | with_reducible refine Later.foldl ?_ ?_
    | with_reducible refine Later.foldlFst ?_ ?_
    | with_reducible refine Later.fst ?_ (by assumption)
    | dsimp only
    | rw [State.mk_eq]
    | split
    | exact List.prefix_append _ _

theorem State.tryFree_later {s0 : State} (s : State) (r n : Nat) (hL : Later s0 s) : Later s0 (State.tryFree s r n) := by
  unfold State.tryFree
  repeat'
    first
    | with_reducible assumption
    | with_reducible exact Nat.le_refl _
    | with_reducible exact List.prefix_rfl
    | with_reducible rfl
    | with_reducible exact Nat.le_add_right _ _
    | intro _
    | with_reducible refine State.upd_later ?_ ?_ ?_ ?_ ?_ ?_
    | with_reducible apply State.journal_later
    | with_reducible apply State.updSb_later
    | with_reducible refine Later.ite ?_ ?_
    | with_reducible refine Later.iteFst ?_ ?_
    | with_reducible refine Later.foldl ?_ ?_
    | with_reducible refine Later.foldlFst ?_ ?_
    | with_reducible refine Later.fst ?_ (by assumption)
    | dsimp only
    | rw [State.mk_eq]
    | split
    | exact List.prefix_append _ _

theorem State.freeRow_later {s0 : State} (s : State) (r : Nat) (hL : Later s0 s) : Later s0 (State.freeRow s r) := by
  unfold State.freeRow
  repeat'
    first
    | with_reducible assumption
    | with_reducible exact Nat.le_refl _
    | with_reducible exact List.prefix_rfl
    | with_reducible rfl
    | with_reducible exact Nat.le_add_right _ _
    | intro _
    | with_reducible refine State.upd_later ?_ ?_ ?_ ?_ ?_ ?_
    | with_reducible apply State.tryFree_later
    | with_reducible refine Later.ite ?_ ?_
    | with_reducible refine Later.iteFst ?_ ?_
    | with_reducible refine Later.foldl ?_ ?_
    | with_reducible refine Later.foldlFst ?_ ?_
    | with_reducible refine Later.fst ?_ (by assumption)
    | dsimp only
    | rw [State.mk_eq]
    | split
    | exact List.prefix_append _ _

theorem State.noteSeg_later {s0 : State} (s : State) (lba seq : Nat) (hL : Later s0 s) : Later s0 (State.noteSeg s lba seq) := by
  unfold State.noteSeg
  repeat'
    first
    | with_reducible assumption
    | with_reducible exact Nat.le_refl _
    | with_reducible exact List.prefix_rfl
    | with_reducible rfl
    | with_reducible exact Nat.le_add_right _ _
    | intro _
    | with_reducible refine State.upd_later ?_ ?_ ?_ ?_ ?_ ?_
    | with_reducible refine Later.ite ?_ ?_
    | with_reducible refine Later.iteFst ?_ ?_
    | with_reducible refine Later.foldl ?_ ?_
    | with_reducible refine Later.foldlFst ?_ ?_
    | with_reducible refine Later.fst ?_ (by assumption)
    | dsimp only
    | rw [State.mk_eq]
    | split
    | exact List.prefix_append _ _

theorem State.stepSlot_later {s0 : State} (s : State) (r n stream : Nat) (hL : Later s0 s) : Later s0 (State.stepSlot s r n stream) := by
  unfold State.stepSlot
  repeat'
    first
    | with_reducible assumption
    | with_reducible exact Nat.le_refl _
    | with_reducible exact List.prefix_rfl
    | with_reducible rfl
    | with_reducible exact Nat.le_add_right _ _
    | intro _
    | with_reducible refine State.upd_later ?_ ?_ ?_ ?_ ?_ ?_
    | with_reducible apply State.updRow_later
    | with_reducible apply State.journal_later
    | with_reducible apply State.addParity_later
    | with_reducible apply State.updSb_later
    | with_reducible refine Later.ite ?_ ?_
    | with_reducible refine Later.iteFst ?_ ?_
    | with_reducible refine Later.foldl ?_ ?_
    | with_reducible refine Later.foldlFst ?_ ?_
    | with_reducible refine Later.fst ?_ (by assumption)
    | dsimp only
    | rw [State.mk_eq]
    | split
    | exact List.prefix_append _ _

theorem State.assignUnit_later {s0 : State} (s : State) (stream lba : Nat) (data : List Byte) (src : Option Nat) (hL : Later s0 s) : Later s0 (State.assignUnit s stream lba data src) := by
  unfold State.assignUnit
  repeat'
    first
    | with_reducible assumption
    | with_reducible exact Nat.le_refl _
    | with_reducible exact List.prefix_rfl
    | with_reducible rfl
    | with_reducible exact Nat.le_add_right _ _
    | intro _
    | with_reducible refine State.upd_later ?_ ?_ ?_ ?_ ?_ ?_
    | with_reducible apply State.tryFree_later
    | with_reducible apply State.tryProgram_later
    | with_reducible apply State.nextSeq_later
    | with_reducible apply State.tally_later
    | with_reducible apply State.noteSeg_later
    | with_reducible apply State.takeBuffers_later
    | with_reducible apply State.stepSlot_later
    | with_reducible apply State.openSb_later
    | with_reducible refine Later.ite ?_ ?_
    | with_reducible refine Later.iteFst ?_ ?_
    | with_reducible refine Later.foldl ?_ ?_
    | with_reducible refine Later.foldlFst ?_ ?_
    | with_reducible refine Later.fst ?_ (by assumption)
    | dsimp only
    | rw [State.mk_eq]
    | split
    | exact List.prefix_append _ _

theorem State.allocUnit_later {s0 : State} (s : State) (hL : Later s0 s) : Later s0 (State.allocUnit s).1 := by
  unfold State.allocUnit
  repeat'
    first
    | with_reducible assumption
    | with_reducible exact Nat.le_refl _
    | with_reducible exact List.prefix_rfl
    | with_reducible rfl
    | with_reducible exact Nat.le_add_right _ _
    | intro _
    | with_reducible refine State.upd_later ?_ ?_ ?_ ?_ ?_ ?_
    | with_reducible refine Later.ite ?_ ?_
    | with_reducible refine Later.iteFst ?_ ?_
    | with_reducible refine Later.foldl ?_ ?_
    | with_reducible refine Later.foldlFst ?_ ?_
    | with_reducible refine Later.fst ?_ (by assumption)
    | dsimp only
    | rw [State.mk_eq]
    | split
    | exact List.prefix_append _ _

theorem State.storeBytes_later {s0 : State} (s : State) (b : List Byte) (hL : Later s0 s) : Later s0 (State.storeBytes s b).1 := by
  unfold State.storeBytes
  repeat'
    first
    | with_reducible assumption
    | with_reducible exact Nat.le_refl _
    | with_reducible exact List.prefix_rfl
    | with_reducible rfl
    | with_reducible exact Nat.le_add_right _ _
    | intro _
    | with_reducible refine State.upd_later ?_ ?_ ?_ ?_ ?_ ?_
    | with_reducible apply State.allocUnit_later
    | with_reducible apply State.assignUnit_later
    | with_reducible refine Later.ite ?_ ?_
    | with_reducible refine Later.iteFst ?_ ?_
    | with_reducible refine Later.foldl ?_ ?_
    | with_reducible refine Later.foldlFst ?_ ?_
    | with_reducible refine Later.fst ?_ (by assumption)
    | dsimp only
    | rw [State.mk_eq]
    | split
    | exact List.prefix_append _ _

theorem State.receiptWrite_later {s0 : State} (s : State) (b : List Byte) (hL : Later s0 s) : Later s0 (State.receiptWrite s b) := by
  unfold State.receiptWrite
  repeat'
    first
    | with_reducible assumption
    | with_reducible exact Nat.le_refl _
    | with_reducible exact List.prefix_rfl
    | with_reducible rfl
    | with_reducible exact Nat.le_add_right _ _
    | intro _
    | with_reducible refine State.upd_later ?_ ?_ ?_ ?_ ?_ ?_
    | with_reducible apply State.storeBytes_later
    | with_reducible refine Later.ite ?_ ?_
    | with_reducible refine Later.iteFst ?_ ?_
    | with_reducible refine Later.foldl ?_ ?_
    | with_reducible refine Later.foldlFst ?_ ?_
    | with_reducible refine Later.fst ?_ (by assumption)
    | dsimp only
    | rw [State.mk_eq]
    | split
    | exact List.prefix_append _ _

theorem State.storeLog_later {s0 : State} (s : State) (b : List Byte) (hL : Later s0 s) : Later s0 (State.storeLog s b) := by
  unfold State.storeLog
  repeat'
    first
    | with_reducible assumption
    | with_reducible exact Nat.le_refl _
    | with_reducible exact List.prefix_rfl
    | with_reducible rfl
    | with_reducible exact Nat.le_add_right _ _
    | intro _
    | with_reducible refine State.upd_later ?_ ?_ ?_ ?_ ?_ ?_
    | with_reducible apply State.assignUnit_later
    | with_reducible refine Later.ite ?_ ?_
    | with_reducible refine Later.iteFst ?_ ?_
    | with_reducible refine Later.foldl ?_ ?_
    | with_reducible refine Later.foldlFst ?_ ?_
    | with_reducible refine Later.fst ?_ (by assumption)
    | dsimp only
    | rw [State.mk_eq]
    | split
    | exact List.prefix_append _ _

theorem State.discardRange_later {s0 : State} (s : State) (first count owner : Nat) (hL : Later s0 s) : Later s0 (State.discardRange s first count owner) := by
  unfold State.discardRange
  repeat'
    first
    | with_reducible assumption
    | with_reducible exact Nat.le_refl _
    | with_reducible exact List.prefix_rfl
    | with_reducible rfl
    | with_reducible exact Nat.le_add_right _ _
    | intro _
    | with_reducible refine State.upd_later ?_ ?_ ?_ ?_ ?_ ?_
    | with_reducible apply State.freeRow_later
    | with_reducible apply State.journal_later
    | with_reducible apply State.count_later
    | with_reducible apply State.noteSeg_later
    | with_reducible refine Later.ite ?_ ?_
    | with_reducible refine Later.iteFst ?_ ?_
    | with_reducible refine Later.foldl ?_ ?_
    | with_reducible refine Later.foldlFst ?_ ?_
    | with_reducible refine Later.fst ?_ (by assumption)
    | dsimp only
    | rw [State.mk_eq]
    | split
    | exact List.prefix_append _ _

theorem State.discard_later {s0 : State} (s : State) (first count owner : Nat) (hL : Later s0 s) : Later s0 (State.discard s first count owner) := by
  unfold State.discard
  repeat'
    first
    | with_reducible assumption
    | with_reducible exact Nat.le_refl _
    | with_reducible exact List.prefix_rfl
    | with_reducible rfl
    | with_reducible exact Nat.le_add_right _ _
    | intro _
    | with_reducible refine State.upd_later ?_ ?_ ?_ ?_ ?_ ?_
    | with_reducible apply State.count_later
    | with_reducible apply State.discardRange_later
    | with_reducible refine Later.ite ?_ ?_
    | with_reducible refine Later.iteFst ?_ ?_
    | with_reducible refine Later.foldl ?_ ?_
    | with_reducible refine Later.foldlFst ?_ ?_
    | with_reducible refine Later.fst ?_ (by assumption)
    | dsimp only
    | rw [State.mk_eq]
    | split
    | exact List.prefix_append _ _

theorem State.discardUnits_later {s0 : State} (s : State) (ls : List Nat) (hL : Later s0 s) : Later s0 (State.discardUnits s ls) := by
  unfold State.discardUnits
  repeat'
    first
    | with_reducible assumption
    | with_reducible exact Nat.le_refl _
    | with_reducible exact List.prefix_rfl
    | with_reducible rfl
    | with_reducible exact Nat.le_add_right _ _
    | intro _
    | with_reducible refine State.upd_later ?_ ?_ ?_ ?_ ?_ ?_
    | with_reducible apply State.discard_later
    | with_reducible refine Later.ite ?_ ?_
    | with_reducible refine Later.iteFst ?_ ?_
    | with_reducible refine Later.foldl ?_ ?_
    | with_reducible refine Later.foldlFst ?_ ?_
    | with_reducible refine Later.fst ?_ (by assumption)
    | dsimp only
    | rw [State.mk_eq]
    | split
    | exact List.prefix_append _ _

theorem State.basicIrq_later {s0 : State} (s : State) (fn b : Nat) (hL : Later s0 s) : Later s0 (State.basicIrq s fn b) := by
  unfold State.basicIrq
  repeat'
    first
    | with_reducible assumption
    | with_reducible exact Nat.le_refl _
    | with_reducible exact List.prefix_rfl
    | with_reducible rfl
    | with_reducible exact Nat.le_add_right _ _
    | intro _
    | with_reducible refine State.upd_later ?_ ?_ ?_ ?_ ?_ ?_
    | with_reducible apply State.setFn_later
    | with_reducible apply State.msix_later
    | with_reducible refine Later.ite ?_ ?_
    | with_reducible refine Later.iteFst ?_ ?_
    | with_reducible refine Later.foldl ?_ ?_
    | with_reducible refine Later.foldlFst ?_ ?_
    | with_reducible refine Later.fst ?_ (by assumption)
    | dsimp only
    | rw [State.mk_eq]
    | split
    | exact List.prefix_append _ _

theorem State.basicError_later {s0 : State} (s : State) (fn : Nat) (hL : Later s0 s) : Later s0 (State.basicError s fn) := by
  unfold State.basicError
  repeat'
    first
    | with_reducible assumption
    | with_reducible exact Nat.le_refl _
    | with_reducible exact List.prefix_rfl
    | with_reducible rfl
    | with_reducible exact Nat.le_add_right _ _
    | intro _
    | with_reducible refine State.upd_later ?_ ?_ ?_ ?_ ?_ ?_
    | with_reducible apply State.setFn_later
    | with_reducible apply State.basicIrq_later
    | with_reducible refine Later.ite ?_ ?_
    | with_reducible refine Later.iteFst ?_ ?_
    | with_reducible refine Later.foldl ?_ ?_
    | with_reducible refine Later.foldlFst ?_ ?_
    | with_reducible refine Later.fst ?_ (by assumption)
    | dsimp only
    | rw [State.mk_eq]
    | split
    | exact List.prefix_append _ _

theorem State.basicStop_later {s0 : State} (s : State) (fn : Nat) (ingest : Bool) (hL : Later s0 s) : Later s0 (State.basicStop s fn ingest) := by
  unfold State.basicStop
  repeat'
    first
    | with_reducible assumption
    | with_reducible exact Nat.le_refl _
    | with_reducible exact List.prefix_rfl
    | with_reducible rfl
    | with_reducible exact Nat.le_add_right _ _
    | intro _
    | with_reducible refine State.upd_later ?_ ?_ ?_ ?_ ?_ ?_
    | with_reducible apply State.updFn_later
    | with_reducible apply State.tally_later
    | with_reducible refine Later.ite ?_ ?_
    | with_reducible refine Later.iteFst ?_ ?_
    | with_reducible refine Later.foldl ?_ ?_
    | with_reducible refine Later.foldlFst ?_ ?_
    | with_reducible refine Later.fst ?_ (by assumption)
    | dsimp only
    | rw [State.mk_eq]
    | split
    | exact List.prefix_append _ _

theorem State.dmaRefuse_later {s0 : State} (s : State) (fn addr : Nat) (hL : Later s0 s) : Later s0 (State.dmaRefuse s fn addr) := by
  unfold State.dmaRefuse
  repeat'
    first
    | with_reducible assumption
    | with_reducible exact Nat.le_refl _
    | with_reducible exact List.prefix_rfl
    | with_reducible rfl
    | with_reducible exact Nat.le_add_right _ _
    | intro _
    | with_reducible refine State.upd_later ?_ ?_ ?_ ?_ ?_ ?_
    | with_reducible apply State.cause_later
    | with_reducible apply State.setFn_later
    | with_reducible apply State.basicError_later
    | with_reducible apply State.tally_later
    | with_reducible refine Later.ite ?_ ?_
    | with_reducible refine Later.iteFst ?_ ?_
    | with_reducible refine Later.foldl ?_ ?_
    | with_reducible refine Later.foldlFst ?_ ?_
    | with_reducible refine Later.fst ?_ (by assumption)
    | dsimp only
    | rw [State.mk_eq]
    | split
    | exact List.prefix_append _ _

theorem State.dmaRead_later {s0 : State} (s : State) (fn addr len : Nat) (hL : Later s0 s) : Later s0 (State.dmaRead s fn addr len).1 := by
  unfold State.dmaRead
  repeat'
    first
    | with_reducible assumption
    | with_reducible exact Nat.le_refl _
    | with_reducible exact List.prefix_rfl
    | with_reducible rfl
    | with_reducible exact Nat.le_add_right _ _
    | intro _
    | with_reducible refine State.upd_later ?_ ?_ ?_ ?_ ?_ ?_
    | with_reducible apply State.dmaRefuse_later
    | with_reducible apply State.count_later
    | with_reducible refine Later.ite ?_ ?_
    | with_reducible refine Later.iteFst ?_ ?_
    | with_reducible refine Later.foldl ?_ ?_
    | with_reducible refine Later.foldlFst ?_ ?_
    | with_reducible refine Later.fst ?_ (by assumption)
    | dsimp only
    | rw [State.mk_eq]
    | split
    | exact List.prefix_append _ _

theorem State.dmaWrite_later {s0 : State} (s : State) (fn addr : Nat) (bytes : List Byte) (hL : Later s0 s) : Later s0 (State.dmaWrite s fn addr bytes).1 := by
  unfold State.dmaWrite
  repeat'
    first
    | with_reducible assumption
    | with_reducible exact Nat.le_refl _
    | with_reducible exact List.prefix_rfl
    | with_reducible rfl
    | with_reducible exact Nat.le_add_right _ _
    | intro _
    | with_reducible refine State.upd_later ?_ ?_ ?_ ?_ ?_ ?_
    | with_reducible apply State.count_later
    | with_reducible apply State.emit_later
    | with_reducible apply State.dmaRefuse_later
    | with_reducible refine Later.ite ?_ ?_
    | with_reducible refine Later.iteFst ?_ ?_
    | with_reducible refine Later.foldl ?_ ?_
    | with_reducible refine Later.foldlFst ?_ ?_
    | with_reducible refine Later.fst ?_ (by assumption)
    | dsimp only
    | rw [State.mk_eq]
    | split
    | exact List.prefix_append _ _

theorem State.setPair_later {s0 : State} (s : State) (fn pair : Nat) (p : RingPair) (hL : Later s0 s) : Later s0 (State.setPair s fn pair p) := by
  unfold State.setPair
  repeat'
    first
    | with_reducible assumption
    | with_reducible exact Nat.le_refl _
    | with_reducible exact List.prefix_rfl
    | with_reducible rfl
    | with_reducible exact Nat.le_add_right _ _
    | intro _
    | with_reducible refine State.upd_later ?_ ?_ ?_ ?_ ?_ ?_
    | with_reducible apply State.updFn_later
    | with_reducible refine Later.ite ?_ ?_
    | with_reducible refine Later.iteFst ?_ ?_
    | with_reducible refine Later.foldl ?_ ?_
    | with_reducible refine Later.foldlFst ?_ ?_
    | with_reducible refine Later.fst ?_ (by assumption)
    | dsimp only
    | rw [State.mk_eq]
    | split
    | exact List.prefix_append _ _

theorem State.ringFault_later {s0 : State} (s : State) (fn pair cause : Nat) (hL : Later s0 s) : Later s0 (State.ringFault s fn pair cause) := by
  unfold State.ringFault
  repeat'
    first
    | with_reducible assumption
    | with_reducible exact Nat.le_refl _
    | with_reducible exact List.prefix_rfl
    | with_reducible rfl
    | with_reducible exact Nat.le_add_right _ _
    | intro _
    | with_reducible refine State.upd_later ?_ ?_ ?_ ?_ ?_ ?_
    | with_reducible apply State.setFn_later
    | with_reducible apply State.setPair_later
    | with_reducible apply State.basicError_later
    | with_reducible apply State.tally_later
    | with_reducible apply State.basicStop_later
    | with_reducible apply State.cause_later
    | with_reducible refine Later.ite ?_ ?_
    | with_reducible refine Later.iteFst ?_ ?_
    | with_reducible refine Later.foldl ?_ ?_
    | with_reducible refine Later.foldlFst ?_ ?_
    | with_reducible refine Later.fst ?_ (by assumption)
    | dsimp only
    | rw [State.mk_eq]
    | split
    | exact List.prefix_append _ _

theorem State.signal_later {s0 : State} (s : State) (fn pair : Nat) (urgent : Bool) (hL : Later s0 s) : Later s0 (State.signal s fn pair urgent) := by
  unfold State.signal
  repeat'
    first
    | with_reducible assumption
    | with_reducible exact Nat.le_refl _
    | with_reducible exact List.prefix_rfl
    | with_reducible rfl
    | with_reducible exact Nat.le_add_right _ _
    | intro _
    | with_reducible refine State.upd_later ?_ ?_ ?_ ?_ ?_ ?_
    | with_reducible apply State.setPair_later
    | with_reducible apply State.msix_later
    | with_reducible refine Later.ite ?_ ?_
    | with_reducible refine Later.iteFst ?_ ?_
    | with_reducible refine Later.foldl ?_ ?_
    | with_reducible refine Later.foldlFst ?_ ?_
    | with_reducible refine Later.fst ?_ (by assumption)
    | dsimp only
    | rw [State.mk_eq]
    | split
    | exact List.prefix_append _ _

theorem State.completeRaw_later {s0 : State} (s : State) (fn pair sqIndex ctype : Nat) (lost urgent : Bool) (rest : List Byte) (hL : Later s0 s) : Later s0 (State.completeRaw s fn pair sqIndex ctype lost urgent rest) := by
  unfold State.completeRaw
  repeat'
    first
    | with_reducible assumption
    | with_reducible exact Nat.le_refl _
    | with_reducible exact List.prefix_rfl
    | with_reducible rfl
    | with_reducible exact Nat.le_add_right _ _
    | intro _
    | with_reducible refine State.upd_later ?_ ?_ ?_ ?_ ?_ ?_
    | with_reducible apply State.setPair_later
    | with_reducible apply State.ringFault_later
    | with_reducible apply State.dmaWrite_later
    | with_reducible apply State.signal_later
    | with_reducible refine Later.ite ?_ ?_
    | with_reducible refine Later.iteFst ?_ ?_
    | with_reducible refine Later.foldl ?_ ?_
    | with_reducible refine Later.foldlFst ?_ ?_
    | with_reducible refine Later.fst ?_ (by assumption)
    | dsimp only
    | rw [State.mk_eq]
    | split
    | exact List.prefix_append _ _

theorem State.finishDelete_later {s0 : State} (s : State) (fn pair : Nat) (hL : Later s0 s) : Later s0 (State.finishDelete s fn pair) := by
  unfold State.finishDelete
  repeat'
    first
    | with_reducible assumption
    | with_reducible exact Nat.le_refl _
    | with_reducible exact List.prefix_rfl
    | with_reducible rfl
    | with_reducible exact Nat.le_add_right _ _
    | intro _
    | with_reducible refine State.upd_later ?_ ?_ ?_ ?_ ?_ ?_
    | with_reducible apply State.updFn_later
    | with_reducible apply State.completeRaw_later
    | with_reducible refine Later.ite ?_ ?_
    | with_reducible refine Later.iteFst ?_ ?_
    | with_reducible refine Later.foldl ?_ ?_
    | with_reducible refine Later.foldlFst ?_ ?_
    | with_reducible refine Later.fst ?_ (by assumption)
    | dsimp only
    | rw [State.mk_eq]
    | split
    | exact List.prefix_append _ _

theorem State.complete_later {s0 : State} (s : State) (fn pair sqIndex ctype : Nat) (lost urgent : Bool) (rest : List Byte) (hL : Later s0 s) : Later s0 (State.complete s fn pair sqIndex ctype lost urgent rest) := by
  unfold State.complete
  repeat'
    first
    | with_reducible assumption
    | with_reducible exact Nat.le_refl _
    | with_reducible exact List.prefix_rfl
    | with_reducible rfl
    | with_reducible exact Nat.le_add_right _ _
    | intro _
    | with_reducible refine State.upd_later ?_ ?_ ?_ ?_ ?_ ?_
    | with_reducible apply State.finishDelete_later
    | with_reducible apply State.completeRaw_later
    | with_reducible refine Later.ite ?_ ?_
    | with_reducible refine Later.iteFst ?_ ?_
    | with_reducible refine Later.foldl ?_ ?_
    | with_reducible refine Later.foldlFst ?_ ?_
    | with_reducible refine Later.fst ?_ (by assumption)
    | dsimp only
    | rw [State.mk_eq]
    | split
    | exact List.prefix_append _ _

theorem State.entryFault_later {s0 : State} (s : State) (fn pair sqIndex cause tag : Nat) (hL : Later s0 s) : Later s0 (State.entryFault s fn pair sqIndex cause tag) := by
  unfold State.entryFault
  repeat'
    first
    | with_reducible assumption
    | with_reducible exact Nat.le_refl _
    | with_reducible exact List.prefix_rfl
    | with_reducible rfl
    | with_reducible exact Nat.le_add_right _ _
    | intro _
    | with_reducible refine State.upd_later ?_ ?_ ?_ ?_ ?_ ?_
    | with_reducible apply State.cause_later
    | with_reducible apply State.complete_later
    | with_reducible apply State.tally_later
    | with_reducible refine Later.ite ?_ ?_
    | with_reducible refine Later.iteFst ?_ ?_
    | with_reducible refine Later.foldl ?_ ?_
    | with_reducible refine Later.foldlFst ?_ ?_
    | with_reducible refine Later.fst ?_ (by assumption)
    | dsimp only
    | rw [State.mk_eq]
    | split
    | exact List.prefix_append _ _

theorem State.adminDone_later {s0 : State} (s : State) (c : AdminRef) (status : Nat) (output result : List Byte) (hL : Later s0 s) : Later s0 (State.adminDone s c status output result) := by
  unfold State.adminDone
  repeat'
    first
    | with_reducible assumption
    | with_reducible exact Nat.le_refl _
    | with_reducible exact List.prefix_rfl
    | with_reducible rfl
    | with_reducible exact Nat.le_add_right _ _
    | intro _
    | with_reducible refine State.upd_later ?_ ?_ ?_ ?_ ?_ ?_
    | with_reducible apply State.dmaWrite_later
    | with_reducible apply State.complete_later
    | with_reducible refine Later.ite ?_ ?_
    | with_reducible refine Later.iteFst ?_ ?_
    | with_reducible refine Later.foldl ?_ ?_
    | with_reducible refine Later.foldlFst ?_ ?_
    | with_reducible refine Later.fst ?_ (by assumption)
    | dsimp only
    | rw [State.mk_eq]
    | split
    | exact List.prefix_append _ _

theorem State.adminCommand_later {s0 : State} (s : State) (c : AdminCmd) (opcode args : Nat) (reserved pfOnly : Bool) (run : State → AdminRef → State)
    (h : Later s0 s) (hr : ∀ s r, Later s0 s → Later s0 (run s r)) : Later s0 (s.adminCommand c opcode args reserved pfOnly run) := by
  unfold State.adminCommand
  repeat'
    first
    | with_reducible assumption
    | with_reducible exact Nat.le_refl _
    | with_reducible exact List.prefix_rfl
    | with_reducible rfl
    | with_reducible apply hr
    | with_reducible apply State.entryFault_later
    | with_reducible apply State.adminDone_later
    | with_reducible apply State.dmaRead_later
    | with_reducible refine State.upd_later ?_ ?_ ?_ ?_ ?_ ?_
    | with_reducible refine Later.fst ?_ (by assumption)
    | dsimp only
    | rw [State.mk_eq]
    | split

end Sys2Proof.Machine
end

