-- ==== Sys2Proof/Laws/Later2.lean ====
section
/-! SUPPORT. The operations of SelectOps, EmitOps, FabricOps, ExchangeOps, FeatureOps, TensorOps, QueryOps, Admission, ListOps move no clock, epoch or draw count back, take back nothing sent and leave the queue and the silicon alone. -/
set_option Elab.async false
set_option linter.all false

namespace Sys2Proof.Machine

theorem State.openCtx_later {s0 : State} (s : State) (g k : Nat) (listSide : Bool) (hL : Later s0 s) : Later s0 (State.openCtx s g k listSide).1 := by
  unfold State.openCtx
  repeat'
    first
    | with_reducible assumption
    | with_reducible exact Nat.le_refl _
    | with_reducible exact List.prefix_rfl
    | with_reducible rfl
    | with_reducible exact Nat.le_add_right _ _
    | intro _
    | with_reducible refine State.upd_later ?_ ?_ ?_ ?_ ?_ ?_
    | with_reducible apply State.tally_later
    | with_reducible refine Later.ite ?_ ?_
    | with_reducible refine Later.iteFst ?_ ?_
    | with_reducible refine Later.foldl ?_ ?_
    | with_reducible refine Later.foldlFst ?_ ?_
    | with_reducible refine Later.fst ?_ (by assumption)
    | dsimp only
    | rw [State.mk_eq]
    | split
    | exact List.prefix_append _ _

theorem State.offer_later {s0 : State} (s : State) (g : Nat) (c : SelCtx) (e : Entry) (hL : Later s0 s) : Later s0 (State.offer s g c e).1 := by
  unfold State.offer
  repeat'
    first
    | with_reducible assumption
    | with_reducible exact Nat.le_refl _
    | with_reducible exact List.prefix_rfl
    | with_reducible rfl
    | with_reducible exact Nat.le_add_right _ _
    | intro _
    | with_reducible refine State.upd_later ?_ ?_ ?_ ?_ ?_ ?_
    | with_reducible apply State.count_later
    | with_reducible apply State.tally_later
    | with_reducible refine Later.ite ?_ ?_
    | with_reducible refine Later.iteFst ?_ ?_
    | with_reducible refine Later.foldl ?_ ?_
    | with_reducible refine Later.foldlFst ?_ ?_
    | with_reducible refine Later.fst ?_ (by assumption)
    | dsimp only
    | rw [State.mk_eq]
    | split
    | exact List.prefix_append _ _

theorem State.offerEach_later {s0 : State} (s : State) (g : Nat) (c : SelCtx) (es : List Entry) (hL : Later s0 s) : Later s0 (State.offerEach s g c es).1 := by
  unfold State.offerEach
  repeat'
    first
    | with_reducible assumption
    | with_reducible exact Nat.le_refl _
    | with_reducible exact List.prefix_rfl
    | with_reducible rfl
    | with_reducible exact Nat.le_add_right _ _
    | intro _
    | with_reducible refine State.upd_later ?_ ?_ ?_ ?_ ?_ ?_
    | with_reducible apply State.offer_later
    | with_reducible refine Later.ite ?_ ?_
    | with_reducible refine Later.iteFst ?_ ?_
    | with_reducible refine Later.foldl ?_ ?_
    | with_reducible refine Later.foldlFst ?_ ?_
    | with_reducible refine Later.fst ?_ (by assumption)
    | dsimp only
    | rw [State.mk_eq]
    | split
    | exact List.prefix_append _ _

theorem State.mergePartial_later {s0 : State} (s : State) (g : Nat) (c : SelCtx) (es : List Entry) (hL : Later s0 s) : Later s0 (State.mergePartial s g c es).1 := by
  unfold State.mergePartial
  repeat'
    first
    | with_reducible assumption
    | with_reducible exact Nat.le_refl _
    | with_reducible exact List.prefix_rfl
    | with_reducible rfl
    | with_reducible exact Nat.le_add_right _ _
    | intro _
    | with_reducible refine State.upd_later ?_ ?_ ?_ ?_ ?_ ?_
    | with_reducible apply State.offerEach_later
    | with_reducible apply State.count_later
    | with_reducible refine Later.ite ?_ ?_
    | with_reducible refine Later.iteFst ?_ ?_
    | with_reducible refine Later.foldl ?_ ?_
    | with_reducible refine Later.foldlFst ?_ ?_
    | with_reducible refine Later.fst ?_ (by assumption)
    | dsimp only
    | rw [State.mk_eq]
    | split
    | exact List.prefix_append _ _

theorem State.addLeaf_later {s0 : State} (s : State) (tenant : Nat) (leaf : List Byte) (hL : Later s0 s) : Later s0 (State.addLeaf s tenant leaf) := by
  unfold State.addLeaf
  repeat'
    first
    | with_reducible assumption
    | with_reducible exact Nat.le_refl _
    | with_reducible exact List.prefix_rfl
    | with_reducible rfl
    | with_reducible exact Nat.le_add_right _ _
    | intro _
    | with_reducible refine State.upd_later ?_ ?_ ?_ ?_ ?_ ?_
    | with_reducible apply State.receiptWrite_later
    | with_reducible apply State.meter_later
    | with_reducible refine Later.ite ?_ ?_
    | with_reducible refine Later.iteFst ?_ ?_
    | with_reducible refine Later.foldl ?_ ?_
    | with_reducible refine Later.foldlFst ?_ ?_
    | with_reducible refine Later.fst ?_ (by assumption)
    | dsimp only
    | rw [State.mk_eq]
    | split
    | exact List.prefix_append _ _

theorem State.dropTensor_later {s0 : State} (s : State) (part : Nat) (p : TensorReq → Bool) (hL : Later s0 s) : Later s0 (State.dropTensor s part p) := by
  unfold State.dropTensor
  repeat'
    first
    | with_reducible assumption
    | with_reducible exact Nat.le_refl _
    | with_reducible exact List.prefix_rfl
    | with_reducible rfl
    | with_reducible exact Nat.le_add_right _ _
    | intro _
    | with_reducible refine State.upd_later ?_ ?_ ?_ ?_ ?_ ?_
    | with_reducible refine Later.ite ?_ ?_
    | with_reducible refine Later.iteFst ?_ ?_
    | with_reducible refine Later.foldl ?_ ?_
    | with_reducible refine Later.foldlFst ?_ ?_
    | with_reducible refine Later.fst ?_ (by assumption)
    | dsimp only
    | rw [State.mk_eq]
    | split
    | exact List.prefix_append _ _

theorem State.toEmit_later {s0 : State} (s : State) (q : Nat) (x : Query) (hL : Later s0 s) : Later s0 (State.toEmit s q x) := by
  unfold State.toEmit
  repeat'
    first
    | with_reducible assumption
    | with_reducible exact Nat.le_refl _
    | with_reducible exact List.prefix_rfl
    | with_reducible rfl
    | with_reducible exact Nat.le_add_right _ _
    | intro _
    | with_reducible refine State.upd_later ?_ ?_ ?_ ?_ ?_ ?_
    | with_reducible apply State.setQuery_later
    | with_reducible apply State.dropTensor_later
    | with_reducible refine Later.ite ?_ ?_
    | with_reducible refine Later.iteFst ?_ ?_
    | with_reducible refine Later.foldl ?_ ?_
    | with_reducible refine Later.foldlFst ?_ ?_
    | with_reducible refine Later.fst ?_ (by assumption)
    | dsimp only
    | rw [State.mk_eq]
    | split
    | exact List.prefix_append _ _

theorem State.reject_later {s0 : State} (s : State) (q : Nat) (x : Query) (cause : Nat) (hL : Later s0 s) : Later s0 (State.reject s q x cause) := by
  unfold State.reject
  repeat'
    first
    | with_reducible assumption
    | with_reducible exact Nat.le_refl _
    | with_reducible exact List.prefix_rfl
    | with_reducible rfl
    | with_reducible exact Nat.le_add_right _ _
    | intro _
    | with_reducible refine State.upd_later ?_ ?_ ?_ ?_ ?_ ?_
    | with_reducible apply State.cause_later
    | with_reducible apply State.toEmit_later
    | with_reducible refine Later.ite ?_ ?_
    | with_reducible refine Later.iteFst ?_ ?_
    | with_reducible refine Later.foldl ?_ ?_
    | with_reducible refine Later.foldlFst ?_ ?_
    | with_reducible refine Later.fst ?_ (by assumption)
    | dsimp only
    | rw [State.mk_eq]
    | split
    | exact List.prefix_append _ _

theorem State.completeBasic_later {s0 : State} (s : State) (x : Query) (hL : Later s0 s) : Later s0 (State.completeBasic s x) := by
  unfold State.completeBasic
  repeat'
    first
    | with_reducible assumption
    | with_reducible exact Nat.le_refl _
    | with_reducible exact List.prefix_rfl
    | with_reducible rfl
    | with_reducible exact Nat.le_add_right _ _
    | intro _
    | with_reducible refine State.upd_later ?_ ?_ ?_ ?_ ?_ ?_
    | with_reducible apply State.updFn_later
    | with_reducible apply State.ringFault_later
    | with_reducible apply State.dmaWrite_later
    | with_reducible apply State.basicIrq_later
    | with_reducible refine Later.ite ?_ ?_
    | with_reducible refine Later.iteFst ?_ ?_
    | with_reducible refine Later.foldl ?_ ?_
    | with_reducible refine Later.foldlFst ?_ ?_
    | with_reducible refine Later.fst ?_ (by assumption)
    | dsimp only
    | rw [State.mk_eq]
    | split
    | exact List.prefix_append _ _

theorem State.finishQuery_later {s0 : State} (s : State) (q : Nat) (x : Query) (deliver : Bool) (hL : Later s0 s) : Later s0 (State.finishQuery s q x deliver) := by
  unfold State.finishQuery
  repeat'
    first
    | with_reducible assumption
    | with_reducible exact Nat.le_refl _
    | with_reducible exact List.prefix_rfl
    | with_reducible rfl
    | with_reducible exact Nat.le_add_right _ _
    | intro _
    | with_reducible refine State.upd_later ?_ ?_ ?_ ?_ ?_ ?_
    | with_reducible apply State.meter_later
    | with_reducible apply State.addLeaf_later
    | with_reducible apply State.dmaWrite_later
    | with_reducible apply State.count_later
    | with_reducible apply State.complete_later
    | with_reducible apply State.completeBasic_later
    | with_reducible refine Later.ite ?_ ?_
    | with_reducible refine Later.iteFst ?_ ?_
    | with_reducible refine Later.foldl ?_ ?_
    | with_reducible refine Later.foldlFst ?_ ?_
    | with_reducible refine Later.fst ?_ (by assumption)
    | dsimp only
    | rw [State.mk_eq]
    | split
    | exact List.prefix_append _ _

theorem State.retryQuery_later {s0 : State} (s : State) (q : Nat) (deliver : Bool) (hL : Later s0 s) : Later s0 (State.retryQuery s q deliver) := by
  unfold State.retryQuery
  repeat'
    first
    | with_reducible assumption
    | with_reducible exact Nat.le_refl _
    | with_reducible exact List.prefix_rfl
    | with_reducible rfl
    | with_reducible exact Nat.le_add_right _ _
    | intro _
    | with_reducible refine State.upd_later ?_ ?_ ?_ ?_ ?_ ?_
    | with_reducible apply State.toEmit_later
    | with_reducible apply State.finishQuery_later
    | with_reducible refine Later.ite ?_ ?_
    | with_reducible refine Later.iteFst ?_ ?_
    | with_reducible refine Later.foldl ?_ ?_
    | with_reducible refine Later.foldlFst ?_ ?_
    | with_reducible refine Later.fst ?_ (by assumption)
    | dsimp only
    | rw [State.mk_eq]
    | split
    | exact List.prefix_append _ _

theorem State.sendFlit_later {s0 : State} (s : State) (port ftype : Nat) (first last : Bool) (cls : Nat) (payload : List Byte) (hL : Later s0 s) : Later s0 (State.sendFlit s port ftype first last cls payload) := by
  unfold State.sendFlit
  repeat'
    first
    | with_reducible assumption
    | with_reducible exact Nat.le_refl _
    | with_reducible exact List.prefix_rfl
    | with_reducible rfl
    | with_reducible exact Nat.le_add_right _ _
    | intro _
    | with_reducible refine State.upd_later ?_ ?_ ?_ ?_ ?_ ?_
    | with_reducible apply State.setPort_later
    | with_reducible apply State.count_later
    | with_reducible apply State.emit_later
    | with_reducible refine Later.ite ?_ ?_
    | with_reducible refine Later.iteFst ?_ ?_
    | with_reducible refine Later.foldl ?_ ?_
    | with_reducible refine Later.foldlFst ?_ ?_
    | with_reducible refine Later.fst ?_ (by assumption)
    | dsimp only
    | rw [State.mk_eq]
    | split
    | exact List.prefix_append _ _

theorem State.sendFlits_later {s0 : State} (s : State) (port : Nat) (f : Frame) (skip n : Nat) (hL : Later s0 s) : Later s0 (State.sendFlits s port f skip n) := by
  unfold State.sendFlits
  repeat'
    first
    | with_reducible assumption
    | with_reducible exact Nat.le_refl _
    | with_reducible exact List.prefix_rfl
    | with_reducible rfl
    | with_reducible exact Nat.le_add_right _ _
    | intro _
    | with_reducible refine State.upd_later ?_ ?_ ?_ ?_ ?_ ?_
    | with_reducible apply State.sendFlit_later
    | with_reducible refine Later.ite ?_ ?_
    | with_reducible refine Later.iteFst ?_ ?_
    | with_reducible refine Later.foldl ?_ ?_
    | with_reducible refine Later.foldlFst ?_ ?_
    | with_reducible refine Later.fst ?_ (by assumption)
    | dsimp only
    | rw [State.mk_eq]
    | split
    | exact List.prefix_append _ _

theorem State.bookIn_later {s0 : State} (s : State) (port cls g sh : Nat) (hL : Later s0 s) : Later s0 (State.bookIn s port cls g sh) := by
  unfold State.bookIn
  repeat'
    first
    | with_reducible assumption
    | with_reducible exact Nat.le_refl _
    | with_reducible exact List.prefix_rfl
    | with_reducible rfl
    | with_reducible exact Nat.le_add_right _ _
    | intro _
    | with_reducible refine State.upd_later ?_ ?_ ?_ ?_ ?_ ?_
    | with_reducible refine Later.ite ?_ ?_
    | with_reducible refine Later.iteFst ?_ ?_
    | with_reducible refine Later.foldl ?_ ?_
    | with_reducible refine Later.foldlFst ?_ ?_
    | with_reducible refine Later.fst ?_ (by assumption)
    | dsimp only
    | rw [State.mk_eq]
    | split
    | exact List.prefix_append _ _

theorem State.freeIn_later {s0 : State} (s : State) (port cls g sh : Nat) (hL : Later s0 s) : Later s0 (State.freeIn s port cls g sh) := by
  unfold State.freeIn
  repeat'
    first
    | with_reducible assumption
    | with_reducible exact Nat.le_refl _
    | with_reducible exact List.prefix_rfl
    | with_reducible rfl
    | with_reducible exact Nat.le_add_right _ _
    | intro _
    | with_reducible refine State.upd_later ?_ ?_ ?_ ?_ ?_ ?_
    | with_reducible refine Later.ite ?_ ?_
    | with_reducible refine Later.iteFst ?_ ?_
    | with_reducible refine Later.foldl ?_ ?_
    | with_reducible refine Later.foldlFst ?_ ?_
    | with_reducible refine Later.fst ?_ (by assumption)
    | dsimp only
    | rw [State.mk_eq]
    | split
    | exact List.prefix_append _ _

theorem State.bookOut_later {s0 : State} (s : State) (port g sh : Nat) (hL : Later s0 s) : Later s0 (State.bookOut s port g sh) := by
  unfold State.bookOut
  repeat'
    first
    | with_reducible assumption
    | with_reducible exact Nat.le_refl _
    | with_reducible exact List.prefix_rfl
    | with_reducible rfl
    | with_reducible exact Nat.le_add_right _ _
    | intro _
    | with_reducible refine State.upd_later ?_ ?_ ?_ ?_ ?_ ?_
    | with_reducible refine Later.ite ?_ ?_
    | with_reducible refine Later.iteFst ?_ ?_
    | with_reducible refine Later.foldl ?_ ?_
    | with_reducible refine Later.foldlFst ?_ ?_
    | with_reducible refine Later.fst ?_ (by assumption)
    | dsimp only
    | rw [State.mk_eq]
    | split
    | exact List.prefix_append _ _

theorem State.freeOut_later {s0 : State} (s : State) (port g sh : Nat) (hL : Later s0 s) : Later s0 (State.freeOut s port g sh) := by
  unfold State.freeOut
  repeat'
    first
    | with_reducible assumption
    | with_reducible exact Nat.le_refl _
    | with_reducible exact List.prefix_rfl
    | with_reducible rfl
    | with_reducible exact Nat.le_add_right _ _
    | intro _
    | with_reducible refine State.upd_later ?_ ?_ ?_ ?_ ?_ ?_
    | with_reducible refine Later.ite ?_ ?_
    | with_reducible refine Later.iteFst ?_ ?_
    | with_reducible refine Later.foldl ?_ ?_
    | with_reducible refine Later.foldlFst ?_ ?_
    | with_reducible refine Later.fst ?_ (by assumption)
    | dsimp only
    | rw [State.mk_eq]
    | split
    | exact List.prefix_append _ _

theorem State.routeFrame_later {s0 : State} (s : State) (f : Frame) (hL : Later s0 s) : Later s0 (State.routeFrame s f) := by
  unfold State.routeFrame
  repeat'
    first
    | with_reducible assumption
    | with_reducible exact Nat.le_refl _
    | with_reducible exact List.prefix_rfl
    | with_reducible rfl
    | with_reducible exact Nat.le_add_right _ _
    | intro _
    | with_reducible refine State.upd_later ?_ ?_ ?_ ?_ ?_ ?_
    | with_reducible apply State.wake_later
    | with_reducible apply State.setPort_later
    | with_reducible apply State.tally_later
    | with_reducible apply State.bookOut_later
    | with_reducible refine Later.ite ?_ ?_
    | with_reducible refine Later.iteFst ?_ ?_
    | with_reducible refine Later.foldl ?_ ?_
    | with_reducible refine Later.foldlFst ?_ ?_
    | with_reducible refine Later.fst ?_ (by assumption)
    | dsimp only
    | rw [State.mk_eq]
    | split
    | exact List.prefix_append _ _

theorem State.routeWaiting_later {s0 : State} (s : State) (hL : Later s0 s) : Later s0 (State.routeWaiting s) := by
  unfold State.routeWaiting
  repeat'
    first
    | with_reducible assumption
    | with_reducible exact Nat.le_refl _
    | with_reducible exact List.prefix_rfl
    | with_reducible rfl
    | with_reducible exact Nat.le_add_right _ _
    | intro _
    | with_reducible refine State.upd_later ?_ ?_ ?_ ?_ ?_ ?_
    | with_reducible apply State.routeFrame_later
    | with_reducible refine Later.ite ?_ ?_
    | with_reducible refine Later.iteFst ?_ ?_
    | with_reducible refine Later.foldl ?_ ?_
    | with_reducible refine Later.foldlFst ?_ ?_
    | with_reducible refine Later.fst ?_ (by assumption)
    | dsimp only
    | rw [State.mk_eq]
    | split
    | exact List.prefix_append _ _

theorem State.sendFrame_later {s0 : State} (s : State) (dest cls kind demand mapEpoch tenant : Nat) (body : List Byte) (budgetEnd : Nat) (hL : Later s0 s) : Later s0 (State.sendFrame s dest cls kind demand mapEpoch tenant body budgetEnd) := by
  unfold State.sendFrame
  repeat'
    first
    | with_reducible assumption
    | with_reducible exact Nat.le_refl _
    | with_reducible exact List.prefix_rfl
    | with_reducible rfl
    | with_reducible exact Nat.le_add_right _ _
    | intro _
    | with_reducible refine State.upd_later ?_ ?_ ?_ ?_ ?_ ?_
    | with_reducible apply State.routeFrame_later
    | with_reducible refine Later.ite ?_ ?_
    | with_reducible refine Later.iteFst ?_ ?_
    | with_reducible refine Later.foldl ?_ ?_
    | with_reducible refine Later.foldlFst ?_ ?_
    | with_reducible refine Later.fst ?_ (by assumption)
    | dsimp only
    | rw [State.mk_eq]
    | split
    | exact List.prefix_append _ _

theorem State.sendNeighbour_later {s0 : State} (s : State) (port kind : Nat) (body : List Byte) (hL : Later s0 s) : Later s0 (State.sendNeighbour s port kind body) := by
  unfold State.sendNeighbour
  repeat'
    first
    | with_reducible assumption
    | with_reducible exact Nat.le_refl _
    | with_reducible exact List.prefix_rfl
    | with_reducible rfl
    | with_reducible exact Nat.le_add_right _ _
    | intro _
    | with_reducible refine State.upd_later ?_ ?_ ?_ ?_ ?_ ?_
    | with_reducible apply State.setPort_later
    | with_reducible refine Later.ite ?_ ?_
    | with_reducible refine Later.iteFst ?_ ?_
    | with_reducible refine Later.foldl ?_ ?_
    | with_reducible refine Later.foldlFst ?_ ?_
    | with_reducible refine Later.fst ?_ (by assumption)
    | dsimp only
    | rw [State.mk_eq]
    | split
    | exact List.prefix_append _ _

theorem State.sendAllPorts_later {s0 : State} (s : State) (skip : Option Nat) (kind : Nat) (body : List Byte) (hL : Later s0 s) : Later s0 (State.sendAllPorts s skip kind body) := by
  unfold State.sendAllPorts
  repeat'
    first
    | with_reducible assumption
    | with_reducible exact Nat.le_refl _
    | with_reducible exact List.prefix_rfl
    | with_reducible rfl
    | with_reducible exact Nat.le_add_right _ _
    | intro _
    | with_reducible refine State.upd_later ?_ ?_ ?_ ?_ ?_ ?_
    | with_reducible apply State.sendNeighbour_later
    | with_reducible refine Later.ite ?_ ?_
    | with_reducible refine Later.iteFst ?_ ?_
    | with_reducible refine Later.foldl ?_ ?_
    | with_reducible refine Later.foldlFst ?_ ?_
    | with_reducible refine Later.fst ?_ (by assumption)
    | dsimp only
    | rw [State.mk_eq]
    | split
    | exact List.prefix_append _ _

theorem State.closeDray_later {s0 : State} (s : State) (d : Dray) (hL : Later s0 s) : Later s0 (State.closeDray s d) := by
  unfold State.closeDray
  repeat'
    first
    | with_reducible assumption
    | with_reducible exact Nat.le_refl _
    | with_reducible exact List.prefix_rfl
    | with_reducible rfl
    | with_reducible exact Nat.le_add_right _ _
    | intro _
    | with_reducible refine State.upd_later ?_ ?_ ?_ ?_ ?_ ?_
    | with_reducible apply State.sendFrame_later
    | with_reducible apply State.meter_later
    | with_reducible apply State.count_later
    | with_reducible refine Later.ite ?_ ?_
    | with_reducible refine Later.iteFst ?_ ?_
    | with_reducible refine Later.foldl ?_ ?_
    | with_reducible refine Later.foldlFst ?_ ?_
    | with_reducible refine Later.fst ?_ (by assumption)
    | dsimp only
    | rw [State.mk_eq]
    | split
    | exact List.prefix_append _ _

theorem State.addItem_later {s0 : State} (s : State) (dest cls tenant : Nat) (fwd urgent : Bool) (item : List Byte) (hL : Later s0 s) : Later s0 (State.addItem s dest cls tenant fwd urgent item) := by
  unfold State.addItem
  repeat'
    first
    | with_reducible assumption
    | with_reducible exact Nat.le_refl _
    | with_reducible exact List.prefix_rfl
    | with_reducible rfl
    | with_reducible exact Nat.le_add_right _ _
    | intro _
    | with_reducible refine State.upd_later ?_ ?_ ?_ ?_ ?_ ?_
    | with_reducible apply State.closeDray_later
    | with_reducible refine Later.ite ?_ ?_
    | with_reducible refine Later.iteFst ?_ ?_
    | with_reducible refine Later.foldl ?_ ?_
    | with_reducible refine Later.foldlFst ?_ ?_
    | with_reducible refine Later.fst ?_ (by assumption)
    | dsimp only
    | rw [State.mk_eq]
    | split
    | exact List.prefix_append _ _

theorem State.sendPiece_later {s0 : State} (s : State) (dest tenant : Nat) (piece : List Byte) (hL : Later s0 s) : Later s0 (State.sendPiece s dest tenant piece) := by
  unfold State.sendPiece
  repeat'
    first
    | with_reducible assumption
    | with_reducible exact Nat.le_refl _
    | with_reducible exact List.prefix_rfl
    | with_reducible rfl
    | with_reducible exact Nat.le_add_right _ _
    | intro _
    | with_reducible refine State.upd_later ?_ ?_ ?_ ?_ ?_ ?_
    | with_reducible apply State.sendFrame_later
    | with_reducible apply State.emit_later
    | with_reducible refine Later.ite ?_ ?_
    | with_reducible refine Later.iteFst ?_ ?_
    | with_reducible refine Later.foldl ?_ ?_
    | with_reducible refine Later.foldlFst ?_ ?_
    | with_reducible refine Later.fst ?_ (by assumption)
    | dsimp only
    | rw [State.mk_eq]
    | split
    | exact List.prefix_append _ _

theorem State.sendSummary_later {s0 : State} (s : State) (dest tenant : Nat) (b : List Byte) (hL : Later s0 s) : Later s0 (State.sendSummary s dest tenant b) := by
  unfold State.sendSummary
  repeat'
    first
    | with_reducible assumption
    | with_reducible exact Nat.le_refl _
    | with_reducible exact List.prefix_rfl
    | with_reducible rfl
    | with_reducible exact Nat.le_add_right _ _
    | intro _
    | with_reducible refine State.upd_later ?_ ?_ ?_ ?_ ?_ ?_
    | with_reducible apply State.sendFrame_later
    | with_reducible apply State.emit_later
    | with_reducible refine Later.ite ?_ ?_
    | with_reducible refine Later.iteFst ?_ ?_
    | with_reducible refine Later.foldl ?_ ?_
    | with_reducible refine Later.foldlFst ?_ ?_
    | with_reducible refine Later.fst ?_ (by assumption)
    | dsimp only
    | rw [State.mk_eq]
    | split
    | exact List.prefix_append _ _

theorem State.sendGate_later {s0 : State} (s : State) (dest strand tenant : Nat) (b : List Byte) (hL : Later s0 s) : Later s0 (State.sendGate s dest strand tenant b) := by
  unfold State.sendGate
  repeat'
    first
    | with_reducible assumption
    | with_reducible exact Nat.le_refl _
    | with_reducible exact List.prefix_rfl
    | with_reducible rfl
    | with_reducible exact Nat.le_add_right _ _
    | intro _
    | with_reducible refine State.upd_later ?_ ?_ ?_ ?_ ?_ ?_
    | with_reducible apply State.sendFrame_later
    | with_reducible apply State.emit_later
    | with_reducible refine Later.ite ?_ ?_
    | with_reducible refine Later.iteFst ?_ ?_
    | with_reducible refine Later.foldl ?_ ?_
    | with_reducible refine Later.foldlFst ?_ ?_
    | with_reducible refine Later.fst ?_ (by assumption)
    | dsimp only
    | rw [State.mk_eq]
    | split
    | exact List.prefix_append _ _

theorem State.markRepair_later {s0 : State} (s : State) (tier obj : Nat) (hL : Later s0 s) : Later s0 (State.markRepair s tier obj) := by
  unfold State.markRepair
  repeat'
    first
    | with_reducible assumption
    | with_reducible exact Nat.le_refl _
    | with_reducible exact List.prefix_rfl
    | with_reducible rfl
    | with_reducible exact Nat.le_add_right _ _
    | intro _
    | with_reducible refine State.upd_later ?_ ?_ ?_ ?_ ?_ ?_
    | with_reducible apply State.score_later
    | with_reducible apply State.tally_later
    | with_reducible refine Later.ite ?_ ?_
    | with_reducible refine Later.iteFst ?_ ?_
    | with_reducible refine Later.foldl ?_ ?_
    | with_reducible refine Later.foldlFst ?_ ?_
    | with_reducible refine Later.fst ?_ (by assumption)
    | dsimp only
    | rw [State.mk_eq]
    | split
    | exact List.prefix_append _ _

theorem State.tierRead_later {s0 : State} (s : State) (obj : Nat) (ok : Bool) (hL : Later s0 s) : Later s0 (State.tierRead s obj ok).1 := by
  unfold State.tierRead
  repeat'
    first
    | with_reducible assumption
    | with_reducible exact Nat.le_refl _
    | with_reducible exact List.prefix_rfl
    | with_reducible rfl
    | with_reducible exact Nat.le_add_right _ _
    | intro _
    | with_reducible refine State.upd_later ?_ ?_ ?_ ?_ ?_ ?_
    | with_reducible refine Later.ite ?_ ?_
    | with_reducible refine Later.iteFst ?_ ?_
    | with_reducible refine Later.foldl ?_ ?_
    | with_reducible refine Later.foldlFst ?_ ?_
    | with_reducible refine Later.fst ?_ (by assumption)
    | dsimp only
    | rw [State.mk_eq]
    | split
    | exact List.prefix_append _ _

theorem State.readFailed_later {s0 : State} (s : State) (hL : Later s0 s) : Later s0 (State.readFailed s) := by
  unfold State.readFailed
  repeat'
    first
    | with_reducible assumption
    | with_reducible exact Nat.le_refl _
    | with_reducible exact List.prefix_rfl
    | with_reducible rfl
    | with_reducible exact Nat.le_add_right _ _
    | intro _
    | with_reducible refine State.upd_later ?_ ?_ ?_ ?_ ?_ ?_
    | with_reducible apply State.tally_later
    | with_reducible refine Later.ite ?_ ?_
    | with_reducible refine Later.iteFst ?_ ?_
    | with_reducible refine Later.foldl ?_ ?_
    | with_reducible refine Later.foldlFst ?_ ?_
    | with_reducible refine Later.fst ?_ (by assumption)
    | dsimp only
    | rw [State.mk_eq]
    | split
    | exact List.prefix_append _ _

theorem State.logLoss_later {s0 : State} (s : State) (key shard ns ver : Nat) (hL : Later s0 s) : Later s0 (State.logLoss s key shard ns ver) := by
  unfold State.logLoss
  repeat'
    first
    | with_reducible assumption
    | with_reducible exact Nat.le_refl _
    | with_reducible exact List.prefix_rfl
    | with_reducible rfl
    | with_reducible exact Nat.le_add_right _ _
    | intro _
    | with_reducible refine State.upd_later ?_ ?_ ?_ ?_ ?_ ?_
    | with_reducible apply State.logEvent_later
    | with_reducible refine Later.ite ?_ ?_
    | with_reducible refine Later.iteFst ?_ ?_
    | with_reducible refine Later.foldl ?_ ?_
    | with_reducible refine Later.foldlFst ?_ ?_
    | with_reducible refine Later.fst ?_ (by assumption)
    | dsimp only
    | rw [State.mk_eq]
    | split
    | exact List.prefix_append _ _

theorem State.sendTransfer_later {s0 : State} (s : State) (dest ty : Nat) (content : List Byte) (hL : Later s0 s) : Later s0 (State.sendTransfer s dest ty content) := by
  unfold State.sendTransfer
  repeat'
    first
    | with_reducible assumption
    | with_reducible exact Nat.le_refl _
    | with_reducible exact List.prefix_rfl
    | with_reducible rfl
    | with_reducible exact Nat.le_add_right _ _
    | intro _
    | with_reducible refine State.upd_later ?_ ?_ ?_ ?_ ?_ ?_
    | with_reducible apply State.addItem_later
    | with_reducible refine Later.ite ?_ ?_
    | with_reducible refine Later.iteFst ?_ ?_
    | with_reducible refine Later.foldl ?_ ?_
    | with_reducible refine Later.foldlFst ?_ ?_
    | with_reducible refine Later.fst ?_ (by assumption)
    | dsimp only
    | rw [State.mk_eq]
    | split
    | exact List.prefix_append _ _

theorem State.sendInvalidate_later {s0 : State} (s : State) (peer : Nat) (entries : List (Nat × Nat × Nat)) (hL : Later s0 s) : Later s0 (State.sendInvalidate s peer entries) := by
  unfold State.sendInvalidate
  repeat'
    first
    | with_reducible assumption
    | with_reducible exact Nat.le_refl _
    | with_reducible exact List.prefix_rfl
    | with_reducible rfl
    | with_reducible exact Nat.le_add_right _ _
    | intro _
    | with_reducible refine State.upd_later ?_ ?_ ?_ ?_ ?_ ?_
    | with_reducible apply State.sendFrame_later
    | with_reducible refine Later.ite ?_ ?_
    | with_reducible refine Later.iteFst ?_ ?_
    | with_reducible refine Later.foldl ?_ ?_
    | with_reducible refine Later.foldlFst ?_ ?_
    | with_reducible refine Later.fst ?_ (by assumption)
    | dsimp only
    | rw [State.mk_eq]
    | split
    | exact List.prefix_append _ _

theorem State.serveRow_later {s0 : State} (s : State) (reader : Nat) (t : FeatTable) (row : Nat) (hL : Later s0 s) : Later s0 (State.serveRow s reader t row).1 := by
  unfold State.serveRow
  repeat'
    first
    | with_reducible assumption
    | with_reducible exact Nat.le_refl _
    | with_reducible exact List.prefix_rfl
    | with_reducible rfl
    | with_reducible exact Nat.le_add_right _ _
    | intro _
    | with_reducible refine State.upd_later ?_ ?_ ?_ ?_ ?_ ?_
    | with_reducible apply State.objRead_later
    | with_reducible apply State.count_later
    | with_reducible refine Later.ite ?_ ?_
    | with_reducible refine Later.iteFst ?_ ?_
    | with_reducible refine Later.foldl ?_ ?_
    | with_reducible refine Later.foldlFst ?_ ?_
    | with_reducible refine Later.fst ?_ (by assumption)
    | dsimp only
    | rw [State.mk_eq]
    | split
    | exact List.prefix_append _ _

theorem State.sendRowReq_later {s0 : State} (s : State) (home tenant handle table : Nat) (urgent : Bool) (rows : List Nat) (hL : Later s0 s) : Later s0 (State.sendRowReq s home tenant handle table urgent rows) := by
  unfold State.sendRowReq
  repeat'
    first
    | with_reducible assumption
    | with_reducible exact Nat.le_refl _
    | with_reducible exact List.prefix_rfl
    | with_reducible rfl
    | with_reducible exact Nat.le_add_right _ _
    | intro _
    | with_reducible refine State.upd_later ?_ ?_ ?_ ?_ ?_ ?_
    | with_reducible apply State.addItem_later
    | with_reducible refine Later.ite ?_ ?_
    | with_reducible refine Later.iteFst ?_ ?_
    | with_reducible refine Later.foldl ?_ ?_
    | with_reducible refine Later.foldlFst ?_ ?_
    | with_reducible refine Later.fst ?_ (by assumption)
    | dsimp only
    | rw [State.mk_eq]
    | split
    | exact List.prefix_append _ _

theorem State.setPool_later {s0 : State} (s : State) (p : Nat) (t : TensorPool) (hL : Later s0 s) : Later s0 (State.setPool s p t) := by
  unfold State.setPool
  repeat'
    first
    | with_reducible assumption
    | with_reducible exact Nat.le_refl _
    | with_reducible exact List.prefix_rfl
    | with_reducible rfl
    | with_reducible exact Nat.le_add_right _ _
    | intro _
    | with_reducible refine State.upd_later ?_ ?_ ?_ ?_ ?_ ?_
    | with_reducible refine Later.ite ?_ ?_
    | with_reducible refine Later.iteFst ?_ ?_
    | with_reducible refine Later.foldl ?_ ?_
    | with_reducible refine Later.foldlFst ?_ ?_
    | with_reducible refine Later.fst ?_ (by assumption)
    | dsimp only
    | rw [State.mk_eq]
    | split
    | exact List.prefix_append _ _

theorem State.request_later {s0 : State} (s : State) (p : Nat) (r : TensorReq) (hL : Later s0 s) : Later s0 (State.request s p r) := by
  unfold State.request
  repeat'
    first
    | with_reducible assumption
    | with_reducible exact Nat.le_refl _
    | with_reducible exact List.prefix_rfl
    | with_reducible rfl
    | with_reducible exact Nat.le_add_right _ _
    | intro _
    | with_reducible refine State.upd_later ?_ ?_ ?_ ?_ ?_ ?_
    | with_reducible apply State.setPool_later
    | with_reducible refine Later.ite ?_ ?_
    | with_reducible refine Later.iteFst ?_ ?_
    | with_reducible refine Later.foldl ?_ ?_
    | with_reducible refine Later.foldlFst ?_ ?_
    | with_reducible refine Later.fst ?_ (by assumption)
    | dsimp only
    | rw [State.mk_eq]
    | split
    | exact List.prefix_append _ _

theorem State.grantTiles_later {s0 : State} (s : State) (p : Nat) (r : TensorReq) (tiles : List Nat) (hL : Later s0 s) : Later s0 (State.grantTiles s p r tiles) := by
  unfold State.grantTiles
  repeat'
    first
    | with_reducible assumption
    | with_reducible exact Nat.le_refl _
    | with_reducible exact List.prefix_rfl
    | with_reducible rfl
    | with_reducible exact Nat.le_add_right _ _
    | intro _
    | with_reducible refine State.upd_later ?_ ?_ ?_ ?_ ?_ ?_
    | with_reducible apply State.objRead_later
    | with_reducible apply State.wake_later
    | with_reducible apply State.count_later
    | with_reducible apply State.setPool_later
    | with_reducible refine Later.ite ?_ ?_
    | with_reducible refine Later.iteFst ?_ ?_
    | with_reducible refine Later.foldl ?_ ?_
    | with_reducible refine Later.foldlFst ?_ ?_
    | with_reducible refine Later.fst ?_ (by assumption)
    | dsimp only
    | rw [State.mk_eq]
    | split
    | exact List.prefix_append _ _

theorem State.endInvocation_later {s0 : State} (s : State) (p : Nat) (i : Invocation) (hL : Later s0 s) : Later s0 (State.endInvocation s p i) := by
  unfold State.endInvocation
  repeat'
    first
    | with_reducible assumption
    | with_reducible exact Nat.le_refl _
    | with_reducible exact List.prefix_rfl
    | with_reducible rfl
    | with_reducible exact Nat.le_add_right _ _
    | intro _
    | with_reducible refine State.upd_later ?_ ?_ ?_ ?_ ?_ ?_
    | with_reducible apply State.setPool_later
    | with_reducible refine Later.ite ?_ ?_
    | with_reducible refine Later.iteFst ?_ ?_
    | with_reducible refine Later.foldl ?_ ?_
    | with_reducible refine Later.foldlFst ?_ ?_
    | with_reducible refine Later.fst ?_ (by assumption)
    | dsimp only
    | rw [State.mk_eq]
    | split
    | exact List.prefix_append _ _

theorem State.startQuery_later {s0 : State} (s : State) (q : Nat) (x : Query) (slot : Nat) (img : Image) (hL : Later s0 s) : Later s0 (State.startQuery s q x slot img) := by
  unfold State.startQuery
  repeat'
    first
    | with_reducible assumption
    | with_reducible exact Nat.le_refl _
    | with_reducible exact List.prefix_rfl
    | with_reducible rfl
    | with_reducible exact Nat.le_add_right _ _
    | intro _
    | with_reducible refine State.upd_later ?_ ?_ ?_ ?_ ?_ ?_
    | with_reducible apply State.wake_later
    | with_reducible apply State.request_later
    | with_reducible apply State.setQuery_later
    | with_reducible refine Later.ite ?_ ?_
    | with_reducible refine Later.iteFst ?_ ?_
    | with_reducible refine Later.foldl ?_ ?_
    | with_reducible refine Later.foldlFst ?_ ?_
    | with_reducible refine Later.fst ?_ (by assumption)
    | dsimp only
    | rw [State.mk_eq]
    | split
    | exact List.prefix_append _ _

theorem State.reserveOrigin_later {s0 : State} (s : State) (q : Nat) (x : Query) (slot : Nat) (img : Image) (hL : Later s0 s) : Later s0 (State.reserveOrigin s q x slot img) := by
  unfold State.reserveOrigin
  repeat'
    first
    | with_reducible assumption
    | with_reducible exact Nat.le_refl _
    | with_reducible exact List.prefix_rfl
    | with_reducible rfl
    | with_reducible exact Nat.le_add_right _ _
    | intro _
    | with_reducible refine State.upd_later ?_ ?_ ?_ ?_ ?_ ?_
    | with_reducible apply State.startQuery_later
    | with_reducible apply State.tally_later
    | with_reducible apply State.setQuery_later
    | with_reducible refine Later.ite ?_ ?_
    | with_reducible refine Later.iteFst ?_ ?_
    | with_reducible refine Later.foldl ?_ ?_
    | with_reducible refine Later.foldlFst ?_ ?_
    | with_reducible refine Later.fst ?_ (by assumption)
    | dsimp only
    | rw [State.mk_eq]
    | split
    | exact List.prefix_append _ _

theorem State.stampQuery_later {s0 : State} (s : State) (q : Nat) (x : Query) (snap : Nat) (v : Version) (slot : Nat) (img : Image) (forced : Nat) (hL : Later s0 s) : Later s0 (State.stampQuery s q x snap v slot img forced) := by
  unfold State.stampQuery
  repeat'
    first
    | with_reducible assumption
    | with_reducible exact Nat.le_refl _
    | with_reducible exact List.prefix_rfl
    | with_reducible rfl
    | with_reducible exact Nat.le_add_right _ _
    | intro _
    | with_reducible refine State.upd_later ?_ ?_ ?_ ?_ ?_ ?_
    | with_reducible apply State.reserveOrigin_later
    | with_reducible apply State.openCtx_later
    | with_reducible refine Later.ite ?_ ?_
    | with_reducible refine Later.iteFst ?_ ?_
    | with_reducible refine Later.foldl ?_ ?_
    | with_reducible refine Later.foldlFst ?_ ?_
    | with_reducible refine Later.fst ?_ (by assumption)
    | dsimp only
    | rw [State.mk_eq]
    | split
    | exact List.prefix_append _ _

theorem State.gigDecision_later {s0 : State} (s : State) (x : Query) (hL : Later s0 s) : Later s0 (State.gigDecision s x).1 := by
  unfold State.gigDecision
  repeat'
    first
    | with_reducible assumption
    | with_reducible exact Nat.le_refl _
    | with_reducible exact List.prefix_rfl
    | with_reducible rfl
    | with_reducible exact Nat.le_add_right _ _
    | intro _
    | with_reducible refine State.upd_later ?_ ?_ ?_ ?_ ?_ ?_
    | with_reducible apply State.meter_later
    | with_reducible apply State.tally_later
    | with_reducible refine Later.ite ?_ ?_
    | with_reducible refine Later.iteFst ?_ ?_
    | with_reducible refine Later.foldl ?_ ?_
    | with_reducible refine Later.foldlFst ?_ ?_
    | with_reducible refine Later.fst ?_ (by assumption)
    | dsimp only
    | rw [State.mk_eq]
    | split
    | exact List.prefix_append _ _

theorem State.admitChecked_later {s0 : State} (s : State) (q : Nat) (x : Query) (snap : Nat) (chk : Except Nat (Version × Nat × Image × Nat)) (hL : Later s0 s) : Later s0 (State.admitChecked s q x snap chk) := by
  unfold State.admitChecked
  repeat'
    first
    | with_reducible assumption
    | with_reducible exact Nat.le_refl _
    | with_reducible exact List.prefix_rfl
    | with_reducible rfl
    | with_reducible exact Nat.le_add_right _ _
    | intro _
    | with_reducible refine State.upd_later ?_ ?_ ?_ ?_ ?_ ?_
    | with_reducible apply State.reject_later
    | with_reducible apply State.gigDecision_later
    | with_reducible apply State.stampQuery_later
    | with_reducible refine Later.ite ?_ ?_
    | with_reducible refine Later.iteFst ?_ ?_
    | with_reducible refine Later.foldl ?_ ?_
    | with_reducible refine Later.foldlFst ?_ ?_
    | with_reducible refine Later.fst ?_ (by assumption)
    | dsimp only
    | rw [State.mk_eq]
    | split
    | exact List.prefix_append _ _

theorem State.admitQuery_later {s0 : State} (s : State) (q : Nat) (x : Query) (g snap : Nat) (chk : Except Nat (Version × Nat × Image × Nat)) (hL : Later s0 s) : Later s0 (State.admitQuery s q x g snap chk) := by
  unfold State.admitQuery
  repeat'
    first
    | with_reducible assumption
    | with_reducible exact Nat.le_refl _
    | with_reducible exact List.prefix_rfl
    | with_reducible rfl
    | with_reducible exact Nat.le_add_right _ _
    | intro _
    | with_reducible refine State.upd_later ?_ ?_ ?_ ?_ ?_ ?_
    | with_reducible apply State.setQuery_later
    | with_reducible apply State.admitChecked_later
    | with_reducible refine Later.ite ?_ ?_
    | with_reducible refine Later.iteFst ?_ ?_
    | with_reducible refine Later.foldl ?_ ?_
    | with_reducible refine Later.foldlFst ?_ ?_
    | with_reducible refine Later.fst ?_ (by assumption)
    | dsimp only
    | rw [State.mk_eq]
    | split
    | exact List.prefix_append _ _

theorem State.emitExact_later {s0 : State} (s : State) (q : Nat) (x : Query) (hL : Later s0 s) : Later s0 (State.emitExact s q x) := by
  unfold State.emitExact
  repeat'
    first
    | with_reducible assumption
    | with_reducible exact Nat.le_refl _
    | with_reducible exact List.prefix_rfl
    | with_reducible rfl
    | with_reducible exact Nat.le_add_right _ _
    | intro _
    | with_reducible refine State.upd_later ?_ ?_ ?_ ?_ ?_ ?_
    | with_reducible apply State.toEmit_later
    | with_reducible refine Later.ite ?_ ?_
    | with_reducible refine Later.iteFst ?_ ?_
    | with_reducible refine Later.foldl ?_ ?_
    | with_reducible refine Later.foldlFst ?_ ?_
    | with_reducible refine Later.fst ?_ (by assumption)
    | dsimp only
    | rw [State.mk_eq]
    | split
    | exact List.prefix_append _ _

theorem State.requestScore_later {s0 : State} (s : State) (q : Nat) (x : Query) (hL : Later s0 s) : Later s0 (State.requestScore s q x) := by
  unfold State.requestScore
  repeat'
    first
    | with_reducible assumption
    | with_reducible exact Nat.le_refl _
    | with_reducible exact List.prefix_rfl
    | with_reducible rfl
    | with_reducible exact Nat.le_add_right _ _
    | intro _
    | with_reducible refine State.upd_later ?_ ?_ ?_ ?_ ?_ ?_
    | with_reducible apply State.score_later
    | with_reducible apply State.request_later
    | with_reducible apply State.setQuery_later
    | with_reducible apply State.emitExact_later
    | with_reducible refine Later.ite ?_ ?_
    | with_reducible refine Later.iteFst ?_ ?_
    | with_reducible refine Later.foldl ?_ ?_
    | with_reducible refine Later.foldlFst ?_ ?_
    | with_reducible refine Later.fst ?_ (by assumption)
    | dsimp only
    | rw [State.mk_eq]
    | split
    | exact List.prefix_append _ _

theorem State.resolveRow_later {s0 : State} (s : State) (handle : Nat) (x : Query) (b : BlockItem) (n : Nat) (r : FeatureRef) (hL : Later s0 s) : Later s0 (State.resolveRow s handle x b n r).1 := by
  unfold State.resolveRow
  repeat'
    first
    | with_reducible assumption
    | with_reducible exact Nat.le_refl _
    | with_reducible exact List.prefix_rfl
    | with_reducible rfl
    | with_reducible exact Nat.le_add_right _ _
    | intro _
    | with_reducible refine State.upd_later ?_ ?_ ?_ ?_ ?_ ?_
    | with_reducible apply State.objRead_later
    | with_reducible apply State.sendRowReq_later
    | with_reducible apply State.tally_later
    | with_reducible apply State.serveRow_later
    | with_reducible refine Later.ite ?_ ?_
    | with_reducible refine Later.iteFst ?_ ?_
    | with_reducible refine Later.foldl ?_ ?_
    | with_reducible refine Later.foldlFst ?_ ?_
    | with_reducible refine Later.fst ?_ (by assumption)
    | dsimp only
    | rw [State.mk_eq]
    | split
    | exact List.prefix_append _ _

theorem State.resolveItem_later {s0 : State} (s : State) (handle : Nat) (x : Query) (refs : List (Nat × FeatureRef)) (b : BlockItem) (hL : Later s0 s) : Later s0 (State.resolveItem s handle x refs b).1 := by
  unfold State.resolveItem
  repeat'
    first
    | with_reducible assumption
    | with_reducible exact Nat.le_refl _
    | with_reducible exact List.prefix_rfl
    | with_reducible rfl
    | with_reducible exact Nat.le_add_right _ _
    | intro _
    | with_reducible refine State.upd_later ?_ ?_ ?_ ?_ ?_ ?_
    | with_reducible apply State.resolveRow_later
    | with_reducible refine Later.ite ?_ ?_
    | with_reducible refine Later.iteFst ?_ ?_
    | with_reducible refine Later.foldl ?_ ?_
    | with_reducible refine Later.foldlFst ?_ ?_
    | with_reducible refine Later.fst ?_ (by assumption)
    | dsimp only
    | rw [State.mk_eq]
    | split
    | exact List.prefix_append _ _

theorem State.resolveRows_later {s0 : State} (s : State) (handle : Nat) (x : Query) (refs : List (Nat × FeatureRef)) (bs : List BlockItem) (hL : Later s0 s) : Later s0 (State.resolveRows s handle x refs bs).1 := by
  unfold State.resolveRows
  repeat'
    first
    | with_reducible assumption
    | with_reducible exact Nat.le_refl _
    | with_reducible exact List.prefix_rfl
    | with_reducible rfl
    | with_reducible exact Nat.le_add_right _ _
    | intro _
    | with_reducible refine State.upd_later ?_ ?_ ?_ ?_ ?_ ?_
    | with_reducible apply State.resolveItem_later
    | with_reducible refine Later.ite ?_ ?_
    | with_reducible refine Later.iteFst ?_ ?_
    | with_reducible refine Later.foldl ?_ ?_
    | with_reducible refine Later.foldlFst ?_ ?_
    | with_reducible refine Later.fst ?_ (by assumption)
    | dsimp only
    | rw [State.mk_eq]
    | split
    | exact List.prefix_append _ _

theorem State.formBlock_later {s0 : State} (s : State) (q : Nat) (x : Query) (hL : Later s0 s) : Later s0 (State.formBlock s q x) := by
  unfold State.formBlock
  repeat'
    first
    | with_reducible assumption
    | with_reducible exact Nat.le_refl _
    | with_reducible exact List.prefix_rfl
    | with_reducible rfl
    | with_reducible exact Nat.le_add_right _ _
    | intro _
    | with_reducible refine State.upd_later ?_ ?_ ?_ ?_ ?_ ?_
    | with_reducible apply State.requestScore_later
    | with_reducible apply State.resolveRows_later
    | with_reducible apply State.count_later
    | with_reducible apply State.emitExact_later
    | with_reducible refine Later.ite ?_ ?_
    | with_reducible refine Later.iteFst ?_ ?_
    | with_reducible refine Later.foldl ?_ ?_
    | with_reducible refine Later.foldlFst ?_ ?_
    | with_reducible refine Later.fst ?_ (by assumption)
    | dsimp only
    | rw [State.mk_eq]
    | split
    | exact List.prefix_append _ _

theorem State.sendBlock_later {s0 : State} (s : State) (q : Nat) (x : Query) (hL : Later s0 s) : Later s0 (State.sendBlock s q x) := by
  unfold State.sendBlock
  repeat'
    first
    | with_reducible assumption
    | with_reducible exact Nat.le_refl _
    | with_reducible exact List.prefix_rfl
    | with_reducible rfl
    | with_reducible exact Nat.le_add_right _ _
    | intro _
    | with_reducible refine State.upd_later ?_ ?_ ?_ ?_ ?_ ?_
    | with_reducible apply State.setQuery_later
    | with_reducible apply State.formBlock_later
    | with_reducible refine Later.ite ?_ ?_
    | with_reducible refine Later.iteFst ?_ ?_
    | with_reducible refine Later.foldl ?_ ?_
    | with_reducible refine Later.foldlFst ?_ ?_
    | with_reducible refine Later.fst ?_ (by assumption)
    | dsimp only
    | rw [State.mk_eq]
    | split
    | exact List.prefix_append _ _

theorem State.startBlocks_later {s0 : State} (s : State) (hL : Later s0 s) : Later s0 (State.startBlocks s) := by
  unfold State.startBlocks
  repeat'
    first
    | with_reducible assumption
    | with_reducible exact Nat.le_refl _
    | with_reducible exact List.prefix_rfl
    | with_reducible rfl
    | with_reducible exact Nat.le_add_right _ _
    | intro _
    | with_reducible refine State.upd_later ?_ ?_ ?_ ?_ ?_ ?_
    | with_reducible apply State.formBlock_later
    | with_reducible refine Later.ite ?_ ?_
    | with_reducible refine Later.iteFst ?_ ?_
    | with_reducible refine Later.foldl ?_ ?_
    | with_reducible refine Later.foldlFst ?_ ?_
    | with_reducible refine Later.fst ?_ (by assumption)
    | dsimp only
    | rw [State.mk_eq]
    | split
    | exact List.prefix_append _ _

theorem State.tryFinish_later {s0 : State} (s : State) (q : Nat) (x : Query) (hL : Later s0 s) : Later s0 (State.tryFinish s q x) := by
  unfold State.tryFinish
  repeat'
    first
    | with_reducible assumption
    | with_reducible exact Nat.le_refl _
    | with_reducible exact List.prefix_rfl
    | with_reducible rfl
    | with_reducible exact Nat.le_add_right _ _
    | intro _
    | with_reducible refine State.upd_later ?_ ?_ ?_ ?_ ?_ ?_
    | with_reducible apply State.setQuery_later
    | with_reducible apply State.sendBlock_later
    | with_reducible apply State.toEmit_later
    | with_reducible refine Later.ite ?_ ?_
    | with_reducible refine Later.iteFst ?_ ?_
    | with_reducible refine Later.foldl ?_ ?_
    | with_reducible refine Later.foldlFst ?_ ?_
    | with_reducible refine Later.fst ?_ (by assumption)
    | dsimp only
    | rw [State.mk_eq]
    | split
    | exact List.prefix_append _ _

theorem State.cutSearch_later {s0 : State} (s : State) (q : Nat) (x : Query) (hL : Later s0 s) : Later s0 (State.cutSearch s q x) := by
  unfold State.cutSearch
  repeat'
    first
    | with_reducible assumption
    | with_reducible exact Nat.le_refl _
    | with_reducible exact List.prefix_rfl
    | with_reducible rfl
    | with_reducible exact Nat.le_add_right _ _
    | intro _
    | with_reducible refine State.upd_later ?_ ?_ ?_ ?_ ?_ ?_
    | with_reducible apply State.count_later
    | with_reducible apply State.toEmit_later
    | with_reducible refine Later.ite ?_ ?_
    | with_reducible refine Later.iteFst ?_ ?_
    | with_reducible refine Later.foldl ?_ ?_
    | with_reducible refine Later.foldlFst ?_ ?_
    | with_reducible refine Later.fst ?_ (by assumption)
    | dsimp only
    | rw [State.mk_eq]
    | split
    | exact List.prefix_append _ _

theorem State.expireQuery_later {s0 : State} (s : State) (q : Nat) (x : Query) (hL : Later s0 s) : Later s0 (State.expireQuery s q x) := by
  unfold State.expireQuery
  repeat'
    first
    | with_reducible assumption
    | with_reducible exact Nat.le_refl _
    | with_reducible exact List.prefix_rfl
    | with_reducible rfl
    | with_reducible exact Nat.le_add_right _ _
    | intro _
    | with_reducible refine State.upd_later ?_ ?_ ?_ ?_ ?_ ?_
    | with_reducible apply State.cutSearch_later
    | with_reducible apply State.tally_later
    | with_reducible apply State.emitExact_later
    | with_reducible apply State.toEmit_later
    | with_reducible refine Later.ite ?_ ?_
    | with_reducible refine Later.iteFst ?_ ?_
    | with_reducible refine Later.foldl ?_ ?_
    | with_reducible refine Later.foldlFst ?_ ?_
    | with_reducible refine Later.fst ?_ (by assumption)
    | dsimp only
    | rw [State.mk_eq]
    | split
    | exact List.prefix_append _ _

theorem State.newQuery_later {s0 : State} (s : State) (fn pair sqIndex : Nat) (basic : Bool) (f : QueryFields) (cause : Option Nat) (hL : Later s0 s) : Later s0 (State.newQuery s fn pair sqIndex basic f cause) := by
  unfold State.newQuery
  repeat'
    first
    | with_reducible assumption
    | with_reducible exact Nat.le_refl _
    | with_reducible exact List.prefix_rfl
    | with_reducible rfl
    | with_reducible exact Nat.le_add_right _ _
    | intro _
    | with_reducible refine State.upd_later ?_ ?_ ?_ ?_ ?_ ?_
    | with_reducible apply State.reject_later
    | with_reducible apply State.meter_later
    | with_reducible apply State.setQuery_later
    | with_reducible apply State.cause_later
    | with_reducible refine Later.ite ?_ ?_
    | with_reducible refine Later.iteFst ?_ ?_
    | with_reducible refine Later.foldl ?_ ?_
    | with_reducible refine Later.foldlFst ?_ ?_
    | with_reducible refine Later.fst ?_ (by assumption)
    | dsimp only
    | rw [State.mk_eq]
    | split
    | exact List.prefix_append _ _

theorem execQueryEntryArrive_later (fn pair sqIndex : Nat) (entry body : List Byte) (readOk : Bool) (s : State) {t' : State} (hE : execQueryEntryArrive fn pair sqIndex entry body readOk s = .next t') : Later s t' := by
  unfold execQueryEntryArrive at hE
  injection hE with hE
  subst hE
  have hL := Later.refl s
  repeat'
    first
    | with_reducible assumption
    | with_reducible exact Nat.le_refl _
    | with_reducible exact List.prefix_rfl
    | with_reducible rfl
    | with_reducible exact Nat.le_add_right _ _
    | intro _
    | with_reducible refine State.upd_later ?_ ?_ ?_ ?_ ?_ ?_
    | with_reducible apply State.newQuery_later
    | with_reducible apply State.entryFault_later
    | with_reducible apply State.dmaRead_later
    | with_reducible refine Later.ite ?_ ?_
    | with_reducible refine Later.iteFst ?_ ?_
    | with_reducible refine Later.foldl ?_ ?_
    | with_reducible refine Later.foldlFst ?_ ?_
    | with_reducible refine Later.fst ?_ (by assumption)
    | dsimp only
    | rw [State.mk_eq]
    | split
    | exact List.prefix_append _ _

theorem State.takeDescriptor_later {s0 : State} (s : State) (fn : Nat) (hL : Later s0 s) : Later s0 (State.takeDescriptor s fn) := by
  unfold State.takeDescriptor
  repeat'
    first
    | with_reducible assumption
    | with_reducible exact Nat.le_refl _
    | with_reducible exact List.prefix_rfl
    | with_reducible rfl
    | with_reducible exact Nat.le_add_right _ _
    | intro _
    | with_reducible refine State.upd_later ?_ ?_ ?_ ?_ ?_ ?_
    | with_reducible apply State.updFn_later
    | with_reducible apply State.took_later
    | with_reducible refine Later.ite ?_ ?_
    | with_reducible refine Later.iteFst ?_ ?_
    | with_reducible refine Later.foldl ?_ ?_
    | with_reducible refine Later.foldlFst ?_ ?_
    | with_reducible refine Later.fst ?_ (by assumption)
    | dsimp only
    | rw [State.mk_eq]
    | split
    | exact List.prefix_append _ _

theorem State.descriptorFault_later {s0 : State} (s : State) (fn sqIndex : Nat) (f : QueryFields) (hL : Later s0 s) : Later s0 (State.descriptorFault s fn sqIndex f) := by
  unfold State.descriptorFault
  repeat'
    first
    | with_reducible assumption
    | with_reducible exact Nat.le_refl _
    | with_reducible exact List.prefix_rfl
    | with_reducible rfl
    | with_reducible exact Nat.le_add_right _ _
    | intro _
    | with_reducible refine State.upd_later ?_ ?_ ?_ ?_ ?_ ?_
    | with_reducible apply State.tally_later
    | with_reducible apply State.completeBasic_later
    | with_reducible refine Later.ite ?_ ?_
    | with_reducible refine Later.iteFst ?_ ?_
    | with_reducible refine Later.foldl ?_ ?_
    | with_reducible refine Later.foldlFst ?_ ?_
    | with_reducible refine Later.fst ?_ (by assumption)
    | dsimp only
    | rw [State.mk_eq]
    | split
    | exact List.prefix_append _ _

theorem execBasicQueryDescriptor_later (fn : Nat) (desc vec : List Byte) (reads : HostReads) (s : State) {t' : State} (hE : execBasicQueryDescriptor fn desc vec reads s = .next t') : Later s t' := by
  unfold execBasicQueryDescriptor at hE
  injection hE with hE
  subst hE
  have hL := Later.refl s
  repeat'
    first
    | with_reducible assumption
    | with_reducible exact Nat.le_refl _
    | with_reducible exact List.prefix_rfl
    | with_reducible rfl
    | with_reducible exact Nat.le_add_right _ _
    | intro _
    | with_reducible refine State.upd_later ?_ ?_ ?_ ?_ ?_ ?_
    | with_reducible apply State.newQuery_later
    | with_reducible apply State.ringFault_later
    | with_reducible apply State.dmaRead_later
    | with_reducible apply State.descriptorFault_later
    | with_reducible apply State.takeDescriptor_later
    | with_reducible refine Later.ite ?_ ?_
    | with_reducible refine Later.iteFst ?_ ?_
    | with_reducible refine Later.foldl ?_ ?_
    | with_reducible refine Later.foldlFst ?_ ?_
    | with_reducible refine Later.fst ?_ (by assumption)
    | dsimp only
    | rw [State.mk_eq]
    | split
    | exact List.prefix_append _ _

theorem execQueryPlace_later (q : Nat) (s : State) {t' : State} (hE : execQueryPlace q s = .next t') : Later s t' := by
  unfold execQueryPlace at hE
  injection hE with hE
  subst hE
  have hL := Later.refl s
  repeat'
    first
    | with_reducible assumption
    | with_reducible exact Nat.le_refl _
    | with_reducible exact List.prefix_rfl
    | with_reducible rfl
    | with_reducible exact Nat.le_add_right _ _
    | intro _
    | with_reducible refine State.upd_later ?_ ?_ ?_ ?_ ?_ ?_
    | with_reducible apply State.admitQuery_later
    | with_reducible apply State.reject_later
    | with_reducible refine Later.ite ?_ ?_
    | with_reducible refine Later.iteFst ?_ ?_
    | with_reducible refine Later.foldl ?_ ?_
    | with_reducible refine Later.foldlFst ?_ ?_
    | with_reducible refine Later.fst ?_ (by assumption)
    | dsimp only
    | rw [State.mk_eq]
    | split
    | exact List.prefix_append _ _

theorem execMinEpochHoldEnd_later (q : Nat) (s : State) {t' : State} (hE : execMinEpochHoldEnd q s = .next t') : Later s t' := by
  unfold execMinEpochHoldEnd at hE
  injection hE with hE
  subst hE
  have hL := Later.refl s
  repeat'
    first
    | with_reducible assumption
    | with_reducible exact Nat.le_refl _
    | with_reducible exact List.prefix_rfl
    | with_reducible rfl
    | with_reducible exact Nat.le_add_right _ _
    | intro _
    | with_reducible refine State.upd_later ?_ ?_ ?_ ?_ ?_ ?_
    | with_reducible apply State.reject_later
    | with_reducible apply State.admitChecked_later
    | with_reducible refine Later.ite ?_ ?_
    | with_reducible refine Later.iteFst ?_ ?_
    | with_reducible refine Later.foldl ?_ ?_
    | with_reducible refine Later.foldlFst ?_ ?_
    | with_reducible refine Later.fst ?_ (by assumption)
    | dsimp only
    | rw [State.mk_eq]
    | split
    | exact List.prefix_append _ _

theorem State.withdrawRequest_later {s0 : State} (s : State) (q : Nat) (x : Query) (k : TensorKind) (hL : Later s0 s) : Later s0 (State.withdrawRequest s q x k) := by
  unfold State.withdrawRequest
  repeat'
    first
    | with_reducible assumption
    | with_reducible exact Nat.le_refl _
    | with_reducible exact List.prefix_rfl
    | with_reducible rfl
    | with_reducible exact Nat.le_add_right _ _
    | intro _
    | with_reducible refine State.upd_later ?_ ?_ ?_ ?_ ?_ ?_
    | with_reducible apply State.tally_later
    | with_reducible apply State.emitExact_later
    | with_reducible apply State.toEmit_later
    | with_reducible refine Later.ite ?_ ?_
    | with_reducible refine Later.iteFst ?_ ?_
    | with_reducible refine Later.foldl ?_ ?_
    | with_reducible refine Later.foldlFst ?_ ?_
    | with_reducible refine Later.fst ?_ (by assumption)
    | dsimp only
    | rw [State.mk_eq]
    | split
    | exact List.prefix_append _ _

theorem execTensorGrant_later (part : Nat) (s : State) {t' : State} (hE : execTensorGrant part s = .next t') : Later s t' := by
  unfold execTensorGrant at hE
  injection hE with hE
  subst hE
  have hL := Later.refl s
  repeat'
    first
    | with_reducible assumption
    | with_reducible exact Nat.le_refl _
    | with_reducible exact List.prefix_rfl
    | with_reducible rfl
    | with_reducible exact Nat.le_add_right _ _
    | intro _
    | with_reducible refine State.upd_later ?_ ?_ ?_ ?_ ?_ ?_
    | with_reducible apply State.grantTiles_later
    | with_reducible apply State.withdrawRequest_later
    | with_reducible apply State.setQuery_later
    | with_reducible apply State.dropTensor_later
    | with_reducible refine Later.ite ?_ ?_
    | with_reducible refine Later.iteFst ?_ ?_
    | with_reducible refine Later.foldl ?_ ?_
    | with_reducible refine Later.foldlFst ?_ ?_
    | with_reducible refine Later.fst ?_ (by assumption)
    | dsimp only
    | rw [State.mk_eq]
    | split
    | exact List.prefix_append _ _

theorem execEncodeDeadline_later (q t : Nat) (s : State) {t' : State} (hE : execEncodeDeadline q t s = .next t') : Later s t' := by
  unfold execEncodeDeadline at hE
  injection hE with hE
  subst hE
  have hL := Later.refl s
  repeat'
    first
    | with_reducible assumption
    | with_reducible exact Nat.le_refl _
    | with_reducible exact List.prefix_rfl
    | with_reducible rfl
    | with_reducible exact Nat.le_add_right _ _
    | intro _
    | with_reducible refine State.upd_later ?_ ?_ ?_ ?_ ?_ ?_
    | with_reducible apply State.advance_later
    | with_reducible apply State.withdrawRequest_later
    | with_reducible refine Later.ite ?_ ?_
    | with_reducible refine Later.iteFst ?_ ?_
    | with_reducible refine Later.foldl ?_ ?_
    | with_reducible refine Later.foldlFst ?_ ?_
    | with_reducible refine Later.fst ?_ (by assumption)
    | dsimp only
    | rw [State.mk_eq]
    | split
    | exact List.prefix_append _ _

theorem execEncodeComplete_later (q : Nat) (s : State) {t' : State} (hE : execEncodeComplete q s = .next t') : Later s t' := by
  unfold execEncodeComplete at hE
  injection hE with hE
  subst hE
  have hL := Later.refl s
  repeat'
    first
    | with_reducible assumption
    | with_reducible exact Nat.le_refl _
    | with_reducible exact List.prefix_rfl
    | with_reducible rfl
    | with_reducible exact Nat.le_add_right _ _
    | intro _
    | with_reducible refine State.upd_later ?_ ?_ ?_ ?_ ?_ ?_
    | with_reducible apply State.reject_later
    | with_reducible apply State.tally_later
    | with_reducible apply State.setQuery_later
    | with_reducible apply State.dropTensor_later
    | with_reducible refine Later.ite ?_ ?_
    | with_reducible refine Later.iteFst ?_ ?_
    | with_reducible refine Later.foldl ?_ ?_
    | with_reducible refine Later.foldlFst ?_ ?_
    | with_reducible refine Later.fst ?_ (by assumption)
    | dsimp only
    | rw [State.mk_eq]
    | split
    | exact List.prefix_append _ _

theorem execQuerySketch_later (q : Nat) (s : State) {t' : State} (hE : execQuerySketch q s = .next t') : Later s t' := by
  unfold execQuerySketch at hE
  injection hE with hE
  subst hE
  have hL := Later.refl s
  repeat'
    first
    | with_reducible assumption
    | with_reducible exact Nat.le_refl _
    | with_reducible exact List.prefix_rfl
    | with_reducible rfl
    | with_reducible exact Nat.le_add_right _ _
    | intro _
    | with_reducible refine State.upd_later ?_ ?_ ?_ ?_ ?_ ?_
    | with_reducible apply State.wake_later
    | with_reducible apply State.count_later
    | with_reducible apply State.setQuery_later
    | with_reducible refine Later.ite ?_ ?_
    | with_reducible refine Later.iteFst ?_ ?_
    | with_reducible refine Later.foldl ?_ ?_
    | with_reducible refine Later.foldlFst ?_ ?_
    | with_reducible refine Later.fst ?_ (by assumption)
    | dsimp only
    | rw [State.mk_eq]
    | split
    | exact List.prefix_append _ _

theorem State.closeBatch_later {s0 : State} (s : State) (b : Nat) (c : CloseCause) (hL : Later s0 s) : Later s0 (State.closeBatch s b c) := by
  unfold State.closeBatch
  repeat'
    first
    | with_reducible assumption
    | with_reducible exact Nat.le_refl _
    | with_reducible exact List.prefix_rfl
    | with_reducible rfl
    | with_reducible exact Nat.le_add_right _ _
    | intro _
    | with_reducible refine State.upd_later ?_ ?_ ?_ ?_ ?_ ?_
    | with_reducible apply State.tally_later
    | with_reducible apply State.setBatch_later
    | with_reducible refine Later.ite ?_ ?_
    | with_reducible refine Later.iteFst ?_ ?_
    | with_reducible refine Later.foldl ?_ ?_
    | with_reducible refine Later.foldlFst ?_ ?_
    | with_reducible refine Later.fst ?_ (by assumption)
    | dsimp only
    | rw [State.mk_eq]
    | split
    | exact List.prefix_append _ _

theorem State.openBatch_later {s0 : State} (s : State) (handle : Nat) (l : ListData) (view : List Nat) (g : Nat) (gig : Bool) (m : Member) (hL : Later s0 s) : Later s0 (State.openBatch s handle l view g gig m) := by
  unfold State.openBatch
  repeat'
    first
    | with_reducible assumption
    | with_reducible exact Nat.le_refl _
    | with_reducible exact List.prefix_rfl
    | with_reducible rfl
    | with_reducible exact Nat.le_add_right _ _
    | intro _
    | with_reducible refine State.upd_later ?_ ?_ ?_ ?_ ?_ ?_
    | with_reducible apply State.closeBatch_later
    | with_reducible apply State.wake_later
    | with_reducible apply State.setBatch_later
    | with_reducible apply State.openCtx_later
    | with_reducible refine Later.ite ?_ ?_
    | with_reducible refine Later.iteFst ?_ ?_
    | with_reducible refine Later.foldl ?_ ?_
    | with_reducible refine Later.foldlFst ?_ ?_
    | with_reducible refine Later.fst ?_ (by assumption)
    | dsimp only
    | rw [State.mk_eq]
    | split
    | exact List.prefix_append _ _

theorem State.joinBatch_later {s0 : State} (s : State) (handle : Nat) (l : ListData) (parts : List Nat) (gig dual : Bool) (m : Member) (hL : Later s0 s) : Later s0 (State.joinBatch s handle l parts gig dual m) := by
  unfold State.joinBatch
  repeat'
    first
    | with_reducible assumption
    | with_reducible exact Nat.le_refl _
    | with_reducible exact List.prefix_rfl
    | with_reducible rfl
    | with_reducible exact Nat.le_add_right _ _
    | intro _
    | with_reducible refine State.upd_later ?_ ?_ ?_ ?_ ?_ ?_
    | with_reducible apply State.closeBatch_later
    | with_reducible apply State.openBatch_later
    | with_reducible apply State.tally_later
    | with_reducible apply State.setBatch_later
    | with_reducible apply State.openCtx_later
    | with_reducible refine Later.ite ?_ ?_
    | with_reducible refine Later.iteFst ?_ ?_
    | with_reducible refine Later.foldl ?_ ?_
    | with_reducible refine Later.foldlFst ?_ ?_
    | with_reducible refine Later.fst ?_ (by assumption)
    | dsimp only
    | rw [State.mk_eq]
    | split
    | exact List.prefix_append _ _

theorem State.freeMemberArea_later {s0 : State} (s : State) (m : Member) (hL : Later s0 s) : Later s0 (State.freeMemberArea s m) := by
  unfold State.freeMemberArea
  repeat'
    first
    | with_reducible assumption
    | with_reducible exact Nat.le_refl _
    | with_reducible exact List.prefix_rfl
    | with_reducible rfl
    | with_reducible exact Nat.le_add_right _ _
    | intro _
    | with_reducible refine State.upd_later ?_ ?_ ?_ ?_ ?_ ?_
    | with_reducible refine Later.ite ?_ ?_
    | with_reducible refine Later.iteFst ?_ ?_
    | with_reducible refine Later.foldl ?_ ?_
    | with_reducible refine Later.foldlFst ?_ ?_
    | with_reducible refine Later.fst ?_ (by assumption)
    | dsimp only
    | rw [State.mk_eq]
    | split
    | exact List.prefix_append _ _

theorem State.purgeMember_later {s0 : State} (s : State) (b i : Nat) (hL : Later s0 s) : Later s0 (State.purgeMember s b i) := by
  unfold State.purgeMember
  repeat'
    first
    | with_reducible assumption
    | with_reducible exact Nat.le_refl _
    | with_reducible exact List.prefix_rfl
    | with_reducible rfl
    | with_reducible exact Nat.le_add_right _ _
    | intro _
    | with_reducible refine State.upd_later ?_ ?_ ?_ ?_ ?_ ?_
    | with_reducible refine Later.ite ?_ ?_
    | with_reducible refine Later.iteFst ?_ ?_
    | with_reducible refine Later.foldl ?_ ?_
    | with_reducible refine Later.foldlFst ?_ ?_
    | with_reducible refine Later.fst ?_ (by assumption)
    | dsimp only
    | rw [State.mk_eq]
    | split
    | exact List.prefix_append _ _

theorem State.withdrawMember_later {s0 : State} (s : State) (b i : Nat) (hL : Later s0 s) : Later s0 (State.withdrawMember s b i) := by
  unfold State.withdrawMember
  repeat'
    first
    | with_reducible assumption
    | with_reducible exact Nat.le_refl _
    | with_reducible exact List.prefix_rfl
    | with_reducible rfl
    | with_reducible exact Nat.le_add_right _ _
    | intro _
    | with_reducible refine State.upd_later ?_ ?_ ?_ ?_ ?_ ?_
    | with_reducible apply State.purgeMember_later
    | with_reducible apply State.setMember_later
    | with_reducible apply State.freeMemberArea_later
    | with_reducible refine Later.ite ?_ ?_
    | with_reducible refine Later.iteFst ?_ ?_
    | with_reducible refine Later.foldl ?_ ?_
    | with_reducible refine Later.foldlFst ?_ ?_
    | with_reducible refine Later.fst ?_ (by assumption)
    | dsimp only
    | rw [State.mk_eq]
    | split
    | exact List.prefix_append _ _

theorem State.withdrawBatch_later {s0 : State} (s : State) (b : Nat) (hL : Later s0 s) : Later s0 (State.withdrawBatch s b) := by
  unfold State.withdrawBatch
  repeat'
    first
    | with_reducible assumption
    | with_reducible exact Nat.le_refl _
    | with_reducible exact List.prefix_rfl
    | with_reducible rfl
    | with_reducible exact Nat.le_add_right _ _
    | intro _
    | with_reducible refine State.upd_later ?_ ?_ ?_ ?_ ?_ ?_
    | with_reducible apply State.withdrawMember_later
    | with_reducible refine Later.ite ?_ ?_
    | with_reducible refine Later.iteFst ?_ ?_
    | with_reducible refine Later.foldl ?_ ?_
    | with_reducible refine Later.foldlFst ?_ ?_
    | with_reducible refine Later.fst ?_ (by assumption)
    | dsimp only
    | rw [State.mk_eq]
    | split
    | exact List.prefix_append _ _

theorem State.discardMember_later {s0 : State} (s : State) (b i : Nat) (hL : Later s0 s) : Later s0 (State.discardMember s b i) := by
  unfold State.discardMember
  repeat'
    first
    | with_reducible assumption
    | with_reducible exact Nat.le_refl _
    | with_reducible exact List.prefix_rfl
    | with_reducible rfl
    | with_reducible exact Nat.le_add_right _ _
    | intro _
    | with_reducible refine State.upd_later ?_ ?_ ?_ ?_ ?_ ?_
    | with_reducible apply State.purgeMember_later
    | with_reducible apply State.setMember_later
    | with_reducible apply State.freeMemberArea_later
    | with_reducible refine Later.ite ?_ ?_
    | with_reducible refine Later.iteFst ?_ ?_
    | with_reducible refine Later.foldl ?_ ?_
    | with_reducible refine Later.foldlFst ?_ ?_
    | with_reducible refine Later.fst ?_ (by assumption)
    | dsimp only
    | rw [State.mk_eq]
    | split
    | exact List.prefix_append _ _

theorem State.tryEnd_later {s0 : State} (s : State) (b i : Nat) (hL : Later s0 s) : Later s0 (State.tryEnd s b i) := by
  unfold State.tryEnd
  repeat'
    first
    | with_reducible assumption
    | with_reducible exact Nat.le_refl _
    | with_reducible exact List.prefix_rfl
    | with_reducible rfl
    | with_reducible exact Nat.le_add_right _ _
    | intro _
    | with_reducible refine State.upd_later ?_ ?_ ?_ ?_ ?_ ?_
    | with_reducible apply State.setMember_later
    | with_reducible refine Later.ite ?_ ?_
    | with_reducible refine Later.iteFst ?_ ?_
    | with_reducible refine Later.foldl ?_ ?_
    | with_reducible refine Later.foldlFst ?_ ?_
    | with_reducible refine Later.fst ?_ (by assumption)
    | dsimp only
    | rw [State.mk_eq]
    | split
    | exact List.prefix_append _ _

theorem State.trySummary_later {s0 : State} (s : State) (b i : Nat) (hL : Later s0 s) : Later s0 (State.trySummary s b i) := by
  unfold State.trySummary
  repeat'
    first
    | with_reducible assumption
    | with_reducible exact Nat.le_refl _
    | with_reducible exact List.prefix_rfl
    | with_reducible rfl
    | with_reducible exact Nat.le_add_right _ _
    | intro _
    | with_reducible refine State.upd_later ?_ ?_ ?_ ?_ ?_ ?_
    | with_reducible apply State.setMember_later
    | with_reducible apply State.discard_later
    | with_reducible apply State.sendSummary_later
    | with_reducible refine Later.ite ?_ ?_
    | with_reducible refine Later.iteFst ?_ ?_
    | with_reducible refine Later.foldl ?_ ?_
    | with_reducible refine Later.foldlFst ?_ ?_
    | with_reducible refine Later.fst ?_ (by assumption)
    | dsimp only
    | rw [State.mk_eq]
    | split
    | exact List.prefix_append _ _

theorem State.tryEndBatch_later {s0 : State} (s : State) (b : Nat) (sent : Bool) (hL : Later s0 s) : Later s0 (State.tryEndBatch s b sent) := by
  unfold State.tryEndBatch
  repeat'
    first
    | with_reducible assumption
    | with_reducible exact Nat.le_refl _
    | with_reducible exact List.prefix_rfl
    | with_reducible rfl
    | with_reducible exact Nat.le_add_right _ _
    | intro _
    | with_reducible refine State.upd_later ?_ ?_ ?_ ?_ ?_ ?_
    | with_reducible apply State.returnBuffer_later
    | with_reducible refine Later.ite ?_ ?_
    | with_reducible refine Later.iteFst ?_ ?_
    | with_reducible refine Later.foldl ?_ ?_
    | with_reducible refine Later.foldlFst ?_ ?_
    | with_reducible refine Later.fst ?_ (by assumption)
    | dsimp only
    | rw [State.mk_eq]
    | split
    | exact List.prefix_append _ _

theorem State.discardMembers_later {s0 : State} (s : State) (ms : List (Nat × Nat)) (hL : Later s0 s) : Later s0 (State.discardMembers s ms) := by
  unfold State.discardMembers
  repeat'
    first
    | with_reducible assumption
    | with_reducible exact Nat.le_refl _
    | with_reducible exact List.prefix_rfl
    | with_reducible rfl
    | with_reducible exact Nat.le_add_right _ _
    | intro _
    | with_reducible refine State.upd_later ?_ ?_ ?_ ?_ ?_ ?_
    | with_reducible apply State.discardMember_later
    | with_reducible apply State.tryEndBatch_later
    | with_reducible refine Later.ite ?_ ?_
    | with_reducible refine Later.iteFst ?_ ?_
    | with_reducible refine Later.foldl ?_ ?_
    | with_reducible refine Later.foldlFst ?_ ?_
    | with_reducible refine Later.fst ?_ (by assumption)
    | dsimp only
    | rw [State.mk_eq]
    | split
    | exact List.prefix_append _ _

theorem State.probeDone_later {s0 : State} (s : State) (handle : Nat) (hL : Later s0 s) : Later s0 (State.probeDone s handle) := by
  unfold State.probeDone
  repeat'
    first
    | with_reducible assumption
    | with_reducible exact Nat.le_refl _
    | with_reducible exact List.prefix_rfl
    | with_reducible rfl
    | with_reducible exact Nat.le_add_right _ _
    | intro _
    | with_reducible refine State.upd_later ?_ ?_ ?_ ?_ ?_ ?_
    | with_reducible refine Later.ite ?_ ?_
    | with_reducible refine Later.iteFst ?_ ?_
    | with_reducible refine Later.foldl ?_ ?_
    | with_reducible refine Later.foldlFst ?_ ?_
    | with_reducible refine Later.fst ?_ (by assumption)
    | dsimp only
    | rw [State.mk_eq]
    | split
    | exact List.prefix_append _ _

end Sys2Proof.Machine
end

