-- ==== Sys2Proof/Laws/Later3.lean ====
section
/-! SUPPORT. The operations of RerankOps, SettingsStore, ResetOps, Fabric move no clock, epoch or draw count back, take back nothing sent and leave the queue and the silicon alone. -/
set_option Elab.async false
set_option linter.all false

namespace Sys2Proof.Machine

theorem State.noteOrigin_later {s0 : State} (s : State) (m : Member) (f : Query → Query) (hL : Later s0 s) : Later s0 (State.noteOrigin s m f) := by
  unfold State.noteOrigin
  repeat'
    first
    | with_reducible assumption
    | with_reducible exact Nat.le_refl _
    | with_reducible exact List.prefix_rfl
    | with_reducible rfl
    | with_reducible exact Nat.le_add_right _ _
    | intro _
    | with_reducible refine State.upd_later ?_ ?_ ?_ ?_ ?_ ?_
    | with_reducible apply State.discard_later
    | with_reducible apply State.setQuery_later
    | with_reducible refine Later.ite ?_ ?_
    | with_reducible refine Later.iteFst ?_ ?_
    | with_reducible refine Later.foldl ?_ ?_
    | with_reducible refine Later.foldlFst ?_ ?_
    | with_reducible refine Later.fst ?_ (by assumption)
    | dsimp only
    | rw [State.mk_eq]
    | split
    | exact List.prefix_append _ _

theorem State.noteLoss_later {s0 : State} (s : State) (m : Member) (list : Nat) (hL : Later s0 s) : Later s0 (State.noteLoss s m list) := by
  unfold State.noteLoss
  repeat'
    first
    | with_reducible assumption
    | with_reducible exact Nat.le_refl _
    | with_reducible exact List.prefix_rfl
    | with_reducible rfl
    | with_reducible exact Nat.le_add_right _ _
    | intro _
    | with_reducible refine State.upd_later ?_ ?_ ?_ ?_ ?_ ?_
    | with_reducible apply State.noteOrigin_later
    | with_reducible apply State.discard_later
    | with_reducible apply State.addItem_later
    | with_reducible refine Later.ite ?_ ?_
    | with_reducible refine Later.iteFst ?_ ?_
    | with_reducible refine Later.foldl ?_ ?_
    | with_reducible refine Later.foldlFst ?_ ?_
    | with_reducible refine Later.fst ?_ (by assumption)
    | dsimp only
    | rw [State.mk_eq]
    | split
    | exact List.prefix_append _ _

theorem State.useTable_later {s0 : State} (s : State) (g : Nat) (m : Member) (fmt d : Nat) (hL : Later s0 s) : Later s0 (State.useTable s g m fmt d) := by
  unfold State.useTable
  repeat'
    first
    | with_reducible assumption
    | with_reducible exact Nat.le_refl _
    | with_reducible exact List.prefix_rfl
    | with_reducible rfl
    | with_reducible exact Nat.le_add_right _ _
    | intro _
    | with_reducible refine State.upd_later ?_ ?_ ?_ ?_ ?_ ?_
    | with_reducible apply State.count_later
    | with_reducible refine Later.ite ?_ ?_
    | with_reducible refine Later.iteFst ?_ ?_
    | with_reducible refine Later.foldl ?_ ?_
    | with_reducible refine Later.foldlFst ?_ ?_
    | with_reducible refine Later.fst ?_ (by assumption)
    | dsimp only
    | rw [State.mk_eq]
    | split
    | exact List.prefix_append _ _

theorem State.scored_later {s0 : State} (s : State) (g : Nat) (f : Fetch) (r : F32 × Bool) (hL : Later s0 s) : Later s0 (State.scored s g f r).1 := by
  unfold State.scored
  repeat'
    first
    | with_reducible assumption
    | with_reducible exact Nat.le_refl _
    | with_reducible exact List.prefix_rfl
    | with_reducible rfl
    | with_reducible exact Nat.le_add_right _ _
    | intro _
    | with_reducible refine State.upd_later ?_ ?_ ?_ ?_ ?_ ?_
    | with_reducible apply State.score_later
    | with_reducible apply State.tally_later
    | with_reducible refine Later.ite ?_ ?_
    | with_reducible refine Later.iteFst ?_ ?_
    | with_reducible refine Later.foldl ?_ ?_
    | with_reducible refine Later.foldlFst ?_ ?_
    | with_reducible refine Later.fst ?_ (by assumption)
    | dsimp only
    | rw [State.mk_eq]
    | split
    | exact List.prefix_append _ _

theorem State.estimateFetch_later {s0 : State} (s : State) (g : Nat) (bt : Batch) (m : Member) (v : Version) (f : Fetch) (reason : Nat) (hL : Later s0 s) : Later s0 (State.estimateFetch s g bt m v f reason).1 := by
  unfold State.estimateFetch
  repeat'
    first
    | with_reducible assumption
    | with_reducible exact Nat.le_refl _
    | with_reducible exact List.prefix_rfl
    | with_reducible rfl
    | with_reducible exact Nat.le_add_right _ _
    | intro _
    | with_reducible refine State.upd_later ?_ ?_ ?_ ?_ ?_ ?_
    | with_reducible apply State.noteOrigin_later
    | with_reducible apply State.tally_later
    | with_reducible apply State.scored_later
    | with_reducible refine Later.ite ?_ ?_
    | with_reducible refine Later.iteFst ?_ ?_
    | with_reducible refine Later.foldl ?_ ?_
    | with_reducible refine Later.foldlFst ?_ ?_
    | with_reducible refine Later.fst ?_ (by assumption)
    | dsimp only
    | rw [State.mk_eq]
    | split
    | exact List.prefix_append _ _

theorem State.lateFetch_later {s0 : State} (s : State) (g : Nat) (bt : Batch) (m : Member) (v : Version) (f : Fetch) (hL : Later s0 s) : Later s0 (State.lateFetch s g bt m v f).1 := by
  unfold State.lateFetch
  repeat'
    first
    | with_reducible assumption
    | with_reducible exact Nat.le_refl _
    | with_reducible exact List.prefix_rfl
    | with_reducible rfl
    | with_reducible exact Nat.le_add_right _ _
    | intro _
    | with_reducible refine State.upd_later ?_ ?_ ?_ ?_ ?_ ?_
    | with_reducible apply State.estimateFetch_later
    | with_reducible apply State.useTable_later
    | with_reducible refine Later.ite ?_ ?_
    | with_reducible refine Later.iteFst ?_ ?_
    | with_reducible refine Later.foldl ?_ ?_
    | with_reducible refine Later.foldlFst ?_ ?_
    | with_reducible refine Later.fst ?_ (by assumption)
    | dsimp only
    | rw [State.mk_eq]
    | split
    | exact List.prefix_append _ _

theorem State.issueFetch_later {s0 : State} (s : State) (bt : Batch) (m : Member) (v : Version) (c : Cand) (hL : Later s0 s) : Later s0 (State.issueFetch s bt m v c) := by
  unfold State.issueFetch
  repeat'
    first
    | with_reducible assumption
    | with_reducible exact Nat.le_refl _
    | with_reducible exact List.prefix_rfl
    | with_reducible rfl
    | with_reducible exact Nat.le_add_right _ _
    | intro _
    | with_reducible refine State.upd_later ?_ ?_ ?_ ?_ ?_ ?_
    | with_reducible apply State.lateFetch_later
    | with_reducible apply State.useTable_later
    | with_reducible refine Later.ite ?_ ?_
    | with_reducible refine Later.iteFst ?_ ?_
    | with_reducible refine Later.foldl ?_ ?_
    | with_reducible refine Later.foldlFst ?_ ?_
    | with_reducible refine Later.fst ?_ (by assumption)
    | dsimp only
    | rw [State.mk_eq]
    | split
    | exact List.prefix_append _ _

theorem State.releaseCands_later {s0 : State} (s : State) (b i : Nat) (p : HeldCand → Bool) (hL : Later s0 s) : Later s0 (State.releaseCands s b i p) := by
  unfold State.releaseCands
  repeat'
    first
    | with_reducible assumption
    | with_reducible exact Nat.le_refl _
    | with_reducible exact List.prefix_rfl
    | with_reducible rfl
    | with_reducible exact Nat.le_add_right _ _
    | intro _
    | with_reducible refine State.upd_later ?_ ?_ ?_ ?_ ?_ ?_
    | with_reducible apply State.setMember_later
    | with_reducible apply State.tryEnd_later
    | with_reducible apply State.issueFetch_later
    | with_reducible refine Later.ite ?_ ?_
    | with_reducible refine Later.iteFst ?_ ?_
    | with_reducible refine Later.foldl ?_ ?_
    | with_reducible refine Later.foldlFst ?_ ?_
    | with_reducible refine Later.fst ?_ (by assumption)
    | dsimp only
    | rw [State.mk_eq]
    | split
    | exact List.prefix_append _ _

theorem State.releaseMember_later {s0 : State} (s : State) (b i : Nat) (open_ : Bool) (hL : Later s0 s) : Later s0 (State.releaseMember s b i open_) := by
  unfold State.releaseMember
  repeat'
    first
    | with_reducible assumption
    | with_reducible exact Nat.le_refl _
    | with_reducible exact List.prefix_rfl
    | with_reducible rfl
    | with_reducible exact Nat.le_add_right _ _
    | intro _
    | with_reducible refine State.upd_later ?_ ?_ ?_ ?_ ?_ ?_
    | with_reducible apply State.setMember_later
    | with_reducible apply State.releaseCands_later
    | with_reducible refine Later.ite ?_ ?_
    | with_reducible refine Later.iteFst ?_ ?_
    | with_reducible refine Later.foldl ?_ ?_
    | with_reducible refine Later.foldlFst ?_ ?_
    | with_reducible refine Later.fst ?_ (by assumption)
    | dsimp only
    | rw [State.mk_eq]
    | split
    | exact List.prefix_append _ _

theorem State.finishFetch_later {s0 : State} (s : State) (n : Nat) (f : Fetch) (hL : Later s0 s) : Later s0 (State.finishFetch s n f) := by
  unfold State.finishFetch
  repeat'
    first
    | with_reducible assumption
    | with_reducible exact Nat.le_refl _
    | with_reducible exact List.prefix_rfl
    | with_reducible rfl
    | with_reducible exact Nat.le_add_right _ _
    | intro _
    | with_reducible refine State.upd_later ?_ ?_ ?_ ?_ ?_ ?_
    | with_reducible apply State.score_later
    | with_reducible apply State.setMember_later
    | with_reducible apply State.tryEnd_later
    | with_reducible apply State.passed_later
    | with_reducible refine Later.ite ?_ ?_
    | with_reducible refine Later.iteFst ?_ ?_
    | with_reducible refine Later.foldl ?_ ?_
    | with_reducible refine Later.foldlFst ?_ ?_
    | with_reducible refine Later.fst ?_ (by assumption)
    | dsimp only
    | rw [State.mk_eq]
    | split
    | exact List.prefix_append _ _

theorem State.compactStore_later {s0 : State} (s : State) (hL : Later s0 s) : Later s0 (State.compactStore s) := by
  unfold State.compactStore
  repeat'
    first
    | with_reducible assumption
    | with_reducible exact Nat.le_refl _
    | with_reducible exact List.prefix_rfl
    | with_reducible rfl
    | with_reducible exact Nat.le_add_right _ _
    | intro _
    | with_reducible refine State.upd_later ?_ ?_ ?_ ?_ ?_ ?_
    | with_reducible refine Later.ite ?_ ?_
    | with_reducible refine Later.iteFst ?_ ?_
    | with_reducible refine Later.foldl ?_ ?_
    | with_reducible refine Later.foldlFst ?_ ?_
    | with_reducible refine Later.fst ?_ (by assumption)
    | dsimp only
    | rw [State.mk_eq]
    | split
    | exact List.prefix_append _ _

theorem State.recordStore_later {s0 : State} (s : State) (key tenant : Nat) (value : List Byte) (hL : Later s0 s) : Later s0 (State.recordStore s key tenant value) := by
  unfold State.recordStore
  repeat'
    first
    | with_reducible assumption
    | with_reducible exact Nat.le_refl _
    | with_reducible exact List.prefix_rfl
    | with_reducible rfl
    | with_reducible exact Nat.le_add_right _ _
    | intro _
    | with_reducible refine State.upd_later ?_ ?_ ?_ ?_ ?_ ?_
    | with_reducible apply State.compactStore_later
    | with_reducible refine Later.ite ?_ ?_
    | with_reducible refine Later.iteFst ?_ ?_
    | with_reducible refine Later.foldl ?_ ?_
    | with_reducible refine Later.foldlFst ?_ ?_
    | with_reducible refine Later.fst ?_ (by assumption)
    | dsimp only
    | rw [State.mk_eq]
    | split
    | exact List.prefix_append _ _

theorem State.putSetting_later {s0 : State} (s : State) (key dflt v : Nat) (hL : Later s0 s) : Later s0 (State.putSetting s key dflt v) := by
  unfold State.putSetting
  repeat'
    first
    | with_reducible assumption
    | with_reducible exact Nat.le_refl _
    | with_reducible exact List.prefix_rfl
    | with_reducible rfl
    | with_reducible exact Nat.le_add_right _ _
    | intro _
    | with_reducible refine State.upd_later ?_ ?_ ?_ ?_ ?_ ?_
    | with_reducible refine Later.ite ?_ ?_
    | with_reducible refine Later.iteFst ?_ ?_
    | with_reducible refine Later.foldl ?_ ?_
    | with_reducible refine Later.foldlFst ?_ ?_
    | with_reducible refine Later.fst ?_ (by assumption)
    | dsimp only
    | rw [State.mk_eq]
    | split
    | exact List.prefix_append _ _

theorem State.putDomain_later {s0 : State} (s : State) (key : Nat) (b : List Byte) (hL : Later s0 s) : Later s0 (State.putDomain s key b) := by
  unfold State.putDomain
  repeat'
    first
    | with_reducible assumption
    | with_reducible exact Nat.le_refl _
    | with_reducible exact List.prefix_rfl
    | with_reducible rfl
    | with_reducible exact Nat.le_add_right _ _
    | intro _
    | with_reducible refine State.upd_later ?_ ?_ ?_ ?_ ?_ ?_
    | with_reducible refine Later.ite ?_ ?_
    | with_reducible refine Later.iteFst ?_ ?_
    | with_reducible refine Later.foldl ?_ ?_
    | with_reducible refine Later.foldlFst ?_ ?_
    | with_reducible refine Later.fst ?_ (by assumption)
    | dsimp only
    | rw [State.mk_eq]
    | split
    | exact List.prefix_append _ _

theorem State.writeCap_later {s0 : State} (s : State) (p cap : Nat) (hL : Later s0 s) : Later s0 (State.writeCap s p cap) := by
  unfold State.writeCap
  repeat'
    first
    | with_reducible assumption
    | with_reducible exact Nat.le_refl _
    | with_reducible exact List.prefix_rfl
    | with_reducible rfl
    | with_reducible exact Nat.le_add_right _ _
    | intro _
    | with_reducible refine State.upd_later ?_ ?_ ?_ ?_ ?_ ?_
    | with_reducible apply State.putSetting_later
    | with_reducible apply State.recordStore_later
    | with_reducible refine Later.ite ?_ ?_
    | with_reducible refine Later.iteFst ?_ ?_
    | with_reducible refine Later.foldl ?_ ?_
    | with_reducible refine Later.foldlFst ?_ ?_
    | with_reducible refine Later.fst ?_ (by assumption)
    | dsimp only
    | rw [State.mk_eq]
    | split
    | exact List.prefix_append _ _

theorem State.absorbMember_later {s0 : State} (s : State) (b i : Nat) (hL : Later s0 s) : Later s0 (State.absorbMember s b i) := by
  unfold State.absorbMember
  repeat'
    first
    | with_reducible assumption
    | with_reducible exact Nat.le_refl _
    | with_reducible exact List.prefix_rfl
    | with_reducible rfl
    | with_reducible exact Nat.le_add_right _ _
    | intro _
    | with_reducible refine State.upd_later ?_ ?_ ?_ ?_ ?_ ?_
    | with_reducible apply State.sendPiece_later
    | with_reducible apply State.discard_later
    | with_reducible apply State.probeDone_later
    | with_reducible apply State.discardMember_later
    | with_reducible refine Later.ite ?_ ?_
    | with_reducible refine Later.iteFst ?_ ?_
    | with_reducible refine Later.foldl ?_ ?_
    | with_reducible refine Later.foldlFst ?_ ?_
    | with_reducible refine Later.fst ?_ (by assumption)
    | dsimp only
    | rw [State.mk_eq]
    | split
    | exact List.prefix_append _ _

theorem State.absorbMembers_later {s0 : State} (s : State) (p : Batch → Member → Bool) (hL : Later s0 s) : Later s0 (State.absorbMembers s p) := by
  unfold State.absorbMembers
  repeat'
    first
    | with_reducible assumption
    | with_reducible exact Nat.le_refl _
    | with_reducible exact List.prefix_rfl
    | with_reducible rfl
    | with_reducible exact Nat.le_add_right _ _
    | intro _
    | with_reducible refine State.upd_later ?_ ?_ ?_ ?_ ?_ ?_
    | with_reducible apply State.tryEndBatch_later
    | with_reducible apply State.absorbMember_later
    | with_reducible refine Later.ite ?_ ?_
    | with_reducible refine Later.iteFst ?_ ?_
    | with_reducible refine Later.foldl ?_ ?_
    | with_reducible refine Later.foldlFst ?_ ?_
    | with_reducible refine Later.fst ?_ (by assumption)
    | dsimp only
    | rw [State.mk_eq]
    | split
    | exact List.prefix_append _ _

theorem State.absorbQueries_later {s0 : State} (s : State) (p : Query → Bool) (hL : Later s0 s) : Later s0 (State.absorbQueries s p) := by
  unfold State.absorbQueries
  repeat'
    first
    | with_reducible assumption
    | with_reducible exact Nat.le_refl _
    | with_reducible exact List.prefix_rfl
    | with_reducible rfl
    | with_reducible exact Nat.le_add_right _ _
    | intro _
    | with_reducible refine State.upd_later ?_ ?_ ?_ ?_ ?_ ?_
    | with_reducible apply State.retryQuery_later
    | with_reducible refine Later.ite ?_ ?_
    | with_reducible refine Later.iteFst ?_ ?_
    | with_reducible refine Later.foldl ?_ ?_
    | with_reducible refine Later.foldlFst ?_ ?_
    | with_reducible refine Later.fst ?_ (by assumption)
    | dsimp only
    | rw [State.mk_eq]
    | split
    | exact List.prefix_append _ _

theorem State.discardProbes_later {s0 : State} (s : State) (handle : Nat) (hL : Later s0 s) : Later s0 (State.discardProbes s handle) := by
  unfold State.discardProbes
  repeat'
    first
    | with_reducible assumption
    | with_reducible exact Nat.le_refl _
    | with_reducible exact List.prefix_rfl
    | with_reducible rfl
    | with_reducible exact Nat.le_add_right _ _
    | intro _
    | with_reducible refine State.upd_later ?_ ?_ ?_ ?_ ?_ ?_
    | with_reducible apply State.discardMembers_later
    | with_reducible refine Later.ite ?_ ?_
    | with_reducible refine Later.iteFst ?_ ?_
    | with_reducible refine Later.foldl ?_ ?_
    | with_reducible refine Later.foldlFst ?_ ?_
    | with_reducible refine Later.fst ?_ (by assumption)
    | dsimp only
    | rw [State.mk_eq]
    | split
    | exact List.prefix_append _ _

theorem State.wipeStaging_later {s0 : State} (s : State) (g : Nat) (hL : Later s0 s) : Later s0 (State.wipeStaging s g) := by
  unfold State.wipeStaging
  repeat'
    first
    | with_reducible assumption
    | with_reducible exact Nat.le_refl _
    | with_reducible exact List.prefix_rfl
    | with_reducible rfl
    | with_reducible exact Nat.le_add_right _ _
    | intro _
    | with_reducible refine State.upd_later ?_ ?_ ?_ ?_ ?_ ?_
    | with_reducible refine Later.ite ?_ ?_
    | with_reducible refine Later.iteFst ?_ ?_
    | with_reducible refine Later.foldl ?_ ?_
    | with_reducible refine Later.foldlFst ?_ ?_
    | with_reducible refine Later.fst ?_ (by assumption)
    | dsimp only
    | rw [State.mk_eq]
    | split
    | exact List.prefix_append _ _

theorem State.setBanks_later {s0 : State} (s : State) (g : Nat) (hL : Later s0 s) : Later s0 (State.setBanks s g) := by
  unfold State.setBanks
  repeat'
    first
    | with_reducible assumption
    | with_reducible exact Nat.le_refl _
    | with_reducible exact List.prefix_rfl
    | with_reducible rfl
    | with_reducible exact Nat.le_add_right _ _
    | intro _
    | with_reducible refine State.upd_later ?_ ?_ ?_ ?_ ?_ ?_
    | with_reducible apply State.giveBank_later
    | with_reducible refine Later.ite ?_ ?_
    | with_reducible refine Later.iteFst ?_ ?_
    | with_reducible refine Later.foldl ?_ ?_
    | with_reducible refine Later.foldlFst ?_ ?_
    | with_reducible refine Later.fst ?_ (by assumption)
    | dsimp only
    | rw [State.mk_eq]
    | split
    | exact List.prefix_append _ _

theorem State.absorbStrand_later {s0 : State} (s : State) (g : Nat) (strandScope : Bool) (hL : Later s0 s) : Later s0 (State.absorbStrand s g strandScope) := by
  unfold State.absorbStrand
  repeat'
    first
    | with_reducible assumption
    | with_reducible exact Nat.le_refl _
    | with_reducible exact List.prefix_rfl
    | with_reducible rfl
    | with_reducible exact Nat.le_add_right _ _
    | intro _
    | with_reducible refine State.upd_later ?_ ?_ ?_ ?_ ?_ ?_
    | with_reducible apply State.absorbMembers_later
    | with_reducible apply State.absorbQueries_later
    | with_reducible apply State.discardProbes_later
    | with_reducible refine Later.ite ?_ ?_
    | with_reducible refine Later.iteFst ?_ ?_
    | with_reducible refine Later.foldl ?_ ?_
    | with_reducible refine Later.foldlFst ?_ ?_
    | with_reducible refine Later.fst ?_ (by assumption)
    | dsimp only
    | rw [State.mk_eq]
    | split
    | exact List.prefix_append _ _

theorem State.dropPower_later {s0 : State} (s : State) (k : DomainKind) (n : Nat) (hL : Later s0 s) : Later s0 (State.dropPower s k n) := by
  unfold State.dropPower
  repeat'
    first
    | with_reducible assumption
    | with_reducible exact Nat.le_refl _
    | with_reducible exact List.prefix_rfl
    | with_reducible rfl
    | with_reducible exact Nat.le_add_right _ _
    | intro _
    | with_reducible refine State.upd_later ?_ ?_ ?_ ?_ ?_ ?_
    | with_reducible refine Later.ite ?_ ?_
    | with_reducible refine Later.iteFst ?_ ?_
    | with_reducible refine Later.foldl ?_ ?_
    | with_reducible refine Later.foldlFst ?_ ?_
    | with_reducible refine Later.fst ?_ (by assumption)
    | dsimp only
    | rw [State.mk_eq]
    | split
    | exact List.prefix_append _ _

theorem State.strandDown_later {s0 : State} (s : State) (g : Nat) (strandScope : Bool) (hL : Later s0 s) : Later s0 (State.strandDown s g strandScope) := by
  unfold State.strandDown
  repeat'
    first
    | with_reducible assumption
    | with_reducible exact Nat.le_refl _
    | with_reducible exact List.prefix_rfl
    | with_reducible rfl
    | with_reducible exact Nat.le_add_right _ _
    | intro _
    | with_reducible refine State.upd_later ?_ ?_ ?_ ?_ ?_ ?_
    | with_reducible apply State.absorbStrand_later
    | with_reducible apply State.wipeStaging_later
    | with_reducible apply State.dropPower_later
    | with_reducible refine Later.ite ?_ ?_
    | with_reducible refine Later.iteFst ?_ ?_
    | with_reducible refine Later.foldl ?_ ?_
    | with_reducible refine Later.foldlFst ?_ ?_
    | with_reducible refine Later.fst ?_ (by assumption)
    | dsimp only
    | rw [State.mk_eq]
    | split
    | exact List.prefix_append _ _

theorem State.strandReturn_later {s0 : State} (s : State) (g : Nat) (hL : Later s0 s) : Later s0 (State.strandReturn s g) := by
  unfold State.strandReturn
  repeat'
    first
    | with_reducible assumption
    | with_reducible exact Nat.le_refl _
    | with_reducible exact List.prefix_rfl
    | with_reducible rfl
    | with_reducible exact Nat.le_add_right _ _
    | intro _
    | with_reducible refine State.upd_later ?_ ?_ ?_ ?_ ?_ ?_
    | with_reducible apply State.setBanks_later
    | with_reducible apply State.wake_later
    | with_reducible refine Later.ite ?_ ?_
    | with_reducible refine Later.iteFst ?_ ?_
    | with_reducible refine Later.foldl ?_ ?_
    | with_reducible refine Later.foldlFst ?_ ?_
    | with_reducible refine Later.fst ?_ (by assumption)
    | dsimp only
    | rw [State.mk_eq]
    | split
    | exact List.prefix_append _ _

theorem State.absorbTile_later {s0 : State} (s : State) (g cls idx : Nat) (hL : Later s0 s) : Later s0 (State.absorbTile s g cls idx) := by
  unfold State.absorbTile
  repeat'
    first
    | with_reducible assumption
    | with_reducible exact Nat.le_refl _
    | with_reducible exact List.prefix_rfl
    | with_reducible rfl
    | with_reducible exact Nat.le_add_right _ _
    | intro _
    | with_reducible refine State.upd_later ?_ ?_ ?_ ?_ ?_ ?_
    | with_reducible apply State.absorbMembers_later
    | with_reducible apply State.absorbQueries_later
    | with_reducible refine Later.ite ?_ ?_
    | with_reducible refine Later.iteFst ?_ ?_
    | with_reducible refine Later.foldl ?_ ?_
    | with_reducible refine Later.foldlFst ?_ ?_
    | with_reducible refine Later.fst ?_ (by assumption)
    | dsimp only
    | rw [State.mk_eq]
    | split
    | exact List.prefix_append _ _

theorem State.restartInvocation_later {s0 : State} (s : State) (p : Nat) (i : Invocation) (tally : Bool) (hL : Later s0 s) : Later s0 (State.restartInvocation s p i tally) := by
  unfold State.restartInvocation
  repeat'
    first
    | with_reducible assumption
    | with_reducible exact Nat.le_refl _
    | with_reducible exact List.prefix_rfl
    | with_reducible rfl
    | with_reducible exact Nat.le_add_right _ _
    | intro _
    | with_reducible refine State.upd_later ?_ ?_ ?_ ?_ ?_ ?_
    | with_reducible apply State.retryQuery_later
    | with_reducible apply State.endInvocation_later
    | with_reducible apply State.setPool_later
    | with_reducible apply State.request_later
    | with_reducible apply State.setQuery_later
    | with_reducible apply State.tally_later
    | with_reducible refine Later.ite ?_ ?_
    | with_reducible refine Later.iteFst ?_ ?_
    | with_reducible refine Later.foldl ?_ ?_
    | with_reducible refine Later.foldlFst ?_ ?_
    | with_reducible refine Later.fst ?_ (by assumption)
    | dsimp only
    | rw [State.mk_eq]
    | split
    | exact List.prefix_append _ _

theorem State.absorbTensor_later {s0 : State} (s : State) (p tile : Nat) (tally : Bool) (hL : Later s0 s) : Later s0 (State.absorbTensor s p tile tally) := by
  unfold State.absorbTensor
  repeat'
    first
    | with_reducible assumption
    | with_reducible exact Nat.le_refl _
    | with_reducible exact List.prefix_rfl
    | with_reducible rfl
    | with_reducible exact Nat.le_add_right _ _
    | intro _
    | with_reducible refine State.upd_later ?_ ?_ ?_ ?_ ?_ ?_
    | with_reducible apply State.restartInvocation_later
    | with_reducible apply State.tally_later
    | with_reducible refine Later.ite ?_ ?_
    | with_reducible refine Later.iteFst ?_ ?_
    | with_reducible refine Later.foldl ?_ ?_
    | with_reducible refine Later.foldlFst ?_ ?_
    | with_reducible refine Later.fst ?_ (by assumption)
    | dsimp only
    | rw [State.mk_eq]
    | split
    | exact List.prefix_append _ _

theorem State.tensorDown_later {s0 : State} (s : State) (p tile : Nat) (hL : Later s0 s) : Later s0 (State.tensorDown s p tile) := by
  unfold State.tensorDown
  repeat'
    first
    | with_reducible assumption
    | with_reducible exact Nat.le_refl _
    | with_reducible exact List.prefix_rfl
    | with_reducible rfl
    | with_reducible exact Nat.le_add_right _ _
    | intro _
    | with_reducible refine State.upd_later ?_ ?_ ?_ ?_ ?_ ?_
    | with_reducible apply State.dropPower_later
    | with_reducible apply State.setPool_later
    | with_reducible refine Later.ite ?_ ?_
    | with_reducible refine Later.iteFst ?_ ?_
    | with_reducible refine Later.foldl ?_ ?_
    | with_reducible refine Later.foldlFst ?_ ?_
    | with_reducible refine Later.fst ?_ (by assumption)
    | dsimp only
    | rw [State.mk_eq]
    | split
    | exact List.prefix_append _ _

theorem State.tensorReturn_later {s0 : State} (s : State) (p tile : Nat) (hL : Later s0 s) : Later s0 (State.tensorReturn s p tile) := by
  unfold State.tensorReturn
  repeat'
    first
    | with_reducible assumption
    | with_reducible exact Nat.le_refl _
    | with_reducible exact List.prefix_rfl
    | with_reducible rfl
    | with_reducible exact Nat.le_add_right _ _
    | intro _
    | with_reducible refine State.upd_later ?_ ?_ ?_ ?_ ?_ ?_
    | with_reducible apply State.setPool_later
    | with_reducible refine Later.ite ?_ ?_
    | with_reducible refine Later.iteFst ?_ ?_
    | with_reducible refine Later.foldl ?_ ?_
    | with_reducible refine Later.foldlFst ?_ ?_
    | with_reducible refine Later.fst ?_ (by assumption)
    | dsimp only
    | rw [State.mk_eq]
    | split
    | exact List.prefix_append _ _

theorem State.resetTensor_later {s0 : State} (s : State) (p tile : Nat) (tally : Bool) (hL : Later s0 s) : Later s0 (State.resetTensor s p tile tally) := by
  unfold State.resetTensor
  repeat'
    first
    | with_reducible assumption
    | with_reducible exact Nat.le_refl _
    | with_reducible exact List.prefix_rfl
    | with_reducible rfl
    | with_reducible exact Nat.le_add_right _ _
    | intro _
    | with_reducible refine State.upd_later ?_ ?_ ?_ ?_ ?_ ?_
    | with_reducible apply State.tensorDown_later
    | with_reducible apply State.absorbTensor_later
    | with_reducible apply State.tally_later
    | with_reducible refine Later.ite ?_ ?_
    | with_reducible refine Later.iteFst ?_ ?_
    | with_reducible refine Later.foldl ?_ ?_
    | with_reducible refine Later.foldlFst ?_ ?_
    | with_reducible refine Later.fst ?_ (by assumption)
    | dsimp only
    | rw [State.mk_eq]
    | split
    | exact List.prefix_append _ _

theorem State.absorbPool_later {s0 : State} (s : State) (p : Nat) (hL : Later s0 s) : Later s0 (State.absorbPool s p) := by
  unfold State.absorbPool
  repeat'
    first
    | with_reducible assumption
    | with_reducible exact Nat.le_refl _
    | with_reducible exact List.prefix_rfl
    | with_reducible rfl
    | with_reducible exact Nat.le_add_right _ _
    | intro _
    | with_reducible refine State.upd_later ?_ ?_ ?_ ?_ ?_ ?_
    | with_reducible apply State.retryQuery_later
    | with_reducible apply State.setPool_later
    | with_reducible refine Later.ite ?_ ?_
    | with_reducible refine Later.iteFst ?_ ?_
    | with_reducible refine Later.foldl ?_ ?_
    | with_reducible refine Later.foldlFst ?_ ?_
    | with_reducible refine Later.fst ?_ (by assumption)
    | dsimp only
    | rw [State.mk_eq]
    | split
    | exact List.prefix_append _ _

theorem State.quiesce_later {s0 : State} (s : State) (p : Nat) (hL : Later s0 s) : Later s0 (State.quiesce s p) := by
  unfold State.quiesce
  repeat'
    first
    | with_reducible assumption
    | with_reducible exact Nat.le_refl _
    | with_reducible exact List.prefix_rfl
    | with_reducible rfl
    | with_reducible exact Nat.le_add_right _ _
    | intro _
    | with_reducible refine State.upd_later ?_ ?_ ?_ ?_ ?_ ?_
    | with_reducible apply State.closeBatch_later
    | with_reducible refine Later.ite ?_ ?_
    | with_reducible refine Later.iteFst ?_ ?_
    | with_reducible refine Later.foldl ?_ ?_
    | with_reducible refine Later.foldlFst ?_ ?_
    | with_reducible refine Later.fst ?_ (by assumption)
    | dsimp only
    | rw [State.mk_eq]
    | split
    | exact List.prefix_append _ _

theorem State.beginInstall_later {s0 : State} (s : State) (p image : Nat) (remove : Bool) (cmd : Option AdminRef) (hL : Later s0 s) : Later s0 (State.beginInstall s p image remove cmd) := by
  unfold State.beginInstall
  repeat'
    first
    | with_reducible assumption
    | with_reducible exact Nat.le_refl _
    | with_reducible exact List.prefix_rfl
    | with_reducible rfl
    | with_reducible exact Nat.le_add_right _ _
    | intro _
    | with_reducible refine State.upd_later ?_ ?_ ?_ ?_ ?_ ?_
    | with_reducible apply State.quiesce_later
    | with_reducible refine Later.ite ?_ ?_
    | with_reducible refine Later.iteFst ?_ ?_
    | with_reducible refine Later.foldl ?_ ?_
    | with_reducible refine Later.foldlFst ?_ ?_
    | with_reducible refine Later.fst ?_ (by assumption)
    | dsimp only
    | rw [State.mk_eq]
    | split
    | exact List.prefix_append _ _

theorem State.nextInstall_later {s0 : State} (s : State) (hL : Later s0 s) : Later s0 (State.nextInstall s) := by
  unfold State.nextInstall
  repeat'
    first
    | with_reducible assumption
    | with_reducible exact Nat.le_refl _
    | with_reducible exact List.prefix_rfl
    | with_reducible rfl
    | with_reducible exact Nat.le_add_right _ _
    | intro _
    | with_reducible refine State.upd_later ?_ ?_ ?_ ?_ ?_ ?_
    | with_reducible apply State.quiesce_later
    | with_reducible refine Later.ite ?_ ?_
    | with_reducible refine Later.iteFst ?_ ?_
    | with_reducible refine Later.foldl ?_ ?_
    | with_reducible refine Later.foldlFst ?_ ?_
    | with_reducible refine Later.fst ?_ (by assumption)
    | dsimp only
    | rw [State.mk_eq]
    | split
    | exact List.prefix_append _ _

theorem State.markRetired_later {s0 : State} (s : State) (unit : Nat) (hL : Later s0 s) : Later s0 (State.markRetired s unit) := by
  unfold State.markRetired
  repeat'
    first
    | with_reducible assumption
    | with_reducible exact Nat.le_refl _
    | with_reducible exact List.prefix_rfl
    | with_reducible rfl
    | with_reducible exact Nat.le_add_right _ _
    | intro _
    | with_reducible refine State.upd_later ?_ ?_ ?_ ?_ ?_ ?_
    | with_reducible apply State.tally_later
    | with_reducible refine Later.ite ?_ ?_
    | with_reducible refine Later.iteFst ?_ ?_
    | with_reducible refine Later.foldl ?_ ?_
    | with_reducible refine Later.foldlFst ?_ ?_
    | with_reducible refine Later.fst ?_ (by assumption)
    | dsimp only
    | rw [State.mk_eq]
    | split
    | exact List.prefix_append _ _

theorem State.swapCounters_later {s0 : State} (s : State) (a b : Nat) (hL : Later s0 s) : Later s0 (State.swapCounters s a b) := by
  have fold (x : Nat) (v : List Nat) (ns : List Nat) : ∀ t : Table Nat, Table.wf t = true →
      Table.wf (ns.foldl (fun (t : Table Nat) n => t.put (objKey x (n + 1)) 0 (v.getD n 0)) t) = true := by
    induction ns with
    | nil => exact fun t h => h
    | cons n ns ih => exact fun t h => ih _ (Table.wf_put _ _ _ _ h)
  unfold State.swapCounters
  dsimp only
  rw [State.mk_eq]
  exact State.upd_later hL (Nat.le_refl _) (Nat.le_refl _) (Nat.le_refl _) List.prefix_rfl rfl
    (hc := fun h => fold _ _ _ _ (fold _ _ _ _ h))

theorem State.spareStrandIn_later {s0 : State} (s : State) (g : Nat) (hL : Later s0 s) : Later s0 (State.spareStrandIn s g) := by
  unfold State.spareStrandIn
  repeat'
    first
    | with_reducible assumption
    | with_reducible exact Nat.le_refl _
    | with_reducible exact List.prefix_rfl
    | with_reducible rfl
    | with_reducible exact Nat.le_add_right _ _
    | intro _
    | with_reducible refine State.upd_later ?_ ?_ ?_ ?_ ?_ ?_
    | with_reducible apply State.swapCounters_later
    | with_reducible refine Later.ite ?_ ?_
    | with_reducible refine Later.iteFst ?_ ?_
    | with_reducible refine Later.foldl ?_ ?_
    | with_reducible refine Later.foldlFst ?_ ?_
    | with_reducible refine Later.fst ?_ (by assumption)
    | dsimp only
    | rw [State.mk_eq]
    | split
    | exact List.prefix_append _ _

theorem State.partitionOut_later {s0 : State} (s : State) (p : Nat) (hL : Later s0 s) : Later s0 (State.partitionOut s p) := by
  unfold State.partitionOut
  repeat'
    first
    | with_reducible assumption
    | with_reducible exact Nat.le_refl _
    | with_reducible exact List.prefix_rfl
    | with_reducible rfl
    | with_reducible exact Nat.le_add_right _ _
    | intro _
    | with_reducible refine State.upd_later ?_ ?_ ?_ ?_ ?_ ?_
    | with_reducible apply State.strandDown_later
    | with_reducible apply State.absorbPool_later
    | with_reducible refine Later.ite ?_ ?_
    | with_reducible refine Later.iteFst ?_ ?_
    | with_reducible refine Later.foldl ?_ ?_
    | with_reducible refine Later.foldlFst ?_ ?_
    | with_reducible refine Later.fst ?_ (by assumption)
    | dsimp only
    | rw [State.mk_eq]
    | split
    | exact List.prefix_append _ _

theorem State.strandReplaced_later {s0 : State} (s : State) (g cls index : Nat) (isTile : Bool) (hL : Later s0 s) : Later s0 (State.strandReplaced s g cls index isTile) := by
  unfold State.strandReplaced
  repeat'
    first
    | with_reducible assumption
    | with_reducible exact Nat.le_refl _
    | with_reducible exact List.prefix_rfl
    | with_reducible rfl
    | with_reducible exact Nat.le_add_right _ _
    | intro _
    | with_reducible refine State.upd_later ?_ ?_ ?_ ?_ ?_ ?_
    | with_reducible apply State.spareStrandIn_later
    | with_reducible apply State.partitionOut_later
    | with_reducible apply State.strandReturn_later
    | with_reducible refine Later.ite ?_ ?_
    | with_reducible refine Later.iteFst ?_ ?_
    | with_reducible refine Later.foldl ?_ ?_
    | with_reducible refine Later.foldlFst ?_ ?_
    | with_reducible refine Later.fst ?_ (by assumption)
    | dsimp only
    | rw [State.mk_eq]
    | split
    | exact List.prefix_append _ _

theorem State.retireInStrand_later {s0 : State} (s : State) (g cls index : Nat) (isTile : Bool) (hL : Later s0 s) : Later s0 (State.retireInStrand s g cls index isTile) := by
  unfold State.retireInStrand
  repeat'
    first
    | with_reducible assumption
    | with_reducible exact Nat.le_refl _
    | with_reducible exact List.prefix_rfl
    | with_reducible rfl
    | with_reducible exact Nat.le_add_right _ _
    | intro _
    | with_reducible refine State.upd_later ?_ ?_ ?_ ?_ ?_ ?_
    | with_reducible apply State.tally_later
    | with_reducible refine Later.ite ?_ ?_
    | with_reducible refine Later.iteFst ?_ ?_
    | with_reducible refine Later.foldl ?_ ?_
    | with_reducible refine Later.foldlFst ?_ ?_
    | with_reducible refine Later.fst ?_ (by assumption)
    | dsimp only
    | rw [State.mk_eq]
    | split
    | exact List.prefix_append _ _

theorem State.dropImages_later {s0 : State} (s : State) (p : Nat) (hL : Later s0 s) : Later s0 (State.dropImages s p) := by
  unfold State.dropImages
  repeat'
    first
    | with_reducible assumption
    | with_reducible exact Nat.le_refl _
    | with_reducible exact List.prefix_rfl
    | with_reducible rfl
    | with_reducible exact Nat.le_add_right _ _
    | intro _
    | with_reducible refine State.upd_later ?_ ?_ ?_ ?_ ?_ ?_
    | with_reducible apply State.beginInstall_later
    | with_reducible refine Later.ite ?_ ?_
    | with_reducible refine Later.iteFst ?_ ?_
    | with_reducible refine Later.foldl ?_ ?_
    | with_reducible refine Later.foldlFst ?_ ?_
    | with_reducible refine Later.fst ?_ (by assumption)
    | dsimp only
    | rw [State.mk_eq]
    | split
    | exact List.prefix_append _ _

theorem State.retireTensor_later {s0 : State} (s : State) (p tile unit : Nat) (hL : Later s0 s) : Later s0 (State.retireTensor s p tile unit) := by
  unfold State.retireTensor
  repeat'
    first
    | with_reducible assumption
    | with_reducible exact Nat.le_refl _
    | with_reducible exact List.prefix_rfl
    | with_reducible rfl
    | with_reducible exact Nat.le_add_right _ _
    | intro _
    | with_reducible refine State.upd_later ?_ ?_ ?_ ?_ ?_ ?_
    | with_reducible apply State.tensorDown_later
    | with_reducible apply State.absorbTensor_later
    | with_reducible apply State.tensorReturn_later
    | with_reducible apply State.dropImages_later
    | with_reducible refine Later.ite ?_ ?_
    | with_reducible refine Later.iteFst ?_ ?_
    | with_reducible refine Later.foldl ?_ ?_
    | with_reducible refine Later.foldlFst ?_ ?_
    | with_reducible refine Later.fst ?_ (by assumption)
    | dsimp only
    | rw [State.mk_eq]
    | split
    | exact List.prefix_append _ _

theorem State.liftCap_later {s0 : State} (s : State) (unit : Nat) (hL : Later s0 s) : Later s0 (State.liftCap s unit) := by
  unfold State.liftCap
  repeat'
    first
    | with_reducible assumption
    | with_reducible exact Nat.le_refl _
    | with_reducible exact List.prefix_rfl
    | with_reducible rfl
    | with_reducible exact Nat.le_add_right _ _
    | intro _
    | with_reducible refine State.upd_later ?_ ?_ ?_ ?_ ?_ ?_
    | with_reducible apply State.writeCap_later
    | with_reducible refine Later.ite ?_ ?_
    | with_reducible refine Later.iteFst ?_ ?_
    | with_reducible refine Later.foldl ?_ ?_
    | with_reducible refine Later.foldlFst ?_ ?_
    | with_reducible refine Later.fst ?_ (by assumption)
    | dsimp only
    | rw [State.mk_eq]
    | split
    | exact List.prefix_append _ _

theorem State.retireUnit_later {s0 : State} (s : State) (unit : Nat) (hL : Later s0 s) : Later s0 (State.retireUnit s unit) := by
  unfold State.retireUnit
  repeat'
    first
    | with_reducible assumption
    | with_reducible exact Nat.le_refl _
    | with_reducible exact List.prefix_rfl
    | with_reducible rfl
    | with_reducible exact Nat.le_add_right _ _
    | intro _
    | with_reducible refine State.upd_later ?_ ?_ ?_ ?_ ?_ ?_
    | with_reducible apply State.partitionOut_later
    | with_reducible apply State.markRetired_later
    | with_reducible apply State.retireTensor_later
    | with_reducible apply State.liftCap_later
    | with_reducible apply State.retireInStrand_later
    | with_reducible refine Later.ite ?_ ?_
    | with_reducible refine Later.iteFst ?_ ?_
    | with_reducible refine Later.foldl ?_ ?_
    | with_reducible refine Later.foldlFst ?_ ?_
    | with_reducible refine Later.fst ?_ (by assumption)
    | dsimp only
    | rw [State.mk_eq]
    | split
    | exact List.prefix_append _ _

theorem State.settleLevel_later {s0 : State} (s : State) (hL : Later s0 s) : Later s0 (State.settleLevel s) := by
  unfold State.settleLevel
  repeat'
    first
    | with_reducible assumption
    | with_reducible exact Nat.le_refl _
    | with_reducible exact List.prefix_rfl
    | with_reducible rfl
    | with_reducible exact Nat.le_add_right _ _
    | intro _
    | with_reducible refine State.upd_later ?_ ?_ ?_ ?_ ?_ ?_
    | with_reducible apply State.emit_later
    | with_reducible refine Later.ite ?_ ?_
    | with_reducible refine Later.iteFst ?_ ?_
    | with_reducible refine Later.foldl ?_ ?_
    | with_reducible refine Later.foldlFst ?_ ?_
    | with_reducible refine Later.fst ?_ (by assumption)
    | dsimp only
    | rw [State.mk_eq]
    | split
    | exact List.prefix_append _ _

theorem State.settle_later {s0 : State} (s : State) (hL : Later s0 s) : Later s0 (State.settle s) := by
  unfold State.settle
  repeat'
    first
    | with_reducible assumption
    | with_reducible exact Nat.le_refl _
    | with_reducible exact List.prefix_rfl
    | with_reducible rfl
    | with_reducible exact Nat.le_add_right _ _
    | intro _
    | with_reducible refine State.upd_later ?_ ?_ ?_ ?_ ?_ ?_
    | with_reducible apply State.score_later
    | with_reducible apply State.retireUnit_later
    | with_reducible apply State.settleLevel_later
    | with_reducible refine Later.ite ?_ ?_
    | with_reducible refine Later.iteFst ?_ ?_
    | with_reducible refine Later.foldl ?_ ?_
    | with_reducible refine Later.foldlFst ?_ ?_
    | with_reducible refine Later.fst ?_ (by assumption)
    | dsimp only
    | rw [State.mk_eq]
    | split
    | exact List.prefix_append _ _

theorem State.logFault_later {s0 : State} (s : State) (index sub unit p stage handle load : Nat) (hL : Later s0 s) : Later s0 (State.logFault s index sub unit p stage handle load) := by
  unfold State.logFault
  repeat'
    first
    | with_reducible assumption
    | with_reducible exact Nat.le_refl _
    | with_reducible exact List.prefix_rfl
    | with_reducible rfl
    | with_reducible exact Nat.le_add_right _ _
    | intro _
    | with_reducible refine State.upd_later ?_ ?_ ?_ ?_ ?_ ?_
    | with_reducible apply State.logEvent_later
    | with_reducible refine Later.ite ?_ ?_
    | with_reducible refine Later.iteFst ?_ ?_
    | with_reducible refine Later.foldl ?_ ?_
    | with_reducible refine Later.foldlFst ?_ ?_
    | with_reducible refine Later.fst ?_ (by assumption)
    | dsimp only
    | rw [State.mk_eq]
    | split
    | exact List.prefix_append _ _

theorem State.tileFault_later {s0 : State} (s : State) (unit p load : Nat) (hL : Later s0 s) : Later s0 (State.tileFault s unit p load) := by
  unfold State.tileFault
  repeat'
    first
    | with_reducible assumption
    | with_reducible exact Nat.le_refl _
    | with_reducible exact List.prefix_rfl
    | with_reducible rfl
    | with_reducible exact Nat.le_add_right _ _
    | intro _
    | with_reducible refine State.upd_later ?_ ?_ ?_ ?_ ?_ ?_
    | with_reducible apply State.writeCap_later
    | with_reducible apply State.tally_later
    | with_reducible apply State.retireUnit_later
    | with_reducible apply State.passed_later
    | with_reducible refine Later.ite ?_ ?_
    | with_reducible refine Later.iteFst ?_ ?_
    | with_reducible refine Later.foldl ?_ ?_
    | with_reducible refine Later.foldlFst ?_ ?_
    | with_reducible refine Later.fst ?_ (by assumption)
    | dsimp only
    | rw [State.mk_eq]
    | split
    | exact List.prefix_append _ _

theorem State.portEnable_later {s0 : State} (s : State) (port : Nat) (hL : Later s0 s) : Later s0 (State.portEnable s port) := by
  unfold State.portEnable
  repeat'
    first
    | with_reducible assumption
    | with_reducible exact Nat.le_refl _
    | with_reducible exact List.prefix_rfl
    | with_reducible rfl
    | with_reducible exact Nat.le_add_right _ _
    | intro _
    | with_reducible refine State.upd_later ?_ ?_ ?_ ?_ ?_ ?_
    | with_reducible apply State.wake_later
    | with_reducible apply State.setPort_later
    | with_reducible refine Later.ite ?_ ?_
    | with_reducible refine Later.iteFst ?_ ?_
    | with_reducible refine Later.foldl ?_ ?_
    | with_reducible refine Later.foldlFst ?_ ?_
    | with_reducible refine Later.fst ?_ (by assumption)
    | dsimp only
    | rw [State.mk_eq]
    | split
    | exact List.prefix_append _ _

theorem execPortEnable_later (port : Nat) (s : State) {t' : State} (hE : execPortEnable port s = .next t') : Later s t' := by
  unfold execPortEnable at hE
  injection hE with hE
  subst hE
  have hL := Later.refl s
  repeat'
    first
    | with_reducible assumption
    | with_reducible exact Nat.le_refl _
    | with_reducible exact List.prefix_rfl
    | with_reducible rfl
    | with_reducible exact Nat.le_add_right _ _
    | intro _
    | with_reducible refine State.upd_later ?_ ?_ ?_ ?_ ?_ ?_
    | with_reducible apply State.portEnable_later
    | with_reducible refine Later.ite ?_ ?_
    | with_reducible refine Later.iteFst ?_ ?_
    | with_reducible refine Later.foldl ?_ ?_
    | with_reducible refine Later.foldlFst ?_ ?_
    | with_reducible refine Later.fst ?_ (by assumption)
    | dsimp only
    | rw [State.mk_eq]
    | split
    | exact List.prefix_append _ _

theorem execPortSignalDetect_later (port lanes : Nat) (s : State) {t' : State} (hE : execPortSignalDetect port lanes s = .next t') : Later s t' := by
  unfold execPortSignalDetect at hE
  injection hE with hE
  subst hE
  have hL := Later.refl s
  repeat'
    first
    | with_reducible assumption
    | with_reducible exact Nat.le_refl _
    | with_reducible exact List.prefix_rfl
    | with_reducible rfl
    | with_reducible exact Nat.le_add_right _ _
    | intro _
    | with_reducible refine State.upd_later ?_ ?_ ?_ ?_ ?_ ?_
    | with_reducible apply State.setPort_later
    | with_reducible apply State.sendFlit_later
    | with_reducible refine Later.ite ?_ ?_
    | with_reducible refine Later.iteFst ?_ ?_
    | with_reducible refine Later.foldl ?_ ?_
    | with_reducible refine Later.foldlFst ?_ ?_
    | with_reducible refine Later.fst ?_ (by assumption)
    | dsimp only
    | rw [State.mk_eq]
    | split
    | exact List.prefix_append _ _

theorem execTrainFails_later (port t : Nat) (s : State) {t' : State} (hE : execTrainFails port t s = .next t') : Later s t' := by
  unfold execTrainFails at hE
  injection hE with hE
  subst hE
  have hL := Later.refl s
  repeat'
    first
    | with_reducible assumption
    | with_reducible exact Nat.le_refl _
    | with_reducible exact List.prefix_rfl
    | with_reducible rfl
    | with_reducible exact Nat.le_add_right _ _
    | intro _
    | with_reducible refine State.upd_later ?_ ?_ ?_ ?_ ?_ ?_
    | with_reducible apply State.setPort_later
    | with_reducible apply State.advance_later
    | with_reducible apply State.tally_later
    | with_reducible refine Later.ite ?_ ?_
    | with_reducible refine Later.iteFst ?_ ?_
    | with_reducible refine Later.foldl ?_ ?_
    | with_reducible refine Later.foldlFst ?_ ?_
    | with_reducible refine Later.fst ?_ (by assumption)
    | dsimp only
    | rw [State.mk_eq]
    | split
    | exact List.prefix_append _ _

theorem execTrainRetry_later (port t : Nat) (s : State) {t' : State} (hE : execTrainRetry port t s = .next t') : Later s t' := by
  unfold execTrainRetry at hE
  injection hE with hE
  subst hE
  have hL := Later.refl s
  repeat'
    first
    | with_reducible assumption
    | with_reducible exact Nat.le_refl _
    | with_reducible exact List.prefix_rfl
    | with_reducible rfl
    | with_reducible exact Nat.le_add_right _ _
    | intro _
    | with_reducible refine State.upd_later ?_ ?_ ?_ ?_ ?_ ?_
    | with_reducible apply State.setPort_later
    | with_reducible apply State.advance_later
    | with_reducible refine Later.ite ?_ ?_
    | with_reducible refine Later.iteFst ?_ ?_
    | with_reducible refine Later.foldl ?_ ?_
    | with_reducible refine Later.foldlFst ?_ ?_
    | with_reducible refine Later.fst ?_ (by assumption)
    | dsimp only
    | rw [State.mk_eq]
    | split
    | exact List.prefix_append _ _

theorem execIdent_later (port : Nat) (content : List Byte) (s : State) {t' : State} (hE : execIdent port content s = .next t') : Later s t' := by
  unfold execIdent at hE
  injection hE with hE
  subst hE
  have hL := Later.refl s
  repeat'
    first
    | with_reducible assumption
    | with_reducible exact Nat.le_refl _
    | with_reducible exact List.prefix_rfl
    | with_reducible rfl
    | with_reducible exact Nat.le_add_right _ _
    | intro _
    | with_reducible refine State.upd_later ?_ ?_ ?_ ?_ ?_ ?_
    | with_reducible apply State.setPort_later
    | with_reducible apply State.routeWaiting_later
    | with_reducible apply State.logState_later
    | with_reducible apply State.tally_later
    | with_reducible refine Later.ite ?_ ?_
    | with_reducible refine Later.iteFst ?_ ?_
    | with_reducible refine Later.foldl ?_ ?_
    | with_reducible refine Later.foldlFst ?_ ?_
    | with_reducible refine Later.fst ?_ (by assumption)
    | dsimp only
    | rw [State.mk_eq]
    | split
    | exact List.prefix_append _ _

theorem State.startRetrain_later {s0 : State} (s : State) (port : Nat) (hL : Later s0 s) : Later s0 (State.startRetrain s port) := by
  unfold State.startRetrain
  repeat'
    first
    | with_reducible assumption
    | with_reducible exact Nat.le_refl _
    | with_reducible exact List.prefix_rfl
    | with_reducible rfl
    | with_reducible exact Nat.le_add_right _ _
    | intro _
    | with_reducible refine State.upd_later ?_ ?_ ?_ ?_ ?_ ?_
    | with_reducible apply State.score_later
    | with_reducible apply State.setPort_later
    | with_reducible apply State.tally_later
    | with_reducible refine Later.ite ?_ ?_
    | with_reducible refine Later.iteFst ?_ ?_
    | with_reducible refine Later.foldl ?_ ?_
    | with_reducible refine Later.foldlFst ?_ ?_
    | with_reducible refine Later.fst ?_ (by assumption)
    | dsimp only
    | rw [State.mk_eq]
    | split
    | exact List.prefix_append _ _

theorem State.releaseRx_later {s0 : State} (s : State) (port : Nat) (r : RxFrame) (hL : Later s0 s) : Later s0 (State.releaseRx s port r) := by
  unfold State.releaseRx
  repeat'
    first
    | with_reducible assumption
    | with_reducible exact Nat.le_refl _
    | with_reducible exact List.prefix_rfl
    | with_reducible rfl
    | with_reducible exact Nat.le_add_right _ _
    | intro _
    | with_reducible refine State.upd_later ?_ ?_ ?_ ?_ ?_ ?_
    | with_reducible apply State.freeIn_later
    | with_reducible refine Later.ite ?_ ?_
    | with_reducible refine Later.iteFst ?_ ?_
    | with_reducible refine Later.foldl ?_ ?_
    | with_reducible refine Later.foldlFst ?_ ?_
    | with_reducible refine Later.fst ?_ (by assumption)
    | dsimp only
    | rw [State.mk_eq]
    | split
    | exact List.prefix_append _ _

theorem State.downPort_later {s0 : State} (s : State) (port state : Nat) (hL : Later s0 s) : Later s0 (State.downPort s port state) := by
  unfold State.downPort
  repeat'
    first
    | with_reducible assumption
    | with_reducible exact Nat.le_refl _
    | with_reducible exact List.prefix_rfl
    | with_reducible rfl
    | with_reducible exact Nat.le_add_right _ _
    | intro _
    | with_reducible refine State.upd_later ?_ ?_ ?_ ?_ ?_ ?_
    | with_reducible apply State.setPort_later
    | with_reducible apply State.routeFrame_later
    | with_reducible apply State.freeOut_later
    | with_reducible apply State.releaseRx_later
    | with_reducible refine Later.ite ?_ ?_
    | with_reducible refine Later.iteFst ?_ ?_
    | with_reducible refine Later.foldl ?_ ?_
    | with_reducible refine Later.foldlFst ?_ ?_
    | with_reducible refine Later.fst ?_ (by assumption)
    | dsimp only
    | rw [State.mk_eq]
    | split
    | exact List.prefix_append _ _

theorem State.settlePort_later {s0 : State} (s : State) (port : Nat) (hL : Later s0 s) : Later s0 (State.settlePort s port) := by
  unfold State.settlePort
  repeat'
    first
    | with_reducible assumption
    | with_reducible exact Nat.le_refl _
    | with_reducible exact List.prefix_rfl
    | with_reducible rfl
    | with_reducible exact Nat.le_add_right _ _
    | intro _
    | with_reducible refine State.upd_later ?_ ?_ ?_ ?_ ?_ ?_
    | with_reducible apply State.score_later
    | with_reducible apply State.setPort_later
    | with_reducible apply State.downPort_later
    | with_reducible apply State.settle_later
    | with_reducible apply State.markRetired_later
    | with_reducible refine Later.ite ?_ ?_
    | with_reducible refine Later.iteFst ?_ ?_
    | with_reducible refine Later.foldl ?_ ?_
    | with_reducible refine Later.foldlFst ?_ ?_
    | with_reducible refine Later.fst ?_ (by assumption)
    | dsimp only
    | rw [State.mk_eq]
    | split
    | exact List.prefix_append _ _

theorem execRetrainTrigger_later (port cause : Nat) (s : State) {t' : State} (hE : execRetrainTrigger port cause s = .next t') : Later s t' := by
  unfold execRetrainTrigger at hE
  injection hE with hE
  subst hE
  have hL := Later.refl s
  repeat'
    first
    | with_reducible assumption
    | with_reducible exact Nat.le_refl _
    | with_reducible exact List.prefix_rfl
    | with_reducible rfl
    | with_reducible exact Nat.le_add_right _ _
    | intro _
    | with_reducible refine State.upd_later ?_ ?_ ?_ ?_ ?_ ?_
    | with_reducible apply State.cause_later
    | with_reducible apply State.settlePort_later
    | with_reducible apply State.startRetrain_later
    | with_reducible refine Later.ite ?_ ?_
    | with_reducible refine Later.iteFst ?_ ?_
    | with_reducible refine Later.foldl ?_ ?_
    | with_reducible refine Later.foldlFst ?_ ?_
    | with_reducible refine Later.fst ?_ (by assumption)
    | dsimp only
    | rw [State.mk_eq]
    | split
    | exact List.prefix_append _ _

theorem execRetrain_later (port : Nat) (s : State) {t' : State} (hE : execRetrain port s = .next t') : Later s t' := by
  unfold execRetrain at hE
  injection hE with hE
  subst hE
  have hL := Later.refl s
  repeat'
    first
    | with_reducible assumption
    | with_reducible exact Nat.le_refl _
    | with_reducible exact List.prefix_rfl
    | with_reducible rfl
    | with_reducible exact Nat.le_add_right _ _
    | intro _
    | with_reducible refine State.upd_later ?_ ?_ ?_ ?_ ?_ ?_
    | with_reducible apply State.settlePort_later
    | with_reducible apply State.startRetrain_later
    | with_reducible refine Later.ite ?_ ?_
    | with_reducible refine Later.iteFst ?_ ?_
    | with_reducible refine Later.foldl ?_ ?_
    | with_reducible refine Later.foldlFst ?_ ?_
    | with_reducible refine Later.fst ?_ (by assumption)
    | dsimp only
    | rw [State.mk_eq]
    | split
    | exact List.prefix_append _ _

theorem execPortDown_later (port : Nat) (s : State) {t' : State} (hE : execPortDown port s = .next t') : Later s t' := by
  unfold execPortDown at hE
  injection hE with hE
  subst hE
  have hL := Later.refl s
  repeat'
    first
    | with_reducible assumption
    | with_reducible exact Nat.le_refl _
    | with_reducible exact List.prefix_rfl
    | with_reducible rfl
    | with_reducible exact Nat.le_add_right _ _
    | intro _
    | with_reducible refine State.upd_later ?_ ?_ ?_ ?_ ?_ ?_
    | with_reducible apply State.downPort_later
    | with_reducible refine Later.ite ?_ ?_
    | with_reducible refine Later.iteFst ?_ ?_
    | with_reducible refine Later.foldl ?_ ?_
    | with_reducible refine Later.foldlFst ?_ ?_
    | with_reducible refine Later.fst ?_ (by assumption)
    | dsimp only
    | rw [State.mk_eq]
    | split
    | exact List.prefix_append _ _

theorem execRetrainComplete_later (port lanes : Nat) (s : State) {t' : State} (hE : execRetrainComplete port lanes s = .next t') : Later s t' := by
  unfold execRetrainComplete at hE
  injection hE with hE
  subst hE
  have hL := Later.refl s
  repeat'
    first
    | with_reducible assumption
    | with_reducible exact Nat.le_refl _
    | with_reducible exact List.prefix_rfl
    | with_reducible rfl
    | with_reducible exact Nat.le_add_right _ _
    | intro _
    | with_reducible refine State.upd_later ?_ ?_ ?_ ?_ ?_ ?_
    | with_reducible apply State.setPort_later
    | with_reducible apply State.downPort_later
    | with_reducible apply State.routeWaiting_later
    | with_reducible apply State.logState_later
    | with_reducible refine Later.ite ?_ ?_
    | with_reducible refine Later.iteFst ?_ ?_
    | with_reducible refine Later.foldl ?_ ?_
    | with_reducible refine Later.foldlFst ?_ ?_
    | with_reducible refine Later.fst ?_ (by assumption)
    | dsimp only
    | rw [State.mk_eq]
    | split
    | exact List.prefix_append _ _

theorem State.settleFrames_later {s0 : State} (s : State) (port : Nat) (hL : Later s0 s) : Later s0 (State.settleFrames s port) := by
  unfold State.settleFrames
  repeat'
    first
    | with_reducible assumption
    | with_reducible exact Nat.le_refl _
    | with_reducible exact List.prefix_rfl
    | with_reducible rfl
    | with_reducible exact Nat.le_add_right _ _
    | intro _
    | with_reducible refine State.upd_later ?_ ?_ ?_ ?_ ?_ ?_
    | with_reducible apply State.setPort_later
    | with_reducible apply State.freeOut_later
    | with_reducible refine Later.ite ?_ ?_
    | with_reducible refine Later.iteFst ?_ ?_
    | with_reducible refine Later.foldl ?_ ?_
    | with_reducible refine Later.foldlFst ?_ ?_
    | with_reducible refine Later.fst ?_ (by assumption)
    | dsimp only
    | rw [State.mk_eq]
    | split
    | exact List.prefix_append _ _

theorem State.replayFlits_later {s0 : State} (s : State) (port : Nat) (hL : Later s0 s) : Later s0 (State.replayFlits s port) := by
  unfold State.replayFlits
  repeat'
    first
    | with_reducible assumption
    | with_reducible exact Nat.le_refl _
    | with_reducible exact List.prefix_rfl
    | with_reducible rfl
    | with_reducible exact Nat.le_add_right _ _
    | intro _
    | with_reducible refine State.upd_later ?_ ?_ ?_ ?_ ?_ ?_
    | with_reducible apply State.score_later
    | with_reducible apply State.setPort_later
    | with_reducible apply State.count_later
    | with_reducible apply State.emit_later
    | with_reducible apply State.settlePort_later
    | with_reducible apply State.tally_later
    | with_reducible refine Later.ite ?_ ?_
    | with_reducible refine Later.iteFst ?_ ?_
    | with_reducible refine Later.foldl ?_ ?_
    | with_reducible refine Later.foldlFst ?_ ?_
    | with_reducible refine Later.fst ?_ (by assumption)
    | dsimp only
    | rw [State.mk_eq]
    | split
    | exact List.prefix_append _ _

theorem State.ackFlit_later {s0 : State} (s : State) (port : Nat) (flit : List Byte) (hL : Later s0 s) : Later s0 (State.ackFlit s port flit) := by
  unfold State.ackFlit
  repeat'
    first
    | with_reducible assumption
    | with_reducible exact Nat.le_refl _
    | with_reducible exact List.prefix_rfl
    | with_reducible rfl
    | with_reducible exact Nat.le_add_right _ _
    | intro _
    | with_reducible refine State.upd_later ?_ ?_ ?_ ?_ ?_ ?_
    | with_reducible apply State.setPort_later
    | with_reducible apply State.replayFlits_later
    | with_reducible apply State.settleFrames_later
    | with_reducible refine Later.ite ?_ ?_
    | with_reducible refine Later.iteFst ?_ ?_
    | with_reducible refine Later.foldl ?_ ?_
    | with_reducible refine Later.foldlFst ?_ ?_
    | with_reducible refine Later.fst ?_ (by assumption)
    | dsimp only
    | rw [State.mk_eq]
    | split
    | exact List.prefix_append _ _

theorem State.placeFlit_later {s0 : State} (s : State) (port : Nat) (flit : List Byte) (hL : Later s0 s) : Later s0 (State.placeFlit s port flit) := by
  unfold State.placeFlit
  repeat'
    first
    | with_reducible assumption
    | with_reducible exact Nat.le_refl _
    | with_reducible exact List.prefix_rfl
    | with_reducible rfl
    | with_reducible exact Nat.le_add_right _ _
    | intro _
    | with_reducible refine State.upd_later ?_ ?_ ?_ ?_ ?_ ?_
    | with_reducible apply State.setPort_later
    | with_reducible apply State.count_later
    | with_reducible refine Later.ite ?_ ?_
    | with_reducible refine Later.iteFst ?_ ?_
    | with_reducible refine Later.foldl ?_ ?_
    | with_reducible refine Later.foldlFst ?_ ?_
    | with_reducible refine Later.fst ?_ (by assumption)
    | dsimp only
    | rw [State.mk_eq]
    | split
    | exact List.prefix_append _ _

theorem execFlitReceive_later (port : Nat) (flit : List Byte) (s : State) {t' : State} (hE : execFlitReceive port flit s = .next t') : Later s t' := by
  unfold execFlitReceive at hE
  split at hE
  · exact nomatch hE
  · injection hE with hE
    subst hE
    have hL := Later.refl s
    repeat'
      first
      | with_reducible assumption
      | with_reducible exact Nat.le_refl _
      | with_reducible exact List.prefix_rfl
      | with_reducible rfl
      | with_reducible exact Nat.le_add_right _ _
      | intro _
      | with_reducible refine State.upd_later ?_ ?_ ?_ ?_ ?_ ?_
      | with_reducible apply State.setPort_later
      | with_reducible apply State.ackFlit_later
      | with_reducible apply State.placeFlit_later
      | with_reducible refine Later.ite ?_ ?_
      | with_reducible refine Later.iteFst ?_ ?_
      | with_reducible refine Later.foldl ?_ ?_
      | with_reducible refine Later.foldlFst ?_ ?_
      | with_reducible refine Later.fst ?_ (by assumption)
      | dsimp only
      | rw [State.mk_eq]
      | split
      | exact List.prefix_append _ _

theorem State.countDefer_later {s0 : State} (s : State) (port cause : Nat) (hL : Later s0 s) : Later s0 (State.countDefer s port cause) := by
  unfold State.countDefer
  repeat'
    first
    | with_reducible assumption
    | with_reducible exact Nat.le_refl _
    | with_reducible exact List.prefix_rfl
    | with_reducible rfl
    | with_reducible exact Nat.le_add_right _ _
    | intro _
    | with_reducible refine State.upd_later ?_ ?_ ?_ ?_ ?_ ?_
    | with_reducible apply State.cause_later
    | with_reducible apply State.logState_later
    | with_reducible apply State.tally_later
    | with_reducible refine Later.ite ?_ ?_
    | with_reducible refine Later.iteFst ?_ ?_
    | with_reducible refine Later.foldl ?_ ?_
    | with_reducible refine Later.foldlFst ?_ ?_
    | with_reducible refine Later.fst ?_ (by assumption)
    | dsimp only
    | rw [State.mk_eq]
    | split
    | exact List.prefix_append _ _

theorem execFrameHeaderDecide_later (port : Nat) (s : State) {t' : State} (hE : execFrameHeaderDecide port s = .next t') : Later s t' := by
  unfold execFrameHeaderDecide at hE
  injection hE with hE
  subst hE
  have hL := Later.refl s
  repeat'
    first
    | with_reducible assumption
    | with_reducible exact Nat.le_refl _
    | with_reducible exact List.prefix_rfl
    | with_reducible rfl
    | with_reducible exact Nat.le_add_right _ _
    | intro _
    | with_reducible refine State.upd_later ?_ ?_ ?_ ?_ ?_ ?_
    | with_reducible apply State.bookIn_later
    | with_reducible apply State.setPort_later
    | with_reducible apply State.countDefer_later
    | with_reducible refine Later.ite ?_ ?_
    | with_reducible refine Later.iteFst ?_ ?_
    | with_reducible refine Later.foldl ?_ ?_
    | with_reducible refine Later.foldlFst ?_ ?_
    | with_reducible refine Later.fst ?_ (by assumption)
    | dsimp only
    | rw [State.mk_eq]
    | split
    | exact List.prefix_append _ _

theorem execFrameDeliver_later (port tag : Nat) (s : State) {t' : State} (hE : execFrameDeliver port tag s = .next t') : Later s t' := by
  unfold execFrameDeliver at hE
  injection hE with hE
  subst hE
  have hL := Later.refl s
  repeat'
    first
    | with_reducible assumption
    | with_reducible exact Nat.le_refl _
    | with_reducible exact List.prefix_rfl
    | with_reducible rfl
    | with_reducible exact Nat.le_add_right _ _
    | intro _
    | with_reducible refine State.upd_later ?_ ?_ ?_ ?_ ?_ ?_
    | with_reducible apply State.setPort_later
    | with_reducible apply State.routeFrame_later
    | with_reducible apply State.emit_later
    | with_reducible apply State.releaseRx_later
    | with_reducible refine Later.ite ?_ ?_
    | with_reducible refine Later.iteFst ?_ ?_
    | with_reducible refine Later.foldl ?_ ?_
    | with_reducible refine Later.foldlFst ?_ ?_
    | with_reducible refine Later.fst ?_ (by assumption)
    | dsimp only
    | rw [State.mk_eq]
    | split
    | exact List.prefix_append _ _

theorem State.deferFrame_later {s0 : State} (s : State) (port : Nat) (f : Frame) (hL : Later s0 s) : Later s0 (State.deferFrame s port f) := by
  unfold State.deferFrame
  repeat'
    first
    | with_reducible assumption
    | with_reducible exact Nat.le_refl _
    | with_reducible exact List.prefix_rfl
    | with_reducible rfl
    | with_reducible exact Nat.le_add_right _ _
    | intro _
    | with_reducible refine State.upd_later ?_ ?_ ?_ ?_ ?_ ?_
    | with_reducible apply State.setPort_later
    | with_reducible apply State.tally_later
    | with_reducible refine Later.ite ?_ ?_
    | with_reducible refine Later.iteFst ?_ ?_
    | with_reducible refine Later.foldl ?_ ?_
    | with_reducible refine Later.foldlFst ?_ ?_
    | with_reducible refine Later.fst ?_ (by assumption)
    | dsimp only
    | rw [State.mk_eq]
    | split
    | exact List.prefix_append _ _

theorem execAnswerReceive_later (port word : Nat) (s : State) {t' : State} (hE : execAnswerReceive port word s = .next t') : Later s t' := by
  unfold execAnswerReceive at hE
  injection hE with hE
  subst hE
  have hL := Later.refl s
  repeat'
    first
    | with_reducible assumption
    | with_reducible exact Nat.le_refl _
    | with_reducible exact List.prefix_rfl
    | with_reducible rfl
    | with_reducible exact Nat.le_add_right _ _
    | intro _
    | with_reducible refine State.upd_later ?_ ?_ ?_ ?_ ?_ ?_
    | with_reducible apply State.setPort_later
    | with_reducible apply State.settleFrames_later
    | with_reducible apply State.deferFrame_later
    | with_reducible refine Later.ite ?_ ?_
    | with_reducible refine Later.iteFst ?_ ?_
    | with_reducible refine Later.foldl ?_ ?_
    | with_reducible refine Later.foldlFst ?_ ?_
    | with_reducible refine Later.fst ?_ (by assumption)
    | dsimp only
    | rw [State.mk_eq]
    | split
    | exact List.prefix_append _ _

theorem execDeferBackoff_later (port tag t : Nat) (s : State) {t' : State} (hE : execDeferBackoff port tag t s = .next t') : Later s t' := by
  unfold execDeferBackoff at hE
  injection hE with hE
  subst hE
  have hL := Later.refl s
  repeat'
    first
    | with_reducible assumption
    | with_reducible exact Nat.le_refl _
    | with_reducible exact List.prefix_rfl
    | with_reducible rfl
    | with_reducible exact Nat.le_add_right _ _
    | intro _
    | with_reducible refine State.upd_later ?_ ?_ ?_ ?_ ?_ ?_
    | with_reducible apply State.setPort_later
    | with_reducible apply State.advance_later
    | with_reducible refine Later.ite ?_ ?_
    | with_reducible refine Later.iteFst ?_ ?_
    | with_reducible refine Later.foldl ?_ ?_
    | with_reducible refine Later.foldlFst ?_ ?_
    | with_reducible refine Later.fst ?_ (by assumption)
    | dsimp only
    | rw [State.mk_eq]
    | split
    | exact List.prefix_append _ _

theorem execAnswerTimeout_later (port tag t : Nat) (s : State) {t' : State} (hE : execAnswerTimeout port tag t s = .next t') : Later s t' := by
  unfold execAnswerTimeout at hE
  injection hE with hE
  subst hE
  have hL := Later.refl s
  repeat'
    first
    | with_reducible assumption
    | with_reducible exact Nat.le_refl _
    | with_reducible exact List.prefix_rfl
    | with_reducible rfl
    | with_reducible exact Nat.le_add_right _ _
    | intro _
    | with_reducible refine State.upd_later ?_ ?_ ?_ ?_ ?_ ?_
    | with_reducible apply State.advance_later
    | with_reducible apply State.deferFrame_later
    | with_reducible refine Later.ite ?_ ?_
    | with_reducible refine Later.iteFst ?_ ?_
    | with_reducible refine Later.foldl ?_ ?_
    | with_reducible refine Later.foldlFst ?_ ?_
    | with_reducible refine Later.fst ?_ (by assumption)
    | dsimp only
    | rw [State.mk_eq]
    | split
    | exact List.prefix_append _ _

theorem State.dropRefused_later {s0 : State} (s : State) (port cls : Nat) (hL : Later s0 s) : Later s0 (State.dropRefused s port cls) := by
  unfold State.dropRefused
  repeat'
    first
    | with_reducible assumption
    | with_reducible exact Nat.le_refl _
    | with_reducible exact List.prefix_rfl
    | with_reducible rfl
    | with_reducible exact Nat.le_add_right _ _
    | intro _
    | with_reducible refine State.upd_later ?_ ?_ ?_ ?_ ?_ ?_
    | with_reducible apply State.setPort_later
    | with_reducible apply State.logState_later
    | with_reducible apply State.freeOut_later
    | with_reducible apply State.tally_later
    | with_reducible refine Later.ite ?_ ?_
    | with_reducible refine Later.iteFst ?_ ?_
    | with_reducible refine Later.foldl ?_ ?_
    | with_reducible refine Later.foldlFst ?_ ?_
    | with_reducible refine Later.fst ?_ (by assumption)
    | dsimp only
    | rw [State.mk_eq]
    | split
    | exact List.prefix_append _ _

theorem State.startFrame_later {s0 : State} (s : State) (port : Nat) (f : Frame) (cont : Bool) (hL : Later s0 s) : Later s0 (State.startFrame s port f cont) := by
  unfold State.startFrame
  repeat'
    first
    | with_reducible assumption
    | with_reducible exact Nat.le_refl _
    | with_reducible exact List.prefix_rfl
    | with_reducible rfl
    | with_reducible exact Nat.le_add_right _ _
    | intro _
    | with_reducible refine State.upd_later ?_ ?_ ?_ ?_ ?_ ?_
    | with_reducible apply State.setPort_later
    | with_reducible apply State.sendFlits_later
    | with_reducible refine Later.ite ?_ ?_
    | with_reducible refine Later.iteFst ?_ ?_
    | with_reducible refine Later.foldl ?_ ?_
    | with_reducible refine Later.foldlFst ?_ ?_
    | with_reducible refine Later.fst ?_ (by assumption)
    | dsimp only
    | rw [State.mk_eq]
    | split
    | exact List.prefix_append _ _

theorem execFrameStart_later (port t : Nat) (s : State) {t' : State} (hE : execFrameStart port t s = .next t') : Later s t' := by
  unfold execFrameStart at hE
  injection hE with hE
  subst hE
  have hL := Later.refl s
  repeat'
    first
    | with_reducible assumption
    | with_reducible exact Nat.le_refl _
    | with_reducible exact List.prefix_rfl
    | with_reducible rfl
    | with_reducible exact Nat.le_add_right _ _
    | intro _
    | with_reducible refine State.upd_later ?_ ?_ ?_ ?_ ?_ ?_
    | with_reducible apply State.sendFlit_later
    | with_reducible apply State.advance_later
    | with_reducible apply State.dropRefused_later
    | with_reducible apply State.startFrame_later
    | with_reducible refine Later.ite ?_ ?_
    | with_reducible refine Later.iteFst ?_ ?_
    | with_reducible refine Later.foldl ?_ ?_
    | with_reducible refine Later.foldlFst ?_ ?_
    | with_reducible refine Later.fst ?_ (by assumption)
    | dsimp only
    | rw [State.mk_eq]
    | split
    | exact List.prefix_append _ _

theorem execGateEntry_later (port t : Nat) (s : State) {t' : State} (hE : execGateEntry port t s = .next t') : Later s t' := by
  unfold execGateEntry at hE
  injection hE with hE
  subst hE
  have hL := Later.refl s
  repeat'
    first
    | with_reducible assumption
    | with_reducible exact Nat.le_refl _
    | with_reducible exact List.prefix_rfl
    | with_reducible rfl
    | with_reducible exact Nat.le_add_right _ _
    | intro _
    | with_reducible refine State.upd_later ?_ ?_ ?_ ?_ ?_ ?_
    | with_reducible apply State.setPort_later
    | with_reducible apply State.advance_later
    | with_reducible refine Later.ite ?_ ?_
    | with_reducible refine Later.iteFst ?_ ?_
    | with_reducible refine Later.foldl ?_ ?_
    | with_reducible refine Later.foldlFst ?_ ?_
    | with_reducible refine Later.fst ?_ (by assumption)
    | dsimp only
    | rw [State.mk_eq]
    | split
    | exact List.prefix_append _ _

theorem State.gclSwitch_later {s0 : State} (s : State) (port t : Nat) (hL : Later s0 s) : Later s0 (State.gclSwitch s port t) := by
  unfold State.gclSwitch
  repeat'
    first
    | with_reducible assumption
    | with_reducible exact Nat.le_refl _
    | with_reducible exact List.prefix_rfl
    | with_reducible rfl
    | with_reducible exact Nat.le_add_right _ _
    | intro _
    | with_reducible refine State.upd_later ?_ ?_ ?_ ?_ ?_ ?_
    | with_reducible apply State.setPort_later
    | with_reducible apply State.advance_later
    | with_reducible refine Later.ite ?_ ?_
    | with_reducible refine Later.iteFst ?_ ?_
    | with_reducible refine Later.foldl ?_ ?_
    | with_reducible refine Later.foldlFst ?_ ?_
    | with_reducible refine Later.fst ?_ (by assumption)
    | dsimp only
    | rw [State.mk_eq]
    | split
    | exact List.prefix_append _ _

theorem execGclSwitch_later (port t : Nat) (s : State) {t' : State} (hE : execGclSwitch port t s = .next t') : Later s t' := by
  unfold execGclSwitch at hE
  injection hE with hE
  subst hE
  have hL := Later.refl s
  repeat'
    first
    | with_reducible assumption
    | with_reducible exact Nat.le_refl _
    | with_reducible exact List.prefix_rfl
    | with_reducible rfl
    | with_reducible exact Nat.le_add_right _ _
    | intro _
    | with_reducible refine State.upd_later ?_ ?_ ?_ ?_ ?_ ?_
    | with_reducible apply State.gclSwitch_later
    | with_reducible refine Later.ite ?_ ?_
    | with_reducible refine Later.iteFst ?_ ?_
    | with_reducible refine Later.foldl ?_ ?_
    | with_reducible refine Later.foldlFst ?_ ?_
    | with_reducible refine Later.fst ?_ (by assumption)
    | dsimp only
    | rw [State.mk_eq]
    | split
    | exact List.prefix_append _ _

theorem execShaperRefill_later (t : Nat) (s : State) {t' : State} (hE : execShaperRefill t s = .next t') : Later s t' := by
  unfold execShaperRefill at hE
  injection hE with hE
  subst hE
  have hL := Later.refl s
  repeat'
    first
    | with_reducible assumption
    | with_reducible exact Nat.le_refl _
    | with_reducible exact List.prefix_rfl
    | with_reducible rfl
    | with_reducible exact Nat.le_add_right _ _
    | intro _
    | with_reducible refine State.upd_later ?_ ?_ ?_ ?_ ?_ ?_
    | with_reducible apply State.advance_later
    | with_reducible apply State.setPort_later
    | with_reducible refine Later.ite ?_ ?_
    | with_reducible refine Later.iteFst ?_ ?_
    | with_reducible refine Later.foldl ?_ ?_
    | with_reducible refine Later.foldlFst ?_ ?_
    | with_reducible refine Later.fst ?_ (by assumption)
    | dsimp only
    | rw [State.mk_eq]
    | split
    | exact List.prefix_append _ _

theorem execQueueSample_later (t : Nat) (s : State) {t' : State} (hE : execQueueSample t s = .next t') : Later s t' := by
  unfold execQueueSample at hE
  injection hE with hE
  subst hE
  have hL := Later.refl s
  repeat'
    first
    | with_reducible assumption
    | with_reducible exact Nat.le_refl _
    | with_reducible exact List.prefix_rfl
    | with_reducible rfl
    | with_reducible exact Nat.le_add_right _ _
    | intro _
    | with_reducible refine State.upd_later ?_ ?_ ?_ ?_ ?_ ?_
    | with_reducible apply State.count_later
    | with_reducible apply State.advance_later
    | with_reducible refine Later.ite ?_ ?_
    | with_reducible refine Later.iteFst ?_ ?_
    | with_reducible refine Later.foldl ?_ ?_
    | with_reducible refine Later.foldlFst ?_ ?_
    | with_reducible refine Later.fst ?_ (by assumption)
    | dsimp only
    | rw [State.mk_eq]
    | split
    | exact List.prefix_append _ _

theorem State.histSnap_later {s0 : State} (s : State) (port : Nat) (hL : Later s0 s) : Later s0 (State.histSnap s port) := by
  unfold State.histSnap
  repeat'
    first
    | with_reducible assumption
    | with_reducible exact Nat.le_refl _
    | with_reducible exact List.prefix_rfl
    | with_reducible rfl
    | with_reducible exact Nat.le_add_right _ _
    | intro _
    | with_reducible refine State.upd_later ?_ ?_ ?_ ?_ ?_ ?_
    | with_reducible apply State.setPort_later
    | with_reducible refine Later.ite ?_ ?_
    | with_reducible refine Later.iteFst ?_ ?_
    | with_reducible refine Later.foldl ?_ ?_
    | with_reducible refine Later.foldlFst ?_ ?_
    | with_reducible refine Later.fst ?_ (by assumption)
    | dsimp only
    | rw [State.mk_eq]
    | split
    | exact List.prefix_append _ _

theorem execHistSnap_later (port : Nat) (s : State) {t' : State} (hE : execHistSnap port s = .next t') : Later s t' := by
  unfold execHistSnap at hE
  injection hE with hE
  subst hE
  have hL := Later.refl s
  repeat'
    first
    | with_reducible assumption
    | with_reducible exact Nat.le_refl _
    | with_reducible exact List.prefix_rfl
    | with_reducible rfl
    | with_reducible exact Nat.le_add_right _ _
    | intro _
    | with_reducible refine State.upd_later ?_ ?_ ?_ ?_ ?_ ?_
    | with_reducible apply State.histSnap_later
    | with_reducible refine Later.ite ?_ ?_
    | with_reducible refine Later.iteFst ?_ ?_
    | with_reducible refine Later.foldl ?_ ?_
    | with_reducible refine Later.foldlFst ?_ ?_
    | with_reducible refine Later.fst ?_ (by assumption)
    | dsimp only
    | rw [State.mk_eq]
    | split
    | exact List.prefix_append _ _

theorem State.histClr_later {s0 : State} (s : State) (port : Nat) (hL : Later s0 s) : Later s0 (State.histClr s port) := by
  unfold State.histClr
  repeat'
    first
    | with_reducible assumption
    | with_reducible exact Nat.le_refl _
    | with_reducible exact List.prefix_rfl
    | with_reducible rfl
    | with_reducible exact Nat.le_add_right _ _
    | intro _
    | with_reducible refine State.upd_later ?_ ?_ ?_ ?_ ?_ ?_
    | with_reducible refine Later.ite ?_ ?_
    | with_reducible refine Later.iteFst ?_ ?_
    | with_reducible refine Later.foldl ?_ ?_
    | with_reducible refine Later.foldlFst ?_ ?_
    | with_reducible refine Later.fst ?_ (by assumption)
    | dsimp only
    | rw [State.mk_eq]
    | split
    | exact List.prefix_append _ _

theorem execHistClr_later (port : Nat) (s : State) {t' : State} (hE : execHistClr port s = .next t') : Later s t' := by
  unfold execHistClr at hE
  injection hE with hE
  subst hE
  have hL := Later.refl s
  repeat'
    first
    | with_reducible assumption
    | with_reducible exact Nat.le_refl _
    | with_reducible exact List.prefix_rfl
    | with_reducible rfl
    | with_reducible exact Nat.le_add_right _ _
    | intro _
    | with_reducible refine State.upd_later ?_ ?_ ?_ ?_ ?_ ?_
    | with_reducible apply State.histClr_later
    | with_reducible refine Later.ite ?_ ?_
    | with_reducible refine Later.iteFst ?_ ?_
    | with_reducible refine Later.foldl ?_ ?_
    | with_reducible refine Later.foldlFst ?_ ?_
    | with_reducible refine Later.fst ?_ (by assumption)
    | dsimp only
    | rw [State.mk_eq]
    | split
    | exact List.prefix_append _ _

end Sys2Proof.Machine
end

