-- ==== Sys2Proof/Laws/Later4.lean ====
section
/-! SUPPORT. The operations of TierOps, IngestOps, StreamOps, Ingest, Catalog, Versions move no clock, epoch or draw count back, take back nothing sent and leave the queue and the silicon alone. -/
set_option Elab.async false
set_option linter.all false

namespace Sys2Proof.Machine

theorem State.newObj_later {s0 : State} (s : State) (o : TierObj) (hL : Later s0 s) : Later s0 (State.newObj s o).1 := by
  unfold State.newObj
  repeat'
    first
    | with_reducible assumption
    | with_reducible exact Nat.le_refl _
    | with_reducible exact List.prefix_rfl
    | with_reducible rfl
    | with_reducible exact Nat.le_add_right _ _
    | intro _
    | with_reducible refine State.upd_later ?_ ?_ ?_ ?_ ?_ ?_
    | with_reducible refine Later.ite ?_ ?_
    | with_reducible refine Later.iteFst ?_ ?_
    | with_reducible refine Later.foldl ?_ ?_
    | with_reducible refine Later.foldlFst ?_ ?_
    | with_reducible refine Later.fst ?_ (by assumption)
    | dsimp only
    | rw [State.mk_eq]
    | split
    | exact List.prefix_append _ _

theorem State.pairHome_later {s0 : State} (s : State) (list size : Nat) (hL : Later s0 s) : Later s0 (State.pairHome s list size).1 := by
  unfold State.pairHome
  repeat'
    first
    | with_reducible assumption
    | with_reducible exact Nat.le_refl _
    | with_reducible exact List.prefix_rfl
    | with_reducible rfl
    | with_reducible exact Nat.le_add_right _ _
    | intro _
    | with_reducible refine State.upd_later ?_ ?_ ?_ ?_ ?_ ?_
    | with_reducible apply State.tally_later
    | with_reducible refine Later.ite ?_ ?_
    | with_reducible refine Later.iteFst ?_ ?_
    | with_reducible refine Later.foldl ?_ ?_
    | with_reducible refine Later.foldlFst ?_ ?_
    | with_reducible refine Later.fst ?_ (by assumption)
    | dsimp only
    | rw [State.mk_eq]
    | split
    | exact List.prefix_append _ _

theorem State.segObjects_later {s0 : State} (s : State) (handle listId : Nat) (v : Version) (g : Segment) (hL : Later s0 s) : Later s0 (State.segObjects s handle listId v g).1 := by
  unfold State.segObjects
  repeat'
    first
    | with_reducible assumption
    | with_reducible exact Nat.le_refl _
    | with_reducible exact List.prefix_rfl
    | with_reducible rfl
    | with_reducible exact Nat.le_add_right _ _
    | intro _
    | with_reducible refine State.upd_later ?_ ?_ ?_ ?_ ?_ ?_
    | with_reducible apply State.pairHome_later
    | with_reducible apply State.newObj_later
    | with_reducible refine Later.ite ?_ ?_
    | with_reducible refine Later.iteFst ?_ ?_
    | with_reducible refine Later.foldl ?_ ?_
    | with_reducible refine Later.foldlFst ?_ ?_
    | with_reducible refine Later.fst ?_ (by assumption)
    | dsimp only
    | rw [State.mk_eq]
    | split
    | exact List.prefix_append _ _

theorem State.dirtyChunks_later {s0 : State} (s : State) (n old new : Nat) (hL : Later s0 s) : Later s0 (State.dirtyChunks s n old new) := by
  unfold State.dirtyChunks
  repeat'
    first
    | with_reducible assumption
    | with_reducible exact Nat.le_refl _
    | with_reducible exact List.prefix_rfl
    | with_reducible rfl
    | with_reducible exact Nat.le_add_right _ _
    | intro _
    | with_reducible refine State.upd_later ?_ ?_ ?_ ?_ ?_ ?_
    | with_reducible refine Later.ite ?_ ?_
    | with_reducible refine Later.iteFst ?_ ?_
    | with_reducible refine Later.foldl ?_ ?_
    | with_reducible refine Later.foldlFst ?_ ?_
    | with_reducible refine Later.fst ?_ (by assumption)
    | dsimp only
    | rw [State.mk_eq]
    | split
    | exact List.prefix_append _ _

theorem State.resizeSeg_later {s0 : State} (s : State) (v : Version) (g : Segment) (hL : Later s0 s) : Later s0 (State.resizeSeg s v g) := by
  unfold State.resizeSeg
  repeat'
    first
    | with_reducible assumption
    | with_reducible exact Nat.le_refl _
    | with_reducible exact List.prefix_rfl
    | with_reducible rfl
    | with_reducible exact Nat.le_add_right _ _
    | intro _
    | with_reducible refine State.upd_later ?_ ?_ ?_ ?_ ?_ ?_
    | with_reducible apply State.dirtyChunks_later
    | with_reducible refine Later.ite ?_ ?_
    | with_reducible refine Later.iteFst ?_ ?_
    | with_reducible refine Later.foldl ?_ ?_
    | with_reducible refine Later.foldlFst ?_ ?_
    | with_reducible refine Later.fst ?_ (by assumption)
    | dsimp only
    | rw [State.mk_eq]
    | split
    | exact List.prefix_append _ _

theorem State.answerCall_later {s0 : State} (s : State) (owner : MoveOwner) (status : Nat) (hL : Later s0 s) : Later s0 (State.answerCall s owner status) := by
  unfold State.answerCall
  repeat'
    first
    | with_reducible assumption
    | with_reducible exact Nat.le_refl _
    | with_reducible exact List.prefix_rfl
    | with_reducible rfl
    | with_reducible exact Nat.le_add_right _ _
    | intro _
    | with_reducible refine State.upd_later ?_ ?_ ?_ ?_ ?_ ?_
    | with_reducible apply State.adminDone_later
    | with_reducible apply State.emit_later
    | with_reducible refine Later.ite ?_ ?_
    | with_reducible refine Later.iteFst ?_ ?_
    | with_reducible refine Later.foldl ?_ ?_
    | with_reducible refine Later.foldlFst ?_ ?_
    | with_reducible refine Later.fst ?_ (by assumption)
    | dsimp only
    | rw [State.mk_eq]
    | split
    | exact List.prefix_append _ _

theorem State.endCall_later {s0 : State} (s : State) (call status : Nat) (hL : Later s0 s) : Later s0 (State.endCall s call status) := by
  unfold State.endCall
  repeat'
    first
    | with_reducible assumption
    | with_reducible exact Nat.le_refl _
    | with_reducible exact List.prefix_rfl
    | with_reducible rfl
    | with_reducible exact Nat.le_add_right _ _
    | intro _
    | with_reducible refine State.upd_later ?_ ?_ ?_ ?_ ?_ ?_
    | with_reducible apply State.answerCall_later
    | with_reducible refine Later.ite ?_ ?_
    | with_reducible refine Later.iteFst ?_ ?_
    | with_reducible refine Later.foldl ?_ ?_
    | with_reducible refine Later.foldlFst ?_ ?_
    | with_reducible refine Later.fst ?_ (by assumption)
    | dsimp only
    | rw [State.mk_eq]
    | split
    | exact List.prefix_append _ _

theorem State.freeObj_later {s0 : State} (s : State) (n : Nat) (hL : Later s0 s) : Later s0 (State.freeObj s n) := by
  unfold State.freeObj
  repeat'
    first
    | with_reducible assumption
    | with_reducible exact Nat.le_refl _
    | with_reducible exact List.prefix_rfl
    | with_reducible rfl
    | with_reducible exact Nat.le_add_right _ _
    | intro _
    | with_reducible refine State.upd_later ?_ ?_ ?_ ?_ ?_ ?_
    | with_reducible apply State.endCall_later
    | with_reducible refine Later.ite ?_ ?_
    | with_reducible refine Later.iteFst ?_ ?_
    | with_reducible refine Later.foldl ?_ ?_
    | with_reducible refine Later.foldlFst ?_ ?_
    | with_reducible refine Later.fst ?_ (by assumption)
    | dsimp only
    | rw [State.mk_eq]
    | split
    | exact List.prefix_append _ _

theorem State.newList_later {s0 : State} (s : State) (l : ListData) (pref : Nat) (hL : Later s0 s) : Later s0 (State.newList s l pref).1 := by
  unfold State.newList
  repeat'
    first
    | with_reducible assumption
    | with_reducible exact Nat.le_refl _
    | with_reducible exact List.prefix_rfl
    | with_reducible rfl
    | with_reducible exact Nat.le_add_right _ _
    | intro _
    | with_reducible refine State.upd_later ?_ ?_ ?_ ?_ ?_ ?_
    | with_reducible apply State.newObj_later
    | with_reducible apply State.setList_later
    | with_reducible refine Later.ite ?_ ?_
    | with_reducible refine Later.iteFst ?_ ?_
    | with_reducible refine Later.foldl ?_ ?_
    | with_reducible refine Later.foldlFst ?_ ?_
    | with_reducible refine Later.fst ?_ (by assumption)
    | dsimp only
    | rw [State.mk_eq]
    | split
    | exact List.prefix_append _ _

theorem State.endBatch_later {s0 : State} (s : State) (b : Nat) (x : IngestBatch) (status : Nat) (hL : Later s0 s) : Later s0 (State.endBatch s b x status) := by
  unfold State.endBatch
  repeat'
    first
    | with_reducible assumption
    | with_reducible exact Nat.le_refl _
    | with_reducible exact List.prefix_rfl
    | with_reducible rfl
    | with_reducible exact Nat.le_add_right _ _
    | intro _
    | with_reducible refine State.upd_later ?_ ?_ ?_ ?_ ?_ ?_
    | with_reducible apply State.ringFault_later
    | with_reducible apply State.dmaWrite_later
    | with_reducible apply State.complete_later
    | with_reducible apply State.basicIrq_later
    | with_reducible refine Later.ite ?_ ?_
    | with_reducible refine Later.iteFst ?_ ?_
    | with_reducible refine Later.foldl ?_ ?_
    | with_reducible refine Later.foldlFst ?_ ?_
    | with_reducible refine Later.fst ?_ (by assumption)
    | dsimp only
    | rw [State.mk_eq]
    | split
    | exact List.prefix_append _ _

theorem State.takeResult_later {s0 : State} (s : State) (b pos : Nat) (r : IngestResult) (hL : Later s0 s) : Later s0 (State.takeResult s b pos r) := by
  unfold State.takeResult
  repeat'
    first
    | with_reducible assumption
    | with_reducible exact Nat.le_refl _
    | with_reducible exact List.prefix_rfl
    | with_reducible rfl
    | with_reducible exact Nat.le_add_right _ _
    | intro _
    | with_reducible refine State.upd_later ?_ ?_ ?_ ?_ ?_ ?_
    | with_reducible apply State.endBatch_later
    | with_reducible refine Later.ite ?_ ?_
    | with_reducible refine Later.iteFst ?_ ?_
    | with_reducible refine Later.foldl ?_ ?_
    | with_reducible refine Later.foldlFst ?_ ?_
    | with_reducible refine Later.fst ?_ (by assumption)
    | dsimp only
    | rw [State.mk_eq]
    | split
    | exact List.prefix_append _ _

theorem State.answerWrite_later {s0 : State} (s : State) (w : Write) (status cause epoch : Nat) (hL : Later s0 s) : Later s0 (State.answerWrite s w status cause epoch) := by
  unfold State.answerWrite
  repeat'
    first
    | with_reducible assumption
    | with_reducible exact Nat.le_refl _
    | with_reducible exact List.prefix_rfl
    | with_reducible rfl
    | with_reducible exact Nat.le_add_right _ _
    | intro _
    | with_reducible refine State.upd_later ?_ ?_ ?_ ?_ ?_ ?_
    | with_reducible apply State.meter_later
    | with_reducible apply State.addItem_later
    | with_reducible apply State.tally_later
    | with_reducible apply State.takeResult_later
    | with_reducible apply State.cause_later
    | with_reducible refine Later.ite ?_ ?_
    | with_reducible refine Later.iteFst ?_ ?_
    | with_reducible refine Later.foldl ?_ ?_
    | with_reducible refine Later.foldlFst ?_ ?_
    | with_reducible refine Later.fst ?_ (by assumption)
    | dsimp only
    | rw [State.mk_eq]
    | split
    | exact List.prefix_append _ _

theorem State.arriveWrite_later {s0 : State} (s : State) (w : Write) (hL : Later s0 s) : Later s0 (State.arriveWrite s w) := by
  unfold State.arriveWrite
  repeat'
    first
    | with_reducible assumption
    | with_reducible exact Nat.le_refl _
    | with_reducible exact List.prefix_rfl
    | with_reducible rfl
    | with_reducible exact Nat.le_add_right _ _
    | intro _
    | with_reducible refine State.upd_later ?_ ?_ ?_ ?_ ?_ ?_
    | with_reducible apply State.answerWrite_later
    | with_reducible refine Later.ite ?_ ?_
    | with_reducible refine Later.iteFst ?_ ?_
    | with_reducible refine Later.foldl ?_ ?_
    | with_reducible refine Later.foldlFst ?_ ?_
    | with_reducible refine Later.fst ?_ (by assumption)
    | dsimp only
    | rw [State.mk_eq]
    | split
    | exact List.prefix_append _ _

theorem State.noteNans_later {s0 : State} (s : State) (n : Nat) (hL : Later s0 s) : Later s0 (State.noteNans s n) := by
  unfold State.noteNans
  repeat'
    first
    | with_reducible assumption
    | with_reducible exact Nat.le_refl _
    | with_reducible exact List.prefix_rfl
    | with_reducible rfl
    | with_reducible exact Nat.le_add_right _ _
    | intro _
    | with_reducible refine State.upd_later ?_ ?_ ?_ ?_ ?_ ?_
    | with_reducible apply State.count_later
    | with_reducible refine Later.ite ?_ ?_
    | with_reducible refine Later.iteFst ?_ ?_
    | with_reducible refine Later.foldl ?_ ?_
    | with_reducible refine Later.foldlFst ?_ ?_
    | with_reducible refine Later.fst ?_ (by assumption)
    | dsimp only
    | rw [State.mk_eq]
    | split
    | exact List.prefix_append _ _

theorem State.queueWrite_later {s0 : State} (s : State) (w : Write) (hL : Later s0 s) : Later s0 (State.queueWrite s w) := by
  unfold State.queueWrite
  repeat'
    first
    | with_reducible assumption
    | with_reducible exact Nat.le_refl _
    | with_reducible exact List.prefix_rfl
    | with_reducible rfl
    | with_reducible exact Nat.le_add_right _ _
    | intro _
    | with_reducible refine State.upd_later ?_ ?_ ?_ ?_ ?_ ?_
    | with_reducible refine Later.ite ?_ ?_
    | with_reducible refine Later.iteFst ?_ ?_
    | with_reducible refine Later.foldl ?_ ?_
    | with_reducible refine Later.foldlFst ?_ ?_
    | with_reducible refine Later.fst ?_ (by assumption)
    | dsimp only
    | rw [State.mk_eq]
    | split
    | exact List.prefix_append _ _

theorem State.storeRec_later {s0 : State} (s : State) (r : Rec) (shared : List Nat) (hL : Later s0 s) : Later s0 (State.storeRec s r shared).1 := by
  unfold State.storeRec
  repeat'
    first
    | with_reducible assumption
    | with_reducible exact Nat.le_refl _
    | with_reducible exact List.prefix_rfl
    | with_reducible rfl
    | with_reducible exact Nat.le_add_right _ _
    | intro _
    | with_reducible refine State.upd_later ?_ ?_ ?_ ?_ ?_ ?_
    | with_reducible apply State.storeBytes_later
    | with_reducible refine Later.ite ?_ ?_
    | with_reducible refine Later.iteFst ?_ ?_
    | with_reducible refine Later.foldl ?_ ?_
    | with_reducible refine Later.foldlFst ?_ ?_
    | with_reducible refine Later.fst ?_ (by assumption)
    | dsimp only
    | rw [State.mk_eq]
    | split
    | exact List.prefix_append _ _

theorem State.orderRecord_later {s0 : State} (s : State) (w : Write) (hL : Later s0 s) : Later s0 (State.orderRecord s w) := by
  unfold State.orderRecord
  repeat'
    first
    | with_reducible assumption
    | with_reducible exact Nat.le_refl _
    | with_reducible exact List.prefix_rfl
    | with_reducible rfl
    | with_reducible exact Nat.le_add_right _ _
    | intro _
    | with_reducible refine State.upd_later ?_ ?_ ?_ ?_ ?_ ?_
    | with_reducible apply State.queueWrite_later
    | with_reducible apply State.noteNans_later
    | with_reducible apply State.answerWrite_later
    | with_reducible apply State.storeRec_later
    | with_reducible refine Later.ite ?_ ?_
    | with_reducible refine Later.iteFst ?_ ?_
    | with_reducible refine Later.foldl ?_ ?_
    | with_reducible refine Later.foldlFst ?_ ?_
    | with_reducible refine Later.fst ?_ (by assumption)
    | dsimp only
    | rw [State.mk_eq]
    | split
    | exact List.prefix_append _ _

theorem State.openSegment_later {s0 : State} (s : State) (handle : Nat) (l : ListData) (v : Version) (gen from_ : Nat) (hL : Later s0 s) : Later s0 (State.openSegment s handle l v gen from_) := by
  unfold State.openSegment
  repeat'
    first
    | with_reducible assumption
    | with_reducible exact Nat.le_refl _
    | with_reducible exact List.prefix_rfl
    | with_reducible rfl
    | with_reducible exact Nat.le_add_right _ _
    | intro _
    | with_reducible refine State.upd_later ?_ ?_ ?_ ?_ ?_ ?_
    | with_reducible apply State.setList_later
    | with_reducible apply State.segObjects_later
    | with_reducible refine Later.ite ?_ ?_
    | with_reducible refine Later.iteFst ?_ ?_
    | with_reducible refine Later.foldl ?_ ?_
    | with_reducible refine Later.foldlFst ?_ ?_
    | with_reducible refine Later.fst ?_ (by assumption)
    | dsimp only
    | rw [State.mk_eq]
    | split
    | exact List.prefix_append _ _

theorem State.needDelta_later {s0 : State} (s : State) (handle e : Nat) (hL : Later s0 s) : Later s0 (State.needDelta s handle e) := by
  unfold State.needDelta
  repeat'
    first
    | with_reducible assumption
    | with_reducible exact Nat.le_refl _
    | with_reducible exact List.prefix_rfl
    | with_reducible rfl
    | with_reducible exact Nat.le_add_right _ _
    | intro _
    | with_reducible refine State.upd_later ?_ ?_ ?_ ?_ ?_ ?_
    | with_reducible apply State.openSegment_later
    | with_reducible refine Later.ite ?_ ?_
    | with_reducible refine Later.iteFst ?_ ?_
    | with_reducible refine Later.foldl ?_ ?_
    | with_reducible refine Later.foldlFst ?_ ?_
    | with_reducible refine Later.fst ?_ (by assumption)
    | dsimp only
    | rw [State.mk_eq]
    | split
    | exact List.prefix_append _ _

theorem State.withDelta_later {s0 : State} (s : State) (handle e : Nat) (f : Segment → Segment) (hL : Later s0 s) : Later s0 (State.withDelta s handle e f) := by
  unfold State.withDelta
  repeat'
    first
    | with_reducible assumption
    | with_reducible exact Nat.le_refl _
    | with_reducible exact List.prefix_rfl
    | with_reducible rfl
    | with_reducible exact Nat.le_add_right _ _
    | intro _
    | with_reducible refine State.upd_later ?_ ?_ ?_ ?_ ?_ ?_
    | with_reducible apply State.setList_later
    | with_reducible apply State.resizeSeg_later
    | with_reducible apply State.openSegment_later
    | with_reducible refine Later.ite ?_ ?_
    | with_reducible refine Later.iteFst ?_ ?_
    | with_reducible refine Later.foldl ?_ ?_
    | with_reducible refine Later.foldlFst ?_ ?_
    | with_reducible refine Later.fst ?_ (by assumption)
    | dsimp only
    | rw [State.mk_eq]
    | split
    | exact List.prefix_append _ _

theorem State.foldSwitch_later {s0 : State} (s : State) (f : Fold) (hL : Later s0 s) : Later s0 (State.foldSwitch s f) := by
  unfold State.foldSwitch
  repeat'
    first
    | with_reducible assumption
    | with_reducible exact Nat.le_refl _
    | with_reducible exact List.prefix_rfl
    | with_reducible rfl
    | with_reducible exact Nat.le_add_right _ _
    | intro _
    | with_reducible refine State.upd_later ?_ ?_ ?_ ?_ ?_ ?_
    | with_reducible apply State.setList_later
    | with_reducible apply State.segObjects_later
    | with_reducible apply State.tally_later
    | with_reducible apply State.resizeSeg_later
    | with_reducible refine Later.ite ?_ ?_
    | with_reducible refine Later.iteFst ?_ ?_
    | with_reducible refine Later.foldl ?_ ?_
    | with_reducible refine Later.foldlFst ?_ ?_
    | with_reducible refine Later.fst ?_ (by assumption)
    | dsimp only
    | rw [State.mk_eq]
    | split
    | exact List.prefix_append _ _

theorem State.foldBefore_later {s0 : State} (s : State) (handle e : Nat) (hL : Later s0 s) : Later s0 (State.foldBefore s handle e) := by
  unfold State.foldBefore
  repeat'
    first
    | with_reducible assumption
    | with_reducible exact Nat.le_refl _
    | with_reducible exact List.prefix_rfl
    | with_reducible rfl
    | with_reducible exact Nat.le_add_right _ _
    | intro _
    | with_reducible refine State.upd_later ?_ ?_ ?_ ?_ ?_ ?_
    | with_reducible apply State.foldSwitch_later
    | with_reducible refine Later.ite ?_ ?_
    | with_reducible refine Later.iteFst ?_ ?_
    | with_reducible refine Later.foldl ?_ ?_
    | with_reducible refine Later.foldlFst ?_ ?_
    | with_reducible refine Later.fst ?_ (by assumption)
    | dsimp only
    | rw [State.mk_eq]
    | split
    | exact List.prefix_append _ _

theorem State.appendEntry_later {s0 : State} (s : State) (handle e : Nat) (i : Item) (hL : Later s0 s) : Later s0 (State.appendEntry s handle e i) := by
  unfold State.appendEntry
  repeat'
    first
    | with_reducible assumption
    | with_reducible exact Nat.le_refl _
    | with_reducible exact List.prefix_rfl
    | with_reducible rfl
    | with_reducible exact Nat.le_add_right _ _
    | intro _
    | with_reducible refine State.upd_later ?_ ?_ ?_ ?_ ?_ ?_
    | with_reducible apply State.withDelta_later
    | with_reducible apply State.foldBefore_later
    | with_reducible refine Later.ite ?_ ?_
    | with_reducible refine Later.iteFst ?_ ?_
    | with_reducible refine Later.foldl ?_ ?_
    | with_reducible refine Later.foldlFst ?_ ?_
    | with_reducible refine Later.fst ?_ (by assumption)
    | dsimp only
    | rw [State.mk_eq]
    | split
    | exact List.prefix_append _ _

theorem State.markRecord_later {s0 : State} (s : State) (rec e : Nat) (hL : Later s0 s) : Later s0 (State.markRecord s rec e) := by
  unfold State.markRecord
  repeat'
    first
    | with_reducible assumption
    | with_reducible exact Nat.le_refl _
    | with_reducible exact List.prefix_rfl
    | with_reducible rfl
    | with_reducible exact Nat.le_add_right _ _
    | intro _
    | with_reducible refine State.upd_later ?_ ?_ ?_ ?_ ?_ ?_
    | with_reducible apply State.withDelta_later
    | with_reducible apply State.foldBefore_later
    | with_reducible refine Later.ite ?_ ?_
    | with_reducible refine Later.iteFst ?_ ?_
    | with_reducible refine Later.foldl ?_ ?_
    | with_reducible refine Later.foldlFst ?_ ?_
    | with_reducible refine Later.fst ?_ (by assumption)
    | dsimp only
    | rw [State.mk_eq]
    | split
    | exact List.prefix_append _ _

theorem State.admitReorg_later {s0 : State} (s : State) (g : Reorg) (hL : Later s0 s) : Later s0 (State.admitReorg s g) := by
  unfold State.admitReorg
  repeat'
    first
    | with_reducible assumption
    | with_reducible exact Nat.le_refl _
    | with_reducible exact List.prefix_rfl
    | with_reducible rfl
    | with_reducible exact Nat.le_add_right _ _
    | intro _
    | with_reducible refine State.upd_later ?_ ?_ ?_ ?_ ?_ ?_
    | with_reducible apply State.tally_later
    | with_reducible refine Later.ite ?_ ?_
    | with_reducible refine Later.iteFst ?_ ?_
    | with_reducible refine Later.foldl ?_ ?_
    | with_reducible refine Later.foldlFst ?_ ?_
    | with_reducible refine Later.fst ?_ (by assumption)
    | dsimp only
    | rw [State.mk_eq]
    | split
    | exact List.prefix_append _ _

theorem State.admitReorgs_later {s0 : State} (s : State) (hL : Later s0 s) : Later s0 (State.admitReorgs s) := by
  unfold State.admitReorgs
  repeat'
    first
    | with_reducible assumption
    | with_reducible exact Nat.le_refl _
    | with_reducible exact List.prefix_rfl
    | with_reducible rfl
    | with_reducible exact Nat.le_add_right _ _
    | intro _
    | with_reducible refine State.upd_later ?_ ?_ ?_ ?_ ?_ ?_
    | with_reducible apply State.admitReorg_later
    | with_reducible refine Later.ite ?_ ?_
    | with_reducible refine Later.iteFst ?_ ?_
    | with_reducible refine Later.foldl ?_ ?_
    | with_reducible refine Later.foldlFst ?_ ?_
    | with_reducible refine Later.fst ?_ (by assumption)
    | dsimp only
    | rw [State.mk_eq]
    | split
    | exact List.prefix_append _ _

theorem State.startReorg_later {s0 : State} (s : State) (sources : List Nat) (isMerge : Bool) (hL : Later s0 s) : Later s0 (State.startReorg s sources isMerge) := by
  unfold State.startReorg
  repeat'
    first
    | with_reducible assumption
    | with_reducible exact Nat.le_refl _
    | with_reducible exact List.prefix_rfl
    | with_reducible rfl
    | with_reducible exact Nat.le_add_right _ _
    | intro _
    | with_reducible refine State.upd_later ?_ ?_ ?_ ?_ ?_ ?_
    | with_reducible apply State.admitReorg_later
    | with_reducible refine Later.ite ?_ ?_
    | with_reducible refine Later.iteFst ?_ ?_
    | with_reducible refine Later.foldl ?_ ?_
    | with_reducible refine Later.foldlFst ?_ ?_
    | with_reducible refine Later.fst ?_ (by assumption)
    | dsimp only
    | rw [State.mk_eq]
    | split
    | exact List.prefix_append _ _

theorem State.startFold_later {s0 : State} (s : State) (handle : Nat) (hL : Later s0 s) : Later s0 (State.startFold s handle) := by
  unfold State.startFold
  repeat'
    first
    | with_reducible assumption
    | with_reducible exact Nat.le_refl _
    | with_reducible exact List.prefix_rfl
    | with_reducible rfl
    | with_reducible exact Nat.le_add_right _ _
    | intro _
    | with_reducible refine State.upd_later ?_ ?_ ?_ ?_ ?_ ?_
    | with_reducible apply State.openSegment_later
    | with_reducible apply State.startReorg_later
    | with_reducible refine Later.ite ?_ ?_
    | with_reducible refine Later.iteFst ?_ ?_
    | with_reducible refine Later.foldl ?_ ?_
    | with_reducible refine Later.foldlFst ?_ ?_
    | with_reducible refine Later.fst ?_ (by assumption)
    | dsimp only
    | rw [State.mk_eq]
    | split
    | exact List.prefix_append _ _

theorem State.checkFold_later {s0 : State} (s : State) (handle : Nat) (hL : Later s0 s) : Later s0 (State.checkFold s handle) := by
  unfold State.checkFold
  repeat'
    first
    | with_reducible assumption
    | with_reducible exact Nat.le_refl _
    | with_reducible exact List.prefix_rfl
    | with_reducible rfl
    | with_reducible exact Nat.le_add_right _ _
    | intro _
    | with_reducible refine State.upd_later ?_ ?_ ?_ ?_ ?_ ?_
    | with_reducible apply State.startFold_later
    | with_reducible refine Later.ite ?_ ?_
    | with_reducible refine Later.iteFst ?_ ?_
    | with_reducible refine Later.foldl ?_ ?_
    | with_reducible refine Later.foldlFst ?_ ?_
    | with_reducible refine Later.fst ?_ (by assumption)
    | dsimp only
    | rw [State.mk_eq]
    | split
    | exact List.prefix_append _ _

theorem State.checkFolds_later {s0 : State} (s : State) (hL : Later s0 s) : Later s0 (State.checkFolds s) := by
  unfold State.checkFolds
  repeat'
    first
    | with_reducible assumption
    | with_reducible exact Nat.le_refl _
    | with_reducible exact List.prefix_rfl
    | with_reducible rfl
    | with_reducible exact Nat.le_add_right _ _
    | intro _
    | with_reducible refine State.upd_later ?_ ?_ ?_ ?_ ?_ ?_
    | with_reducible apply State.checkFold_later
    | with_reducible refine Later.ite ?_ ?_
    | with_reducible refine Later.iteFst ?_ ?_
    | with_reducible refine Later.foldl ?_ ?_
    | with_reducible refine Later.foldlFst ?_ ?_
    | with_reducible refine Later.fst ?_ (by assumption)
    | dsimp only
    | rw [State.mk_eq]
    | split
    | exact List.prefix_append _ _

theorem State.programPage_later {s0 : State} (s : State) (hL : Later s0 s) : Later s0 (State.programPage s) := by
  unfold State.programPage
  repeat'
    first
    | with_reducible assumption
    | with_reducible exact Nat.le_refl _
    | with_reducible exact List.prefix_rfl
    | with_reducible rfl
    | with_reducible exact Nat.le_add_right _ _
    | intro _
    | with_reducible refine State.upd_later ?_ ?_ ?_ ?_ ?_ ?_
    | with_reducible apply State.storeLog_later
    | with_reducible apply State.count_later
    | with_reducible refine Later.ite ?_ ?_
    | with_reducible refine Later.iteFst ?_ ?_
    | with_reducible refine Later.foldl ?_ ?_
    | with_reducible refine Later.foldlFst ?_ ?_
    | with_reducible refine Later.fst ?_ (by assumption)
    | dsimp only
    | rw [State.mk_eq]
    | split
    | exact List.prefix_append _ _

theorem State.programFull_later {s0 : State} (s : State) (hL : Later s0 s) : Later s0 (State.programFull s) := by
  unfold State.programFull
  repeat'
    first
    | with_reducible assumption
    | with_reducible exact Nat.le_refl _
    | with_reducible exact List.prefix_rfl
    | with_reducible rfl
    | with_reducible exact Nat.le_add_right _ _
    | intro _
    | with_reducible refine State.upd_later ?_ ?_ ?_ ?_ ?_ ?_
    | with_reducible apply State.programPage_later
    | with_reducible refine Later.ite ?_ ?_
    | with_reducible refine Later.iteFst ?_ ?_
    | with_reducible refine Later.foldl ?_ ?_
    | with_reducible refine Later.foldlFst ?_ ?_
    | with_reducible refine Later.fst ?_ (by assumption)
    | dsimp only
    | rw [State.mk_eq]
    | split
    | exact List.prefix_append _ _

theorem State.programLog_later {s0 : State} (s : State) (hL : Later s0 s) : Later s0 (State.programLog s) := by
  unfold State.programLog
  repeat'
    first
    | with_reducible assumption
    | with_reducible exact Nat.le_refl _
    | with_reducible exact List.prefix_rfl
    | with_reducible rfl
    | with_reducible exact Nat.le_add_right _ _
    | intro _
    | with_reducible refine State.upd_later ?_ ?_ ?_ ?_ ?_ ?_
    | with_reducible apply State.programPage_later
    | with_reducible refine Later.ite ?_ ?_
    | with_reducible refine Later.iteFst ?_ ?_
    | with_reducible refine Later.foldl ?_ ?_
    | with_reducible refine Later.foldlFst ?_ ?_
    | with_reducible refine Later.fst ?_ (by assumption)
    | dsimp only
    | rw [State.mk_eq]
    | split
    | exact List.prefix_append _ _

theorem State.applyRecord_later {s0 : State} (s : State) (w : Write) (hL : Later s0 s) : Later s0 (State.applyRecord s w) := by
  unfold State.applyRecord
  repeat'
    first
    | with_reducible assumption
    | with_reducible exact Nat.le_refl _
    | with_reducible exact List.prefix_rfl
    | with_reducible rfl
    | with_reducible exact Nat.le_add_right _ _
    | intro _
    | with_reducible refine State.upd_later ?_ ?_ ?_ ?_ ?_ ?_
    | with_reducible apply State.checkFold_later
    | with_reducible apply State.markRecord_later
    | with_reducible apply State.appendEntry_later
    | with_reducible refine Later.ite ?_ ?_
    | with_reducible refine Later.iteFst ?_ ?_
    | with_reducible refine Later.foldl ?_ ?_
    | with_reducible refine Later.foldlFst ?_ ?_
    | with_reducible refine Later.fst ?_ (by assumption)
    | dsimp only
    | rw [State.mk_eq]
    | split
    | exact List.prefix_append _ _

theorem State.keepFragment_later {s0 : State} (s : State) (f : Fragment) (hL : Later s0 s) : Later s0 (State.keepFragment s f) := by
  unfold State.keepFragment
  repeat'
    first
    | with_reducible assumption
    | with_reducible exact Nat.le_refl _
    | with_reducible exact List.prefix_rfl
    | with_reducible rfl
    | with_reducible exact Nat.le_add_right _ _
    | intro _
    | with_reducible refine State.upd_later ?_ ?_ ?_ ?_ ?_ ?_
    | with_reducible refine Later.ite ?_ ?_
    | with_reducible refine Later.iteFst ?_ ?_
    | with_reducible refine Later.foldl ?_ ?_
    | with_reducible refine Later.foldlFst ?_ ?_
    | with_reducible refine Later.fst ?_ (by assumption)
    | dsimp only
    | rw [State.mk_eq]
    | split
    | exact List.prefix_append _ _

theorem State.closeStripe_later {s0 : State} (s : State) (shard : Nat) (hL : Later s0 s) : Later s0 (State.closeStripe s shard) := by
  unfold State.closeStripe
  repeat'
    first
    | with_reducible assumption
    | with_reducible exact Nat.le_refl _
    | with_reducible exact List.prefix_rfl
    | with_reducible rfl
    | with_reducible exact Nat.le_add_right _ _
    | intro _
    | with_reducible refine State.upd_later ?_ ?_ ?_ ?_ ?_ ?_
    | with_reducible apply State.keepFragment_later
    | with_reducible apply State.count_later
    | with_reducible apply State.sendTransfer_later
    | with_reducible refine Later.ite ?_ ?_
    | with_reducible refine Later.iteFst ?_ ?_
    | with_reducible refine Later.foldl ?_ ?_
    | with_reducible refine Later.foldlFst ?_ ?_
    | with_reducible refine Later.fst ?_ (by assumption)
    | dsimp only
    | rw [State.mk_eq]
    | split
    | exact List.prefix_append _ _

theorem feedFuel_later (f : Nat) : ∀ {s0 : State} (s : State) (shard epoch : Nat) (b : List Byte), Later s0 s → Later s0 (feedFuel f s shard epoch b) := by
  induction f with
  | zero => intro s0 s _ _ _ h; exact h
  | succ f ih =>
    intro s0 s shard epoch b h
    unfold feedFuel
    split
    · exact h
    · apply ih
      have h1 : ∀ c, Later s0 { s with exchange := { s.exchange with streams := s.exchange.streams.set shard c } } :=
        fun c => ⟨h.queue, h.clock, h.epoch, h.draws, h.sent, h.silicon, ⟨h.kept.staged, h.kept.starts, h.kept.leaves, h.kept.trees, h.kept.records, h.kept.counted, h.kept.mail, h.kept.ring⟩⟩
      dsimp only
      split
      · exact State.closeStripe_later _ _ (h1 _)
      · exact h1 _

theorem State.feedStream_later {s0 : State} (s : State) (shard epoch : Nat) (bytes : List Byte) (hL : Later s0 s) : Later s0 (State.feedStream s shard epoch bytes) := by
  unfold State.feedStream
  repeat'
    first
    | with_reducible assumption
    | with_reducible exact Nat.le_refl _
    | with_reducible exact List.prefix_rfl
    | with_reducible rfl
    | with_reducible exact Nat.le_add_right _ _
    | intro _
    | with_reducible refine State.upd_later ?_ ?_ ?_ ?_ ?_ ?_
    | with_reducible apply feedFuel_later
    | with_reducible refine Later.ite ?_ ?_
    | with_reducible refine Later.iteFst ?_ ?_
    | with_reducible refine Later.foldl ?_ ?_
    | with_reducible refine Later.foldlFst ?_ ?_
    | with_reducible refine Later.fst ?_ (by assumption)
    | dsimp only
    | rw [State.mk_eq]
    | split
    | exact List.prefix_append _ _

theorem State.needShard_later {s0 : State} (s : State) (f : Nat) (hL : Later s0 s) : Later s0 (State.needShard s f) := by
  unfold State.needShard
  repeat'
    first
    | with_reducible assumption
    | with_reducible exact Nat.le_refl _
    | with_reducible exact List.prefix_rfl
    | with_reducible rfl
    | with_reducible exact Nat.le_add_right _ _
    | intro _
    | with_reducible refine State.upd_later ?_ ?_ ?_ ?_ ?_ ?_
    | with_reducible apply State.newObj_later
    | with_reducible refine Later.ite ?_ ?_
    | with_reducible refine Later.iteFst ?_ ?_
    | with_reducible refine Later.foldl ?_ ?_
    | with_reducible refine Later.foldlFst ?_ ?_
    | with_reducible refine Later.fst ?_ (by assumption)
    | dsimp only
    | rw [State.mk_eq]
    | split
    | exact List.prefix_append _ _

theorem State.syncFeatures_later {s0 : State} (s : State) (hL : Later s0 s) : Later s0 (State.syncFeatures s) := by
  unfold State.syncFeatures
  repeat'
    first
    | with_reducible assumption
    | with_reducible exact Nat.le_refl _
    | with_reducible exact List.prefix_rfl
    | with_reducible rfl
    | with_reducible exact Nat.le_add_right _ _
    | intro _
    | with_reducible refine State.upd_later ?_ ?_ ?_ ?_ ?_ ?_
    | with_reducible apply State.freeObj_later
    | with_reducible apply State.count_later
    | with_reducible apply State.needShard_later
    | with_reducible refine Later.ite ?_ ?_
    | with_reducible refine Later.iteFst ?_ ?_
    | with_reducible refine Later.foldl ?_ ?_
    | with_reducible refine Later.foldlFst ?_ ?_
    | with_reducible refine Later.fst ?_ (by assumption)
    | dsimp only
    | rw [State.mk_eq]
    | split
    | exact List.prefix_append _ _

theorem State.syncReplicas_later {s0 : State} (s : State) (hL : Later s0 s) : Later s0 (State.syncReplicas s) := by
  unfold State.syncReplicas
  repeat'
    first
    | with_reducible assumption
    | with_reducible exact Nat.le_refl _
    | with_reducible exact List.prefix_rfl
    | with_reducible rfl
    | with_reducible exact Nat.le_add_right _ _
    | intro _
    | with_reducible refine State.upd_later ?_ ?_ ?_ ?_ ?_ ?_
    | with_reducible apply State.freeObj_later
    | with_reducible apply State.newObj_later
    | with_reducible refine Later.ite ?_ ?_
    | with_reducible refine Later.iteFst ?_ ?_
    | with_reducible refine Later.foldl ?_ ?_
    | with_reducible refine Later.foldlFst ?_ ?_
    | with_reducible refine Later.fst ?_ (by assumption)
    | dsimp only
    | rw [State.mk_eq]
    | split
    | exact List.prefix_append _ _

theorem State.dirtyRow_later {s0 : State} (s : State) (t : FeatTable) (x : RowWrite) (hL : Later s0 s) : Later s0 (State.dirtyRow s t x) := by
  unfold State.dirtyRow
  repeat'
    first
    | with_reducible assumption
    | with_reducible exact Nat.le_refl _
    | with_reducible exact List.prefix_rfl
    | with_reducible rfl
    | with_reducible exact Nat.le_add_right _ _
    | intro _
    | with_reducible refine State.upd_later ?_ ?_ ?_ ?_ ?_ ?_
    | with_reducible apply State.dirtyChunks_later
    | with_reducible refine Later.ite ?_ ?_
    | with_reducible refine Later.iteFst ?_ ?_
    | with_reducible refine Later.foldl ?_ ?_
    | with_reducible refine Later.foldlFst ?_ ?_
    | with_reducible refine Later.fst ?_ (by assumption)
    | dsimp only
    | rw [State.mk_eq]
    | split
    | exact List.prefix_append _ _

theorem State.applyRow_later {s0 : State} (s : State) (w : Write) (x : RowWrite) (hL : Later s0 s) : Later s0 (State.applyRow s w x) := by
  unfold State.applyRow
  repeat'
    first
    | with_reducible assumption
    | with_reducible exact Nat.le_refl _
    | with_reducible exact List.prefix_rfl
    | with_reducible rfl
    | with_reducible exact Nat.le_add_right _ _
    | intro _
    | with_reducible refine State.upd_later ?_ ?_ ?_ ?_ ?_ ?_
    | with_reducible apply State.dirtyRow_later
    | with_reducible refine Later.ite ?_ ?_
    | with_reducible refine Later.iteFst ?_ ?_
    | with_reducible refine Later.foldl ?_ ?_
    | with_reducible refine Later.foldlFst ?_ ?_
    | with_reducible refine Later.fst ?_ (by assumption)
    | dsimp only
    | rw [State.mk_eq]
    | split
    | exact List.prefix_append _ _

theorem State.orderRow_later {s0 : State} (s : State) (w : Write) (x : RowWrite) (hL : Later s0 s) : Later s0 (State.orderRow s w x) := by
  unfold State.orderRow
  repeat'
    first
    | with_reducible assumption
    | with_reducible exact Nat.le_refl _
    | with_reducible exact List.prefix_rfl
    | with_reducible rfl
    | with_reducible exact Nat.le_add_right _ _
    | intro _
    | with_reducible refine State.upd_later ?_ ?_ ?_ ?_ ?_ ?_
    | with_reducible apply State.sendInvalidate_later
    | with_reducible apply State.answerWrite_later
    | with_reducible apply State.queueWrite_later
    | with_reducible refine Later.ite ?_ ?_
    | with_reducible refine Later.iteFst ?_ ?_
    | with_reducible refine Later.foldl ?_ ?_
    | with_reducible refine Later.foldlFst ?_ ?_
    | with_reducible refine Later.fst ?_ (by assumption)
    | dsimp only
    | rw [State.mk_eq]
    | split
    | exact List.prefix_append _ _

theorem State.sendRecord_later {s0 : State} (s : State) (w : Write) (hL : Later s0 s) : Later s0 (State.sendRecord s w) := by
  unfold State.sendRecord
  repeat'
    first
    | with_reducible assumption
    | with_reducible exact Nat.le_refl _
    | with_reducible exact List.prefix_rfl
    | with_reducible rfl
    | with_reducible exact Nat.le_add_right _ _
    | intro _
    | with_reducible refine State.upd_later ?_ ?_ ?_ ?_ ?_ ?_
    | with_reducible apply State.answerWrite_later
    | with_reducible apply State.addItem_later
    | with_reducible apply State.arriveWrite_later
    | with_reducible refine Later.ite ?_ ?_
    | with_reducible refine Later.iteFst ?_ ?_
    | with_reducible refine Later.foldl ?_ ?_
    | with_reducible refine Later.foldlFst ?_ ?_
    | with_reducible refine Later.fst ?_ (by assumption)
    | dsimp only
    | rw [State.mk_eq]
    | split
    | exact List.prefix_append _ _

theorem State.sendBatch_later {s0 : State} (s : State) (b tenant : Nat) (rs : List (IngestRec × Bool)) (hL : Later s0 s) : Later s0 (State.sendBatch s b tenant rs) := by
  unfold State.sendBatch
  repeat'
    first
    | with_reducible assumption
    | with_reducible exact Nat.le_refl _
    | with_reducible exact List.prefix_rfl
    | with_reducible rfl
    | with_reducible exact Nat.le_add_right _ _
    | intro _
    | with_reducible refine State.upd_later ?_ ?_ ?_ ?_ ?_ ?_
    | with_reducible apply State.answerWrite_later
    | with_reducible apply State.sendRecord_later
    | with_reducible refine Later.ite ?_ ?_
    | with_reducible refine Later.iteFst ?_ ?_
    | with_reducible refine Later.foldl ?_ ?_
    | with_reducible refine Later.foldlFst ?_ ?_
    | with_reducible refine Later.fst ?_ (by assumption)
    | dsimp only
    | rw [State.mk_eq]
    | split
    | exact List.prefix_append _ _

theorem State.newBatch_later {s0 : State} (s : State) (x : IngestBatch) (rs : List (IngestRec × Bool)) (hL : Later s0 s) : Later s0 (State.newBatch s x rs) := by
  unfold State.newBatch
  repeat'
    first
    | with_reducible assumption
    | with_reducible exact Nat.le_refl _
    | with_reducible exact List.prefix_rfl
    | with_reducible rfl
    | with_reducible exact Nat.le_add_right _ _
    | intro _
    | with_reducible refine State.upd_later ?_ ?_ ?_ ?_ ?_ ?_
    | with_reducible apply State.sendBatch_later
    | with_reducible refine Later.ite ?_ ?_
    | with_reducible refine Later.iteFst ?_ ?_
    | with_reducible refine Later.foldl ?_ ?_
    | with_reducible refine Later.foldlFst ?_ ?_
    | with_reducible refine Later.fst ?_ (by assumption)
    | dsimp only
    | rw [State.mk_eq]
    | split
    | exact List.prefix_append _ _

theorem State.refuseBatch_later {s0 : State} (s : State) (fn pair sqIndex tag status : Nat) (hL : Later s0 s) : Later s0 (State.refuseBatch s fn pair sqIndex tag status) := by
  unfold State.refuseBatch
  repeat'
    first
    | with_reducible assumption
    | with_reducible exact Nat.le_refl _
    | with_reducible exact List.prefix_rfl
    | with_reducible rfl
    | with_reducible exact Nat.le_add_right _ _
    | intro _
    | with_reducible refine State.upd_later ?_ ?_ ?_ ?_ ?_ ?_
    | with_reducible apply State.complete_later
    | with_reducible refine Later.ite ?_ ?_
    | with_reducible refine Later.iteFst ?_ ?_
    | with_reducible refine Later.foldl ?_ ?_
    | with_reducible refine Later.foldlFst ?_ ?_
    | with_reducible refine Later.fst ?_ (by assumption)
    | dsimp only
    | rw [State.mk_eq]
    | split
    | exact List.prefix_append _ _

theorem execIngestEntryArrive_later (fn pair sqIndex : Nat) (entry records : List Byte) (readOk : Bool) (s : State) {t' : State} (hE : execIngestEntryArrive fn pair sqIndex entry records readOk s = .next t') : Later s t' := by
  unfold execIngestEntryArrive at hE
  injection hE with hE
  subst hE
  have hL := Later.refl s
  repeat'
    first
    | with_reducible assumption
    | with_reducible exact Nat.le_refl _
    | with_reducible exact List.prefix_rfl
    | with_reducible rfl
    | with_reducible exact Nat.le_add_right _ _
    | intro _
    | with_reducible refine State.upd_later ?_ ?_ ?_ ?_ ?_ ?_
    | with_reducible apply State.newBatch_later
    | with_reducible apply State.refuseBatch_later
    | with_reducible apply State.count_later
    | with_reducible apply State.entryFault_later
    | with_reducible apply State.dmaRead_later
    | with_reducible refine Later.ite ?_ ?_
    | with_reducible refine Later.iteFst ?_ ?_
    | with_reducible refine Later.foldl ?_ ?_
    | with_reducible refine Later.foldlFst ?_ ?_
    | with_reducible refine Later.fst ?_ (by assumption)
    | dsimp only
    | rw [State.mk_eq]
    | split
    | exact List.prefix_append _ _

theorem State.takeIngest_later {s0 : State} (s : State) (fn : Nat) (hL : Later s0 s) : Later s0 (State.takeIngest s fn) := by
  unfold State.takeIngest
  repeat'
    first
    | with_reducible assumption
    | with_reducible exact Nat.le_refl _
    | with_reducible exact List.prefix_rfl
    | with_reducible rfl
    | with_reducible exact Nat.le_add_right _ _
    | intro _
    | with_reducible refine State.upd_later ?_ ?_ ?_ ?_ ?_ ?_
    | with_reducible apply State.updFn_later
    | with_reducible apply State.took_later
    | with_reducible refine Later.ite ?_ ?_
    | with_reducible refine Later.iteFst ?_ ?_
    | with_reducible refine Later.foldl ?_ ?_
    | with_reducible refine Later.foldlFst ?_ ?_
    | with_reducible refine Later.fst ?_ (by assumption)
    | dsimp only
    | rw [State.mk_eq]
    | split
    | exact List.prefix_append _ _

theorem execBasicIngestDescriptor_later (fn : Nat) (desc records : List Byte) (reads : HostReads) (s : State) {t' : State} (hE : execBasicIngestDescriptor fn desc records reads s = .next t') : Later s t' := by
  unfold execBasicIngestDescriptor at hE
  injection hE with hE
  subst hE
  have hL := Later.refl s
  repeat'
    first
    | with_reducible assumption
    | with_reducible exact Nat.le_refl _
    | with_reducible exact List.prefix_rfl
    | with_reducible rfl
    | with_reducible exact Nat.le_add_right _ _
    | intro _
    | with_reducible refine State.upd_later ?_ ?_ ?_ ?_ ?_ ?_
    | with_reducible apply State.endBatch_later
    | with_reducible apply State.newBatch_later
    | with_reducible apply State.ringFault_later
    | with_reducible apply State.takeIngest_later
    | with_reducible apply State.count_later
    | with_reducible apply State.dmaRead_later
    | with_reducible refine Later.ite ?_ ?_
    | with_reducible refine Later.iteFst ?_ ?_
    | with_reducible refine Later.foldl ?_ ?_
    | with_reducible refine Later.foldlFst ?_ ?_
    | with_reducible refine Later.fst ?_ (by assumption)
    | dsimp only
    | rw [State.mk_eq]
    | split
    | exact List.prefix_append _ _

theorem State.orderWrite_later {s0 : State} (s : State) (w : Write) (hL : Later s0 s) : Later s0 (State.orderWrite s w) := by
  unfold State.orderWrite
  repeat'
    first
    | with_reducible assumption
    | with_reducible exact Nat.le_refl _
    | with_reducible exact List.prefix_rfl
    | with_reducible rfl
    | with_reducible exact Nat.le_add_right _ _
    | intro _
    | with_reducible refine State.upd_later ?_ ?_ ?_ ?_ ?_ ?_
    | with_reducible apply State.orderRow_later
    | with_reducible apply State.orderRecord_later
    | with_reducible apply State.programFull_later
    | with_reducible refine Later.ite ?_ ?_
    | with_reducible refine Later.iteFst ?_ ?_
    | with_reducible refine Later.foldl ?_ ?_
    | with_reducible refine Later.foldlFst ?_ ?_
    | with_reducible refine Later.fst ?_ (by assumption)
    | dsimp only
    | rw [State.mk_eq]
    | split
    | exact List.prefix_append _ _

theorem execRecordOrder_later (s : State) {t' : State} (hE : execRecordOrder s = .next t') : Later s t' := by
  unfold execRecordOrder at hE
  injection hE with hE
  subst hE
  have hL := Later.refl s
  repeat'
    first
    | with_reducible assumption
    | with_reducible exact Nat.le_refl _
    | with_reducible exact List.prefix_rfl
    | with_reducible rfl
    | with_reducible exact Nat.le_add_right _ _
    | intro _
    | with_reducible refine State.upd_later ?_ ?_ ?_ ?_ ?_ ?_
    | with_reducible apply State.orderWrite_later
    | with_reducible apply State.count_later
    | with_reducible refine Later.ite ?_ ?_
    | with_reducible refine Later.iteFst ?_ ?_
    | with_reducible refine Later.foldl ?_ ?_
    | with_reducible refine Later.foldlFst ?_ ?_
    | with_reducible refine Later.fst ?_ (by assumption)
    | dsimp only
    | rw [State.mk_eq]
    | split
    | exact List.prefix_append _ _

theorem State.timeoutWrites_later {s0 : State} (s : State) (hL : Later s0 s) : Later s0 (State.timeoutWrites s) := by
  unfold State.timeoutWrites
  repeat'
    first
    | with_reducible assumption
    | with_reducible exact Nat.le_refl _
    | with_reducible exact List.prefix_rfl
    | with_reducible rfl
    | with_reducible exact Nat.le_add_right _ _
    | intro _
    | with_reducible refine State.upd_later ?_ ?_ ?_ ?_ ?_ ?_
    | with_reducible apply State.answerWrite_later
    | with_reducible refine Later.ite ?_ ?_
    | with_reducible refine Later.iteFst ?_ ?_
    | with_reducible refine Later.foldl ?_ ?_
    | with_reducible refine Later.foldlFst ?_ ?_
    | with_reducible refine Later.fst ?_ (by assumption)
    | dsimp only
    | rw [State.mk_eq]
    | split
    | exact List.prefix_append _ _

theorem State.timeoutHeld_later {s0 : State} (s : State) (hL : Later s0 s) : Later s0 (State.timeoutHeld s) := by
  unfold State.timeoutHeld
  repeat'
    first
    | with_reducible assumption
    | with_reducible exact Nat.le_refl _
    | with_reducible exact List.prefix_rfl
    | with_reducible rfl
    | with_reducible exact Nat.le_add_right _ _
    | intro _
    | with_reducible refine State.upd_later ?_ ?_ ?_ ?_ ?_ ?_
    | with_reducible apply State.answerWrite_later
    | with_reducible refine Later.ite ?_ ?_
    | with_reducible refine Later.iteFst ?_ ?_
    | with_reducible refine Later.foldl ?_ ?_
    | with_reducible refine Later.foldlFst ?_ ?_
    | with_reducible refine Later.fst ?_ (by assumption)
    | dsimp only
    | rw [State.mk_eq]
    | split
    | exact List.prefix_append _ _

theorem execCommitTimeout_later (t : Nat) (s : State) {t' : State} (hE : execCommitTimeout t s = .next t') : Later s t' := by
  unfold execCommitTimeout at hE
  injection hE with hE
  subst hE
  have hL := Later.refl s
  repeat'
    first
    | with_reducible assumption
    | with_reducible exact Nat.le_refl _
    | with_reducible exact List.prefix_rfl
    | with_reducible rfl
    | with_reducible exact Nat.le_add_right _ _
    | intro _
    | with_reducible refine State.upd_later ?_ ?_ ?_ ?_ ?_ ?_
    | with_reducible apply State.timeoutHeld_later
    | with_reducible apply State.advance_later
    | with_reducible apply State.timeoutWrites_later
    | with_reducible refine Later.ite ?_ ?_
    | with_reducible refine Later.iteFst ?_ ?_
    | with_reducible refine Later.foldl ?_ ?_
    | with_reducible refine Later.foldlFst ?_ ?_
    | with_reducible refine Later.fst ?_ (by assumption)
    | dsimp only
    | rw [State.mk_eq]
    | split
    | exact List.prefix_append _ _

theorem execLogFlush_later (t : Nat) (s : State) {t' : State} (hE : execLogFlush t s = .next t') : Later s t' := by
  unfold execLogFlush at hE
  injection hE with hE
  subst hE
  have hL := Later.refl s
  repeat'
    first
    | with_reducible assumption
    | with_reducible exact Nat.le_refl _
    | with_reducible exact List.prefix_rfl
    | with_reducible rfl
    | with_reducible exact Nat.le_add_right _ _
    | intro _
    | with_reducible refine State.upd_later ?_ ?_ ?_ ?_ ?_ ?_
    | with_reducible apply State.advance_later
    | with_reducible apply State.programLog_later
    | with_reducible refine Later.ite ?_ ?_
    | with_reducible refine Later.iteFst ?_ ?_
    | with_reducible refine Later.foldl ?_ ?_
    | with_reducible refine Later.foldlFst ?_ ?_
    | with_reducible refine Later.fst ?_ (by assumption)
    | dsimp only
    | rw [State.mk_eq]
    | split
    | exact List.prefix_append _ _

theorem State.takeDurable_later {s0 : State} (s : State) (w : Write) (hL : Later s0 s) : Later s0 (State.takeDurable s w) := by
  unfold State.takeDurable
  repeat'
    first
    | with_reducible assumption
    | with_reducible exact Nat.le_refl _
    | with_reducible exact List.prefix_rfl
    | with_reducible rfl
    | with_reducible exact Nat.le_add_right _ _
    | intro _
    | with_reducible refine State.upd_later ?_ ?_ ?_ ?_ ?_ ?_
    | with_reducible apply State.feedStream_later
    | with_reducible apply State.noteSettled_later
    | with_reducible apply State.addItem_later
    | with_reducible apply State.applyRow_later
    | with_reducible apply State.applyRecord_later
    | with_reducible refine Later.ite ?_ ?_
    | with_reducible refine Later.iteFst ?_ ?_
    | with_reducible refine Later.foldl ?_ ?_
    | with_reducible refine Later.foldlFst ?_ ?_
    | with_reducible refine Later.fst ?_ (by assumption)
    | dsimp only
    | rw [State.mk_eq]
    | split
    | exact List.prefix_append _ _

theorem State.durableWrite_later {s0 : State} (s : State) (w : Write) (hL : Later s0 s) : Later s0 (State.durableWrite s w) := by
  unfold State.durableWrite
  repeat'
    first
    | with_reducible assumption
    | with_reducible exact Nat.le_refl _
    | with_reducible exact List.prefix_rfl
    | with_reducible rfl
    | with_reducible exact Nat.le_add_right _ _
    | intro _
    | with_reducible refine State.upd_later ?_ ?_ ?_ ?_ ?_ ?_
    | with_reducible apply State.answerWrite_later
    | with_reducible apply State.takeDurable_later
    | with_reducible refine Later.ite ?_ ?_
    | with_reducible refine Later.iteFst ?_ ?_
    | with_reducible refine Later.foldl ?_ ?_
    | with_reducible refine Later.foldlFst ?_ ?_
    | with_reducible refine Later.fst ?_ (by assumption)
    | dsimp only
    | rw [State.mk_eq]
    | split
    | exact List.prefix_append _ _

theorem State.switchFolds_later {s0 : State} (s : State) (hL : Later s0 s) : Later s0 (State.switchFolds s) := by
  unfold State.switchFolds
  repeat'
    first
    | with_reducible assumption
    | with_reducible exact Nat.le_refl _
    | with_reducible exact List.prefix_rfl
    | with_reducible rfl
    | with_reducible exact Nat.le_add_right _ _
    | intro _
    | with_reducible refine State.upd_later ?_ ?_ ?_ ?_ ?_ ?_
    | with_reducible apply State.foldSwitch_later
    | with_reducible apply State.checkFolds_later
    | with_reducible refine Later.ite ?_ ?_
    | with_reducible refine Later.iteFst ?_ ?_
    | with_reducible refine Later.foldl ?_ ?_
    | with_reducible refine Later.foldlFst ?_ ?_
    | with_reducible refine Later.fst ?_ (by assumption)
    | dsimp only
    | rw [State.mk_eq]
    | split
    | exact List.prefix_append _ _

theorem execLogPageDurable_later (page : Nat) (s : State) {t' : State} (hE : execLogPageDurable page s = .next t') : Later s t' := by
  unfold execLogPageDurable at hE
  injection hE with hE
  subst hE
  have hL := Later.refl s
  repeat'
    first
    | with_reducible assumption
    | with_reducible exact Nat.le_refl _
    | with_reducible exact List.prefix_rfl
    | with_reducible rfl
    | with_reducible exact Nat.le_add_right _ _
    | intro _
    | with_reducible refine State.upd_later ?_ ?_ ?_ ?_ ?_ ?_
    | with_reducible apply State.durableWrite_later
    | with_reducible apply State.switchFolds_later
    | with_reducible refine Later.ite ?_ ?_
    | with_reducible refine Later.iteFst ?_ ?_
    | with_reducible refine Later.foldl ?_ ?_
    | with_reducible refine Later.foldlFst ?_ ?_
    | with_reducible refine Later.fst ?_ (by assumption)
    | dsimp only
    | rw [State.mk_eq]
    | split
    | exact List.prefix_append _ _

theorem State.applyChange_later {s0 : State} (s : State) (f : Nat) (c : CatalogChange) (hL : Later s0 s) : Later s0 (State.applyChange s f c) := by
  unfold State.applyChange
  repeat'
    first
    | with_reducible assumption
    | with_reducible exact Nat.le_refl _
    | with_reducible exact List.prefix_rfl
    | with_reducible rfl
    | with_reducible exact Nat.le_add_right _ _
    | intro _
    | with_reducible refine State.upd_later ?_ ?_ ?_ ?_ ?_ ?_
    | with_reducible refine Later.ite ?_ ?_
    | with_reducible refine Later.iteFst ?_ ?_
    | with_reducible refine Later.foldl ?_ ?_
    | with_reducible refine Later.foldlFst ?_ ?_
    | with_reducible refine Later.fst ?_ (by assumption)
    | dsimp only
    | rw [State.mk_eq]
    | split
    | exact List.prefix_append _ _

theorem State.openCatalog_later {s0 : State} (s : State) (hL : Later s0 s) : Later s0 (State.openCatalog s) := by
  unfold State.openCatalog
  repeat'
    first
    | with_reducible assumption
    | with_reducible exact Nat.le_refl _
    | with_reducible exact List.prefix_rfl
    | with_reducible rfl
    | with_reducible exact Nat.le_add_right _ _
    | intro _
    | with_reducible refine State.upd_later ?_ ?_ ?_ ?_ ?_ ?_
    | with_reducible apply State.adminDone_later
    | with_reducible apply State.applyChange_later
    | with_reducible refine Later.ite ?_ ?_
    | with_reducible refine Later.iteFst ?_ ?_
    | with_reducible refine Later.foldl ?_ ?_
    | with_reducible refine Later.foldlFst ?_ ?_
    | with_reducible refine Later.fst ?_ (by assumption)
    | dsimp only
    | rw [State.mk_eq]
    | split
    | exact List.prefix_append _ _

theorem State.freeTables_later {s0 : State} (s : State) (hL : Later s0 s) : Later s0 (State.freeTables s) := by
  unfold State.freeTables
  repeat'
    first
    | with_reducible assumption
    | with_reducible exact Nat.le_refl _
    | with_reducible exact List.prefix_rfl
    | with_reducible rfl
    | with_reducible exact Nat.le_add_right _ _
    | intro _
    | with_reducible refine State.upd_later ?_ ?_ ?_ ?_ ?_ ?_
    | with_reducible apply State.syncFeatures_later
    | with_reducible apply State.syncReplicas_later
    | with_reducible refine Later.ite ?_ ?_
    | with_reducible refine Later.iteFst ?_ ?_
    | with_reducible refine Later.foldl ?_ ?_
    | with_reducible refine Later.foldlFst ?_ ?_
    | with_reducible refine Later.fst ?_ (by assumption)
    | dsimp only
    | rw [State.mk_eq]
    | split
    | exact List.prefix_append _ _

theorem State.setEntry_later {s0 : State} (s : State) (list : Nat) (e : DirEntry) (hL : Later s0 s) : Later s0 (State.setEntry s list e) := by
  unfold State.setEntry
  repeat'
    first
    | with_reducible assumption
    | with_reducible exact Nat.le_refl _
    | with_reducible exact List.prefix_rfl
    | with_reducible rfl
    | with_reducible exact Nat.le_add_right _ _
    | intro _
    | with_reducible refine State.upd_later ?_ ?_ ?_ ?_ ?_ ?_
    | with_reducible refine Later.ite ?_ ?_
    | with_reducible refine Later.iteFst ?_ ?_
    | with_reducible refine Later.foldl ?_ ?_
    | with_reducible refine Later.foldlFst ?_ ?_
    | with_reducible refine Later.fst ?_ (by assumption)
    | dsimp only
    | rw [State.mk_eq]
    | split
    | exact List.prefix_append _ _

theorem State.linkEntry_later {s0 : State} (s : State) (list : Nat) (hL : Later s0 s) : Later s0 (State.linkEntry s list) := by
  unfold State.linkEntry
  repeat'
    first
    | with_reducible assumption
    | with_reducible exact Nat.le_refl _
    | with_reducible exact List.prefix_rfl
    | with_reducible rfl
    | with_reducible exact Nat.le_add_right _ _
    | intro _
    | with_reducible refine State.upd_later ?_ ?_ ?_ ?_ ?_ ?_
    | with_reducible apply State.setEntry_later
    | with_reducible refine Later.ite ?_ ?_
    | with_reducible refine Later.iteFst ?_ ?_
    | with_reducible refine Later.foldl ?_ ?_
    | with_reducible refine Later.foldlFst ?_ ?_
    | with_reducible refine Later.fst ?_ (by assumption)
    | dsimp only
    | rw [State.mk_eq]
    | split
    | exact List.prefix_append _ _

theorem State.freeEntry_later {s0 : State} (s : State) (list : Nat) (hL : Later s0 s) : Later s0 (State.freeEntry s list) := by
  unfold State.freeEntry
  repeat'
    first
    | with_reducible assumption
    | with_reducible exact Nat.le_refl _
    | with_reducible exact List.prefix_rfl
    | with_reducible rfl
    | with_reducible exact Nat.le_add_right _ _
    | intro _
    | with_reducible refine State.upd_later ?_ ?_ ?_ ?_ ?_ ?_
    | with_reducible refine Later.ite ?_ ?_
    | with_reducible refine Later.iteFst ?_ ?_
    | with_reducible refine Later.foldl ?_ ?_
    | with_reducible refine Later.foldlFst ?_ ?_
    | with_reducible refine Later.fst ?_ (by assumption)
    | dsimp only
    | rw [State.mk_eq]
    | split
    | exact List.prefix_append _ _

theorem State.dropList_later {s0 : State} (s : State) (handle : Nat) (hL : Later s0 s) : Later s0 (State.dropList s handle) := by
  unfold State.dropList
  repeat'
    first
    | with_reducible assumption
    | with_reducible exact Nat.le_refl _
    | with_reducible exact List.prefix_rfl
    | with_reducible rfl
    | with_reducible exact Nat.le_add_right _ _
    | intro _
    | with_reducible refine State.upd_later ?_ ?_ ?_ ?_ ?_ ?_
    | with_reducible apply State.freeObj_later
    | with_reducible refine Later.ite ?_ ?_
    | with_reducible refine Later.iteFst ?_ ?_
    | with_reducible refine Later.foldl ?_ ?_
    | with_reducible refine Later.foldlFst ?_ ?_
    | with_reducible refine Later.fst ?_ (by assumption)
    | dsimp only
    | rw [State.mk_eq]
    | split
    | exact List.prefix_append _ _

theorem State.fitGen_later {s0 : State} (s : State) (num width dim activeFrom : Nat) (hL : Later s0 s) : Later s0 (State.fitGen s num width dim activeFrom).1 := by
  unfold State.fitGen
  repeat'
    first
    | with_reducible assumption
    | with_reducible exact Nat.le_refl _
    | with_reducible exact List.prefix_rfl
    | with_reducible rfl
    | with_reducible exact Nat.le_add_right _ _
    | intro _
    | with_reducible refine State.upd_later ?_ ?_ ?_ ?_ ?_ ?_
    | with_reducible refine Later.ite ?_ ?_
    | with_reducible refine Later.iteFst ?_ ?_
    | with_reducible refine Later.foldl ?_ ?_
    | with_reducible refine Later.foldlFst ?_ ?_
    | with_reducible refine Later.fst ?_ (by assumption)
    | dsimp only
    | rw [State.mk_eq]
    | split
    | exact List.prefix_append _ _

theorem State.firstList_later {s0 : State} (s : State) (v : Version) (gen shard : Nat) (hL : Later s0 s) : Later s0 (State.firstList s v gen shard) := by
  unfold State.firstList
  repeat'
    first
    | with_reducible assumption
    | with_reducible exact Nat.le_refl _
    | with_reducible exact List.prefix_rfl
    | with_reducible rfl
    | with_reducible exact Nat.le_add_right _ _
    | intro _
    | with_reducible refine State.upd_later ?_ ?_ ?_ ?_ ?_ ?_
    | with_reducible apply State.noteNans_later
    | with_reducible apply State.newList_later
    | with_reducible apply State.linkEntry_later
    | with_reducible apply State.setEntry_later
    | with_reducible apply State.needDelta_later
    | with_reducible refine Later.ite ?_ ?_
    | with_reducible refine Later.iteFst ?_ ?_
    | with_reducible refine Later.foldl ?_ ?_
    | with_reducible refine Later.foldlFst ?_ ?_
    | with_reducible refine Later.fst ?_ (by assumption)
    | dsimp only
    | rw [State.mk_eq]
    | split
    | exact List.prefix_append _ _

theorem State.createVersion_later {s0 : State} (s : State) (v : Version) (hL : Later s0 s) : Later s0 (State.createVersion s v) := by
  unfold State.createVersion
  repeat'
    first
    | with_reducible assumption
    | with_reducible exact Nat.le_refl _
    | with_reducible exact List.prefix_rfl
    | with_reducible rfl
    | with_reducible exact Nat.le_add_right _ _
    | intro _
    | with_reducible refine State.upd_later ?_ ?_ ?_ ?_ ?_ ?_
    | with_reducible apply State.firstList_later
    | with_reducible apply State.fitGen_later
    | with_reducible refine Later.ite ?_ ?_
    | with_reducible refine Later.iteFst ?_ ?_
    | with_reducible refine Later.foldl ?_ ?_
    | with_reducible refine Later.foldlFst ?_ ?_
    | with_reducible refine Later.fst ?_ (by assumption)
    | dsimp only
    | rw [State.mk_eq]
    | split
    | exact List.prefix_append _ _

theorem execVersionCreate_later (cmd : AdminCmd) (s : State) {t' : State} (hE : execVersionCreate cmd s = .next t') : Later s t' := by
  unfold execVersionCreate at hE
  injection hE with hE
  subst hE
  have hL := Later.refl s
  repeat'
    first
    | with_reducible assumption
    | with_reducible exact Nat.le_refl _
    | with_reducible exact List.prefix_rfl
    | with_reducible rfl
    | with_reducible exact Nat.le_add_right _ _
    | intro _
    | with_reducible refine State.upd_later ?_ ?_ ?_ ?_ ?_ ?_
    | with_reducible apply State.adminDone_later
    | with_reducible apply State.createVersion_later
    | with_reducible apply State.adminCommand_later
    | with_reducible refine Later.ite ?_ ?_
    | with_reducible refine Later.iteFst ?_ ?_
    | with_reducible refine Later.foldl ?_ ?_
    | with_reducible refine Later.foldlFst ?_ ?_
    | with_reducible refine Later.fst ?_ (by assumption)
    | dsimp only
    | rw [State.mk_eq]
    | split
    | exact List.prefix_append _ _

theorem State.buildRecord_later {s0 : State} (s : State) (ns idx ver : Nat) (rec : Nat) (hL : Later s0 s) : Later s0 (State.buildRecord s ns idx ver rec) := by
  unfold State.buildRecord
  repeat'
    first
    | with_reducible assumption
    | with_reducible exact Nat.le_refl _
    | with_reducible exact List.prefix_rfl
    | with_reducible rfl
    | with_reducible exact Nat.le_add_right _ _
    | intro _
    | with_reducible refine State.upd_later ?_ ?_ ?_ ?_ ?_ ?_
    | with_reducible apply State.noteNans_later
    | with_reducible apply State.appendEntry_later
    | with_reducible refine Later.ite ?_ ?_
    | with_reducible refine Later.iteFst ?_ ?_
    | with_reducible refine Later.foldl ?_ ?_
    | with_reducible refine Later.foldlFst ?_ ?_
    | with_reducible refine Later.fst ?_ (by assumption)
    | dsimp only
    | rw [State.mk_eq]
    | split
    | exact List.prefix_append _ _

theorem execVersionBuildComplete_later (ns idx ver : Nat) (reports : List BuildReport) (s : State) {t' : State} (hE : execVersionBuildComplete ns idx ver reports s = .next t') : Later s t' := by
  unfold execVersionBuildComplete at hE
  injection hE with hE
  subst hE
  have hL := Later.refl s
  repeat'
    first
    | with_reducible assumption
    | with_reducible exact Nat.le_refl _
    | with_reducible exact List.prefix_rfl
    | with_reducible rfl
    | with_reducible exact Nat.le_add_right _ _
    | intro _
    | with_reducible refine State.upd_later ?_ ?_ ?_ ?_ ?_ ?_
    | with_reducible apply State.updVersion_later
    | with_reducible apply State.buildRecord_later
    | with_reducible refine Later.ite ?_ ?_
    | with_reducible refine Later.iteFst ?_ ?_
    | with_reducible refine Later.foldl ?_ ?_
    | with_reducible refine Later.foldlFst ?_ ?_
    | with_reducible refine Later.fst ?_ (by assumption)
    | dsimp only
    | rw [State.mk_eq]
    | split
    | exact List.prefix_append _ _

theorem execVersionInfo_later (cmd : AdminCmd) (s : State) {t' : State} (hE : execVersionInfo cmd s = .next t') : Later s t' := by
  unfold execVersionInfo at hE
  injection hE with hE
  subst hE
  have hL := Later.refl s
  repeat'
    first
    | with_reducible assumption
    | with_reducible exact Nat.le_refl _
    | with_reducible exact List.prefix_rfl
    | with_reducible rfl
    | with_reducible exact Nat.le_add_right _ _
    | intro _
    | with_reducible refine State.upd_later ?_ ?_ ?_ ?_ ?_ ?_
    | with_reducible apply State.adminDone_later
    | with_reducible apply State.adminCommand_later
    | with_reducible refine Later.ite ?_ ?_
    | with_reducible refine Later.iteFst ?_ ?_
    | with_reducible refine Later.foldl ?_ ?_
    | with_reducible refine Later.foldlFst ?_ ?_
    | with_reducible refine Later.fst ?_ (by assumption)
    | dsimp only
    | rw [State.mk_eq]
    | split
    | exact List.prefix_append _ _

theorem State.openVersions_later {s0 : State} (s : State) (hL : Later s0 s) : Later s0 (State.openVersions s) := by
  unfold State.openVersions
  repeat'
    first
    | with_reducible assumption
    | with_reducible exact Nat.le_refl _
    | with_reducible exact List.prefix_rfl
    | with_reducible rfl
    | with_reducible exact Nat.le_add_right _ _
    | intro _
    | with_reducible refine State.upd_later ?_ ?_ ?_ ?_ ?_ ?_
    | with_reducible refine Later.ite ?_ ?_
    | with_reducible refine Later.iteFst ?_ ?_
    | with_reducible refine Later.foldl ?_ ?_
    | with_reducible refine Later.foldlFst ?_ ?_
    | with_reducible refine Later.fst ?_ (by assumption)
    | dsimp only
    | rw [State.mk_eq]
    | split
    | exact List.prefix_append _ _

theorem State.dropEdges_later {s0 : State} (s : State) (lists : List Nat) (hL : Later s0 s) : Later s0 (State.dropEdges s lists) := by
  unfold State.dropEdges
  repeat'
    first
    | with_reducible assumption
    | with_reducible exact Nat.le_refl _
    | with_reducible exact List.prefix_rfl
    | with_reducible rfl
    | with_reducible exact Nat.le_add_right _ _
    | intro _
    | with_reducible refine State.upd_later ?_ ?_ ?_ ?_ ?_ ?_
    | with_reducible refine Later.ite ?_ ?_
    | with_reducible refine Later.iteFst ?_ ?_
    | with_reducible refine Later.foldl ?_ ?_
    | with_reducible refine Later.foldlFst ?_ ?_
    | with_reducible refine Later.fst ?_ (by assumption)
    | dsimp only
    | rw [State.mk_eq]
    | split
    | exact List.prefix_append _ _

theorem execVersionFree_later (ns idx ver : Nat) (s : State) {t' : State} (hE : execVersionFree ns idx ver s = .next t') : Later s t' := by
  unfold execVersionFree at hE
  injection hE with hE
  subst hE
  have hL := Later.refl s
  repeat'
    first
    | with_reducible assumption
    | with_reducible exact Nat.le_refl _
    | with_reducible exact List.prefix_rfl
    | with_reducible rfl
    | with_reducible exact Nat.le_add_right _ _
    | intro _
    | with_reducible refine State.upd_later ?_ ?_ ?_ ?_ ?_ ?_
    | with_reducible apply State.dropList_later
    | with_reducible apply State.dropEdges_later
    | with_reducible apply State.freeEntry_later
    | with_reducible refine Later.ite ?_ ?_
    | with_reducible refine Later.iteFst ?_ ?_
    | with_reducible refine Later.foldl ?_ ?_
    | with_reducible refine Later.foldlFst ?_ ?_
    | with_reducible refine Later.fst ?_ (by assumption)
    | dsimp only
    | rw [State.mk_eq]
    | split
    | exact List.prefix_append _ _

theorem State.discardIndex_later {s0 : State} (s : State) (ns idx : Nat) (hL : Later s0 s) : Later s0 (State.discardIndex s ns idx) := by
  unfold State.discardIndex
  repeat'
    first
    | with_reducible assumption
    | with_reducible exact Nat.le_refl _
    | with_reducible exact List.prefix_rfl
    | with_reducible rfl
    | with_reducible exact Nat.le_add_right _ _
    | intro _
    | with_reducible refine State.upd_later ?_ ?_ ?_ ?_ ?_ ?_
    | with_reducible apply State.emit_later
    | with_reducible apply State.discardUnits_later
    | with_reducible refine Later.ite ?_ ?_
    | with_reducible refine Later.iteFst ?_ ?_
    | with_reducible refine Later.foldl ?_ ?_
    | with_reducible refine Later.foldlFst ?_ ?_
    | with_reducible refine Later.fst ?_ (by assumption)
    | dsimp only
    | rw [State.mk_eq]
    | split
    | exact List.prefix_append _ _

theorem execIndexDataDiscard_later (index : IndexName) (homes : List Nat) (s : State) {t' : State} (hE : execIndexDataDiscard index homes s = .next t') : Later s t' := by
  unfold execIndexDataDiscard at hE
  injection hE with hE
  subst hE
  have hL := Later.refl s
  repeat'
    first
    | with_reducible assumption
    | with_reducible exact Nat.le_refl _
    | with_reducible exact List.prefix_rfl
    | with_reducible rfl
    | with_reducible exact Nat.le_add_right _ _
    | intro _
    | with_reducible refine State.upd_later ?_ ?_ ?_ ?_ ?_ ?_
    | with_reducible apply State.discardIndex_later
    | with_reducible refine Later.ite ?_ ?_
    | with_reducible refine Later.iteFst ?_ ?_
    | with_reducible refine Later.foldl ?_ ?_
    | with_reducible refine Later.foldlFst ?_ ?_
    | with_reducible refine Later.fst ?_ (by assumption)
    | dsimp only
    | rw [State.mk_eq]
    | split
    | exact List.prefix_append _ _

end Sys2Proof.Machine
end

