-- ==== Sys2Proof/Laws/Later5.lean ====
section
/-! SUPPORT. The operations of Transfer, MapOps, Composition, Leases, Maintenance move no clock, epoch or draw count back, take back nothing sent and leave the queue and the silicon alone. -/
set_option Elab.async false
set_option linter.all false

namespace Sys2Proof.Machine

theorem State.adoptRec_later {s0 : State} (s : State) (r : Rec) (hL : Later s0 s) : Later s0 (State.adoptRec s r).1 := by
  unfold State.adoptRec
  repeat'
    first
    | with_reducible assumption
    | with_reducible exact Nat.le_refl _
    | with_reducible exact List.prefix_rfl
    | with_reducible rfl
    | with_reducible exact Nat.le_add_right _ _
    | intro _
    | with_reducible refine State.upd_later ?_ ?_ ?_ ?_ ?_ ?_
    | with_reducible apply State.storeRec_later
    | with_reducible refine Later.ite ?_ ?_
    | with_reducible refine Later.iteFst ?_ ?_
    | with_reducible refine Later.foldl ?_ ?_
    | with_reducible refine Later.foldlFst ?_ ?_
    | with_reducible refine Later.fst ?_ (by assumption)
    | dsimp only
    | rw [State.mk_eq]
    | split
    | exact List.prefix_append _ _

theorem State.adoptList_later {s0 : State} (s : State) (ids : List (Nat × Nat)) (l : ListData) (hL : Later s0 s) : Later s0 (State.adoptList s ids l) := by
  unfold State.adoptList
  repeat'
    first
    | with_reducible assumption
    | with_reducible exact Nat.le_refl _
    | with_reducible exact List.prefix_rfl
    | with_reducible rfl
    | with_reducible exact Nat.le_add_right _ _
    | intro _
    | with_reducible refine State.upd_later ?_ ?_ ?_ ?_ ?_ ?_
    | with_reducible apply State.setList_later
    | with_reducible apply State.dropList_later
    | with_reducible apply State.segObjects_later
    | with_reducible apply State.newList_later
    | with_reducible refine Later.ite ?_ ?_
    | with_reducible refine Later.iteFst ?_ ?_
    | with_reducible refine Later.foldl ?_ ?_
    | with_reducible refine Later.foldlFst ?_ ?_
    | with_reducible refine Later.fst ?_ (by assumption)
    | dsimp only
    | rw [State.mk_eq]
    | split
    | exact List.prefix_append _ _

theorem State.installShard_later {s0 : State} (s : State) (b : List Byte) (hL : Later s0 s) : Later s0 (State.installShard s b).1 := by
  unfold State.installShard
  repeat'
    first
    | with_reducible assumption
    | with_reducible exact Nat.le_refl _
    | with_reducible exact List.prefix_rfl
    | with_reducible rfl
    | with_reducible exact Nat.le_add_right _ _
    | intro _
    | with_reducible refine State.upd_later ?_ ?_ ?_ ?_ ?_ ?_
    | with_reducible apply State.adoptList_later
    | with_reducible apply State.adoptRec_later
    | with_reducible refine Later.ite ?_ ?_
    | with_reducible refine Later.iteFst ?_ ?_
    | with_reducible refine Later.foldl ?_ ?_
    | with_reducible refine Later.foldlFst ?_ ?_
    | with_reducible refine Later.fst ?_ (by assumption)
    | dsimp only
    | rw [State.mk_eq]
    | split
    | exact List.prefix_append _ _

theorem State.installRows_later {s0 : State} (s : State) (src : Nat) (b : List Byte) (hL : Later s0 s) : Later s0 (State.installRows s src b) := by
  unfold State.installRows
  repeat'
    first
    | with_reducible assumption
    | with_reducible exact Nat.le_refl _
    | with_reducible exact List.prefix_rfl
    | with_reducible rfl
    | with_reducible exact Nat.le_add_right _ _
    | intro _
    | with_reducible refine State.upd_later ?_ ?_ ?_ ?_ ?_ ?_
    | with_reducible apply State.syncReplicas_later
    | with_reducible apply State.needShard_later
    | with_reducible refine Later.ite ?_ ?_
    | with_reducible refine Later.iteFst ?_ ?_
    | with_reducible refine Later.foldl ?_ ?_
    | with_reducible refine Later.foldlFst ?_ ?_
    | with_reducible refine Later.fst ?_ (by assumption)
    | dsimp only
    | rw [State.mk_eq]
    | split
    | exact List.prefix_append _ _

theorem State.publishSpread_later {s0 : State} (s : State) (m : CompMap) (hL : Later s0 s) : Later s0 (State.publishSpread s m) := by
  unfold State.publishSpread
  repeat'
    first
    | with_reducible assumption
    | with_reducible exact Nat.le_refl _
    | with_reducible exact List.prefix_rfl
    | with_reducible rfl
    | with_reducible exact Nat.le_add_right _ _
    | intro _
    | with_reducible refine State.upd_later ?_ ?_ ?_ ?_ ?_ ?_
    | with_reducible apply State.logState_later
    | with_reducible refine Later.ite ?_ ?_
    | with_reducible refine Later.iteFst ?_ ?_
    | with_reducible refine Later.foldl ?_ ?_
    | with_reducible refine Later.foldlFst ?_ ?_
    | with_reducible refine Later.fst ?_ (by assumption)
    | dsimp only
    | rw [State.mk_eq]
    | split
    | exact List.prefix_append _ _

theorem State.completeForwarded_later {s0 : State} (s : State) (f : Nat) (changes : List CatalogChange) (hL : Later s0 s) : Later s0 (State.completeForwarded s f changes) := by
  unfold State.completeForwarded
  repeat'
    first
    | with_reducible assumption
    | with_reducible exact Nat.le_refl _
    | with_reducible exact List.prefix_rfl
    | with_reducible rfl
    | with_reducible exact Nat.le_add_right _ _
    | intro _
    | with_reducible refine State.upd_later ?_ ?_ ?_ ?_ ?_ ?_
    | with_reducible apply State.adminDone_later
    | with_reducible refine Later.ite ?_ ?_
    | with_reducible refine Later.iteFst ?_ ?_
    | with_reducible refine Later.foldl ?_ ?_
    | with_reducible refine Later.foldlFst ?_ ?_
    | with_reducible refine Later.fst ?_ (by assumption)
    | dsimp only
    | rw [State.mk_eq]
    | split
    | exact List.prefix_append _ _

theorem State.rehome_later {s0 : State} (s : State) (shard home : Nat) (hL : Later s0 s) : Later s0 (State.rehome s shard home) := by
  unfold State.rehome
  repeat'
    first
    | with_reducible assumption
    | with_reducible exact Nat.le_refl _
    | with_reducible exact List.prefix_rfl
    | with_reducible rfl
    | with_reducible exact Nat.le_add_right _ _
    | intro _
    | with_reducible refine State.upd_later ?_ ?_ ?_ ?_ ?_ ?_
    | with_reducible refine Later.ite ?_ ?_
    | with_reducible refine Later.iteFst ?_ ?_
    | with_reducible refine Later.foldl ?_ ?_
    | with_reducible refine Later.foldlFst ?_ ?_
    | with_reducible refine Later.fst ?_ (by assumption)
    | dsimp only
    | rw [State.mk_eq]
    | split
    | exact List.prefix_append _ _

theorem State.updMove_later {s0 : State} (s : State) (shard : Nat) (feature : Bool) (f : ShardMove → ShardMove) (hL : Later s0 s) : Later s0 (State.updMove s shard feature f) := by
  unfold State.updMove
  repeat'
    first
    | with_reducible assumption
    | with_reducible exact Nat.le_refl _
    | with_reducible exact List.prefix_rfl
    | with_reducible rfl
    | with_reducible exact Nat.le_add_right _ _
    | intro _
    | with_reducible refine State.upd_later ?_ ?_ ?_ ?_ ?_ ?_
    | with_reducible refine Later.ite ?_ ?_
    | with_reducible refine Later.iteFst ?_ ?_
    | with_reducible refine Later.foldl ?_ ?_
    | with_reducible refine Later.foldlFst ?_ ?_
    | with_reducible refine Later.fst ?_ (by assumption)
    | dsimp only
    | rw [State.mk_eq]
    | split
    | exact List.prefix_append _ _

theorem State.setShadow_later {s0 : State} (s : State) (state : Nat) (hL : Later s0 s) : Later s0 (State.setShadow s state) := by
  unfold State.setShadow
  repeat'
    first
    | with_reducible assumption
    | with_reducible exact Nat.le_refl _
    | with_reducible exact List.prefix_rfl
    | with_reducible rfl
    | with_reducible exact Nat.le_add_right _ _
    | intro _
    | with_reducible refine State.upd_later ?_ ?_ ?_ ?_ ?_ ?_
    | with_reducible apply State.logState_later
    | with_reducible refine Later.ite ?_ ?_
    | with_reducible refine Later.iteFst ?_ ?_
    | with_reducible refine Later.foldl ?_ ?_
    | with_reducible refine Later.foldlFst ?_ ?_
    | with_reducible refine Later.fst ?_ (by assumption)
    | dsimp only
    | rw [State.mk_eq]
    | split
    | exact List.prefix_append _ _

theorem State.shadowCopied_later {s0 : State} (s : State) (hL : Later s0 s) : Later s0 (State.shadowCopied s) := by
  unfold State.shadowCopied
  repeat'
    first
    | with_reducible assumption
    | with_reducible exact Nat.le_refl _
    | with_reducible exact List.prefix_rfl
    | with_reducible rfl
    | with_reducible exact Nat.le_add_right _ _
    | intro _
    | with_reducible refine State.upd_later ?_ ?_ ?_ ?_ ?_ ?_
    | with_reducible apply State.setShadow_later
    | with_reducible refine Later.ite ?_ ?_
    | with_reducible refine Later.iteFst ?_ ?_
    | with_reducible refine Later.foldl ?_ ?_
    | with_reducible refine Later.foldlFst ?_ ?_
    | with_reducible refine Later.fst ?_ (by assumption)
    | dsimp only
    | rw [State.mk_eq]
    | split
    | exact List.prefix_append _ _

theorem State.shadowTidy_later {s0 : State} (s : State) (hL : Later s0 s) : Later s0 (State.shadowTidy s) := by
  unfold State.shadowTidy
  repeat'
    first
    | with_reducible assumption
    | with_reducible exact Nat.le_refl _
    | with_reducible exact List.prefix_rfl
    | with_reducible rfl
    | with_reducible exact Nat.le_add_right _ _
    | intro _
    | with_reducible refine State.upd_later ?_ ?_ ?_ ?_ ?_ ?_
    | with_reducible apply State.setShadow_later
    | with_reducible refine Later.ite ?_ ?_
    | with_reducible refine Later.iteFst ?_ ?_
    | with_reducible refine Later.foldl ?_ ?_
    | with_reducible refine Later.foldlFst ?_ ?_
    | with_reducible refine Later.fst ?_ (by assumption)
    | dsimp only
    | rw [State.mk_eq]
    | split
    | exact List.prefix_append _ _

theorem State.sourceSwitch_later {s0 : State} (s : State) (shard : Nat) (feature : Bool) (home epoch : Nat) (hL : Later s0 s) : Later s0 (State.sourceSwitch s shard feature home epoch) := by
  unfold State.sourceSwitch
  repeat'
    first
    | with_reducible assumption
    | with_reducible exact Nat.le_refl _
    | with_reducible exact List.prefix_rfl
    | with_reducible rfl
    | with_reducible exact Nat.le_add_right _ _
    | intro _
    | with_reducible refine State.upd_later ?_ ?_ ?_ ?_ ?_ ?_
    | with_reducible apply State.updMove_later
    | with_reducible apply State.sendRecord_later
    | with_reducible apply State.sendTransfer_later
    | with_reducible refine Later.ite ?_ ?_
    | with_reducible refine Later.iteFst ?_ ?_
    | with_reducible refine Later.foldl ?_ ?_
    | with_reducible refine Later.foldlFst ?_ ?_
    | with_reducible refine Later.fst ?_ (by assumption)
    | dsimp only
    | rw [State.mk_eq]
    | split
    | exact List.prefix_append _ _

theorem State.moveShard_later {s0 : State} (s : State) (epoch : Nat) (feature : Bool) (c : Nat × Nat × Nat) (hL : Later s0 s) : Later s0 (State.moveShard s epoch feature c) := by
  unfold State.moveShard
  repeat'
    first
    | with_reducible assumption
    | with_reducible exact Nat.le_refl _
    | with_reducible exact List.prefix_rfl
    | with_reducible rfl
    | with_reducible exact Nat.le_add_right _ _
    | intro _
    | with_reducible refine State.upd_later ?_ ?_ ?_ ?_ ?_ ?_
    | with_reducible apply State.updMove_later
    | with_reducible apply State.rehome_later
    | with_reducible apply State.sourceSwitch_later
    | with_reducible refine Later.ite ?_ ?_
    | with_reducible refine Later.iteFst ?_ ?_
    | with_reducible refine Later.foldl ?_ ?_
    | with_reducible refine Later.foldlFst ?_ ?_
    | with_reducible refine Later.fst ?_ (by assumption)
    | dsimp only
    | rw [State.mk_eq]
    | split
    | exact List.prefix_append _ _

theorem State.sendLease_later {s0 : State} (s : State) (dest op holds handle epoch expiry : Nat) (hL : Later s0 s) : Later s0 (State.sendLease s dest op holds handle epoch expiry) := by
  unfold State.sendLease
  repeat'
    first
    | with_reducible assumption
    | with_reducible exact Nat.le_refl _
    | with_reducible exact List.prefix_rfl
    | with_reducible rfl
    | with_reducible exact Nat.le_add_right _ _
    | intro _
    | with_reducible refine State.upd_later ?_ ?_ ?_ ?_ ?_ ?_
    | with_reducible apply State.sendFrame_later
    | with_reducible refine Later.ite ?_ ?_
    | with_reducible refine Later.iteFst ?_ ?_
    | with_reducible refine Later.foldl ?_ ?_
    | with_reducible refine Later.foldlFst ?_ ?_
    | with_reducible refine Later.fst ?_ (by assumption)
    | dsimp only
    | rw [State.mk_eq]
    | split
    | exact List.prefix_append _ _

theorem State.sendState_later {s0 : State} (s : State) (l : Lease) (hL : Later s0 s) : Later s0 (State.sendState s l) := by
  unfold State.sendState
  repeat'
    first
    | with_reducible assumption
    | with_reducible exact Nat.le_refl _
    | with_reducible exact List.prefix_rfl
    | with_reducible rfl
    | with_reducible exact Nat.le_add_right _ _
    | intro _
    | with_reducible refine State.upd_later ?_ ?_ ?_ ?_ ?_ ?_
    | with_reducible apply State.sendTransfer_later
    | with_reducible apply State.sendLease_later
    | with_reducible refine Later.ite ?_ ?_
    | with_reducible refine Later.iteFst ?_ ?_
    | with_reducible refine Later.foldl ?_ ?_
    | with_reducible refine Later.foldlFst ?_ ?_
    | with_reducible refine Later.fst ?_ (by assumption)
    | dsimp only
    | rw [State.mk_eq]
    | split
    | exact List.prefix_append _ _

theorem State.handOff_later {s0 : State} (s : State) (q peer epoch : Nat) (hL : Later s0 s) : Later s0 (State.handOff s q peer epoch) := by
  unfold State.handOff
  repeat'
    first
    | with_reducible assumption
    | with_reducible exact Nat.le_refl _
    | with_reducible exact List.prefix_rfl
    | with_reducible rfl
    | with_reducible exact Nat.le_add_right _ _
    | intro _
    | with_reducible refine State.upd_later ?_ ?_ ?_ ?_ ?_ ?_
    | with_reducible apply State.sendState_later
    | with_reducible apply State.setQuery_later
    | with_reducible refine Later.ite ?_ ?_
    | with_reducible refine Later.iteFst ?_ ?_
    | with_reducible refine Later.foldl ?_ ?_
    | with_reducible refine Later.foldlFst ?_ ?_
    | with_reducible refine Later.fst ?_ (by assumption)
    | dsimp only
    | rw [State.mk_eq]
    | split
    | exact List.prefix_append _ _

theorem State.drainQueries_later {s0 : State} (s : State) (m : CompMap) (hL : Later s0 s) : Later s0 (State.drainQueries s m) := by
  unfold State.drainQueries
  repeat'
    first
    | with_reducible assumption
    | with_reducible exact Nat.le_refl _
    | with_reducible exact List.prefix_rfl
    | with_reducible rfl
    | with_reducible exact Nat.le_add_right _ _
    | intro _
    | with_reducible refine State.upd_later ?_ ?_ ?_ ?_ ?_ ?_
    | with_reducible apply State.handOff_later
    | with_reducible refine Later.ite ?_ ?_
    | with_reducible refine Later.iteFst ?_ ?_
    | with_reducible refine Later.foldl ?_ ?_
    | with_reducible refine Later.foldlFst ?_ ?_
    | with_reducible refine Later.fst ?_ (by assumption)
    | dsimp only
    | rw [State.mk_eq]
    | split
    | exact List.prefix_append _ _

theorem State.installMap_later {s0 : State} (s : State) (content : List Byte) (hL : Later s0 s) : Later s0 (State.installMap s content) := by
  unfold State.installMap
  repeat'
    first
    | with_reducible assumption
    | with_reducible exact Nat.le_refl _
    | with_reducible exact List.prefix_rfl
    | with_reducible rfl
    | with_reducible exact Nat.le_add_right _ _
    | intro _
    | with_reducible refine State.upd_later ?_ ?_ ?_ ?_ ?_ ?_
    | with_reducible apply State.moveShard_later
    | with_reducible apply State.drainQueries_later
    | with_reducible apply State.publishSpread_later
    | with_reducible apply State.completeForwarded_later
    | with_reducible apply State.applyChange_later
    | with_reducible refine Later.ite ?_ ?_
    | with_reducible refine Later.iteFst ?_ ?_
    | with_reducible refine Later.foldl ?_ ?_
    | with_reducible refine Later.foldlFst ?_ ?_
    | with_reducible refine Later.fst ?_ (by assumption)
    | dsimp only
    | rw [State.mk_eq]
    | split
    | exact List.prefix_append _ _

theorem State.askNeighbours_later {s0 : State} (s : State) (epoch : Nat) (hL : Later s0 s) : Later s0 (State.askNeighbours s epoch) := by
  unfold State.askNeighbours
  repeat'
    first
    | with_reducible assumption
    | with_reducible exact Nat.le_refl _
    | with_reducible exact List.prefix_rfl
    | with_reducible rfl
    | with_reducible exact Nat.le_add_right _ _
    | intro _
    | with_reducible refine State.upd_later ?_ ?_ ?_ ?_ ?_ ?_
    | with_reducible apply State.emit_later
    | with_reducible refine Later.ite ?_ ?_
    | with_reducible refine Later.iteFst ?_ ?_
    | with_reducible refine Later.foldl ?_ ?_
    | with_reducible refine Later.foldlFst ?_ ?_
    | with_reducible refine Later.fst ?_ (by assumption)
    | dsimp only
    | rw [State.mk_eq]
    | split
    | exact List.prefix_append _ _

theorem State.openMaps_later {s0 : State} (s : State) (hL : Later s0 s) : Later s0 (State.openMaps s) := by
  unfold State.openMaps
  repeat'
    first
    | with_reducible assumption
    | with_reducible exact Nat.le_refl _
    | with_reducible exact List.prefix_rfl
    | with_reducible rfl
    | with_reducible exact Nat.le_add_right _ _
    | intro _
    | with_reducible refine State.upd_later ?_ ?_ ?_ ?_ ?_ ?_
    | with_reducible apply State.installMap_later
    | with_reducible apply State.askNeighbours_later
    | with_reducible apply State.tally_later
    | with_reducible refine Later.ite ?_ ?_
    | with_reducible refine Later.iteFst ?_ ?_
    | with_reducible refine Later.foldl ?_ ?_
    | with_reducible refine Later.foldlFst ?_ ?_
    | with_reducible refine Later.fst ?_ (by assumption)
    | dsimp only
    | rw [State.mk_eq]
    | split
    | exact List.prefix_append _ _

theorem State.spreadContent_later {s0 : State} (s : State) (skip : Option Nat) (content : List Byte) (hL : Later s0 s) : Later s0 (State.spreadContent s skip content) := by
  unfold State.spreadContent
  repeat'
    first
    | with_reducible assumption
    | with_reducible exact Nat.le_refl _
    | with_reducible exact List.prefix_rfl
    | with_reducible rfl
    | with_reducible exact Nat.le_add_right _ _
    | intro _
    | with_reducible refine State.upd_later ?_ ?_ ?_ ?_ ?_ ?_
    | with_reducible apply State.sendTransfer_later
    | with_reducible refine Later.ite ?_ ?_
    | with_reducible refine Later.iteFst ?_ ?_
    | with_reducible refine Later.foldl ?_ ?_
    | with_reducible refine Later.foldlFst ?_ ?_
    | with_reducible refine Later.fst ?_ (by assumption)
    | dsimp only
    | rw [State.mk_eq]
    | split
    | exact List.prefix_append _ _

theorem State.takeContent_later {s0 : State} (s : State) (src : Nat) (content : List Byte) (hL : Later s0 s) : Later s0 (State.takeContent s src content) := by
  unfold State.takeContent
  repeat'
    first
    | with_reducible assumption
    | with_reducible exact Nat.le_refl _
    | with_reducible exact List.prefix_rfl
    | with_reducible rfl
    | with_reducible exact Nat.le_add_right _ _
    | intro _
    | with_reducible refine State.upd_later ?_ ?_ ?_ ?_ ?_ ?_
    | with_reducible apply State.spreadContent_later
    | with_reducible refine Later.ite ?_ ?_
    | with_reducible refine Later.iteFst ?_ ?_
    | with_reducible refine Later.foldl ?_ ?_
    | with_reducible refine Later.foldlFst ?_ ?_
    | with_reducible refine Later.fst ?_ (by assumption)
    | dsimp only
    | rw [State.mk_eq]
    | split
    | exact List.prefix_append _ _

theorem State.announceMap_later {s0 : State} (s : State) (content : List Byte) (hL : Later s0 s) : Later s0 (State.announceMap s content) := by
  unfold State.announceMap
  repeat'
    first
    | with_reducible assumption
    | with_reducible exact Nat.le_refl _
    | with_reducible exact List.prefix_rfl
    | with_reducible rfl
    | with_reducible exact Nat.le_add_right _ _
    | intro _
    | with_reducible refine State.upd_later ?_ ?_ ?_ ?_ ?_ ?_
    | with_reducible apply State.spreadContent_later
    | with_reducible apply State.sendAllPorts_later
    | with_reducible refine Later.ite ?_ ?_
    | with_reducible refine Later.iteFst ?_ ?_
    | with_reducible refine Later.foldl ?_ ?_
    | with_reducible refine Later.foldlFst ?_ ?_
    | with_reducible refine Later.fst ?_ (by assumption)
    | dsimp only
    | rw [State.mk_eq]
    | split
    | exact List.prefix_append _ _

theorem State.announceNext_later {s0 : State} (s : State) (change : CompMap → CompMap) (hL : Later s0 s) : Later s0 (State.announceNext s change) := by
  unfold State.announceNext
  repeat'
    first
    | with_reducible assumption
    | with_reducible exact Nat.le_refl _
    | with_reducible exact List.prefix_rfl
    | with_reducible rfl
    | with_reducible exact Nat.le_add_right _ _
    | intro _
    | with_reducible refine State.upd_later ?_ ?_ ?_ ?_ ?_ ?_
    | with_reducible apply State.announceMap_later
    | with_reducible refine Later.ite ?_ ?_
    | with_reducible refine Later.iteFst ?_ ?_
    | with_reducible refine Later.foldl ?_ ?_
    | with_reducible refine Later.foldlFst ?_ ?_
    | with_reducible refine Later.fst ?_ (by assumption)
    | dsimp only
    | rw [State.mk_eq]
    | split
    | exact List.prefix_append _ _

theorem execMapAnnounce_later (content : List Byte) (s : State) {t' : State} (hE : execMapAnnounce content s = .next t') : Later s t' := by
  unfold execMapAnnounce at hE
  injection hE with hE
  subst hE
  have hL := Later.refl s
  repeat'
    first
    | with_reducible assumption
    | with_reducible exact Nat.le_refl _
    | with_reducible exact List.prefix_rfl
    | with_reducible rfl
    | with_reducible exact Nat.le_add_right _ _
    | intro _
    | with_reducible refine State.upd_later ?_ ?_ ?_ ?_ ?_ ?_
    | with_reducible apply State.announceMap_later
    | with_reducible refine Later.ite ?_ ?_
    | with_reducible refine Later.iteFst ?_ ?_
    | with_reducible refine Later.foldl ?_ ?_
    | with_reducible refine Later.foldlFst ?_ ?_
    | with_reducible refine Later.fst ?_ (by assumption)
    | dsimp only
    | rw [State.mk_eq]
    | split
    | exact List.prefix_append _ _

theorem execMapNotice_later (port : Nat) (notice : List Byte) (s : State) {t' : State} (hE : execMapNotice port notice s = .next t') : Later s t' := by
  unfold execMapNotice at hE
  injection hE with hE
  subst hE
  have hL := Later.refl s
  repeat'
    first
    | with_reducible assumption
    | with_reducible exact Nat.le_refl _
    | with_reducible exact List.prefix_rfl
    | with_reducible rfl
    | with_reducible exact Nat.le_add_right _ _
    | intro _
    | with_reducible refine State.upd_later ?_ ?_ ?_ ?_ ?_ ?_
    | with_reducible apply State.sendAllPorts_later
    | with_reducible refine Later.ite ?_ ?_
    | with_reducible refine Later.iteFst ?_ ?_
    | with_reducible refine Later.foldl ?_ ?_
    | with_reducible refine Later.foldlFst ?_ ?_
    | with_reducible refine Later.fst ?_ (by assumption)
    | dsimp only
    | rw [State.mk_eq]
    | split
    | exact List.prefix_append _ _

theorem execMapLateInstall_later (content : List Byte) (s : State) {t' : State} (hE : execMapLateInstall content s = .next t') : Later s t' := by
  unfold execMapLateInstall at hE
  injection hE with hE
  subst hE
  have hL := Later.refl s
  repeat'
    first
    | with_reducible assumption
    | with_reducible exact Nat.le_refl _
    | with_reducible exact List.prefix_rfl
    | with_reducible rfl
    | with_reducible exact Nat.le_add_right _ _
    | intro _
    | with_reducible refine State.upd_later ?_ ?_ ?_ ?_ ?_ ?_
    | with_reducible apply State.installMap_later
    | with_reducible refine Later.ite ?_ ?_
    | with_reducible refine Later.iteFst ?_ ?_
    | with_reducible refine Later.foldl ?_ ?_
    | with_reducible refine Later.foldlFst ?_ ?_
    | with_reducible refine Later.fst ?_ (by assumption)
    | dsimp only
    | rw [State.mk_eq]
    | split
    | exact List.prefix_append _ _

theorem State.copyRound_later {s0 : State} (s : State) (m : ShardMove) (hL : Later s0 s) : Later s0 (State.copyRound s m) := by
  unfold State.copyRound
  repeat'
    first
    | with_reducible assumption
    | with_reducible exact Nat.le_refl _
    | with_reducible exact List.prefix_rfl
    | with_reducible rfl
    | with_reducible exact Nat.le_add_right _ _
    | intro _
    | with_reducible refine State.upd_later ?_ ?_ ?_ ?_ ?_ ?_
    | with_reducible apply State.sendTransfer_later
    | with_reducible refine Later.ite ?_ ?_
    | with_reducible refine Later.iteFst ?_ ?_
    | with_reducible refine Later.foldl ?_ ?_
    | with_reducible refine Later.foldlFst ?_ ?_
    | with_reducible refine Later.fst ?_ (by assumption)
    | dsimp only
    | rw [State.mk_eq]
    | split
    | exact List.prefix_append _ _

theorem execShardMoveStart_later (shard dest : Nat) (loads : Option (List FeatLoad)) (s : State) {t' : State} (hE : execShardMoveStart shard dest loads s = .next t') : Later s t' := by
  unfold execShardMoveStart at hE
  injection hE with hE
  subst hE
  have hL := Later.refl s
  repeat'
    first
    | with_reducible assumption
    | with_reducible exact Nat.le_refl _
    | with_reducible exact List.prefix_rfl
    | with_reducible rfl
    | with_reducible exact Nat.le_add_right _ _
    | intro _
    | with_reducible refine State.upd_later ?_ ?_ ?_ ?_ ?_ ?_
    | with_reducible apply State.copyRound_later
    | with_reducible apply State.announceMap_later
    | with_reducible refine Later.ite ?_ ?_
    | with_reducible refine Later.iteFst ?_ ?_
    | with_reducible refine Later.foldl ?_ ?_
    | with_reducible refine Later.foldlFst ?_ ?_
    | with_reducible refine Later.fst ?_ (by assumption)
    | dsimp only
    | rw [State.mk_eq]
    | split
    | exact List.prefix_append _ _

theorem execShardCopyComplete_later (shard : Nat) (s : State) {t' : State} (hE : execShardCopyComplete shard s = .next t') : Later s t' := by
  unfold execShardCopyComplete at hE
  injection hE with hE
  subst hE
  have hL := Later.refl s
  repeat'
    first
    | with_reducible assumption
    | with_reducible exact Nat.le_refl _
    | with_reducible exact List.prefix_rfl
    | with_reducible rfl
    | with_reducible exact Nat.le_add_right _ _
    | intro _
    | with_reducible refine State.upd_later ?_ ?_ ?_ ?_ ?_ ?_
    | with_reducible apply State.updMove_later
    | with_reducible apply State.shadowCopied_later
    | with_reducible apply State.copyRound_later
    | with_reducible apply State.announceNext_later
    | with_reducible refine Later.ite ?_ ?_
    | with_reducible refine Later.iteFst ?_ ?_
    | with_reducible refine Later.foldl ?_ ?_
    | with_reducible refine Later.foldlFst ?_ ?_
    | with_reducible refine Later.fst ?_ (by assumption)
    | dsimp only
    | rw [State.mk_eq]
    | split
    | exact List.prefix_append _ _

theorem State.dropShard_later {s0 : State} (s : State) (shard : Nat) (hL : Later s0 s) : Later s0 (State.dropShard s shard) := by
  unfold State.dropShard
  repeat'
    first
    | with_reducible assumption
    | with_reducible exact Nat.le_refl _
    | with_reducible exact List.prefix_rfl
    | with_reducible rfl
    | with_reducible exact Nat.le_add_right _ _
    | intro _
    | with_reducible refine State.upd_later ?_ ?_ ?_ ?_ ?_ ?_
    | with_reducible apply State.dropList_later
    | with_reducible apply State.discardUnits_later
    | with_reducible refine Later.ite ?_ ?_
    | with_reducible refine Later.iteFst ?_ ?_
    | with_reducible refine Later.foldl ?_ ?_
    | with_reducible refine Later.foldlFst ?_ ?_
    | with_reducible refine Later.fst ?_ (by assumption)
    | dsimp only
    | rw [State.mk_eq]
    | split
    | exact List.prefix_append _ _

theorem State.dropFeature_later {s0 : State} (s : State) (shard : Nat) (hL : Later s0 s) : Later s0 (State.dropFeature s shard) := by
  unfold State.dropFeature
  repeat'
    first
    | with_reducible assumption
    | with_reducible exact Nat.le_refl _
    | with_reducible exact List.prefix_rfl
    | with_reducible rfl
    | with_reducible exact Nat.le_add_right _ _
    | intro _
    | with_reducible refine State.upd_later ?_ ?_ ?_ ?_ ?_ ?_
    | with_reducible apply State.freeObj_later
    | with_reducible refine Later.ite ?_ ?_
    | with_reducible refine Later.iteFst ?_ ?_
    | with_reducible refine Later.foldl ?_ ?_
    | with_reducible refine Later.foldlFst ?_ ?_
    | with_reducible refine Later.fst ?_ (by assumption)
    | dsimp only
    | rw [State.mk_eq]
    | split
    | exact List.prefix_append _ _

theorem execShardFree_later (shard : Nat) (s : State) {t' : State} (hE : execShardFree shard s = .next t') : Later s t' := by
  unfold execShardFree at hE
  injection hE with hE
  subst hE
  have hL := Later.refl s
  repeat'
    first
    | with_reducible assumption
    | with_reducible exact Nat.le_refl _
    | with_reducible exact List.prefix_rfl
    | with_reducible rfl
    | with_reducible exact Nat.le_add_right _ _
    | intro _
    | with_reducible refine State.upd_later ?_ ?_ ?_ ?_ ?_ ?_
    | with_reducible apply State.dropShard_later
    | with_reducible apply State.dropFeature_later
    | with_reducible apply State.shadowTidy_later
    | with_reducible refine Later.ite ?_ ?_
    | with_reducible refine Later.iteFst ?_ ?_
    | with_reducible refine Later.foldl ?_ ?_
    | with_reducible refine Later.foldlFst ?_ ?_
    | with_reducible refine Later.fst ?_ (by assumption)
    | dsimp only
    | rw [State.mk_eq]
    | split
    | exact List.prefix_append _ _

theorem State.updLease_later {s0 : State} (s : State) (handle : Nat) (draining : Bool) (f : Lease → Lease) (hL : Later s0 s) : Later s0 (State.updLease s handle draining f) := by
  unfold State.updLease
  repeat'
    first
    | with_reducible assumption
    | with_reducible exact Nat.le_refl _
    | with_reducible exact List.prefix_rfl
    | with_reducible rfl
    | with_reducible exact Nat.le_add_right _ _
    | intro _
    | with_reducible refine State.upd_later ?_ ?_ ?_ ?_ ?_ ?_
    | with_reducible refine Later.ite ?_ ?_
    | with_reducible refine Later.iteFst ?_ ?_
    | with_reducible refine Later.foldl ?_ ?_
    | with_reducible refine Later.foldlFst ?_ ?_
    | with_reducible refine Later.fst ?_ (by assumption)
    | dsimp only
    | rw [State.mk_eq]
    | split
    | exact List.prefix_append _ _

theorem execTaken_later (src : Nat) (msg : List Byte) (s : State) {t' : State} (hE : execTaken src msg s = .next t') : Later s t' := by
  unfold execTaken at hE
  injection hE with hE
  subst hE
  have hL := Later.refl s
  repeat'
    first
    | with_reducible assumption
    | with_reducible exact Nat.le_refl _
    | with_reducible exact List.prefix_rfl
    | with_reducible rfl
    | with_reducible exact Nat.le_add_right _ _
    | intro _
    | with_reducible refine State.upd_later ?_ ?_ ?_ ?_ ?_ ?_
    | with_reducible apply State.updLease_later
    | with_reducible refine Later.ite ?_ ?_
    | with_reducible refine Later.iteFst ?_ ?_
    | with_reducible refine Later.foldl ?_ ?_
    | with_reducible refine Later.foldlFst ?_ ?_
    | with_reducible refine Later.fst ?_ (by assumption)
    | dsimp only
    | rw [State.mk_eq]
    | split
    | exact List.prefix_append _ _

theorem execAsk_later (src : Nat) (msg : List Byte) (s : State) {t' : State} (hE : execAsk src msg s = .next t') : Later s t' := by
  unfold execAsk at hE
  injection hE with hE
  subst hE
  have hL := Later.refl s
  repeat'
    first
    | with_reducible assumption
    | with_reducible exact Nat.le_refl _
    | with_reducible exact List.prefix_rfl
    | with_reducible rfl
    | with_reducible exact Nat.le_add_right _ _
    | intro _
    | with_reducible refine State.upd_later ?_ ?_ ?_ ?_ ?_ ?_
    | with_reducible apply State.sendLease_later
    | with_reducible refine Later.ite ?_ ?_
    | with_reducible refine Later.iteFst ?_ ?_
    | with_reducible refine Later.foldl ?_ ?_
    | with_reducible refine Later.foldlFst ?_ ?_
    | with_reducible refine Later.fst ?_ (by assumption)
    | dsimp only
    | rw [State.mk_eq]
    | split
    | exact List.prefix_append _ _

theorem execLeaseAnswer_later (src : Nat) (msg : List Byte) (s : State) {t' : State} (hE : execLeaseAnswer src msg s = .next t') : Later s t' := by
  unfold execLeaseAnswer at hE
  injection hE with hE
  subst hE
  have hL := Later.refl s
  repeat'
    first
    | with_reducible assumption
    | with_reducible exact Nat.le_refl _
    | with_reducible exact List.prefix_rfl
    | with_reducible rfl
    | with_reducible exact Nat.le_add_right _ _
    | intro _
    | with_reducible refine State.upd_later ?_ ?_ ?_ ?_ ?_ ?_
    | with_reducible apply State.updLease_later
    | with_reducible refine Later.ite ?_ ?_
    | with_reducible refine Later.iteFst ?_ ?_
    | with_reducible refine Later.foldl ?_ ?_
    | with_reducible refine Later.foldlFst ?_ ?_
    | with_reducible refine Later.fst ?_ (by assumption)
    | dsimp only
    | rw [State.mk_eq]
    | split
    | exact List.prefix_append _ _

theorem execResend_later (src : Nat) (msg : List Byte) (s : State) {t' : State} (hE : execResend src msg s = .next t') : Later s t' := by
  unfold execResend at hE
  injection hE with hE
  subst hE
  have hL := Later.refl s
  repeat'
    first
    | with_reducible assumption
    | with_reducible exact Nat.le_refl _
    | with_reducible exact List.prefix_rfl
    | with_reducible rfl
    | with_reducible exact Nat.le_add_right _ _
    | intro _
    | with_reducible refine State.upd_later ?_ ?_ ?_ ?_ ?_ ?_
    | with_reducible apply State.sendState_later
    | with_reducible refine Later.ite ?_ ?_
    | with_reducible refine Later.iteFst ?_ ?_
    | with_reducible refine Later.foldl ?_ ?_
    | with_reducible refine Later.foldlFst ?_ ?_
    | with_reducible refine Later.fst ?_ (by assumption)
    | dsimp only
    | rw [State.mk_eq]
    | split
    | exact List.prefix_append _ _

theorem State.askLeases_later {s0 : State} (s : State) (hL : Later s0 s) : Later s0 (State.askLeases s) := by
  unfold State.askLeases
  repeat'
    first
    | with_reducible assumption
    | with_reducible exact Nat.le_refl _
    | with_reducible exact List.prefix_rfl
    | with_reducible rfl
    | with_reducible exact Nat.le_add_right _ _
    | intro _
    | with_reducible refine State.upd_later ?_ ?_ ?_ ?_ ?_ ?_
    | with_reducible apply State.sendLease_later
    | with_reducible apply State.updLease_later
    | with_reducible refine Later.ite ?_ ?_
    | with_reducible refine Later.iteFst ?_ ?_
    | with_reducible refine Later.foldl ?_ ?_
    | with_reducible refine Later.foldlFst ?_ ?_
    | with_reducible refine Later.fst ?_ (by assumption)
    | dsimp only
    | rw [State.mk_eq]
    | split
    | exact List.prefix_append _ _

theorem execOrphanedQueries_later (handle t : Nat) (s : State) {t' : State} (hE : execOrphanedQueries handle t s = .next t') : Later s t' := by
  unfold execOrphanedQueries at hE
  injection hE with hE
  subst hE
  have hL := Later.refl s
  repeat'
    first
    | with_reducible assumption
    | with_reducible exact Nat.le_refl _
    | with_reducible exact List.prefix_rfl
    | with_reducible rfl
    | with_reducible exact Nat.le_add_right _ _
    | intro _
    | with_reducible refine State.upd_later ?_ ?_ ?_ ?_ ?_ ?_
    | with_reducible apply State.finishQuery_later
    | with_reducible apply State.advance_later
    | with_reducible apply State.tally_later
    | with_reducible apply State.toEmit_later
    | with_reducible refine Later.ite ?_ ?_
    | with_reducible refine Later.iteFst ?_ ?_
    | with_reducible refine Later.foldl ?_ ?_
    | with_reducible refine Later.foldlFst ?_ ?_
    | with_reducible refine Later.fst ?_ (by assumption)
    | dsimp only
    | rw [State.mk_eq]
    | split
    | exact List.prefix_append _ _

theorem execHotRowReplicate_later (ns table row : Nat) (s : State) {t' : State} (hE : execHotRowReplicate ns table row s = .next t') : Later s t' := by
  unfold execHotRowReplicate at hE
  injection hE with hE
  subst hE
  have hL := Later.refl s
  repeat'
    first
    | with_reducible assumption
    | with_reducible exact Nat.le_refl _
    | with_reducible exact List.prefix_rfl
    | with_reducible rfl
    | with_reducible exact Nat.le_add_right _ _
    | intro _
    | with_reducible refine State.upd_later ?_ ?_ ?_ ?_ ?_ ?_
    | with_reducible apply State.sendInvalidate_later
    | with_reducible apply State.sendTransfer_later
    | with_reducible refine Later.ite ?_ ?_
    | with_reducible refine Later.iteFst ?_ ?_
    | with_reducible refine Later.foldl ?_ ?_
    | with_reducible refine Later.foldlFst ?_ ?_
    | with_reducible refine Later.fst ?_ (by assumption)
    | dsimp only
    | rw [State.mk_eq]
    | split
    | exact List.prefix_append _ _

theorem execInvalidate_later (src : Nat) (body : List Byte) (s : State) {t' : State} (hE : execInvalidate src body s = .next t') : Later s t' := by
  unfold execInvalidate at hE
  injection hE with hE
  subst hE
  have hL := Later.refl s
  repeat'
    first
    | with_reducible assumption
    | with_reducible exact Nat.le_refl _
    | with_reducible exact List.prefix_rfl
    | with_reducible rfl
    | with_reducible exact Nat.le_add_right _ _
    | intro _
    | with_reducible refine State.upd_later ?_ ?_ ?_ ?_ ?_ ?_
    | with_reducible apply State.sendFrame_later
    | with_reducible refine Later.ite ?_ ?_
    | with_reducible refine Later.iteFst ?_ ?_
    | with_reducible refine Later.foldl ?_ ?_
    | with_reducible refine Later.foldlFst ?_ ?_
    | with_reducible refine Later.fst ?_ (by assumption)
    | dsimp only
    | rw [State.mk_eq]
    | split
    | exact List.prefix_append _ _

theorem execInvalidateAck_later (src : Nat) (body : List Byte) (s : State) {t' : State} (hE : execInvalidateAck src body s = .next t') : Later s t' := by
  unfold execInvalidateAck at hE
  injection hE with hE
  subst hE
  have hL := Later.refl s
  repeat'
    first
    | with_reducible assumption
    | with_reducible exact Nat.le_refl _
    | with_reducible exact List.prefix_rfl
    | with_reducible rfl
    | with_reducible exact Nat.le_add_right _ _
    | intro _
    | with_reducible refine State.upd_later ?_ ?_ ?_ ?_ ?_ ?_
    | with_reducible apply State.noteSettled_later
    | with_reducible refine Later.ite ?_ ?_
    | with_reducible refine Later.iteFst ?_ ?_
    | with_reducible refine Later.foldl ?_ ?_
    | with_reducible refine Later.foldlFst ?_ ?_
    | with_reducible refine Later.fst ?_ (by assumption)
    | dsimp only
    | rw [State.mk_eq]
    | split
    | exact List.prefix_append _ _

theorem execReplicaLeaseExpire_later (peer t : Nat) (s : State) {t' : State} (hE : execReplicaLeaseExpire peer t s = .next t') : Later s t' := by
  unfold execReplicaLeaseExpire at hE
  injection hE with hE
  subst hE
  have hL := Later.refl s
  repeat'
    first
    | with_reducible assumption
    | with_reducible exact Nat.le_refl _
    | with_reducible exact List.prefix_rfl
    | with_reducible rfl
    | with_reducible exact Nat.le_add_right _ _
    | intro _
    | with_reducible refine State.upd_later ?_ ?_ ?_ ?_ ?_ ?_
    | with_reducible apply State.syncReplicas_later
    | with_reducible apply State.advance_later
    | with_reducible refine Later.ite ?_ ?_
    | with_reducible refine Later.iteFst ?_ ?_
    | with_reducible refine Later.foldl ?_ ?_
    | with_reducible refine Later.foldlFst ?_ ?_
    | with_reducible refine Later.fst ?_ (by assumption)
    | dsimp only
    | rw [State.mk_eq]
    | split
    | exact List.prefix_append _ _

theorem execFoldBuildComplete_later (handle : Nat) (s : State) {t' : State} (hE : execFoldBuildComplete handle s = .next t') : Later s t' := by
  unfold execFoldBuildComplete at hE
  injection hE with hE
  subst hE
  have hL := Later.refl s
  repeat'
    first
    | with_reducible assumption
    | with_reducible exact Nat.le_refl _
    | with_reducible exact List.prefix_rfl
    | with_reducible rfl
    | with_reducible exact Nat.le_add_right _ _
    | intro _
    | with_reducible refine State.upd_later ?_ ?_ ?_ ?_ ?_ ?_
    | with_reducible apply State.noteNans_later
    | with_reducible refine Later.ite ?_ ?_
    | with_reducible refine Later.iteFst ?_ ?_
    | with_reducible refine Later.foldl ?_ ?_
    | with_reducible refine Later.foldlFst ?_ ?_
    | with_reducible refine Later.fst ?_ (by assumption)
    | dsimp only
    | rw [State.mk_eq]
    | split
    | exact List.prefix_append _ _

theorem execDirFull_later (list : Nat) (s : State) {t' : State} (hE : execDirFull list s = .next t') : Later s t' := by
  unfold execDirFull at hE
  injection hE with hE
  subst hE
  have hL := Later.refl s
  repeat'
    first
    | with_reducible assumption
    | with_reducible exact Nat.le_refl _
    | with_reducible exact List.prefix_rfl
    | with_reducible rfl
    | with_reducible exact Nat.le_add_right _ _
    | intro _
    | with_reducible refine State.upd_later ?_ ?_ ?_ ?_ ?_ ?_
    | with_reducible refine Later.ite ?_ ?_
    | with_reducible refine Later.iteFst ?_ ?_
    | with_reducible refine Later.foldl ?_ ?_
    | with_reducible refine Later.foldlFst ?_ ?_
    | with_reducible refine Later.fst ?_ (by assumption)
    | dsimp only
    | rw [State.mk_eq]
    | split
    | exact List.prefix_append _ _

theorem State.copyList_later {s0 : State} (s : State) (l : ListData) (v : Version) (list : Nat) (segs : List Segment) (hL : Later s0 s) : Later s0 (State.copyList s l v list segs).1 := by
  unfold State.copyList
  repeat'
    first
    | with_reducible assumption
    | with_reducible exact Nat.le_refl _
    | with_reducible exact List.prefix_rfl
    | with_reducible rfl
    | with_reducible exact Nat.le_add_right _ _
    | intro _
    | with_reducible refine State.upd_later ?_ ?_ ?_ ?_ ?_ ?_
    | with_reducible apply State.setList_later
    | with_reducible apply State.segObjects_later
    | with_reducible apply State.newList_later
    | with_reducible refine Later.ite ?_ ?_
    | with_reducible refine Later.iteFst ?_ ?_
    | with_reducible refine Later.foldl ?_ ?_
    | with_reducible refine Later.foldlFst ?_ ?_
    | with_reducible refine Later.fst ?_ (by assumption)
    | dsimp only
    | rw [State.mk_eq]
    | split
    | exact List.prefix_append _ _

theorem State.scheduleReorg_later {s0 : State} (s : State) (g : Reorg) (children : List Child) (parents : List Nat) (hL : Later s0 s) : Later s0 (State.scheduleReorg s g children parents) := by
  unfold State.scheduleReorg
  repeat'
    first
    | with_reducible assumption
    | with_reducible exact Nat.le_refl _
    | with_reducible exact List.prefix_rfl
    | with_reducible rfl
    | with_reducible exact Nat.le_add_right _ _
    | intro _
    | with_reducible refine State.upd_later ?_ ?_ ?_ ?_ ?_ ?_
    | with_reducible apply State.setList_later
    | with_reducible refine Later.ite ?_ ?_
    | with_reducible refine Later.iteFst ?_ ?_
    | with_reducible refine Later.foldl ?_ ?_
    | with_reducible refine Later.foldlFst ?_ ?_
    | with_reducible refine Later.fst ?_ (by assumption)
    | dsimp only
    | rw [State.mk_eq]
    | split
    | exact List.prefix_append _ _

theorem State.centroidSketch_later {s0 : State} (s : State) (v : Version) (c : List F32) (hL : Later s0 s) : Later s0 (State.centroidSketch s v c).1 := by
  unfold State.centroidSketch
  repeat'
    first
    | with_reducible assumption
    | with_reducible exact Nat.le_refl _
    | with_reducible exact List.prefix_rfl
    | with_reducible rfl
    | with_reducible exact Nat.le_add_right _ _
    | intro _
    | with_reducible refine State.upd_later ?_ ?_ ?_ ?_ ?_ ?_
    | with_reducible apply State.noteNans_later
    | with_reducible refine Later.ite ?_ ?_
    | with_reducible refine Later.iteFst ?_ ?_
    | with_reducible refine Later.foldl ?_ ?_
    | with_reducible refine Later.foldlFst ?_ ?_
    | with_reducible refine Later.fst ?_ (by assumption)
    | dsimp only
    | rw [State.mk_eq]
    | split
    | exact List.prefix_append _ _

theorem State.copyMerge_later {s0 : State} (s : State) (g : Reorg) (l : ListData) (rest : List ListData) (v : Version) (id : Nat) (centroid : List F32) (hs : List Nat) (hL : Later s0 s) : Later s0 (State.copyMerge s g l rest v id centroid hs) := by
  unfold State.copyMerge
  repeat'
    first
    | with_reducible assumption
    | with_reducible exact Nat.le_refl _
    | with_reducible exact List.prefix_rfl
    | with_reducible rfl
    | with_reducible exact Nat.le_add_right _ _
    | intro _
    | with_reducible refine State.upd_later ?_ ?_ ?_ ?_ ?_ ?_
    | with_reducible apply State.copyList_later
    | with_reducible apply State.centroidSketch_later
    | with_reducible apply State.scheduleReorg_later
    | with_reducible refine Later.ite ?_ ?_
    | with_reducible refine Later.iteFst ?_ ?_
    | with_reducible refine Later.foldl ?_ ?_
    | with_reducible refine Later.foldlFst ?_ ?_
    | with_reducible refine Later.fst ?_ (by assumption)
    | dsimp only
    | rw [State.mk_eq]
    | split
    | exact List.prefix_append _ _

theorem State.copySplit_later {s0 : State} (s : State) (g : Reorg) (l : ListData) (v : Version) (list idB : Nat) (centroidA centroidB : List F32) (hs : List Nat) (hL : Later s0 s) : Later s0 (State.copySplit s g l v list idB centroidA centroidB hs) := by
  unfold State.copySplit
  repeat'
    first
    | with_reducible assumption
    | with_reducible exact Nat.le_refl _
    | with_reducible exact List.prefix_rfl
    | with_reducible rfl
    | with_reducible exact Nat.le_add_right _ _
    | intro _
    | with_reducible refine State.upd_later ?_ ?_ ?_ ?_ ?_ ?_
    | with_reducible apply State.centroidSketch_later
    | with_reducible apply State.scheduleReorg_later
    | with_reducible apply State.copyList_later
    | with_reducible refine Later.ite ?_ ?_
    | with_reducible refine Later.iteFst ?_ ?_
    | with_reducible refine Later.foldl ?_ ?_
    | with_reducible refine Later.foldlFst ?_ ?_
    | with_reducible refine Later.fst ?_ (by assumption)
    | dsimp only
    | rw [State.mk_eq]
    | split
    | exact List.prefix_append _ _

theorem execSplitCopyComplete_later (list : Nat) (centroidA centroidB : List F32) (s : State) {t' : State} (hE : execSplitCopyComplete list centroidA centroidB s = .next t') : Later s t' := by
  unfold execSplitCopyComplete at hE
  injection hE with hE
  subst hE
  have hL := Later.refl s
  repeat'
    first
    | with_reducible assumption
    | with_reducible exact Nat.le_refl _
    | with_reducible exact List.prefix_rfl
    | with_reducible rfl
    | with_reducible exact Nat.le_add_right _ _
    | intro _
    | with_reducible refine State.upd_later ?_ ?_ ?_ ?_ ?_ ?_
    | with_reducible apply State.copyMerge_later
    | with_reducible apply State.copySplit_later
    | with_reducible refine Later.ite ?_ ?_
    | with_reducible refine Later.iteFst ?_ ?_
    | with_reducible refine Later.foldl ?_ ?_
    | with_reducible refine Later.foldlFst ?_ ?_
    | with_reducible refine Later.fst ?_ (by assumption)
    | dsimp only
    | rw [State.mk_eq]
    | split
    | exact List.prefix_append _ _

theorem State.rewriteEdges_later {s0 : State} (s : State) (old oldGen new newGen : Nat) (hL : Later s0 s) : Later s0 (State.rewriteEdges s old oldGen new newGen) := by
  unfold State.rewriteEdges
  repeat'
    first
    | with_reducible assumption
    | with_reducible exact Nat.le_refl _
    | with_reducible exact List.prefix_rfl
    | with_reducible rfl
    | with_reducible exact Nat.le_add_right _ _
    | intro _
    | with_reducible refine State.upd_later ?_ ?_ ?_ ?_ ?_ ?_
    | with_reducible refine Later.ite ?_ ?_
    | with_reducible refine Later.iteFst ?_ ?_
    | with_reducible refine Later.foldl ?_ ?_
    | with_reducible refine Later.foldlFst ?_ ?_
    | with_reducible refine Later.fst ?_ (by assumption)
    | dsimp only
    | rw [State.mk_eq]
    | split
    | exact List.prefix_append _ _

theorem State.retireList_later {s0 : State} (s : State) (handle f : Nat) (hL : Later s0 s) : Later s0 (State.retireList s handle f) := by
  unfold State.retireList
  repeat'
    first
    | with_reducible assumption
    | with_reducible exact Nat.le_refl _
    | with_reducible exact List.prefix_rfl
    | with_reducible rfl
    | with_reducible exact Nat.le_add_right _ _
    | intro _
    | with_reducible refine State.upd_later ?_ ?_ ?_ ?_ ?_ ?_
    | with_reducible apply State.setList_later
    | with_reducible refine Later.ite ?_ ?_
    | with_reducible refine Later.iteFst ?_ ?_
    | with_reducible refine Later.foldl ?_ ?_
    | with_reducible refine Later.foldlFst ?_ ?_
    | with_reducible refine Later.fst ?_ (by assumption)
    | dsimp only
    | rw [State.mk_eq]
    | split
    | exact List.prefix_append _ _

theorem State.applyReorg_later {s0 : State} (s : State) (g : Reorg) (f : Nat) (hL : Later s0 s) : Later s0 (State.applyReorg s g f) := by
  unfold State.applyReorg
  repeat'
    first
    | with_reducible assumption
    | with_reducible exact Nat.le_refl _
    | with_reducible exact List.prefix_rfl
    | with_reducible rfl
    | with_reducible exact Nat.le_add_right _ _
    | intro _
    | with_reducible refine State.upd_later ?_ ?_ ?_ ?_ ?_ ?_
    | with_reducible apply State.setEntry_later
    | with_reducible apply State.rewriteEdges_later
    | with_reducible apply State.tally_later
    | with_reducible apply State.freeEntry_later
    | with_reducible apply State.linkEntry_later
    | with_reducible apply State.retireList_later
    | with_reducible refine Later.ite ?_ ?_
    | with_reducible refine Later.iteFst ?_ ?_
    | with_reducible refine Later.foldl ?_ ?_
    | with_reducible refine Later.foldlFst ?_ ?_
    | with_reducible refine Later.fst ?_ (by assumption)
    | dsimp only
    | rw [State.mk_eq]
    | split
    | exact List.prefix_append _ _

theorem State.openDirectory_later {s0 : State} (s : State) (hL : Later s0 s) : Later s0 (State.openDirectory s) := by
  unfold State.openDirectory
  repeat'
    first
    | with_reducible assumption
    | with_reducible exact Nat.le_refl _
    | with_reducible exact List.prefix_rfl
    | with_reducible rfl
    | with_reducible exact Nat.le_add_right _ _
    | intro _
    | with_reducible refine State.upd_later ?_ ?_ ?_ ?_ ?_ ?_
    | with_reducible apply State.applyReorg_later
    | with_reducible apply State.admitReorgs_later
    | with_reducible refine Later.ite ?_ ?_
    | with_reducible refine Later.iteFst ?_ ?_
    | with_reducible refine Later.foldl ?_ ?_
    | with_reducible refine Later.foldlFst ?_ ?_
    | with_reducible refine Later.fst ?_ (by assumption)
    | dsimp only
    | rw [State.mk_eq]
    | split
    | exact List.prefix_append _ _

theorem State.centroidOf_later {s0 : State} (s : State) (v : Version) (e : DirEntry) (hL : Later s0 s) : Later s0 (State.centroidOf s v e).1 := by
  unfold State.centroidOf
  repeat'
    first
    | with_reducible assumption
    | with_reducible exact Nat.le_refl _
    | with_reducible exact List.prefix_rfl
    | with_reducible rfl
    | with_reducible exact Nat.le_add_right _ _
    | intro _
    | with_reducible refine State.upd_later ?_ ?_ ?_ ?_ ?_ ?_
    | with_reducible refine Later.ite ?_ ?_
    | with_reducible refine Later.iteFst ?_ ?_
    | with_reducible refine Later.foldl ?_ ?_
    | with_reducible refine Later.foldlFst ?_ ?_
    | with_reducible refine Later.fst ?_ (by assumption)
    | dsimp only
    | rw [State.mk_eq]
    | split
    | exact List.prefix_append _ _

theorem State.resketchCentroids_later {s0 : State} (s : State) (v : Version) (gen : Nat) (hL : Later s0 s) : Later s0 (State.resketchCentroids s v gen) := by
  unfold State.resketchCentroids
  repeat'
    first
    | with_reducible assumption
    | with_reducible exact Nat.le_refl _
    | with_reducible exact List.prefix_rfl
    | with_reducible rfl
    | with_reducible exact Nat.le_add_right _ _
    | intro _
    | with_reducible refine State.upd_later ?_ ?_ ?_ ?_ ?_ ?_
    | with_reducible apply State.centroidOf_later
    | with_reducible apply State.noteNans_later
    | with_reducible refine Later.ite ?_ ?_
    | with_reducible refine Later.iteFst ?_ ?_
    | with_reducible refine Later.foldl ?_ ?_
    | with_reducible refine Later.foldlFst ?_ ?_
    | with_reducible refine Later.fst ?_ (by assumption)
    | dsimp only
    | rw [State.mk_eq]
    | split
    | exact List.prefix_append _ _

theorem State.genElsewhere_later {s0 : State} (s : State) (hL : Later s0 s) : Later s0 (State.genElsewhere s).1 := by
  unfold State.genElsewhere
  repeat'
    first
    | with_reducible assumption
    | with_reducible exact Nat.le_refl _
    | with_reducible exact List.prefix_rfl
    | with_reducible rfl
    | with_reducible exact Nat.le_add_right _ _
    | intro _
    | with_reducible refine State.upd_later ?_ ?_ ?_ ?_ ?_ ?_
    | with_reducible refine Later.ite ?_ ?_
    | with_reducible refine Later.iteFst ?_ ?_
    | with_reducible refine Later.foldl ?_ ?_
    | with_reducible refine Later.foldlFst ?_ ?_
    | with_reducible refine Later.fst ?_ (by assumption)
    | dsimp only
    | rw [State.mk_eq]
    | split
    | exact List.prefix_append _ _

theorem State.stepProjection_later {s0 : State} (s : State) (n : Nat) (p : Projection) (hL : Later s0 s) : Later s0 (State.stepProjection s n p) := by
  unfold State.stepProjection
  repeat'
    first
    | with_reducible assumption
    | with_reducible exact Nat.le_refl _
    | with_reducible exact List.prefix_rfl
    | with_reducible rfl
    | with_reducible exact Nat.le_add_right _ _
    | intro _
    | with_reducible refine State.upd_later ?_ ?_ ?_ ?_ ?_ ?_
    | with_reducible apply State.resketchCentroids_later
    | with_reducible apply State.updVersion_later
    | with_reducible apply State.genElsewhere_later
    | with_reducible refine Later.ite ?_ ?_
    | with_reducible refine Later.iteFst ?_ ?_
    | with_reducible refine Later.foldl ?_ ?_
    | with_reducible refine Later.foldlFst ?_ ?_
    | with_reducible refine Later.fst ?_ (by assumption)
    | dsimp only
    | rw [State.mk_eq]
    | split
    | exact List.prefix_append _ _

theorem State.stepProjections_later {s0 : State} (s : State) (hL : Later s0 s) : Later s0 (State.stepProjections s) := by
  unfold State.stepProjections
  repeat'
    first
    | with_reducible assumption
    | with_reducible exact Nat.le_refl _
    | with_reducible exact List.prefix_rfl
    | with_reducible rfl
    | with_reducible exact Nat.le_add_right _ _
    | intro _
    | with_reducible refine State.upd_later ?_ ?_ ?_ ?_ ?_ ?_
    | with_reducible apply State.stepProjection_later
    | with_reducible refine Later.ite ?_ ?_
    | with_reducible refine Later.iteFst ?_ ?_
    | with_reducible refine Later.foldl ?_ ?_
    | with_reducible refine Later.foldlFst ?_ ?_
    | with_reducible refine Later.fst ?_ (by assumption)
    | dsimp only
    | rw [State.mk_eq]
    | split
    | exact List.prefix_append _ _

theorem State.startProjection_later {s0 : State} (s : State) (v : Version) (hL : Later s0 s) : Later s0 (State.startProjection s v) := by
  unfold State.startProjection
  repeat'
    first
    | with_reducible assumption
    | with_reducible exact Nat.le_refl _
    | with_reducible exact List.prefix_rfl
    | with_reducible rfl
    | with_reducible exact Nat.le_add_right _ _
    | intro _
    | with_reducible refine State.upd_later ?_ ?_ ?_ ?_ ?_ ?_
    | with_reducible refine Later.ite ?_ ?_
    | with_reducible refine Later.iteFst ?_ ?_
    | with_reducible refine Later.foldl ?_ ?_
    | with_reducible refine Later.foldlFst ?_ ?_
    | with_reducible refine Later.fst ?_ (by assumption)
    | dsimp only
    | rw [State.mk_eq]
    | split
    | exact List.prefix_append _ _

theorem State.takeProbes_later {s0 : State} (s : State) (hL : Later s0 s) : Later s0 (State.takeProbes s).1 := by
  unfold State.takeProbes
  repeat'
    first
    | with_reducible assumption
    | with_reducible exact Nat.le_refl _
    | with_reducible exact List.prefix_rfl
    | with_reducible rfl
    | with_reducible exact Nat.le_add_right _ _
    | intro _
    | with_reducible refine State.upd_later ?_ ?_ ?_ ?_ ?_ ?_
    | with_reducible refine Later.ite ?_ ?_
    | with_reducible refine Later.iteFst ?_ ?_
    | with_reducible refine Later.foldl ?_ ?_
    | with_reducible refine Later.foldlFst ?_ ?_
    | with_reducible refine Later.fst ?_ (by assumption)
    | dsimp only
    | rw [State.mk_eq]
    | split
    | exact List.prefix_append _ _

theorem State.sendProbes_later {s0 : State} (s : State) (sums : Table Nat) (hL : Later s0 s) : Later s0 (State.sendProbes s sums) := by
  unfold State.sendProbes
  repeat'
    first
    | with_reducible assumption
    | with_reducible exact Nat.le_refl _
    | with_reducible exact List.prefix_rfl
    | with_reducible rfl
    | with_reducible exact Nat.le_add_right _ _
    | intro _
    | with_reducible refine State.upd_later ?_ ?_ ?_ ?_ ?_ ?_
    | with_reducible apply State.addItem_later
    | with_reducible refine Later.ite ?_ ?_
    | with_reducible refine Later.iteFst ?_ ?_
    | with_reducible refine Later.foldl ?_ ?_
    | with_reducible refine Later.foldlFst ?_ ?_
    | with_reducible refine Later.fst ?_ (by assumption)
    | dsimp only
    | rw [State.mk_eq]
    | split
    | exact List.prefix_append _ _

theorem State.evaluateLists_later {s0 : State} (s : State) (hL : Later s0 s) : Later s0 (State.evaluateLists s) := by
  unfold State.evaluateLists
  repeat'
    first
    | with_reducible assumption
    | with_reducible exact Nat.le_refl _
    | with_reducible exact List.prefix_rfl
    | with_reducible rfl
    | with_reducible exact Nat.le_add_right _ _
    | intro _
    | with_reducible refine State.upd_later ?_ ?_ ?_ ?_ ?_ ?_
    | with_reducible apply State.startReorg_later
    | with_reducible apply State.startFold_later
    | with_reducible refine Later.ite ?_ ?_
    | with_reducible refine Later.iteFst ?_ ?_
    | with_reducible refine Later.foldl ?_ ?_
    | with_reducible refine Later.foldlFst ?_ ?_
    | with_reducible refine Later.fst ?_ (by assumption)
    | dsimp only
    | rw [State.mk_eq]
    | split
    | exact List.prefix_append _ _

theorem State.reportServed_later {s0 : State} (s : State) (hL : Later s0 s) : Later s0 (State.reportServed s) := by
  unfold State.reportServed
  repeat'
    first
    | with_reducible assumption
    | with_reducible exact Nat.le_refl _
    | with_reducible exact List.prefix_rfl
    | with_reducible rfl
    | with_reducible exact Nat.le_add_right _ _
    | intro _
    | with_reducible refine State.upd_later ?_ ?_ ?_ ?_ ?_ ?_
    | with_reducible apply State.emit_later
    | with_reducible refine Later.ite ?_ ?_
    | with_reducible refine Later.iteFst ?_ ?_
    | with_reducible refine Later.foldl ?_ ?_
    | with_reducible refine Later.foldlFst ?_ ?_
    | with_reducible refine Later.fst ?_ (by assumption)
    | dsimp only
    | rw [State.mk_eq]
    | split
    | exact List.prefix_append _ _

theorem State.runPeriod_later {s0 : State} (s : State) (hL : Later s0 s) : Later s0 (State.runPeriod s) := by
  unfold State.runPeriod
  repeat'
    first
    | with_reducible assumption
    | with_reducible exact Nat.le_refl _
    | with_reducible exact List.prefix_rfl
    | with_reducible rfl
    | with_reducible exact Nat.le_add_right _ _
    | intro _
    | with_reducible refine State.upd_later ?_ ?_ ?_ ?_ ?_ ?_
    | with_reducible apply State.takeProbes_later
    | with_reducible apply State.evaluateLists_later
    | with_reducible apply State.sendProbes_later
    | with_reducible apply State.reportServed_later
    | with_reducible apply State.count_later
    | with_reducible apply State.stepProjections_later
    | with_reducible apply State.checkFolds_later
    | with_reducible apply State.setEntry_later
    | with_reducible apply State.startProjection_later
    | with_reducible apply State.freeTables_later
    | with_reducible apply State.admitReorgs_later
    | with_reducible refine Later.ite ?_ ?_
    | with_reducible refine Later.iteFst ?_ ?_
    | with_reducible refine Later.foldl ?_ ?_
    | with_reducible refine Later.foldlFst ?_ ?_
    | with_reducible refine Later.fst ?_ (by assumption)
    | dsimp only
    | rw [State.mk_eq]
    | split
    | exact List.prefix_append _ _

theorem execMaintPeriod_later (t : Nat) (s : State) {t' : State} (hE : execMaintPeriod t s = .next t') : Later s t' := by
  unfold execMaintPeriod at hE
  injection hE with hE
  subst hE
  have hL := Later.refl s
  repeat'
    first
    | with_reducible assumption
    | with_reducible exact Nat.le_refl _
    | with_reducible exact List.prefix_rfl
    | with_reducible rfl
    | with_reducible exact Nat.le_add_right _ _
    | intro _
    | with_reducible refine State.upd_later ?_ ?_ ?_ ?_ ?_ ?_
    | with_reducible apply State.advance_later
    | with_reducible apply State.runPeriod_later
    | with_reducible refine Later.ite ?_ ?_
    | with_reducible refine Later.iteFst ?_ ?_
    | with_reducible refine Later.foldl ?_ ?_
    | with_reducible refine Later.foldlFst ?_ ?_
    | with_reducible refine Later.fst ?_ (by assumption)
    | dsimp only
    | rw [State.mk_eq]
    | split
    | exact List.prefix_append _ _

theorem State.dropStep_later {s0 : State} (s : State) (step : Nat) (hL : Later s0 s) : Later s0 (State.dropStep s step) := by
  unfold State.dropStep
  repeat'
    first
    | with_reducible assumption
    | with_reducible exact Nat.le_refl _
    | with_reducible exact List.prefix_rfl
    | with_reducible rfl
    | with_reducible exact Nat.le_add_right _ _
    | intro _
    | with_reducible refine State.upd_later ?_ ?_ ?_ ?_ ?_ ?_
    | with_reducible refine Later.ite ?_ ?_
    | with_reducible refine Later.iteFst ?_ ?_
    | with_reducible refine Later.foldl ?_ ?_
    | with_reducible refine Later.foldlFst ?_ ?_
    | with_reducible refine Later.fst ?_ (by assumption)
    | dsimp only
    | rw [State.mk_eq]
    | split
    | exact List.prefix_append _ _

theorem State.refitDone_later {s0 : State} (s : State) (list bits : Nat) (centroid : List F32) (hL : Later s0 s) : Later s0 (State.refitDone s list bits centroid) := by
  unfold State.refitDone
  repeat'
    first
    | with_reducible assumption
    | with_reducible exact Nat.le_refl _
    | with_reducible exact List.prefix_rfl
    | with_reducible rfl
    | with_reducible exact Nat.le_add_right _ _
    | intro _
    | with_reducible refine State.upd_later ?_ ?_ ?_ ?_ ?_ ?_
    | with_reducible apply State.noteNans_later
    | with_reducible apply State.tally_later
    | with_reducible refine Later.ite ?_ ?_
    | with_reducible refine Later.iteFst ?_ ?_
    | with_reducible refine Later.foldl ?_ ?_
    | with_reducible refine Later.foldlFst ?_ ?_
    | with_reducible refine Later.fst ?_ (by assumption)
    | dsimp only
    | rw [State.mk_eq]
    | split
    | exact List.prefix_append _ _

theorem State.fitDone_later {s0 : State} (s : State) (n : Nat) (hL : Later s0 s) : Later s0 (State.fitDone s n) := by
  unfold State.fitDone
  repeat'
    first
    | with_reducible assumption
    | with_reducible exact Nat.le_refl _
    | with_reducible exact List.prefix_rfl
    | with_reducible rfl
    | with_reducible exact Nat.le_add_right _ _
    | intro _
    | with_reducible refine State.upd_later ?_ ?_ ?_ ?_ ?_ ?_
    | with_reducible apply State.updVersion_later
    | with_reducible apply State.fitGen_later
    | with_reducible refine Later.ite ?_ ?_
    | with_reducible refine Later.iteFst ?_ ?_
    | with_reducible refine Later.foldl ?_ ?_
    | with_reducible refine Later.foldlFst ?_ ?_
    | with_reducible refine Later.fst ?_ (by assumption)
    | dsimp only
    | rw [State.mk_eq]
    | split
    | exact List.prefix_append _ _

theorem execMaintStepComplete_later (step : Nat) (centroid : List F32) (s : State) {t' : State} (hE : execMaintStepComplete step centroid s = .next t') : Later s t' := by
  unfold execMaintStepComplete at hE
  injection hE with hE
  subst hE
  have hL := Later.refl s
  repeat'
    first
    | with_reducible assumption
    | with_reducible exact Nat.le_refl _
    | with_reducible exact List.prefix_rfl
    | with_reducible rfl
    | with_reducible exact Nat.le_add_right _ _
    | intro _
    | with_reducible refine State.upd_later ?_ ?_ ?_ ?_ ?_ ?_
    | with_reducible apply State.refitDone_later
    | with_reducible apply State.fitDone_later
    | with_reducible apply State.dropStep_later
    | with_reducible refine Later.ite ?_ ?_
    | with_reducible refine Later.iteFst ?_ ?_
    | with_reducible refine Later.foldl ?_ ?_
    | with_reducible refine Later.foldlFst ?_ ?_
    | with_reducible refine Later.fst ?_ (by assumption)
    | dsimp only
    | rw [State.mk_eq]
    | split
    | exact List.prefix_append _ _

theorem execSegmentFree_later (seg : Nat) (s : State) {t' : State} (hE : execSegmentFree seg s = .next t') : Later s t' := by
  unfold execSegmentFree at hE
  injection hE with hE
  subst hE
  have hL := Later.refl s
  repeat'
    first
    | with_reducible assumption
    | with_reducible exact Nat.le_refl _
    | with_reducible exact List.prefix_rfl
    | with_reducible rfl
    | with_reducible exact Nat.le_add_right _ _
    | intro _
    | with_reducible refine State.upd_later ?_ ?_ ?_ ?_ ?_ ?_
    | with_reducible apply State.setList_later
    | with_reducible apply State.freeObj_later
    | with_reducible apply State.dropList_later
    | with_reducible refine Later.ite ?_ ?_
    | with_reducible refine Later.iteFst ?_ ?_
    | with_reducible refine Later.foldl ?_ ?_
    | with_reducible refine Later.foldlFst ?_ ?_
    | with_reducible refine Later.fst ?_ (by assumption)
    | dsimp only
    | rw [State.mk_eq]
    | split
    | exact List.prefix_append _ _

theorem State.sweep_later {s0 : State} (s : State) (edges : List (Nat × List Nat)) (named : List Nat) (hL : Later s0 s) : Later s0 (State.sweep s edges named) := by
  unfold State.sweep
  repeat'
    first
    | with_reducible assumption
    | with_reducible exact Nat.le_refl _
    | with_reducible exact List.prefix_rfl
    | with_reducible rfl
    | with_reducible exact Nat.le_add_right _ _
    | intro _
    | with_reducible refine State.upd_later ?_ ?_ ?_ ?_ ?_ ?_
    | with_reducible apply State.freeEntry_later
    | with_reducible apply State.setEntry_later
    | with_reducible refine Later.ite ?_ ?_
    | with_reducible refine Later.iteFst ?_ ?_
    | with_reducible refine Later.foldl ?_ ?_
    | with_reducible refine Later.foldlFst ?_ ?_
    | with_reducible refine Later.fst ?_ (by assumption)
    | dsimp only
    | rw [State.mk_eq]
    | split
    | exact List.prefix_append _ _

theorem execEdgeSweep_later (t : Nat) (view : SweepView) (s : State) {t' : State} (hE : execEdgeSweep t view s = .next t') : Later s t' := by
  unfold execEdgeSweep at hE
  injection hE with hE
  subst hE
  have hL := Later.refl s
  repeat'
    first
    | with_reducible assumption
    | with_reducible exact Nat.le_refl _
    | with_reducible exact List.prefix_rfl
    | with_reducible rfl
    | with_reducible exact Nat.le_add_right _ _
    | intro _
    | with_reducible refine State.upd_later ?_ ?_ ?_ ?_ ?_ ?_
    | with_reducible apply State.sweep_later
    | with_reducible apply State.advance_later
    | with_reducible refine Later.ite ?_ ?_
    | with_reducible refine Later.iteFst ?_ ?_
    | with_reducible refine Later.foldl ?_ ?_
    | with_reducible refine Later.foldlFst ?_ ?_
    | with_reducible refine Later.fst ?_ (by assumption)
    | dsimp only
    | rw [State.mk_eq]
    | split
    | exact List.prefix_append _ _

end Sys2Proof.Machine
end

