-- ==== Sys2Proof/Laws/Later6.lean ====
section
/-! SUPPORT. The operations of Beacons, Flash, Receipts, FnOps, PlaceOps, Origin move no clock, epoch or draw count back, take back nothing sent and leave the queue and the silicon alone. -/
set_option Elab.async false
set_option linter.all false

namespace Sys2Proof.Machine

theorem State.pingHolders_later {s0 : State} (s : State) (hL : Later s0 s) : Later s0 (State.pingHolders s) := by
  unfold State.pingHolders
  repeat'
    first
    | with_reducible assumption
    | with_reducible exact Nat.le_refl _
    | with_reducible exact List.prefix_rfl
    | with_reducible rfl
    | with_reducible exact Nat.le_add_right _ _
    | intro _
    | with_reducible refine State.upd_later ?_ ?_ ?_ ?_ ?_ ?_
    | with_reducible apply State.sendInvalidate_later
    | with_reducible refine Later.ite ?_ ?_
    | with_reducible refine Later.iteFst ?_ ?_
    | with_reducible refine Later.foldl ?_ ?_
    | with_reducible refine Later.foldlFst ?_ ?_
    | with_reducible refine Later.fst ?_ (by assumption)
    | dsimp only
    | rw [State.mk_eq]
    | split
    | exact List.prefix_append _ _

theorem State.openDeltas_later {s0 : State} (s : State) (hL : Later s0 s) : Later s0 (State.openDeltas s) := by
  unfold State.openDeltas
  repeat'
    first
    | with_reducible assumption
    | with_reducible exact Nat.le_refl _
    | with_reducible exact List.prefix_rfl
    | with_reducible rfl
    | with_reducible exact Nat.le_add_right _ _
    | intro _
    | with_reducible refine State.upd_later ?_ ?_ ?_ ?_ ?_ ?_
    | with_reducible apply State.needDelta_later
    | with_reducible refine Later.ite ?_ ?_
    | with_reducible refine Later.iteFst ?_ ?_
    | with_reducible refine Later.foldl ?_ ?_
    | with_reducible refine Later.foldlFst ?_ ?_
    | with_reducible refine Later.fst ?_ (by assumption)
    | dsimp only
    | rw [State.mk_eq]
    | split
    | exact List.prefix_append _ _

theorem State.openEpoch_later {s0 : State} (s : State) (b : BeaconBody) (hb : s0.epochs.open_ ≤ b.closed + 1) (hL : Later s0 s) :
    Later s0 (s.openEpoch b) := by
  unfold State.openEpoch
  dsimp only
  apply State.askLeases_later
  apply State.pingHolders_later
  apply State.stepProjections_later
  apply State.openMaps_later
  apply State.syncFeatures_later
  apply State.openDeltas_later
  apply State.switchFolds_later
  apply State.openDirectory_later
  apply State.openVersions_later
  apply State.openCatalog_later
  exact ⟨hL.queue, hL.clock, Or.inl hb, hL.draws, hL.sent, hL.silicon, ⟨hL.kept.staged, hL.kept.starts, hL.kept.leaves, hL.kept.trees, hL.kept.records, hL.kept.counted, hL.kept.mail, hL.kept.ring⟩⟩

theorem State.learnSwitch_later {s0 : State} (s : State) (b : BeaconBody) (hL : Later s0 s) : Later s0 (State.learnSwitch s b) := by
  unfold State.learnSwitch
  repeat'
    first
    | with_reducible assumption
    | with_reducible exact Nat.le_refl _
    | with_reducible exact List.prefix_rfl
    | with_reducible rfl
    | with_reducible exact Nat.le_add_right _ _
    | intro _
    | with_reducible refine State.upd_later ?_ ?_ ?_ ?_ ?_ ?_
    | with_reducible apply State.adminDone_later
    | with_reducible apply State.updVersion_later
    | with_reducible refine Later.ite ?_ ?_
    | with_reducible refine Later.iteFst ?_ ?_
    | with_reducible refine Later.foldl ?_ ?_
    | with_reducible refine Later.foldlFst ?_ ?_
    | with_reducible refine Later.fst ?_ (by assumption)
    | dsimp only
    | rw [State.mk_eq]
    | split
    | exact List.prefix_append _ _

theorem execBeaconEmit_later (t : Nat) (s : State) {t' : State} (hE : execBeaconEmit t s = .next t') : Later s t' := by
  unfold execBeaconEmit at hE
  injection hE with hE
  subst hE
  have hA := State.advance_later s t (Later.refl s)
  dsimp only
  refine Later.ite (fun _ => hA) (fun _ => ?_)
  refine State.openEpoch_later _ _ (by rw [State.advance_epochs]; exact Nat.le_succ _) ?_
  have hB : Later s (if (s.advance t).mgmt.sealed_ = true then (s.advance t).sendAllPorts none 5 (beaconBytes (BeaconBody.mk (s.advance t).epochs.open_
      ((s.advance t).setting 0x2700 1 1000) (s.advance t).mgmt.moduleId
      ((firstBy (fun (a b : Nat × Nat × Nat × Nat) => decide (a.2.2.2 < b.2.2.2))
        ((s.advance t).epochs.switches.filter fun t' => decide (t'.2.2.2 > (s.advance t).epochs.open_))).isSome)
      (((firstBy (fun (a b : Nat × Nat × Nat × Nat) => decide (a.2.2.2 < b.2.2.2))
        ((s.advance t).epochs.switches.filter fun t' => decide (t'.2.2.2 > (s.advance t).epochs.open_))).map (·.1)).getD 0)
      (((firstBy (fun (a b : Nat × Nat × Nat × Nat) => decide (a.2.2.2 < b.2.2.2))
        ((s.advance t).epochs.switches.filter fun t' => decide (t'.2.2.2 > (s.advance t).epochs.open_))).map (·.2.2.2)).getD 0))) else s.advance t) :=
    Later.ite (fun _ => State.sendAllPorts_later _ _ _ _ hA) (fun _ => hA)
  exact ⟨hB.queue, hB.clock, hB.epoch, hB.draws, hB.sent, hB.silicon, ⟨hB.kept.staged, hB.kept.starts, hB.kept.leaves, hB.kept.trees, hB.kept.records, hB.kept.counted, hB.kept.mail, hB.kept.ring⟩⟩

theorem State.noteBeacon_later {s0 : State} (s : State) (b : BeaconBody) (hL : Later s0 s) : Later s0 (State.noteBeacon s b) := by
  unfold State.noteBeacon
  repeat'
    first
    | with_reducible assumption
    | with_reducible exact Nat.le_refl _
    | with_reducible exact List.prefix_rfl
    | with_reducible rfl
    | with_reducible exact Nat.le_add_right _ _
    | intro _
    | with_reducible refine State.upd_later ?_ ?_ ?_ ?_ ?_ ?_
    | with_reducible refine Later.ite ?_ ?_
    | with_reducible refine Later.iteFst ?_ ?_
    | with_reducible refine Later.foldl ?_ ?_
    | with_reducible refine Later.foldlFst ?_ ?_
    | with_reducible refine Later.fst ?_ (by assumption)
    | dsimp only
    | rw [State.mk_eq]
    | split
    | exact List.prefix_append _ _

theorem execBeaconReceive_later (port : Nat) (beacon : List Byte) (s : State) {t' : State} (hE : execBeaconReceive port beacon s = .next t') : Later s t' := by
  unfold execBeaconReceive at hE
  injection hE with hE
  subst hE
  have hN := State.noteBeacon_later s (parseBeacon beacon) (Later.refl s)
  dsimp only
  refine Later.ite (fun _ => Later.refl s) (fun _ => ?_)
  refine Later.ite (fun _ => hN) (fun hc => ?_)
  refine State.openEpoch_later _ _ ?_ ?_
  · have hn : (s.noteBeacon (parseBeacon beacon)).epochs.open_ = s.epochs.open_ := by unfold State.noteBeacon; dsimp only; repeat' (first | rfl | split)
    omega
  · exact State.sendAllPorts_later _ _ _ _ (State.learnSwitch_later _ _ hN)

theorem execLeaderTakeover_later (t : Nat) (s : State) {t' : State} (hE : execLeaderTakeover t s = .next t') : Later s t' := by
  unfold execLeaderTakeover at hE
  injection hE with hE
  subst hE
  have hL := Later.refl s
  repeat'
    first
    | with_reducible assumption
    | with_reducible exact Nat.le_refl _
    | with_reducible exact List.prefix_rfl
    | with_reducible rfl
    | with_reducible exact Nat.le_add_right _ _
    | intro _
    | with_reducible refine State.upd_later ?_ ?_ ?_ ?_ ?_ ?_
    | with_reducible apply State.advance_later
    | with_reducible refine Later.ite ?_ ?_
    | with_reducible refine Later.iteFst ?_ ?_
    | with_reducible refine Later.foldl ?_ ?_
    | with_reducible refine Later.foldlFst ?_ ?_
    | with_reducible refine Later.fst ?_ (by assumption)
    | dsimp only
    | rw [State.mk_eq]
    | split
    | exact List.prefix_append _ _

theorem execEpochClosureRecord_later (s : State) {t' : State} (hE : execEpochClosureRecord s = .next t') : Later s t' := by
  unfold execEpochClosureRecord at hE
  injection hE with hE
  subst hE
  have hL := Later.refl s
  repeat'
    first
    | with_reducible assumption
    | with_reducible exact Nat.le_refl _
    | with_reducible exact List.prefix_rfl
    | with_reducible rfl
    | with_reducible exact Nat.le_add_right _ _
    | intro _
    | with_reducible refine State.upd_later ?_ ?_ ?_ ?_ ?_ ?_
    | with_reducible apply State.count_later
    | with_reducible apply State.advance_later
    | with_reducible refine Later.ite ?_ ?_
    | with_reducible refine Later.iteFst ?_ ?_
    | with_reducible refine Later.foldl ?_ ?_
    | with_reducible refine Later.foldlFst ?_ ?_
    | with_reducible refine Later.fst ?_ (by assumption)
    | dsimp only
    | rw [State.mk_eq]
    | split
    | exact List.prefix_append _ _

theorem execBeaconGaps_later (t : Nat) (s : State) {t' : State} (hE : execBeaconGaps t s = .next t') : Later s t' := by
  unfold execBeaconGaps at hE
  injection hE with hE
  subst hE
  have hL := Later.refl s
  repeat'
    first
    | with_reducible assumption
    | with_reducible exact Nat.le_refl _
    | with_reducible exact List.prefix_rfl
    | with_reducible rfl
    | with_reducible exact Nat.le_add_right _ _
    | intro _
    | with_reducible refine State.upd_later ?_ ?_ ?_ ?_ ?_ ?_
    | with_reducible apply State.logState_later
    | with_reducible apply State.advance_later
    | with_reducible apply State.tally_later
    | with_reducible refine Later.ite ?_ ?_
    | with_reducible refine Later.iteFst ?_ ?_
    | with_reducible refine Later.foldl ?_ ?_
    | with_reducible refine Later.foldlFst ?_ ?_
    | with_reducible refine Later.fst ?_ (by assumption)
    | dsimp only
    | rw [State.mk_eq]
    | split
    | exact List.prefix_append _ _

theorem State.retireDie_later {s0 : State} (s : State) (chan die : Nat) (hL : Later s0 s) : Later s0 (State.retireDie s chan die) := by
  unfold State.retireDie
  repeat'
    first
    | with_reducible assumption
    | with_reducible exact Nat.le_refl _
    | with_reducible exact List.prefix_rfl
    | with_reducible rfl
    | with_reducible exact Nat.le_add_right _ _
    | intro _
    | with_reducible refine State.upd_later ?_ ?_ ?_ ?_ ?_ ?_
    | with_reducible apply State.updRow_later
    | with_reducible apply State.setThrottle_later
    | with_reducible apply State.settle_later
    | with_reducible apply State.journal_later
    | with_reducible apply State.checkReadOnly_later
    | with_reducible apply State.logEvent_later
    | with_reducible apply State.tally_later
    | with_reducible apply State.updSb_later
    | with_reducible apply State.markRetired_later
    | with_reducible refine Later.ite ?_ ?_
    | with_reducible refine Later.iteFst ?_ ?_
    | with_reducible refine Later.foldl ?_ ?_
    | with_reducible refine Later.foldlFst ?_ ?_
    | with_reducible refine Later.fst ?_ (by assumption)
    | dsimp only
    | rw [State.mk_eq]
    | split
    | exact List.prefix_append _ _

theorem State.retireBlock_later {s0 : State} (s : State) (r n c : Nat) (hL : Later s0 s) : Later s0 (State.retireBlock s r n c) := by
  unfold State.retireBlock
  repeat'
    first
    | with_reducible assumption
    | with_reducible exact Nat.le_refl _
    | with_reducible exact List.prefix_rfl
    | with_reducible rfl
    | with_reducible exact Nat.le_add_right _ _
    | intro _
    | with_reducible refine State.upd_later ?_ ?_ ?_ ?_ ?_ ?_
    | with_reducible apply State.score_later
    | with_reducible apply State.settle_later
    | with_reducible apply State.tally_later
    | with_reducible apply State.updSb_later
    | with_reducible apply State.retireDie_later
    | with_reducible refine Later.ite ?_ ?_
    | with_reducible refine Later.iteFst ?_ ?_
    | with_reducible refine Later.foldl ?_ ?_
    | with_reducible refine Later.foldlFst ?_ ?_
    | with_reducible refine Later.fst ?_ (by assumption)
    | dsimp only
    | rw [State.mk_eq]
    | split
    | exact List.prefix_append _ _

theorem State.retryRead_later {s0 : State} (s : State) (r n c level : Nat) (hL : Later s0 s) : Later s0 (State.retryRead s r n c level) := by
  unfold State.retryRead
  repeat'
    first
    | with_reducible assumption
    | with_reducible exact Nat.le_refl _
    | with_reducible exact List.prefix_rfl
    | with_reducible rfl
    | with_reducible exact Nat.le_add_right _ _
    | intro _
    | with_reducible refine State.upd_later ?_ ?_ ?_ ?_ ?_ ?_
    | with_reducible apply State.score_later
    | with_reducible apply State.settle_later
    | with_reducible apply State.tally_later
    | with_reducible apply State.updSb_later
    | with_reducible refine Later.ite ?_ ?_
    | with_reducible refine Later.iteFst ?_ ?_
    | with_reducible refine Later.foldl ?_ ?_
    | with_reducible refine Later.foldlFst ?_ ?_
    | with_reducible refine Later.fst ?_ (by assumption)
    | dsimp only
    | rw [State.mk_eq]
    | split
    | exact List.prefix_append _ _

theorem State.rebuildUnit_later {s0 : State} (s : State) (lba entry : Nat) (data : List Byte) (r n c : Nat) (hL : Later s0 s) : Later s0 (State.rebuildUnit s lba entry data r n c) := by
  unfold State.rebuildUnit
  repeat'
    first
    | with_reducible assumption
    | with_reducible exact Nat.le_refl _
    | with_reducible exact List.prefix_rfl
    | with_reducible rfl
    | with_reducible exact Nat.le_add_right _ _
    | intro _
    | with_reducible refine State.upd_later ?_ ?_ ?_ ?_ ?_ ?_
    | with_reducible apply State.score_later
    | with_reducible apply State.assignUnit_later
    | with_reducible apply State.settle_later
    | with_reducible apply State.count_later
    | with_reducible apply State.tally_later
    | with_reducible apply State.retireBlock_later
    | with_reducible refine Later.ite ?_ ?_
    | with_reducible refine Later.iteFst ?_ ?_
    | with_reducible refine Later.foldl ?_ ?_
    | with_reducible refine Later.foldlFst ?_ ?_
    | with_reducible refine Later.fst ?_ (by assumption)
    | dsimp only
    | rw [State.mk_eq]
    | split
    | exact List.prefix_append _ _

theorem execFlashUnitRead_later (lba : Nat) (level : Option Nat) (rebuilt : Bool) (s : State) {t' : State} (hE : execFlashUnitRead lba level rebuilt s = .next t') : Later s t' := by
  unfold execFlashUnitRead at hE
  injection hE with hE
  subst hE
  have hL := Later.refl s
  repeat'
    first
    | with_reducible assumption
    | with_reducible exact Nat.le_refl _
    | with_reducible exact List.prefix_rfl
    | with_reducible rfl
    | with_reducible exact Nat.le_add_right _ _
    | intro _
    | with_reducible refine State.upd_later ?_ ?_ ?_ ?_ ?_ ?_
    | with_reducible apply State.wake_later
    | with_reducible apply State.retryRead_later
    | with_reducible apply State.count_later
    | with_reducible apply State.rebuildUnit_later
    | with_reducible apply State.tally_later
    | with_reducible apply State.spendCycles_later
    | with_reducible refine Later.ite ?_ ?_
    | with_reducible refine Later.iteFst ?_ ?_
    | with_reducible refine Later.foldl ?_ ?_
    | with_reducible refine Later.foldlFst ?_ ?_
    | with_reducible refine Later.fst ?_ (by assumption)
    | dsimp only
    | rw [State.mk_eq]
    | split
    | exact List.prefix_append _ _

theorem State.tryParity_later {s0 : State} (s : State) (r n p : Nat) (hL : Later s0 s) : Later s0 (State.tryParity s r n p) := by
  unfold State.tryParity
  repeat'
    first
    | with_reducible assumption
    | with_reducible exact Nat.le_refl _
    | with_reducible exact List.prefix_rfl
    | with_reducible rfl
    | with_reducible exact Nat.le_add_right _ _
    | intro _
    | with_reducible refine State.upd_later ?_ ?_ ?_ ?_ ?_ ?_
    | with_reducible apply State.issueProgram_later
    | with_reducible refine Later.ite ?_ ?_
    | with_reducible refine Later.iteFst ?_ ?_
    | with_reducible refine Later.foldl ?_ ?_
    | with_reducible refine Later.foldlFst ?_ ?_
    | with_reducible refine Later.fst ?_ (by assumption)
    | dsimp only
    | rw [State.mk_eq]
    | split
    | exact List.prefix_append _ _

theorem State.startPages_later {s0 : State} (s : State) (hL : Later s0 s) : Later s0 (State.startPages s) := by
  unfold State.startPages
  repeat'
    first
    | with_reducible assumption
    | with_reducible exact Nat.le_refl _
    | with_reducible exact List.prefix_rfl
    | with_reducible rfl
    | with_reducible exact Nat.le_add_right _ _
    | intro _
    | with_reducible refine State.upd_later ?_ ?_ ?_ ?_ ?_ ?_
    | with_reducible apply State.tryProgram_later
    | with_reducible apply State.tryParity_later
    | with_reducible refine Later.ite ?_ ?_
    | with_reducible refine Later.iteFst ?_ ?_
    | with_reducible refine Later.foldl ?_ ?_
    | with_reducible refine Later.foldlFst ?_ ?_
    | with_reducible refine Later.fst ?_ (by assumption)
    | dsimp only
    | rw [State.mk_eq]
    | split
    | exact List.prefix_append _ _

theorem State.reassign_later {s0 : State} (s : State) (k : Nat) (p : FlashPage) (hL : Later s0 s) : Later s0 (State.reassign s k p) := by
  unfold State.reassign
  repeat'
    first
    | with_reducible assumption
    | with_reducible exact Nat.le_refl _
    | with_reducible exact List.prefix_rfl
    | with_reducible rfl
    | with_reducible exact Nat.le_add_right _ _
    | intro _
    | with_reducible refine State.upd_later ?_ ?_ ?_ ?_ ?_ ?_
    | with_reducible apply State.assignUnit_later
    | with_reducible refine Later.ite ?_ ?_
    | with_reducible refine Later.iteFst ?_ ?_
    | with_reducible refine Later.foldl ?_ ?_
    | with_reducible refine Later.foldlFst ?_ ?_
    | with_reducible refine Later.fst ?_ (by assumption)
    | dsimp only
    | rw [State.mk_eq]
    | split
    | exact List.prefix_append _ _

theorem execPageProgramComplete_later (page : Nat) (ok : Bool) (s : State) {t' : State} (hE : execPageProgramComplete page ok s = .next t') : Later s t' := by
  unfold execPageProgramComplete at hE
  injection hE with hE
  subst hE
  have hL := Later.refl s
  repeat'
    first
    | with_reducible assumption
    | with_reducible exact Nat.le_refl _
    | with_reducible exact List.prefix_rfl
    | with_reducible rfl
    | with_reducible exact Nat.le_add_right _ _
    | intro _
    | with_reducible refine State.upd_later ?_ ?_ ?_ ?_ ?_ ?_
    | with_reducible apply State.freeRow_later
    | with_reducible apply State.reassign_later
    | with_reducible apply State.setThrottle_later
    | with_reducible apply State.count_later
    | with_reducible apply State.tryParity_later
    | with_reducible apply State.advance_later
    | with_reducible apply State.tally_later
    | with_reducible apply State.retireBlock_later
    | with_reducible apply State.freeBuffers_later
    | with_reducible refine Later.ite ?_ ?_
    | with_reducible refine Later.iteFst ?_ ?_
    | with_reducible refine Later.foldl ?_ ?_
    | with_reducible refine Later.foldlFst ?_ ?_
    | with_reducible refine Later.fst ?_ (by assumption)
    | dsimp only
    | rw [State.mk_eq]
    | split
    | exact List.prefix_append _ _

theorem execDiscard_later (first count owner : Nat) (s : State) {t' : State} (hE : execDiscard first count owner s = .next t') : Later s t' := by
  unfold execDiscard at hE
  injection hE with hE
  subst hE
  have hL := Later.refl s
  repeat'
    first
    | with_reducible assumption
    | with_reducible exact Nat.le_refl _
    | with_reducible exact List.prefix_rfl
    | with_reducible rfl
    | with_reducible exact Nat.le_add_right _ _
    | intro _
    | with_reducible refine State.upd_later ?_ ?_ ?_ ?_ ?_ ?_
    | with_reducible apply State.discard_later
    | with_reducible apply State.count_later
    | with_reducible refine Later.ite ?_ ?_
    | with_reducible refine Later.iteFst ?_ ?_
    | with_reducible refine Later.foldl ?_ ?_
    | with_reducible refine Later.foldlFst ?_ ?_
    | with_reducible refine Later.fst ?_ (by assumption)
    | dsimp only
    | rw [State.mk_eq]
    | split
    | exact List.prefix_append _ _

theorem State.journalPage_later {s0 : State} (s : State) (hL : Later s0 s) : Later s0 (State.journalPage s) := by
  unfold State.journalPage
  repeat'
    first
    | with_reducible assumption
    | with_reducible exact Nat.le_refl _
    | with_reducible exact List.prefix_rfl
    | with_reducible rfl
    | with_reducible exact Nat.le_add_right _ _
    | intro _
    | with_reducible refine State.upd_later ?_ ?_ ?_ ?_ ?_ ?_
    | with_reducible apply State.count_later
    | with_reducible apply State.emit_later
    | with_reducible apply State.startPages_later
    | with_reducible refine Later.ite ?_ ?_
    | with_reducible refine Later.iteFst ?_ ?_
    | with_reducible refine Later.foldl ?_ ?_
    | with_reducible refine Later.foldlFst ?_ ?_
    | with_reducible refine Later.fst ?_ (by assumption)
    | dsimp only
    | rw [State.mk_eq]
    | split
    | exact List.prefix_append _ _

theorem execJournalPageProgram_later (t : Nat) (s : State) {t' : State} (hE : execJournalPageProgram t s = .next t') : Later s t' := by
  unfold execJournalPageProgram at hE
  injection hE with hE
  subst hE
  have hL := Later.refl s
  repeat'
    first
    | with_reducible assumption
    | with_reducible exact Nat.le_refl _
    | with_reducible exact List.prefix_rfl
    | with_reducible rfl
    | with_reducible exact Nat.le_add_right _ _
    | intro _
    | with_reducible refine State.upd_later ?_ ?_ ?_ ?_ ?_ ?_
    | with_reducible apply State.journalPage_later
    | with_reducible apply State.advance_later
    | with_reducible refine Later.ite ?_ ?_
    | with_reducible refine Later.iteFst ?_ ?_
    | with_reducible refine Later.foldl ?_ ?_
    | with_reducible refine Later.foldlFst ?_ ?_
    | with_reducible refine Later.fst ?_ (by assumption)
    | dsimp only
    | rw [State.mk_eq]
    | split
    | exact List.prefix_append _ _

theorem State.startCheckpoint_later {s0 : State} (s : State) (hL : Later s0 s) : Later s0 (State.startCheckpoint s) := by
  unfold State.startCheckpoint
  repeat'
    first
    | with_reducible assumption
    | with_reducible exact Nat.le_refl _
    | with_reducible exact List.prefix_rfl
    | with_reducible rfl
    | with_reducible exact Nat.le_add_right _ _
    | intro _
    | with_reducible refine State.upd_later ?_ ?_ ?_ ?_ ?_ ?_
    | with_reducible apply State.journal_later
    | with_reducible refine Later.ite ?_ ?_
    | with_reducible refine Later.iteFst ?_ ?_
    | with_reducible refine Later.foldl ?_ ?_
    | with_reducible refine Later.foldlFst ?_ ?_
    | with_reducible refine Later.fst ?_ (by assumption)
    | dsimp only
    | rw [State.mk_eq]
    | split
    | exact List.prefix_append _ _

theorem execCheckpointStart_later (t : Nat) (s : State) {t' : State} (hE : execCheckpointStart t s = .next t') : Later s t' := by
  unfold execCheckpointStart at hE
  injection hE with hE
  subst hE
  have hL := Later.refl s
  repeat'
    first
    | with_reducible assumption
    | with_reducible exact Nat.le_refl _
    | with_reducible exact List.prefix_rfl
    | with_reducible rfl
    | with_reducible exact Nat.le_add_right _ _
    | intro _
    | with_reducible refine State.upd_later ?_ ?_ ?_ ?_ ?_ ?_
    | with_reducible apply State.advance_later
    | with_reducible apply State.startCheckpoint_later
    | with_reducible refine Later.ite ?_ ?_
    | with_reducible refine Later.iteFst ?_ ?_
    | with_reducible refine Later.foldl ?_ ?_
    | with_reducible refine Later.foldlFst ?_ ?_
    | with_reducible refine Later.fst ?_ (by assumption)
    | dsimp only
    | rw [State.mk_eq]
    | split
    | exact List.prefix_append _ _

theorem State.endCheckpoint_later {s0 : State} (s : State) (hL : Later s0 s) : Later s0 (State.endCheckpoint s) := by
  unfold State.endCheckpoint
  repeat'
    first
    | with_reducible assumption
    | with_reducible exact Nat.le_refl _
    | with_reducible exact List.prefix_rfl
    | with_reducible rfl
    | with_reducible exact Nat.le_add_right _ _
    | intro _
    | with_reducible refine State.upd_later ?_ ?_ ?_ ?_ ?_ ?_
    | with_reducible apply State.journal_later
    | with_reducible apply State.count_later
    | with_reducible apply State.tally_later
    | with_reducible refine Later.ite ?_ ?_
    | with_reducible refine Later.iteFst ?_ ?_
    | with_reducible refine Later.foldl ?_ ?_
    | with_reducible refine Later.foldlFst ?_ ?_
    | with_reducible refine Later.fst ?_ (by assumption)
    | dsimp only
    | rw [State.mk_eq]
    | split
    | exact List.prefix_append _ _

theorem execCheckpoints_later (s : State) {t' : State} (hE : execCheckpoints s = .next t') : Later s t' := by
  unfold execCheckpoints at hE
  injection hE with hE
  subst hE
  have hL := Later.refl s
  repeat'
    first
    | with_reducible assumption
    | with_reducible exact Nat.le_refl _
    | with_reducible exact List.prefix_rfl
    | with_reducible rfl
    | with_reducible exact Nat.le_add_right _ _
    | intro _
    | with_reducible refine State.upd_later ?_ ?_ ?_ ?_ ?_ ?_
    | with_reducible apply State.endCheckpoint_later
    | with_reducible refine Later.ite ?_ ?_
    | with_reducible refine Later.iteFst ?_ ?_
    | with_reducible refine Later.foldl ?_ ?_
    | with_reducible refine Later.foldlFst ?_ ?_
    | with_reducible refine Later.fst ?_ (by assumption)
    | dsimp only
    | rw [State.mk_eq]
    | split
    | exact List.prefix_append _ _

theorem State.collectSb_later {s0 : State} (s : State) (row n : Nat) (hL : Later s0 s) : Later s0 (State.collectSb s row n) := by
  unfold State.collectSb
  repeat'
    first
    | with_reducible assumption
    | with_reducible exact Nat.le_refl _
    | with_reducible exact List.prefix_rfl
    | with_reducible rfl
    | with_reducible exact Nat.le_add_right _ _
    | intro _
    | with_reducible refine State.upd_later ?_ ?_ ?_ ?_ ?_ ?_
    | with_reducible apply State.updRow_later
    | with_reducible apply State.assignUnit_later
    | with_reducible apply State.setThrottle_later
    | with_reducible apply State.tryFree_later
    | with_reducible apply State.count_later
    | with_reducible refine Later.ite ?_ ?_
    | with_reducible refine Later.iteFst ?_ ?_
    | with_reducible refine Later.foldl ?_ ?_
    | with_reducible refine Later.foldlFst ?_ ?_
    | with_reducible refine Later.fst ?_ (by assumption)
    | dsimp only
    | rw [State.mk_eq]
    | split
    | exact List.prefix_append _ _

theorem execGcVictim_later (row : Nat) (s : State) {t' : State} (hE : execGcVictim row s = .next t') : Later s t' := by
  unfold execGcVictim at hE
  injection hE with hE
  subst hE
  have hL := Later.refl s
  repeat'
    first
    | with_reducible assumption
    | with_reducible exact Nat.le_refl _
    | with_reducible exact List.prefix_rfl
    | with_reducible rfl
    | with_reducible exact Nat.le_add_right _ _
    | intro _
    | with_reducible refine State.upd_later ?_ ?_ ?_ ?_ ?_ ?_
    | with_reducible apply State.updRow_later
    | with_reducible apply State.collectSb_later
    | with_reducible refine Later.ite ?_ ?_
    | with_reducible refine Later.iteFst ?_ ?_
    | with_reducible refine Later.foldl ?_ ?_
    | with_reducible refine Later.foldlFst ?_ ?_
    | with_reducible refine Later.fst ?_ (by assumption)
    | dsimp only
    | rw [State.mk_eq]
    | split
    | exact List.prefix_append _ _

theorem State.startErase_later {s0 : State} (s : State) (row sb : Nat) (hL : Later s0 s) : Later s0 (State.startErase s row sb) := by
  unfold State.startErase
  repeat'
    first
    | with_reducible assumption
    | with_reducible exact Nat.le_refl _
    | with_reducible exact List.prefix_rfl
    | with_reducible rfl
    | with_reducible exact Nat.le_add_right _ _
    | intro _
    | with_reducible refine State.upd_later ?_ ?_ ?_ ?_ ?_ ?_
    | with_reducible apply State.wake_later
    | with_reducible apply State.updSb_later
    | with_reducible refine Later.ite ?_ ?_
    | with_reducible refine Later.iteFst ?_ ?_
    | with_reducible refine Later.foldl ?_ ?_
    | with_reducible refine Later.foldlFst ?_ ?_
    | with_reducible refine Later.fst ?_ (by assumption)
    | dsimp only
    | rw [State.mk_eq]
    | split
    | exact List.prefix_append _ _

theorem execSbErase_later (row sb : Nat) (s : State) {t' : State} (hE : execSbErase row sb s = .next t') : Later s t' := by
  unfold execSbErase at hE
  injection hE with hE
  subst hE
  have hL := Later.refl s
  repeat'
    first
    | with_reducible assumption
    | with_reducible exact Nat.le_refl _
    | with_reducible exact List.prefix_rfl
    | with_reducible rfl
    | with_reducible exact Nat.le_add_right _ _
    | intro _
    | with_reducible refine State.upd_later ?_ ?_ ?_ ?_ ?_ ?_
    | with_reducible apply State.tryFree_later
    | with_reducible apply State.startErase_later
    | with_reducible refine Later.ite ?_ ?_
    | with_reducible refine Later.iteFst ?_ ?_
    | with_reducible refine Later.foldl ?_ ?_
    | with_reducible refine Later.foldlFst ?_ ?_
    | with_reducible refine Later.fst ?_ (by assumption)
    | dsimp only
    | rw [State.mk_eq]
    | split
    | exact List.prefix_append _ _

theorem State.replaceBlock_later {s0 : State} (s : State) (r n c : Nat) (hL : Later s0 s) : Later s0 (State.replaceBlock s r n c) := by
  unfold State.replaceBlock
  repeat'
    first
    | with_reducible assumption
    | with_reducible exact Nat.le_refl _
    | with_reducible exact List.prefix_rfl
    | with_reducible rfl
    | with_reducible exact Nat.le_add_right _ _
    | intro _
    | with_reducible refine State.upd_later ?_ ?_ ?_ ?_ ?_ ?_
    | with_reducible apply State.updRow_later
    | with_reducible apply State.journal_later
    | with_reducible apply State.updSb_later
    | with_reducible refine Later.ite ?_ ?_
    | with_reducible refine Later.iteFst ?_ ?_
    | with_reducible refine Later.foldl ?_ ?_
    | with_reducible refine Later.foldlFst ?_ ?_
    | with_reducible refine Later.fst ?_ (by assumption)
    | dsimp only
    | rw [State.mk_eq]
    | split
    | exact List.prefix_append _ _

theorem State.eraseDone_later {s0 : State} (s : State) (row sb : Nat) (failed : Option Nat) (hL : Later s0 s) : Later s0 (State.eraseDone s row sb failed) := by
  unfold State.eraseDone
  repeat'
    first
    | with_reducible assumption
    | with_reducible exact Nat.le_refl _
    | with_reducible exact List.prefix_rfl
    | with_reducible rfl
    | with_reducible exact Nat.le_add_right _ _
    | intro _
    | with_reducible refine State.upd_later ?_ ?_ ?_ ?_ ?_ ?_
    | with_reducible apply State.replaceBlock_later
    | with_reducible apply State.setThrottle_later
    | with_reducible apply State.journal_later
    | with_reducible apply State.checkReadOnly_later
    | with_reducible apply State.startPages_later
    | with_reducible apply State.advance_later
    | with_reducible apply State.tally_later
    | with_reducible apply State.retireBlock_later
    | with_reducible apply State.updSb_later
    | with_reducible refine Later.ite ?_ ?_
    | with_reducible refine Later.iteFst ?_ ?_
    | with_reducible refine Later.foldl ?_ ?_
    | with_reducible refine Later.foldlFst ?_ ?_
    | with_reducible refine Later.fst ?_ (by assumption)
    | dsimp only
    | rw [State.mk_eq]
    | split
    | exact List.prefix_append _ _

theorem execEraseComplete_later (row sb : Nat) (failed : Option Nat) (s : State) {t' : State} (hE : execEraseComplete row sb failed s = .next t') : Later s t' := by
  unfold execEraseComplete at hE
  injection hE with hE
  subst hE
  have hL := Later.refl s
  repeat'
    first
    | with_reducible assumption
    | with_reducible exact Nat.le_refl _
    | with_reducible exact List.prefix_rfl
    | with_reducible rfl
    | with_reducible exact Nat.le_add_right _ _
    | intro _
    | with_reducible refine State.upd_later ?_ ?_ ?_ ?_ ?_ ?_
    | with_reducible apply State.eraseDone_later
    | with_reducible refine Later.ite ?_ ?_
    | with_reducible refine Later.iteFst ?_ ?_
    | with_reducible refine Later.foldl ?_ ?_
    | with_reducible refine Later.foldlFst ?_ ?_
    | with_reducible refine Later.fst ?_ (by assumption)
    | dsimp only
    | rw [State.mk_eq]
    | split
    | exact List.prefix_append _ _

theorem execDiesRetired_later (chan die : Nat) (s : State) {t' : State} (hE : execDiesRetired chan die s = .next t') : Later s t' := by
  unfold execDiesRetired at hE
  injection hE with hE
  subst hE
  have hL := Later.refl s
  repeat'
    first
    | with_reducible assumption
    | with_reducible exact Nat.le_refl _
    | with_reducible exact List.prefix_rfl
    | with_reducible rfl
    | with_reducible exact Nat.le_add_right _ _
    | intro _
    | with_reducible refine State.upd_later ?_ ?_ ?_ ?_ ?_ ?_
    | with_reducible apply State.retireDie_later
    | with_reducible refine Later.ite ?_ ?_
    | with_reducible refine Later.iteFst ?_ ?_
    | with_reducible refine Later.foldl ?_ ?_
    | with_reducible refine Later.foldlFst ?_ ?_
    | with_reducible refine Later.fst ?_ (by assumption)
    | dsimp only
    | rw [State.mk_eq]
    | split
    | exact List.prefix_append _ _

theorem execBufferGrant_later (chan : Nat) (write : Bool) (s : State) {t' : State} (hE : execBufferGrant chan write s = .next t') : Later s t' := by
  unfold execBufferGrant at hE
  injection hE with hE
  subst hE
  have hL := Later.refl s
  repeat'
    first
    | with_reducible assumption
    | with_reducible exact Nat.le_refl _
    | with_reducible exact List.prefix_rfl
    | with_reducible rfl
    | with_reducible exact Nat.le_add_right _ _
    | intro _
    | with_reducible refine State.upd_later ?_ ?_ ?_ ?_ ?_ ?_
    | with_reducible apply State.tryProgram_later
    | with_reducible refine Later.ite ?_ ?_
    | with_reducible refine Later.iteFst ?_ ?_
    | with_reducible refine Later.foldl ?_ ?_
    | with_reducible refine Later.foldlFst ?_ ?_
    | with_reducible refine Later.fst ?_ (by assumption)
    | dsimp only
    | rw [State.mk_eq]
    | split
    | exact List.prefix_append _ _

theorem State.closePeriod_later {s0 : State} (s : State) (recovered : Bool) (nextStart : Nat) (hL : Later s0 s) : Later s0 (State.closePeriod s recovered nextStart) := by
  unfold State.closePeriod
  repeat'
    first
    | with_reducible assumption
    | with_reducible exact Nat.le_refl _
    | with_reducible exact List.prefix_rfl
    | with_reducible rfl
    | with_reducible exact Nat.le_add_right _ _
    | intro _
    | with_reducible refine State.upd_later ?_ ?_ ?_ ?_ ?_ ?_
    | with_reducible apply State.receiptWrite_later
    | with_reducible refine Later.ite ?_ ?_
    | with_reducible refine Later.iteFst ?_ ?_
    | with_reducible refine Later.foldl ?_ ?_
    | with_reducible refine Later.foldlFst ?_ ?_
    | with_reducible refine Later.fst ?_ (by assumption)
    | dsimp only
    | rw [State.mk_eq]
    | split
    | exact List.prefix_append _ _

theorem State.sealTree_later {s0 : State} (s : State) (seq : Nat) (hL : Later s0 s) : Later s0 (State.sealTree s seq) := by
  unfold State.sealTree
  repeat'
    first
    | with_reducible assumption
    | with_reducible exact Nat.le_refl _
    | with_reducible exact List.prefix_rfl
    | with_reducible rfl
    | with_reducible exact Nat.le_add_right _ _
    | intro _
    | with_reducible refine State.upd_later ?_ ?_ ?_ ?_ ?_ ?_
    | with_reducible apply State.storeBytes_later
    | with_reducible apply State.spendCycles_later
    | with_reducible apply State.tally_later
    | with_reducible refine Later.ite ?_ ?_
    | with_reducible refine Later.iteFst ?_ ?_
    | with_reducible refine Later.foldl ?_ ?_
    | with_reducible refine Later.foldlFst ?_ ?_
    | with_reducible refine Later.fst ?_ (by assumption)
    | dsimp only
    | rw [State.mk_eq]
    | split
    | exact List.prefix_append _ _

theorem execReceiptPeriodEnd_later (t : Nat) (s : State) {t' : State} (hE : execReceiptPeriodEnd t s = .next t') : Later s t' := by
  unfold execReceiptPeriodEnd at hE
  injection hE with hE
  subst hE
  have hL := Later.refl s
  repeat'
    first
    | with_reducible assumption
    | with_reducible exact Nat.le_refl _
    | with_reducible exact List.prefix_rfl
    | with_reducible rfl
    | with_reducible exact Nat.le_add_right _ _
    | intro _
    | with_reducible refine State.upd_later ?_ ?_ ?_ ?_ ?_ ?_
    | with_reducible apply State.advance_later
    | with_reducible apply State.closePeriod_later
    | with_reducible refine Later.ite ?_ ?_
    | with_reducible refine Later.iteFst ?_ ?_
    | with_reducible refine Later.foldl ?_ ?_
    | with_reducible refine Later.foldlFst ?_ ?_
    | with_reducible refine Later.fst ?_ (by assumption)
    | dsimp only
    | rw [State.mk_eq]
    | split
    | exact List.prefix_append _ _

theorem execReceiptTrees_later (seq : Nat) (s : State) {t' : State} (hE : execReceiptTrees seq s = .next t') : Later s t' := by
  unfold execReceiptTrees at hE
  injection hE with hE
  subst hE
  have hL := Later.refl s
  repeat'
    first
    | with_reducible assumption
    | with_reducible exact Nat.le_refl _
    | with_reducible exact List.prefix_rfl
    | with_reducible rfl
    | with_reducible exact Nat.le_add_right _ _
    | intro _
    | with_reducible refine State.upd_later ?_ ?_ ?_ ?_ ?_ ?_
    | with_reducible apply State.sealTree_later
    | with_reducible refine Later.ite ?_ ?_
    | with_reducible refine Later.iteFst ?_ ?_
    | with_reducible refine Later.foldl ?_ ?_
    | with_reducible refine Later.foldlFst ?_ ?_
    | with_reducible refine Later.fst ?_ (by assumption)
    | dsimp only
    | rw [State.mk_eq]
    | split
    | exact List.prefix_append _ _

theorem execReceiptErase_later (t : Nat) (s : State) {t' : State} (hE : execReceiptErase t s = .next t') : Later s t' := by
  unfold execReceiptErase at hE
  injection hE with hE
  subst hE
  have hL := Later.refl s
  repeat'
    first
    | with_reducible assumption
    | with_reducible exact Nat.le_refl _
    | with_reducible exact List.prefix_rfl
    | with_reducible rfl
    | with_reducible exact Nat.le_add_right _ _
    | intro _
    | with_reducible refine State.upd_later ?_ ?_ ?_ ?_ ?_ ?_
    | with_reducible apply State.advance_later
    | with_reducible apply State.discardUnits_later
    | with_reducible refine Later.ite ?_ ?_
    | with_reducible refine Later.iteFst ?_ ?_
    | with_reducible refine Later.foldl ?_ ?_
    | with_reducible refine Later.foldlFst ?_ ?_
    | with_reducible refine Later.fst ?_ (by assumption)
    | dsimp only
    | rw [State.mk_eq]
    | split
    | exact List.prefix_append _ _

theorem execReceiptProof_later (cmd : AdminCmd) (s : State) {t' : State} (hE : execReceiptProof cmd s = .next t') : Later s t' := by
  unfold execReceiptProof at hE
  injection hE with hE
  subst hE
  have hL := Later.refl s
  repeat'
    first
    | with_reducible assumption
    | with_reducible exact Nat.le_refl _
    | with_reducible exact List.prefix_rfl
    | with_reducible rfl
    | with_reducible exact Nat.le_add_right _ _
    | intro _
    | with_reducible refine State.upd_later ?_ ?_ ?_ ?_ ?_ ?_
    | with_reducible apply State.adminDone_later
    | with_reducible apply State.adminCommand_later
    | with_reducible refine Later.ite ?_ ?_
    | with_reducible refine Later.iteFst ?_ ?_
    | with_reducible refine Later.foldl ?_ ?_
    | with_reducible refine Later.foldlFst ?_ ?_
    | with_reducible refine Later.fst ?_ (by assumption)
    | dsimp only
    | rw [State.mk_eq]
    | split
    | exact List.prefix_append _ _

theorem execIdentity_later (cmd : AdminCmd) (s : State) {t' : State} (hE : execIdentity cmd s = .next t') : Later s t' := by
  unfold execIdentity at hE
  injection hE with hE
  subst hE
  have hL := Later.refl s
  repeat'
    first
    | with_reducible assumption
    | with_reducible exact Nat.le_refl _
    | with_reducible exact List.prefix_rfl
    | with_reducible rfl
    | with_reducible exact Nat.le_add_right _ _
    | intro _
    | with_reducible refine State.upd_later ?_ ?_ ?_ ?_ ?_ ?_
    | with_reducible apply State.adminDone_later
    | with_reducible apply State.adminCommand_later
    | with_reducible refine Later.ite ?_ ?_
    | with_reducible refine Later.iteFst ?_ ?_
    | with_reducible refine Later.foldl ?_ ?_
    | with_reducible refine Later.foldlFst ?_ ?_
    | with_reducible refine Later.fst ?_ (by assumption)
    | dsimp only
    | rw [State.mk_eq]
    | split
    | exact List.prefix_append _ _

theorem State.forgetCommands_later {s0 : State} (s : State) (fn : Nat) (hL : Later s0 s) : Later s0 (State.forgetCommands s fn) := by
  unfold State.forgetCommands
  repeat'
    first
    | with_reducible assumption
    | with_reducible exact Nat.le_refl _
    | with_reducible exact List.prefix_rfl
    | with_reducible rfl
    | with_reducible exact Nat.le_add_right _ _
    | intro _
    | with_reducible refine State.upd_later ?_ ?_ ?_ ?_ ?_ ?_
    | with_reducible refine Later.ite ?_ ?_
    | with_reducible refine Later.iteFst ?_ ?_
    | with_reducible refine Later.foldl ?_ ?_
    | with_reducible refine Later.foldlFst ?_ ?_
    | with_reducible refine Later.fst ?_ (by assumption)
    | dsimp only
    | rw [State.mk_eq]
    | split
    | exact List.prefix_append _ _

theorem State.endFnWork_later {s0 : State} (s : State) (fn : Nat) (hL : Later s0 s) : Later s0 (State.endFnWork s fn) := by
  unfold State.endFnWork
  repeat'
    first
    | with_reducible assumption
    | with_reducible exact Nat.le_refl _
    | with_reducible exact List.prefix_rfl
    | with_reducible rfl
    | with_reducible exact Nat.le_add_right _ _
    | intro _
    | with_reducible refine State.upd_later ?_ ?_ ?_ ?_ ?_ ?_
    | with_reducible apply State.retryQuery_later
    | with_reducible apply State.forgetCommands_later
    | with_reducible refine Later.ite ?_ ?_
    | with_reducible refine Later.iteFst ?_ ?_
    | with_reducible refine Later.foldl ?_ ?_
    | with_reducible refine Later.foldlFst ?_ ?_
    | with_reducible refine Later.fst ?_ (by assumption)
    | dsimp only
    | rw [State.mk_eq]
    | split
    | exact List.prefix_append _ _

theorem State.resetFn_later {s0 : State} (s : State) (fn : Nat) (hL : Later s0 s) : Later s0 (State.resetFn s fn) := by
  unfold State.resetFn
  repeat'
    first
    | with_reducible assumption
    | with_reducible exact Nat.le_refl _
    | with_reducible exact List.prefix_rfl
    | with_reducible rfl
    | with_reducible exact Nat.le_add_right _ _
    | intro _
    | with_reducible refine State.upd_later ?_ ?_ ?_ ?_ ?_ ?_
    | with_reducible apply State.updFn_later
    | with_reducible apply State.endFnWork_later
    | with_reducible refine Later.ite ?_ ?_
    | with_reducible refine Later.iteFst ?_ ?_
    | with_reducible refine Later.foldl ?_ ?_
    | with_reducible refine Later.foldlFst ?_ ?_
    | with_reducible refine Later.fst ?_ (by assumption)
    | dsimp only
    | rw [State.mk_eq]
    | split
    | exact List.prefix_append _ _

theorem State.clearMaster_later {s0 : State} (s : State) (fn : Nat) (hL : Later s0 s) : Later s0 (State.clearMaster s fn) := by
  unfold State.clearMaster
  repeat'
    first
    | with_reducible assumption
    | with_reducible exact Nat.le_refl _
    | with_reducible exact List.prefix_rfl
    | with_reducible rfl
    | with_reducible exact Nat.le_add_right _ _
    | intro _
    | with_reducible refine State.upd_later ?_ ?_ ?_ ?_ ?_ ?_
    | with_reducible apply State.updFn_later
    | with_reducible apply State.setFn_later
    | with_reducible apply State.endFnWork_later
    | with_reducible refine Later.ite ?_ ?_
    | with_reducible refine Later.iteFst ?_ ?_
    | with_reducible refine Later.foldl ?_ ?_
    | with_reducible refine Later.foldlFst ?_ ?_
    | with_reducible refine Later.fst ?_ (by assumption)
    | dsimp only
    | rw [State.mk_eq]
    | split
    | exact List.prefix_append _ _

theorem execBusMasterClear_later (fn : Nat) (s : State) {t' : State} (hE : execBusMasterClear fn s = .next t') : Later s t' := by
  unfold execBusMasterClear at hE
  injection hE with hE
  subst hE
  have hL := Later.refl s
  repeat'
    first
    | with_reducible assumption
    | with_reducible exact Nat.le_refl _
    | with_reducible exact List.prefix_rfl
    | with_reducible rfl
    | with_reducible exact Nat.le_add_right _ _
    | intro _
    | with_reducible refine State.upd_later ?_ ?_ ?_ ?_ ?_ ?_
    | with_reducible apply State.clearMaster_later
    | with_reducible refine Later.ite ?_ ?_
    | with_reducible refine Later.iteFst ?_ ?_
    | with_reducible refine Later.foldl ?_ ?_
    | with_reducible refine Later.foldlFst ?_ ?_
    | with_reducible refine Later.fst ?_ (by assumption)
    | dsimp only
    | rw [State.mk_eq]
    | split
    | exact List.prefix_append _ _

theorem execFunctionLevelReset_later (fn : Nat) (s : State) {t' : State} (hE : execFunctionLevelReset fn s = .next t') : Later s t' := by
  unfold execFunctionLevelReset at hE
  injection hE with hE
  subst hE
  have hL := Later.refl s
  repeat'
    first
    | with_reducible assumption
    | with_reducible exact Nat.le_refl _
    | with_reducible exact List.prefix_rfl
    | with_reducible rfl
    | with_reducible exact Nat.le_add_right _ _
    | intro _
    | with_reducible refine State.upd_later ?_ ?_ ?_ ?_ ?_ ?_
    | with_reducible apply State.resetFn_later
    | with_reducible refine Later.ite ?_ ?_
    | with_reducible refine Later.iteFst ?_ ?_
    | with_reducible refine Later.foldl ?_ ?_
    | with_reducible refine Later.foldlFst ?_ ?_
    | with_reducible refine Later.fst ?_ (by assumption)
    | dsimp only
    | rw [State.mk_eq]
    | split
    | exact List.prefix_append _ _

theorem State.dropCall_later {s0 : State} (s : State) (call status : Nat) (hL : Later s0 s) : Later s0 (State.dropCall s call status) := by
  unfold State.dropCall
  repeat'
    first
    | with_reducible assumption
    | with_reducible exact Nat.le_refl _
    | with_reducible exact List.prefix_rfl
    | with_reducible rfl
    | with_reducible exact Nat.le_add_right _ _
    | intro _
    | with_reducible refine State.upd_later ?_ ?_ ?_ ?_ ?_ ?_
    | with_reducible apply State.answerCall_later
    | with_reducible refine Later.ite ?_ ?_
    | with_reducible refine Later.iteFst ?_ ?_
    | with_reducible refine Later.foldl ?_ ?_
    | with_reducible refine Later.foldlFst ?_ ?_
    | with_reducible refine Later.fst ?_ (by assumption)
    | dsimp only
    | rw [State.mk_eq]
    | split
    | exact List.prefix_append _ _

theorem State.cancelMoves_later {s0 : State} (s : State) (ms : List Move) (hL : Later s0 s) : Later s0 (State.cancelMoves s ms) := by
  unfold State.cancelMoves
  repeat'
    first
    | with_reducible assumption
    | with_reducible exact Nat.le_refl _
    | with_reducible exact List.prefix_rfl
    | with_reducible rfl
    | with_reducible exact Nat.le_add_right _ _
    | intro _
    | with_reducible refine State.upd_later ?_ ?_ ?_ ?_ ?_ ?_
    | with_reducible apply State.count_later
    | with_reducible apply State.dropCall_later
    | with_reducible refine Later.ite ?_ ?_
    | with_reducible refine Later.iteFst ?_ ?_
    | with_reducible refine Later.foldl ?_ ?_
    | with_reducible refine Later.foldlFst ?_ ?_
    | with_reducible refine Later.fst ?_ (by assumption)
    | dsimp only
    | rw [State.mk_eq]
    | split
    | exact List.prefix_append _ _

theorem State.placeCall_later {s0 : State} (s : State) (vf : Bool) (owner : MoveOwner) (b : List Byte) (hL : Later s0 s) : Later s0 (State.placeCall s vf owner b) := by
  unfold State.placeCall
  repeat'
    first
    | with_reducible assumption
    | with_reducible exact Nat.le_refl _
    | with_reducible exact List.prefix_rfl
    | with_reducible rfl
    | with_reducible exact Nat.le_add_right _ _
    | intro _
    | with_reducible refine State.upd_later ?_ ?_ ?_ ?_ ?_ ?_
    | with_reducible apply State.answerCall_later
    | with_reducible apply State.cancelMoves_later
    | with_reducible apply State.tally_later
    | with_reducible apply State.dropCall_later
    | with_reducible refine Later.ite ?_ ?_
    | with_reducible refine Later.iteFst ?_ ?_
    | with_reducible refine Later.foldl ?_ ?_
    | with_reducible refine Later.foldlFst ?_ ?_
    | with_reducible refine Later.fst ?_ (by assumption)
    | dsimp only
    | rw [State.mk_eq]
    | split
    | exact List.prefix_append _ _

theorem State.updTierMove_later {s0 : State} (s : State) (n : Nat) (f : Move → Move) (hL : Later s0 s) : Later s0 (State.updTierMove s n f) := by
  unfold State.updTierMove
  repeat'
    first
    | with_reducible assumption
    | with_reducible exact Nat.le_refl _
    | with_reducible exact List.prefix_rfl
    | with_reducible rfl
    | with_reducible exact Nat.le_add_right _ _
    | intro _
    | with_reducible refine State.upd_later ?_ ?_ ?_ ?_ ?_ ?_
    | with_reducible refine Later.ite ?_ ?_
    | with_reducible refine Later.iteFst ?_ ?_
    | with_reducible refine Later.foldl ?_ ?_
    | with_reducible refine Later.foldlFst ?_ ?_
    | with_reducible refine Later.fst ?_ (by assumption)
    | dsimp only
    | rw [State.mk_eq]
    | split
    | exact List.prefix_append _ _

theorem State.switchMove_later {s0 : State} (s : State) (m : Move) (hL : Later s0 s) : Later s0 (State.switchMove s m) := by
  unfold State.switchMove
  repeat'
    first
    | with_reducible assumption
    | with_reducible exact Nat.le_refl _
    | with_reducible exact List.prefix_rfl
    | with_reducible rfl
    | with_reducible exact Nat.le_add_right _ _
    | intro _
    | with_reducible refine State.upd_later ?_ ?_ ?_ ?_ ?_ ?_
    | with_reducible apply State.journal_later
    | with_reducible apply State.endCall_later
    | with_reducible apply State.updTierMove_later
    | with_reducible apply State.tally_later
    | with_reducible refine Later.ite ?_ ?_
    | with_reducible refine Later.iteFst ?_ ?_
    | with_reducible refine Later.foldl ?_ ?_
    | with_reducible refine Later.foldlFst ?_ ?_
    | with_reducible refine Later.fst ?_ (by assumption)
    | dsimp only
    | rw [State.mk_eq]
    | split
    | exact List.prefix_append _ _

theorem State.failMove_later {s0 : State} (s : State) (m : Move) (status : Nat) (hL : Later s0 s) : Later s0 (State.failMove s m status) := by
  unfold State.failMove
  repeat'
    first
    | with_reducible assumption
    | with_reducible exact Nat.le_refl _
    | with_reducible exact List.prefix_rfl
    | with_reducible rfl
    | with_reducible exact Nat.le_add_right _ _
    | intro _
    | with_reducible refine State.upd_later ?_ ?_ ?_ ?_ ?_ ?_
    | with_reducible apply State.dropCall_later
    | with_reducible apply State.tally_later
    | with_reducible refine Later.ite ?_ ?_
    | with_reducible refine Later.iteFst ?_ ?_
    | with_reducible refine Later.foldl ?_ ?_
    | with_reducible refine Later.foldlFst ?_ ?_
    | with_reducible refine Later.fst ?_ (by assumption)
    | dsimp only
    | rw [State.mk_eq]
    | split
    | exact List.prefix_append _ _

theorem State.regenPage_later {s0 : State} (s : State) (n page : Nat) (hL : Later s0 s) : Later s0 (State.regenPage s n page) := by
  unfold State.regenPage
  repeat'
    first
    | with_reducible assumption
    | with_reducible exact Nat.le_refl _
    | with_reducible exact List.prefix_rfl
    | with_reducible rfl
    | with_reducible exact Nat.le_add_right _ _
    | intro _
    | with_reducible refine State.upd_later ?_ ?_ ?_ ?_ ?_ ?_
    | with_reducible apply State.setList_later
    | with_reducible refine Later.ite ?_ ?_
    | with_reducible refine Later.iteFst ?_ ?_
    | with_reducible refine Later.foldl ?_ ?_
    | with_reducible refine Later.foldlFst ?_ ?_
    | with_reducible refine Later.fst ?_ (by assumption)
    | dsimp only
    | rw [State.mk_eq]
    | split
    | exact List.prefix_append _ _

theorem State.pieceReasons_later {s0 : State} (s : State) (x : Query) (own : Bool) (es : List Entry) (hL : Later s0 s) : Later s0 (State.pieceReasons s x own es).1 := by
  unfold State.pieceReasons
  repeat'
    first
    | with_reducible assumption
    | with_reducible exact Nat.le_refl _
    | with_reducible exact List.prefix_rfl
    | with_reducible rfl
    | with_reducible exact Nat.le_add_right _ _
    | intro _
    | with_reducible refine State.upd_later ?_ ?_ ?_ ?_ ?_ ?_
    | with_reducible refine Later.ite ?_ ?_
    | with_reducible refine Later.iteFst ?_ ?_
    | with_reducible refine Later.foldl ?_ ?_
    | with_reducible refine Later.foldlFst ?_ ?_
    | with_reducible refine Later.fst ?_ (by assumption)
    | dsimp only
    | rw [State.mk_eq]
    | split
    | exact List.prefix_append _ _

theorem State.takePiece_later {s0 : State} (s : State) (q : Nat) (x : Query) (src : Nat) (p : Piece) (hL : Later s0 s) : Later s0 (State.takePiece s q x src p) := by
  unfold State.takePiece
  repeat'
    first
    | with_reducible assumption
    | with_reducible exact Nat.le_refl _
    | with_reducible exact List.prefix_rfl
    | with_reducible rfl
    | with_reducible exact Nat.le_add_right _ _
    | intro _
    | with_reducible refine State.upd_later ?_ ?_ ?_ ?_ ?_ ?_
    | with_reducible apply State.count_later
    | with_reducible apply State.pieceReasons_later
    | with_reducible apply State.setQuery_later
    | with_reducible refine Later.ite ?_ ?_
    | with_reducible refine Later.iteFst ?_ ?_
    | with_reducible refine Later.foldl ?_ ?_
    | with_reducible refine Later.foldlFst ?_ ?_
    | with_reducible refine Later.fst ?_ (by assumption)
    | dsimp only
    | rw [State.mk_eq]
    | split
    | exact List.prefix_append _ _

theorem State.listLost_later {s0 : State} (s : State) (q : Nat) (x : Query) (list : Nat) (hL : Later s0 s) : Later s0 (State.listLost s q x list) := by
  unfold State.listLost
  repeat'
    first
    | with_reducible assumption
    | with_reducible exact Nat.le_refl _
    | with_reducible exact List.prefix_rfl
    | with_reducible rfl
    | with_reducible exact Nat.le_add_right _ _
    | intro _
    | with_reducible refine State.upd_later ?_ ?_ ?_ ?_ ?_ ?_
    | with_reducible apply State.tryFinish_later
    | with_reducible refine Later.ite ?_ ?_
    | with_reducible refine Later.iteFst ?_ ?_
    | with_reducible refine Later.foldl ?_ ?_
    | with_reducible refine Later.foldlFst ?_ ?_
    | with_reducible refine Later.fst ?_ (by assumption)
    | dsimp only
    | rw [State.mk_eq]
    | split
    | exact List.prefix_append _ _

theorem State.receivePiece_later {s0 : State} (s : State) (q : Nat) (x : Query) (src : Nat) (piece : List Byte) (p : Piece) (c : ChosenList) (hL : Later s0 s) : Later s0 (State.receivePiece s q x src piece p c) := by
  unfold State.receivePiece
  repeat'
    first
    | with_reducible assumption
    | with_reducible exact Nat.le_refl _
    | with_reducible exact List.prefix_rfl
    | with_reducible rfl
    | with_reducible exact Nat.le_add_right _ _
    | intro _
    | with_reducible refine State.upd_later ?_ ?_ ?_ ?_ ?_ ?_
    | with_reducible apply State.tally_later
    | with_reducible apply State.setQuery_later
    | with_reducible apply State.takePiece_later
    | with_reducible apply State.listLost_later
    | with_reducible refine Later.ite ?_ ?_
    | with_reducible refine Later.iteFst ?_ ?_
    | with_reducible refine Later.foldl ?_ ?_
    | with_reducible refine Later.foldlFst ?_ ?_
    | with_reducible refine Later.fst ?_ (by assumption)
    | dsimp only
    | rw [State.mk_eq]
    | split
    | exact List.prefix_append _ _

theorem execPieceReceive_later (src : Nat) (piece : List Byte) (s : State) {t' : State} (hE : execPieceReceive src piece s = .next t') : Later s t' := by
  unfold execPieceReceive at hE
  injection hE with hE
  subst hE
  have hL := Later.refl s
  repeat'
    first
    | with_reducible assumption
    | with_reducible exact Nat.le_refl _
    | with_reducible exact List.prefix_rfl
    | with_reducible rfl
    | with_reducible exact Nat.le_add_right _ _
    | intro _
    | with_reducible refine State.upd_later ?_ ?_ ?_ ?_ ?_ ?_
    | with_reducible apply State.sendFrame_later
    | with_reducible apply State.receivePiece_later
    | with_reducible apply State.count_later
    | with_reducible apply State.tally_later
    | with_reducible refine Later.ite ?_ ?_
    | with_reducible refine Later.iteFst ?_ ?_
    | with_reducible refine Later.foldl ?_ ?_
    | with_reducible refine Later.foldlFst ?_ ?_
    | with_reducible refine Later.fst ?_ (by assumption)
    | dsimp only
    | rw [State.mk_eq]
    | split
    | exact List.prefix_append _ _

theorem execPieceReservationGrant_later (q list : Nat) (s : State) {t' : State} (hE : execPieceReservationGrant q list s = .next t') : Later s t' := by
  unfold execPieceReservationGrant at hE
  injection hE with hE
  subst hE
  have hL := Later.refl s
  repeat'
    first
    | with_reducible assumption
    | with_reducible exact Nat.le_refl _
    | with_reducible exact List.prefix_rfl
    | with_reducible rfl
    | with_reducible exact Nat.le_add_right _ _
    | intro _
    | with_reducible refine State.upd_later ?_ ?_ ?_ ?_ ?_ ?_
    | with_reducible apply State.count_later
    | with_reducible apply State.setQuery_later
    | with_reducible apply State.takePiece_later
    | with_reducible refine Later.ite ?_ ?_
    | with_reducible refine Later.iteFst ?_ ?_
    | with_reducible refine Later.foldl ?_ ?_
    | with_reducible refine Later.foldlFst ?_ ?_
    | with_reducible refine Later.fst ?_ (by assumption)
    | dsimp only
    | rw [State.mk_eq]
    | split
    | exact List.prefix_append _ _

theorem execListMergeComplete_later (q list : Nat) (s : State) {t' : State} (hE : execListMergeComplete q list s = .next t') : Later s t' := by
  unfold execListMergeComplete at hE
  injection hE with hE
  subst hE
  have hL := Later.refl s
  repeat'
    first
    | with_reducible assumption
    | with_reducible exact Nat.le_refl _
    | with_reducible exact List.prefix_rfl
    | with_reducible rfl
    | with_reducible exact Nat.le_add_right _ _
    | intro _
    | with_reducible refine State.upd_later ?_ ?_ ?_ ?_ ?_ ?_
    | with_reducible apply State.tryFinish_later
    | with_reducible apply State.mergePartial_later
    | with_reducible refine Later.ite ?_ ?_
    | with_reducible refine Later.iteFst ?_ ?_
    | with_reducible refine Later.foldl ?_ ?_
    | with_reducible refine Later.foldlFst ?_ ?_
    | with_reducible refine Later.fst ?_ (by assumption)
    | dsimp only
    | rw [State.mk_eq]
    | split
    | exact List.prefix_append _ _

theorem execCutoff_later (q t : Nat) (s : State) {t' : State} (hE : execCutoff q t s = .next t') : Later s t' := by
  unfold execCutoff at hE
  injection hE with hE
  subst hE
  have hL := Later.refl s
  repeat'
    first
    | with_reducible assumption
    | with_reducible exact Nat.le_refl _
    | with_reducible exact List.prefix_rfl
    | with_reducible rfl
    | with_reducible exact Nat.le_add_right _ _
    | intro _
    | with_reducible refine State.upd_later ?_ ?_ ?_ ?_ ?_ ?_
    | with_reducible apply State.cutSearch_later
    | with_reducible apply State.advance_later
    | with_reducible apply State.tally_later
    | with_reducible refine Later.ite ?_ ?_
    | with_reducible refine Later.iteFst ?_ ?_
    | with_reducible refine Later.foldl ?_ ?_
    | with_reducible refine Later.foldlFst ?_ ?_
    | with_reducible refine Later.fst ?_ (by assumption)
    | dsimp only
    | rw [State.mk_eq]
    | split
    | exact List.prefix_append _ _

theorem State.dropStalled_later {s0 : State} (s : State) (handle : Nat) (hL : Later s0 s) : Later s0 (State.dropStalled s handle) := by
  unfold State.dropStalled
  repeat'
    first
    | with_reducible assumption
    | with_reducible exact Nat.le_refl _
    | with_reducible exact List.prefix_rfl
    | with_reducible rfl
    | with_reducible exact Nat.le_add_right _ _
    | intro _
    | with_reducible refine State.upd_later ?_ ?_ ?_ ?_ ?_ ?_
    | with_reducible apply State.discardMembers_later
    | with_reducible refine Later.ite ?_ ?_
    | with_reducible refine Later.iteFst ?_ ?_
    | with_reducible refine Later.foldl ?_ ?_
    | with_reducible refine Later.foldlFst ?_ ?_
    | with_reducible refine Later.fst ?_ (by assumption)
    | dsimp only
    | rw [State.mk_eq]
    | split
    | exact List.prefix_append _ _

theorem execQueryDeadline_later (q t : Nat) (s : State) {t' : State} (hE : execQueryDeadline q t s = .next t') : Later s t' := by
  unfold execQueryDeadline at hE
  injection hE with hE
  subst hE
  have hL := Later.refl s
  repeat'
    first
    | with_reducible assumption
    | with_reducible exact Nat.le_refl _
    | with_reducible exact List.prefix_rfl
    | with_reducible rfl
    | with_reducible exact Nat.le_add_right _ _
    | intro _
    | with_reducible refine State.upd_later ?_ ?_ ?_ ?_ ?_ ?_
    | with_reducible apply State.dropStalled_later
    | with_reducible apply State.advance_later
    | with_reducible apply State.expireQuery_later
    | with_reducible refine Later.ite ?_ ?_
    | with_reducible refine Later.iteFst ?_ ?_
    | with_reducible refine Later.foldl ?_ ?_
    | with_reducible refine Later.foldlFst ?_ ?_
    | with_reducible refine Later.fst ?_ (by assumption)
    | dsimp only
    | rw [State.mk_eq]
    | split
    | exact List.prefix_append _ _

theorem State.blockLoss_later {s0 : State} (s : State) (q item : Nat) (x : Query) (b : BlockItem) (hL : Later s0 s) : Later s0 (State.blockLoss s q item x b) := by
  unfold State.blockLoss
  repeat'
    first
    | with_reducible assumption
    | with_reducible exact Nat.le_refl _
    | with_reducible exact List.prefix_rfl
    | with_reducible rfl
    | with_reducible exact Nat.le_add_right _ _
    | intro _
    | with_reducible refine State.upd_later ?_ ?_ ?_ ?_ ?_ ?_
    | with_reducible apply State.requestScore_later
    | with_reducible apply State.logLoss_later
    | with_reducible apply State.readFailed_later
    | with_reducible refine Later.ite ?_ ?_
    | with_reducible refine Later.iteFst ?_ ?_
    | with_reducible refine Later.foldl ?_ ?_
    | with_reducible refine Later.foldlFst ?_ ?_
    | with_reducible refine Later.fst ?_ (by assumption)
    | dsimp only
    | rw [State.mk_eq]
    | split
    | exact List.prefix_append _ _

theorem State.blockDefault_later {s0 : State} (s : State) (q item n : Nat) (x : Query) (b : BlockItem) (hL : Later s0 s) : Later s0 (State.blockDefault s q item n x b) := by
  unfold State.blockDefault
  repeat'
    first
    | with_reducible assumption
    | with_reducible exact Nat.le_refl _
    | with_reducible exact List.prefix_rfl
    | with_reducible rfl
    | with_reducible exact Nat.le_add_right _ _
    | intro _
    | with_reducible refine State.upd_later ?_ ?_ ?_ ?_ ?_ ?_
    | with_reducible apply State.requestScore_later
    | with_reducible apply State.tally_later
    | with_reducible refine Later.ite ?_ ?_
    | with_reducible refine Later.iteFst ?_ ?_
    | with_reducible refine Later.foldl ?_ ?_
    | with_reducible refine Later.foldlFst ?_ ?_
    | with_reducible refine Later.fst ?_ (by assumption)
    | dsimp only
    | rw [State.mk_eq]
    | split
    | exact List.prefix_append _ _

theorem State.defaultBlock_later {s0 : State} (s : State) (q : Nat) (x : Query) (p : BlockItem → Nat → Bool) (late : Bool) (hL : Later s0 s) : Later s0 (State.defaultBlock s q x p late) := by
  unfold State.defaultBlock
  repeat'
    first
    | with_reducible assumption
    | with_reducible exact Nat.le_refl _
    | with_reducible exact List.prefix_rfl
    | with_reducible rfl
    | with_reducible exact Nat.le_add_right _ _
    | intro _
    | with_reducible refine State.upd_later ?_ ?_ ?_ ?_ ?_ ?_
    | with_reducible apply State.requestScore_later
    | with_reducible apply State.count_later
    | with_reducible refine Later.ite ?_ ?_
    | with_reducible refine Later.iteFst ?_ ?_
    | with_reducible refine Later.foldl ?_ ?_
    | with_reducible refine Later.foldlFst ?_ ?_
    | with_reducible refine Later.fst ?_ (by assumption)
    | dsimp only
    | rw [State.mk_eq]
    | split
    | exact List.prefix_append _ _

theorem State.lateBlock_later {s0 : State} (s : State) (q : Nat) (x : Query) (hL : Later s0 s) : Later s0 (State.lateBlock s q x) := by
  unfold State.lateBlock
  repeat'
    first
    | with_reducible assumption
    | with_reducible exact Nat.le_refl _
    | with_reducible exact List.prefix_rfl
    | with_reducible rfl
    | with_reducible exact Nat.le_add_right _ _
    | intro _
    | with_reducible refine State.upd_later ?_ ?_ ?_ ?_ ?_ ?_
    | with_reducible apply State.defaultBlock_later
    | with_reducible refine Later.ite ?_ ?_
    | with_reducible refine Later.iteFst ?_ ?_
    | with_reducible refine Later.foldl ?_ ?_
    | with_reducible refine Later.foldlFst ?_ ?_
    | with_reducible refine Later.fst ?_ (by assumption)
    | dsimp only
    | rw [State.mk_eq]
    | split
    | exact List.prefix_append _ _

theorem execScoreCutoff_later (q t : Nat) (s : State) {t' : State} (hE : execScoreCutoff q t s = .next t') : Later s t' := by
  unfold execScoreCutoff at hE
  injection hE with hE
  subst hE
  have hL := Later.refl s
  repeat'
    first
    | with_reducible assumption
    | with_reducible exact Nat.le_refl _
    | with_reducible exact List.prefix_rfl
    | with_reducible rfl
    | with_reducible exact Nat.le_add_right _ _
    | intro _
    | with_reducible refine State.upd_later ?_ ?_ ?_ ?_ ?_ ?_
    | with_reducible apply State.advance_later
    | with_reducible apply State.sendBlock_later
    | with_reducible apply State.lateBlock_later
    | with_reducible apply State.toEmit_later
    | with_reducible refine Later.ite ?_ ?_
    | with_reducible refine Later.iteFst ?_ ?_
    | with_reducible refine Later.foldl ?_ ?_
    | with_reducible refine Later.foldlFst ?_ ?_
    | with_reducible refine Later.fst ?_ (by assumption)
    | dsimp only
    | rw [State.mk_eq]
    | split
    | exact List.prefix_append _ _

theorem execScoreInputAssemble_later (q item : Nat) (source : InputSource) (ok : Bool) (s : State) {t' : State} (hE : execScoreInputAssemble q item source ok s = .next t') : Later s t' := by
  unfold execScoreInputAssemble at hE
  injection hE with hE
  subst hE
  have hL := Later.refl s
  repeat'
    first
    | with_reducible assumption
    | with_reducible exact Nat.le_refl _
    | with_reducible exact List.prefix_rfl
    | with_reducible rfl
    | with_reducible exact Nat.le_add_right _ _
    | intro _
    | with_reducible refine State.upd_later ?_ ?_ ?_ ?_ ?_ ?_
    | with_reducible apply State.requestScore_later
    | with_reducible apply State.meter_later
    | with_reducible apply State.blockLoss_later
    | with_reducible apply State.blockDefault_later
    | with_reducible refine Later.ite ?_ ?_
    | with_reducible refine Later.iteFst ?_ ?_
    | with_reducible refine Later.foldl ?_ ?_
    | with_reducible refine Later.foldlFst ?_ ?_
    | with_reducible refine Later.fst ?_ (by assumption)
    | dsimp only
    | rw [State.mk_eq]
    | split
    | exact List.prefix_append _ _

theorem execScoreWithdrawn_later (q t : Nat) (s : State) {t' : State} (hE : execScoreWithdrawn q t s = .next t') : Later s t' := by
  unfold execScoreWithdrawn at hE
  injection hE with hE
  subst hE
  have hL := Later.refl s
  repeat'
    first
    | with_reducible assumption
    | with_reducible exact Nat.le_refl _
    | with_reducible exact List.prefix_rfl
    | with_reducible rfl
    | with_reducible exact Nat.le_add_right _ _
    | intro _
    | with_reducible refine State.upd_later ?_ ?_ ?_ ?_ ?_ ?_
    | with_reducible apply State.advance_later
    | with_reducible apply State.tally_later
    | with_reducible apply State.emitExact_later
    | with_reducible refine Later.ite ?_ ?_
    | with_reducible refine Later.iteFst ?_ ?_
    | with_reducible refine Later.foldl ?_ ?_
    | with_reducible refine Later.foldlFst ?_ ?_
    | with_reducible refine Later.fst ?_ (by assumption)
    | dsimp only
    | rw [State.mk_eq]
    | split
    | exact List.prefix_append _ _

theorem execScoreAbandoned_later (q t : Nat) (s : State) {t' : State} (hE : execScoreAbandoned q t s = .next t') : Later s t' := by
  unfold execScoreAbandoned at hE
  injection hE with hE
  subst hE
  have hL := Later.refl s
  repeat'
    first
    | with_reducible assumption
    | with_reducible exact Nat.le_refl _
    | with_reducible exact List.prefix_rfl
    | with_reducible rfl
    | with_reducible exact Nat.le_add_right _ _
    | intro _
    | with_reducible refine State.upd_later ?_ ?_ ?_ ?_ ?_ ?_
    | with_reducible apply State.advance_later
    | with_reducible apply State.tally_later
    | with_reducible apply State.emitExact_later
    | with_reducible refine Later.ite ?_ ?_
    | with_reducible refine Later.iteFst ?_ ?_
    | with_reducible refine Later.foldl ?_ ?_
    | with_reducible refine Later.foldlFst ?_ ?_
    | with_reducible refine Later.fst ?_ (by assumption)
    | dsimp only
    | rw [State.mk_eq]
    | split
    | exact List.prefix_append _ _

theorem execScoreComplete_later (q : Nat) (inputs : List ItemInput) (s : State) {t' : State} (hE : execScoreComplete q inputs s = .next t') : Later s t' := by
  unfold execScoreComplete at hE
  injection hE with hE
  subst hE
  have hL := Later.refl s
  repeat'
    first
    | with_reducible assumption
    | with_reducible exact Nat.le_refl _
    | with_reducible exact List.prefix_rfl
    | with_reducible rfl
    | with_reducible exact Nat.le_add_right _ _
    | intro _
    | with_reducible refine State.upd_later ?_ ?_ ?_ ?_ ?_ ?_
    | with_reducible apply State.score_later
    | with_reducible apply State.offerEach_later
    | with_reducible apply State.count_later
    | with_reducible apply State.tally_later
    | with_reducible apply State.dropTensor_later
    | with_reducible apply State.toEmit_later
    | with_reducible apply State.openCtx_later
    | with_reducible refine Later.ite ?_ ?_
    | with_reducible refine Later.iteFst ?_ ?_
    | with_reducible refine Later.foldl ?_ ?_
    | with_reducible refine Later.foldlFst ?_ ?_
    | with_reducible refine Later.fst ?_ (by assumption)
    | dsimp only
    | rw [State.mk_eq]
    | split
    | exact List.prefix_append _ _

end Sys2Proof.Machine
end

