-- ==== Sys2Proof/Laws/Exec.lean ====
section
/-! SUPPORT. What every command leaves: the state after it comes after the state before it. -/
namespace Sys2Proof.Machine

/-- Every command moves only forward. -/
theorem exec_later (c : Instr) (s t : State) (h : exec c s = .next t) : Later s t := by
  cases c with
  | registerWrite reg value => exact execRegisterWrite_later reg value s h
  | eventCounterClear index sub value sameCycle => exact execEventCounterClear_later index sub value sameCycle s h
  | satClear index sub => exact execSatClear_later index sub s h
  | satReassert index sub => exact execSatReassert_later index sub s h
  | pcieLinkTrain gen width => exact execPcieLinkTrain_later gen width s h
  | fnEnable fn => exact execFnEnable_later fn s h
  | run fn => exact execRun_later fn s h
  | busMasterClear fn => exact execBusMasterClear_later fn s h
  | functionLevelReset fn => exact execFunctionLevelReset_later fn s h
  | dmaWindowWrite fn off value => exact execDmaWindowWrite_later fn off value s h
  | sqTail fn pair value => exact execSqTail_later fn pair value s h
  | cqHead fn pair value => exact execCqHead_later fn pair value s h
  | entryTake readOk => exact execEntryTake_later readOk s h
  | queryEntryArrive fn pair sqIndex entry body readOk => exact execQueryEntryArrive_later fn pair sqIndex entry body readOk s h
  | queryPlace q => exact execQueryPlace_later q s h
  | minEpochHoldEnd q => exact execMinEpochHoldEnd_later q s h
  | tensorGrant part => exact execTensorGrant_later part s h
  | encodeDeadline q t => exact execEncodeDeadline_later q t s h
  | encodeComplete q => exact execEncodeComplete_later q s h
  | querySketch q => exact execQuerySketch_later q s h
  | walk turn => exact execWalk_later turn s h
  | closeWindow batch t => exact execCloseWindow_later batch t s h
  | closeUrgent batch t => exact execCloseUrgent_later batch t s h
  | gigInterval t => exact execGigInterval_later t s h
  | gigQuotaSecond t => exact execGigQuotaSecond_later t s h
  | batchScanPass g tile batch run => exact execBatchScanPass_later g tile batch run s h
  | filterCandidate g => exact execFilterCandidate_later g s h
  | scanBoundArrive g => exact execScanBoundArrive_later g s h
  | scanSummaryReceive src summary => exact execScanSummaryReceive_later src summary s h
  | gateMessageReceive g msg => exact execGateMessageReceive_later g msg s h
  | rerankCandidateReceive g => exact execRerankCandidateReceive_later g s h
  | releaseHold batch member t => exact execReleaseHold_later batch member t s h
  | releaseLate batch member t => exact execReleaseLate_later batch member t s h
  | keyFetchComplete fetch ok => exact execKeyFetchComplete_later fetch ok s h
  | codeFetchComplete fetch ok => exact execCodeFetchComplete_later fetch ok s h
  | tierReadLate read => exact execTierReadLate_later read s h
  | postfilterReadComplete fetch ok => exact execPostfilterReadComplete_later fetch ok s h
  | selectEntryOffer g => exact execSelectEntryOffer_later g s h
  | pieceSend batch member => exact execPieceSend_later batch member s h
  | pieceReceive src piece => exact execPieceReceive_later src piece s h
  | pieceReservationGrant q list => exact execPieceReservationGrant_later q list s h
  | listMergeComplete q list => exact execListMergeComplete_later q list s h
  | runMergeStart ctx => exact execRunMergeStart_later ctx s h
  | runMergeComplete ctx => exact execRunMergeComplete_later ctx s h
  | poolWait ctx => exact execPoolWait_later ctx s h
  | cutoff q t => exact execCutoff_later q t s h
  | scoreCutoff q t => exact execScoreCutoff_later q t s h
  | queryDeadline q t => exact execQueryDeadline_later q t s h
  | scoreInputAssemble q item source ok => exact execScoreInputAssemble_later q item source ok s h
  | scoreWithdrawn q t => exact execScoreWithdrawn_later q t s h
  | scoreAbandoned q t => exact execScoreAbandoned_later q t s h
  | scoreComplete q inputs => exact execScoreComplete_later q inputs s h
  | queryCompletionWrite q => exact execQueryCompletionWrite_later q s h
  | tileRestarts part tile weightRead => exact execTileRestarts_later part tile weightRead s h
  | maintTensorGrant part step tiles => exact execMaintTensorGrant_later part step tiles s h
  | maintYields part => exact execMaintYields_later part s h
  | admissionTablePublish => exact execAdmissionTablePublish_later s h
  | imageSubmit cmd facts => exact execImageSubmit_later cmd facts s h
  | imageRemove cmd => exact execImageRemove_later cmd s h
  | imageInstall cmd => exact execImageInstall_later cmd s h
  | imageUninstall cmd => exact execImageUninstall_later cmd s h
  | installDrainEnd part => exact execInstallDrainEnd_later part s h
  | installDrainLimit part t => exact execInstallDrainLimit_later part t s h
  | installWriteComplete part digestOk unit => exact execInstallWriteComplete_later part digestOk unit s h
  | imageInfo cmd => exact execImageInfo_later cmd s h
  | drayCloseWindow dest cls tenant t => exact execDrayCloseWindow_later dest cls tenant t s h
  | drayRouteDrop t => exact execDrayRouteDrop_later t s h
  | drayReceive src cls tenant mapEpoch body => exact execDrayReceive_later src cls tenant mapEpoch body s h
  | peerSnapshotHoldEnd => exact execPeerSnapshotHoldEnd_later s h
  | qctxBudgetExpire src handle t => exact execQctxBudgetExpire_later src handle t s h
  | mapWorkHoldEnd t => exact execMapWorkHoldEnd_later t s h
  | ingestEntryArrive fn pair sqIndex entry records readOk => exact execIngestEntryArrive_later fn pair sqIndex entry records readOk s h
  | recordOrder => exact execRecordOrder_later s h
  | commitTimeout t => exact execCommitTimeout_later t s h
  | logFlush t => exact execLogFlush_later t s h
  | logPageDurable page => exact execLogPageDurable_later page s h
  | beaconEmit t => exact execBeaconEmit_later t s h
  | beaconReceive port beacon => exact execBeaconReceive_later port beacon s h
  | leaderTakeover t => exact execLeaderTakeover_later t s h
  | epochClosureRecord => exact execEpochClosureRecord_later s h
  | beaconGaps t => exact execBeaconGaps_later t s h
  | mapAnnounce content => exact execMapAnnounce_later content s h
  | mapNotice port notice => exact execMapNotice_later port notice s h
  | mapLateInstall content => exact execMapLateInstall_later content s h
  | maintPeriod t => exact execMaintPeriod_later t s h
  | splitCopyComplete list centroidA centroidB => exact execSplitCopyComplete_later list centroidA centroidB s h
  | dirFull list => exact execDirFull_later list s h
  | foldBuildComplete handle => exact execFoldBuildComplete_later handle s h
  | segmentFree seg => exact execSegmentFree_later seg s h
  | edgeSweep t view => exact execEdgeSweep_later t view s h
  | versionCreate cmd => exact execVersionCreate_later cmd s h
  | versionBuildComplete ns idx ver reports => exact execVersionBuildComplete_later ns idx ver reports s h
  | versionSwitch cmd => exact execVersionSwitch_later cmd s h
  | versionFree ns idx ver => exact execVersionFree_later ns idx ver s h
  | versionInfo cmd => exact execVersionInfo_later cmd s h
  | namespaceCreate cmd => exact execNamespaceCreate_later cmd s h
  | namespaceDelete cmd => exact execNamespaceDelete_later cmd s h
  | indexCreate cmd => exact execIndexCreate_later cmd s h
  | indexDelete cmd => exact execIndexDelete_later cmd s h
  | indexDataDiscard index homes => exact execIndexDataDiscard_later index homes s h
  | grantCreate grant => exact execGrantCreate_later grant s h
  | grantRevoke grant => exact execGrantRevoke_later grant s h
  | tableCreate cmd => exact execTableCreate_later cmd s h
  | receiptPeriodEnd t => exact execReceiptPeriodEnd_later t s h
  | receiptTrees seq => exact execReceiptTrees_later seq s h
  | receiptErase t => exact execReceiptErase_later t s h
  | receiptProof cmd => exact execReceiptProof_later cmd s h
  | identity cmd => exact execIdentity_later cmd s h
  | createRing cmd => exact execCreateRing_later cmd s h
  | deleteRing cmd => exact execDeleteRing_later cmd s h
  | setInterrupt cmd => exact execSetInterrupt_later cmd s h
  | coalTimer fn pair t => exact execCoalTimer_later fn pair t s h
  | msixUnmask fn vec => exact execMsixUnmask_later fn vec s h
  | qsrTail fn value => exact execQsrTail_later fn value s h
  | qcrHead fn value => exact execQcrHead_later fn value s h
  | igrTail fn value => exact execIgrTail_later fn value s h
  | basicQueryDescriptor fn desc vec reads => exact execBasicQueryDescriptor_later fn desc vec reads s h
  | basicIngestDescriptor fn desc records reads => exact execBasicIngestDescriptor_later fn desc records reads s h
  | snapReq fn => exact execSnapReq_later fn s h
  | tenantSnapReq who => exact execTenantSnapReq_later who s h
  | meterCapture fn t => exact execMeterCapture_later fn t s h
  | tenantRemove who tenant => exact execTenantRemove_later who tenant s h
  | tenantIsolationMode who mode others leaderF => exact execTenantIsolationMode_later who mode others leaderF s h
  | objectAccess cmd => exact execObjectAccess_later cmd s h
  | segmentWriteTimeout t => exact execSegmentWriteTimeout_later t s h
  | oapRequest frame => exact execOapRequest_later frame s h
  | hello t => exact execHello_later t s h
  | fieldLinkUp => exact execFieldLinkUp_later s h
  | logBase who value => exact execLogBase_later who value s h
  | mgmtPlace call => exact execMgmtPlace_later call s h
  | place cmd => exact execPlace_later cmd s h
  | placeCancel cmd => exact execPlaceCancel_later cmd s h
  | describe cmd => exact execDescribe_later cmd s h
  | moveStart => exact execMoveStart_later s h
  | moveRoundComplete obj round => exact execMoveRoundComplete_later obj round s h
  | moveSourceFree obj => exact execMoveSourceFree_later obj s h
  | repairComplete tier device page => exact execRepairComplete_later tier device page s h
  | deviceRetire tier device => exact execDeviceRetire_later tier device s h
  | bankOwner part strand bank master value mgmtValue => exact execBankOwner_later part strand bank master value mgmtValue s h
  | stagingRefused access => exact execStagingRefused_later access s h
  | harebellWord part t => exact execHarebellWord_later part t s h
  | harebellTestComplete part pass t => exact execHarebellTestComplete_later part pass t s h
  | hbDeferred part t => exact execHbDeferred_later part t s h
  | flashUnitRead lba level rebuilt => exact execFlashUnitRead_later lba level rebuilt s h
  | pageProgramComplete page ok => exact execPageProgramComplete_later page ok s h
  | discard first count owner => exact execDiscard_later first count owner s h
  | journalPageProgram t => exact execJournalPageProgram_later t s h
  | checkpointStart t => exact execCheckpointStart_later t s h
  | checkpoints => exact execCheckpoints_later s h
  | gcVictim row => exact execGcVictim_later row s h
  | sbErase row sb => exact execSbErase_later row sb s h
  | eraseComplete row sb failed => exact execEraseComplete_later row sb failed s h
  | diesRetired chan die => exact execDiesRetired_later chan die s h
  | bufferGrant chan write => exact execBufferGrant_later chan write s h
  | portEnable port => exact execPortEnable_later port s h
  | portSignalDetect port lanes => exact execPortSignalDetect_later port lanes s h
  | trainFails port t => exact execTrainFails_later port t s h
  | trainRetry port t => exact execTrainRetry_later port t s h
  | ident port content => exact execIdent_later port content s h
  | retrainTrigger port cause => exact execRetrainTrigger_later port cause s h
  | retrain port => exact execRetrain_later port s h
  | retrainComplete port lanes => exact execRetrainComplete_later port lanes s h
  | portDown port => exact execPortDown_later port s h
  | flitReceive port flit => exact execFlitReceive_later port flit s h
  | frameHeaderDecide port => exact execFrameHeaderDecide_later port s h
  | frameDeliver port tag => exact execFrameDeliver_later port tag s h
  | answerReceive port word => exact execAnswerReceive_later port word s h
  | deferBackoff port tag t => exact execDeferBackoff_later port tag t s h
  | answerTimeout port tag t => exact execAnswerTimeout_later port tag t s h
  | frameStart port t => exact execFrameStart_later port t s h
  | gateEntry port t => exact execGateEntry_later port t s h
  | gclSwitch port t => exact execGclSwitch_later port t s h
  | shaperRefill t => exact execShaperRefill_later t s h
  | queueSample t => exact execQueueSample_later t s h
  | histSnap port => exact execHistSnap_later port s h
  | histClr port => exact execHistClr_later port s h
  | shardMoveStart shard dest loads => exact execShardMoveStart_later shard dest loads s h
  | shardCopyComplete shard => exact execShardCopyComplete_later shard s h
  | shardFree shard => exact execShardFree_later shard s h
  | hotRowReplicate ns table row => exact execHotRowReplicate_later ns table row s h
  | invalidate src body => exact execInvalidate_later src body s h
  | invalidateAck src body => exact execInvalidateAck_later src body s h
  | replicaLeaseExpire peer t => exact execReplicaLeaseExpire_later peer t s h
  | taken src msg => exact execTaken_later src msg s h
  | ask src msg => exact execAsk_later src msg s h
  | leaseAnswer src msg => exact execLeaseAnswer_later src msg s h
  | resend src msg => exact execResend_later src msg s h
  | orphanedQueries handle t => exact execOrphanedQueries_later handle t s h
  | codeFlush shard t => exact execCodeFlush_later shard t s h
  | memberRebuild shard frag read => exact execMemberRebuild_later shard frag read s h
  | homeRebuild shard read => exact execHomeRebuild_later shard read s h
  | mbxPush master channel path bytes => exact execMbxPush_later master channel path bytes s h
  | mbxPop mask => exact execMbxPop_later mask s h
  | fwFetch image => exact execFwFetch_later image s h
  | fwActivate => exact execFwActivate_later s h
  | keyEnrol record => exact execKeyEnrol_later record s h
  | logCopy count => exact execLogCopy_later count s h
  | noticesLost => exact execNoticesLost_later s h
  | sensorSample t values => exact execSensorSample_later t values s h
  | compositionSeal who value => exact execCompositionSeal_later who value s h
  | settingsDefault who value => exact execSettingsDefault_later who value s h
  | settingsCompact => exact execSettingsCompact_later s h
  | bootStart t found => exact execBootStart_later t found s h
  | bootWatchdog t => exact execBootWatchdog_later t s h
  | recoveryOfferEnd t => exact execRecoveryOfferEnd_later t s h
  | bootWaitEnd t => exact execBootWaitEnd_later t s h
  | recGo image => exact execRecGo_later image s h
  | healthy t => exact execHealthy_later t s h
  | fwBegin length => exact execFwBegin_later length s h
  | fwData bytes => exact execFwData_later bytes s h
  | fwCommit => exact execFwCommit_later s h
  | fwAbort => exact execFwAbort_later s h
  | fwActivateSlot t => exact execFwActivateSlot_later t s h
  | watchdogResets t => exact execWatchdogResets_later t s h
  | telemetryExport t => exact execTelemetryExport_later t s h
  | powerSample t millivolts milliamps => exact execPowerSample_later t millivolts milliamps s h
  | fStep part t => exact execFStep_later part t s h
  | limiterTrips t => exact execLimiterTrips_later t s h
  | idleGate dom t => exact execIdleGate_later dom t s h
  | pllOff part t => exact execPllOff_later part t s h
  | wakeSlot t => exact execWakeSlot_later t s h
  | domainReady dom t => exact execDomainReady_later dom t s h
  | wakeHistSnap => exact execWakeHistSnap_later s h
  | wakeHistClr => exact execWakeHistClr_later s h
  | shedStep t => exact execShedStep_later t s h
  | shedForce who value => exact execShedForce_later who value s h
  | holdupFlushes t => exact execHoldupFlushes_later t s h
  | thermalThrottles sub => exact execThermalThrottles_later sub s h
  | thermalRelease sub => exact execThermalRelease_later sub s h
  | thermalTrips sub => exact execThermalTrips_later sub s h
  | capNotHeld part t => exact execCapNotHeld_later part t s h
  | fMax who value => exact execFMax_later who value s h
  | memoryTrainingComplete failed => exact execMemoryTrainingComplete_later failed s h
  | memtestComplete pages devices => exact execMemtestComplete_later pages devices s h
  | replay t clean lost => exact execReplay_later t clean lost s h
  | reloadComplete => exact execReloadComplete_later s h
  | receiptRecovery t => exact execReceiptRecovery_later t s h
  | ready t => exact execReady_later t s h
  | topologyWait t => exact execTopologyWait_later t s h
  | resetTile who req => exact execResetTile_later who req s h
  | resetStrand who req => exact execResetStrand_later who req s h
  | resetPartition who req => exact execResetPartition_later who req s h
  | resetModule who req => exact execResetModule_later who req s h
  | resetDrainEnd scope part strand t => exact execResetDrainEnd_later scope part strand t s h
  | unitReturn scope part strand t => exact execUnitReturn_later scope part strand t s h
  | healthHalfLife t => exact execHealthHalfLife_later t s h
  | campionIssue t => exact execCampionIssue_later t s h
  | campionResult num stage load => exact execCampionResult_later num stage load s h
  | dualCheckCompare q list first second => exact execDualCheckCompare_later q list first second s h
  | shadowStart peer partner shards => exact execShadowStart_later peer partner shards s h
  | shadowDigest handle list digest => exact execShadowDigest_later handle list digest s h
  | shadowPeerFail => exact execShadowPeerFail_later s h
  | presentNOpen => exact execPresentNOpen_later s h
  | perstN asserted => exact execPerstN_later asserted s h
  | overvoltage t => exact execOvervoltage_later t s h
  | bankQualify millivolts millijoules => exact execBankQualify_later millivolts millijoules s h
  | vfEnable => exact execVfEnable_later s h
  | fieldLinkDown => exact execFieldLinkDown_later s h
  | maintStepComplete step centroid => exact execMaintStepComplete_later step centroid s h

end Sys2Proof.Machine
end

