-- ==== Sys2Proof/Laws/Order.lean ====
section
/-! SUPPORT. The order of result entries (R26) by what decides it, and how insertion, sorting and offering one by one compose. -/
namespace Sys2Proof.Machine

/-- The zeros of either sign have one key. -/
theorem canon_key (x : F32) : f32Key (canonScore x) = f32Key x := by
  unfold canonScore; split
  · rename_i h
    have h : x.toNat % 2 ^ 31 = 0 := by simpa [f32IsZero] using h
    unfold f32Key; dsimp only; rw [h]; exact (ite_self (0 : Int)).symm
  · rfl

/-- Writing a score by R26 makes no NaN and hides none. -/
theorem canon_nan (x : F32) : f32IsNaN (canonScore x) = f32IsNaN x := by
  unfold canonScore; split
  · rename_i h
    have h : x.toNat % 2 ^ 31 = 0 := by simpa [f32IsZero] using h
    unfold f32IsNaN; rw [h]; rfl
  · rfl

/-- The order of R26 on what decides it: void, NaN, score, key. -/
def before (va vb na nb : Bool) (K L : Int) (k l : Nat) : Bool :=
  if va != vb then vb else if na != nb then nb else if !na && !decide (K = L) then decide (L < K) else decide (k < l)

/-- The order depends on nothing else. -/
theorem precedes_eq (a b : Entry) : entryPrecedes a b =
    before (bit a.flags 0) (bit b.flags 0) (f32IsNaN a.score) (f32IsNaN b.score) (f32Key a.score) (f32Key b.score) a.key b.key := by
  unfold entryPrecedes before f32Eq f32Lt
  simp only [canon_key, canon_nan]
  cases h : f32IsNaN a.score <;> cases h2 : f32IsNaN b.score <;> simp

/-- Inserting adds the element and nothing else. -/
theorem mem_insertBy (x y : Entry) (l : List Entry) : y ∈ insertBy entryPrecedes x l ↔ y = x ∨ y ∈ l := by
  induction l with
  | nil => simp [insertBy]
  | cons z l ih => unfold insertBy; split <;> simp [ih]; exact or_left_comm

/-- Inserting keeps every element. -/
theorem perm_insertBy (x : Entry) (l : List Entry) : (insertBy entryPrecedes x l).Perm (x :: l) := by
  induction l with
  | nil => exact List.Perm.refl _
  | cons z l ih =>
    unfold insertBy; split
    · exact (ih.cons z).trans (List.Perm.swap x z l)
    · exact List.Perm.refl _

/-- Induction on the entries in the order of their arrival. -/
theorem snoc_induction {P : List Entry → Prop} (h0 : P []) (h1 : ∀ xs x, P xs → P (xs ++ [x])) (l : List Entry) : P l := by
  have : ∀ n (l : List Entry), l.length = n → P l := by
    intro n
    induction n with
    | zero => intro l h; rw [List.length_eq_zero_iff.1 h]; exact h0
    | succ n ih =>
      intro l h
      have hne : l ≠ [] := by intro e; simp [e] at h
      rw [← List.dropLast_concat_getLast hne]
      exact h1 _ _ (ih _ (by simp; omega))
  exact this _ l rfl

/-- The entry that arrives last is inserted last. -/
theorem sortBy_snoc (xs : List Entry) (x : Entry) : sortBy entryPrecedes (xs ++ [x]) = insertBy entryPrecedes x (sortBy entryPrecedes xs) := by simp [sortBy]

/-- The entry that arrives last is offered last. -/
theorem offerAll_snoc (k : Nat) (xs : List Entry) (x : Entry) : (offerAll k [] (xs ++ [x])).1 = (offerList k (offerAll k [] xs).1 x).1 := by
  simp [offerAll]

/-- Sorting keeps every entry. -/
theorem sortBy_perm (xs : List Entry) : (sortBy entryPrecedes xs).Perm xs := by
  induction xs using snoc_induction with
  | h0 => exact List.Perm.refl _
  | h1 xs x ih =>
    rw [sortBy_snoc]
    exact (perm_insertBy _ _).trans ((ih.cons x).trans (List.perm_append_singleton x xs).symm)

/-- The written form of an entry keeps its key. -/
theorem written_key (e : Entry) : (writtenEntry e).key = e.key := by unfold writtenEntry; split <;> rfl

end Sys2Proof.Machine
end

