-- ==== Sys2Proof/Laws/Steps.lean ====
section
/-! SUPPORT. What shared operations do, said once: time, tokens, writes of one object, resets, functions, messages and shedding. -/
namespace Sys2Proof.Machine
theorem advance_ticked (s : State) (t : Nat) : Ticked s t (s.advance t) := State.advance_eq s t
theorem grantToken_requests (s : State) (r : TokenReq) : (s.grantToken r).power.requests = s.power.requests := by
  unfold State.grantToken; dsimp only; split <;> simp
theorem grantToken_lastSlot (s : State) (r : TokenReq) : (s.grantToken r).power.lastSlot = s.power.lastSlot := by
  unfold State.grantToken; dsimp only; split <;> simp
theorem grantToken_time (s : State) (r : TokenReq) : (s.grantToken r).time = s.time := by
  unfold State.grantToken; dsimp only; split <;> simp
theorem grantToken_granted (s : State) (r : TokenReq) :
    (s.grantToken r).power.granted = s.power.granted ++ (if r.off then [] else [{ r with slot := s.time }]) := by
  unfold State.grantToken; dsimp only; split <;> simp_all
theorem grants (xs : List TokenReq) (s : State) : (xs.foldl (fun s r => s.grantToken r) s).power.requests = s.power.requests ∧
    (xs.foldl (fun s r => s.grantToken r) s).power.lastSlot = s.power.lastSlot ∧ (xs.foldl (fun s r => s.grantToken r) s).time = s.time ∧
    (xs.foldl (fun s r => s.grantToken r) s).power.granted = s.power.granted ++ ((xs.filter fun r => !r.off).map fun r => { r with slot := s.time }) := by
  induction xs generalizing s with
  | nil => simp
  | cons x xs ih =>
    obtain ⟨a, b, c, d⟩ := ih (s.grantToken x)
    simp only [List.foldl_cons, a, b, c, d, grantToken_requests, grantToken_lastSlot, grantToken_time, grantToken_granted, true_and]
    cases hx : x.off <;> simp [hx]
@[simp] theorem grants1 (xs : List TokenReq) (s : State) : (xs.foldl (fun s r => s.grantToken r) s).power.requests = s.power.requests := (grants xs s).1
@[simp] theorem grants2 (xs : List TokenReq) (s : State) : (xs.foldl (fun s r => s.grantToken r) s).power.lastSlot = s.power.lastSlot := (grants xs s).2.1
@[simp] theorem grants3 (xs : List TokenReq) (s : State) : (xs.foldl (fun s r => s.grantToken r) s).time = s.time := (grants xs s).2.2.1
@[simp] theorem grants4 (xs : List TokenReq) (s : State) :
    (xs.foldl (fun s r => s.grantToken r) s).power.granted = s.power.granted ++ ((xs.filter fun r => !r.off).map fun r => { r with slot := s.time }) := (grants xs s).2.2.2
theorem fit_sum (room : Nat) (xs : List TokenReq) : ((fitTokens room xs).1.map fun r => stepAmps r.dom.kind).sum ≤ room := by
  induction xs generalizing room with
  | nil => simp [fitTokens]
  | cons x xs ih =>
    unfold fitTokens
    split
    · simp
    · have := ih (room - stepAmps x.dom.kind); simp; omega
theorem leBytes_length (n v : Nat) : (leBytes n v).length = n := by
  induction n generalizing v with
  | zero => rfl
  | succ n ih => simp [leBytes, ih]
theorem leNat_leBytes (n v : Nat) : leNat (leBytes n v) = v % 256 ^ n := by
  induction n generalizing v with
  | zero => simp [leBytes, leNat, Nat.mod_one]
  | succ n ih => 
    rw [Nat.pow_succ, Nat.mul_comm (256 ^ n) 256, Nat.mod_mul]
    simp [leBytes, leNat, ih]
theorem field_left (a b : List Byte) (o n : Nat) (h : o + n ≤ a.length) : field (a ++ b) o n = field a o n := by
  unfold field
  rw [List.drop_append_of_le_length (by omega), List.take_append_of_le_length (by rw [List.length_drop]; omega)]
theorem field_right (a b : List Byte) (o n : Nat) (h : a.length = o) : field (a ++ b) o n = field b 0 n := by
  unfold field
  subst h; simp
theorem field_leBytes (n v : Nat) : field (leBytes n v) 0 n = v % 256 ^ n := by
  unfold field
  rw [List.drop_zero, List.take_of_length_le (Nat.le_of_eq (leBytes_length _ _)), leNat_leBytes]
theorem drop_blocks {α : Type} (f : α → List Byte) (n : Nat) (hf : ∀ a, (f a).length = n) (es : List α) (i : Nat) : (es.flatMap f).drop (n * i) = (es.drop i).flatMap f := by
  induction i generalizing es with
  | zero => simp
  | succ i ih =>
    cases es with
    | nil => simp
    | cons e es =>
      rw [List.flatMap_cons, List.drop_succ_cons, ← ih es, Nat.mul_succ, Nat.add_comm, ← List.drop_drop]
      congr 1
      rw [← hf e]; simp
theorem length_blocks {α : Type} (f : α → List Byte) (n : Nat) (hf : ∀ a, (f a).length = n) (es : List α) : (es.flatMap f).length = n * es.length := by
  induction es with
  | nil => simp
  | cons e es ih => rw [List.flatMap_cons, List.length_append, hf, ih, List.length_cons]; rw [Nat.mul_succ]; omega
theorem field_block {α : Type} (f : α → List Byte) (k : Nat) (hf : ∀ a, (f a).length = k) (es : List α) (i : Nat) (e : α) (h : es[i]? = some e) (o n : Nat) (hn : o + n ≤ k) :
    field (es.flatMap f) (k * i + o) n = field (f e) o n := by
  unfold field
  rw [← List.drop_drop, drop_blocks f k hf]
  have : es.drop i = e :: es.drop (i + 1) := by
    obtain ⟨hi, he⟩ := List.getElem?_eq_some_iff.1 h
    rw [← he]; exact List.drop_eq_getElem_cons hi
  rw [this, List.flatMap_cons, List.drop_append_of_le_length (by rw [hf]; omega), List.take_append_of_le_length (by rw [List.length_drop, hf]; omega)]
theorem noteAccess_reports (s : State) (who : Accessor) : Reports s (s.noteAccess who) := by
  unfold State.noteAccess; split
  · exact State.tally_reports _ _ _
  · exact Reports.refl s
  · exact State.tally_reports _ _ _
theorem writeNow_ok (s : State) (who : Accessor) (index sub : Nat) (b : List Byte) (given : Option (Nat × Nat)) (d : ObjRow) (p : Nat × Nat)
    (hup : s.mgmt.serverUp = true) (hrec : s.recoveryOffered = false) (hd : objDef index sub = some d) (hh : (highestSub index).isNone = false)
    (hacc : d.access ≠ .ro) (hi : index ≠ 0x2B20) (hw : mayWrite who index sub d.access = true) (hty : d.ty ≠ 8) (hlen : b.length = d.len)
    (hp : s.peersOf ⟨2, false, index, sub, 0, b.length, b, true⟩ given = (s, p))
    (hst : (s.noteAccess who).writeStatus who index sub d (leNat b) p.1 = 0) :
    s.writeNow who index sub b given = ((((s.noteAccess who).spendBudget index sub d (leNat b) |> fun x =>
      if persists index sub d.access then x.recordStore (objKey index sub) (if index = 0x2031 then x.tenantFor who else 0) b else x).writeScalar who index sub d (leNat b)).emit
        (.response (leBytes 2 0 ++ leBytes 2 (if index = 0x2030 && sub = 2 && (s.noteAccess who).leadsOthers && leNat b ≠ (s.noteAccess who).setting 0x2030 2 0 then p.2 else 0)))).resumeRequests := by
  have hrec' : (s.noteAccess who).recoveryOffered = false := by
    simpa only [State.recoveryOffered, (noteAccess_reports s who).mgmt] using hrec
  have hacc' : accessFor who index sub d.access = d.access := by
    unfold accessFor; split
    · rw [if_neg (by simp [hi])]
    · rfl
  have hitem : (s.noteAccess who).itemRefusal who ⟨2, false, index, sub, 0, b.length, b, true⟩ = 0 := by
    simp [State.itemRefusal, hh, hd, hacc', hacc, hw, hty, hlen]
  have hr : (s.runItem who ⟨2, false, index, sub, 0, b.length, b, true⟩ none p) =
      ((((s.noteAccess who).spendBudget index sub d (leNat b) |> fun x =>
      if persists index sub d.access then x.recordStore (objKey index sub) (if index = 0x2031 then x.tenantFor who else 0) b else x).writeScalar who index sub d (leNat b)), .reply (itemReply 0 (if index = 0x2030 && sub = 2 && (s.noteAccess who).leadsOthers && leNat b ≠ (s.noteAccess who).setting 0x2030 2 0 then p.2 else 0) d.ty 0 ⟨2, false, index, sub, 0, b.length, b, true⟩ [])) := by
    simp only [State.runItem, hrec', hitem]
    simp only [State.writeItem, hd]
    simp only [hty, if_false, hst]
    simp only [State.applyWrite, hty]
    simp [hlen, itemReply, field, leBytes, leNat]
  rw [State.writeNow, if_pos hup]
  unfold runItems
  simp only [List.any_nil, Bool.false_eq_true, if_false, hp, hr]
  unfold runItems
  simp [State.answerRequest, itemReply, leBytes, slice]
theorem writeNow_refused (s : State) (who : Accessor) (index sub : Nat) (b : List Byte) (given : Option (Nat × Nat)) (d : ObjRow) (p : Nat × Nat) (st : Nat)
    (hup : s.mgmt.serverUp = true) (hrec : s.recoveryOffered = false) (hd : objDef index sub = some d) (hh : (highestSub index).isNone = false)
    (hacc : d.access ≠ .ro) (hi : index ≠ 0x2B20) (hw : mayWrite who index sub d.access = true) (hty : d.ty ≠ 8) (hlen : b.length = d.len)
    (hp : s.peersOf ⟨2, false, index, sub, 0, b.length, b, true⟩ given = (s, p)) (h0 : st = 6 ∨ st = 7 ∨ st = 8)
    (hst : (s.noteAccess who).writeStatus who index sub d (leNat b) p.1 = st) :
    s.writeNow who index sub b given = ((s.noteAccess who).emit (.response (leBytes 2 st ++ [0, 0]))).resumeRequests := by
  have hrec' : (s.noteAccess who).recoveryOffered = false := by
    simpa only [State.recoveryOffered, (noteAccess_reports s who).mgmt] using hrec
  have hacc' : accessFor who index sub d.access = d.access := by
    unfold accessFor; split
    · rw [if_neg (by simp [hi])]
    · rfl
  have hitem : (s.noteAccess who).itemRefusal who ⟨2, false, index, sub, 0, b.length, b, true⟩ = 0 := by
    simp [State.itemRefusal, hh, hd, hacc', hacc, hw, hty, hlen]
  have hr : (s.runItem who ⟨2, false, index, sub, 0, b.length, b, true⟩ none p) =
      (s.noteAccess who, .reply (itemReply st 0 d.ty 0 ⟨2, false, index, sub, 0, b.length, b, true⟩ [])) := by
    simp only [State.runItem, hrec', hitem]
    simp only [State.writeItem, hd]
    simp only [hty, if_false, hst]
    rcases h0 with rfl | rfl | rfl <;> simp [itemReply, field, leBytes, leNat]
  rw [State.writeNow, if_pos hup]
  unfold runItems
  simp only [List.any_nil, Bool.false_eq_true, if_false, hp, hr]
  unfold runItems
  simp [State.answerRequest, itemReply, leBytes, slice]
theorem addJob_covers (s : State) (b : List Byte) (j : ResetJob) (i k : Nat) (h : covers b j = true) : (((s.addJob j).tally i k).repair.jobs.any (covers b)) = true := by
  simp only [State.tally_repair, State.addJob, List.any_append, List.any_cons, h, Bool.true_or, Bool.or_true]
theorem beginReset_covers (s : State) (b : List Byte) (hf : resetFormOk b = true) : ((s.beginReset b).repair.jobs.any (covers b)) = true := by
  unfold State.beginReset
  dsimp only
  split
  · rename_i h
    split
    · rename_i hc
      unfold State.resetTensor
      simp only [State.tally_repair, List.any_append, List.any_cons, List.any_nil]
      have hz : field b 2 1 = 0 := by simp [resetFormOk, h, hc] at hf; exact hf.2.1
      simp [covers, h, hc, hz]
    · apply addJob_covers; simp [covers, h]
  · rename_i h; apply addJob_covers; simp [covers, h]
  · rename_i h; apply addJob_covers; simp [covers, h]
  · apply addJob_covers; simp [covers]
/-- A reset request that is accepted: the reset begins, and the answer waits for the unit's return. -/
theorem writeNow_reset (s : State) (who : Accessor) (b : List Byte) (hb : b.length = 8)
    (hup : s.mgmt.serverUp = true) (hrec : s.recoveryOffered = false) (hw : mayWrite who 0x2D01 1 .wo = true)
    (hseg : (s.dict.segWrites.any fun w => w.key = objKey 0x2D01 1 && w.accessor ≠ accessorNo who) = false)
    (hf : resetFormOk b = true) (hu : ((s.noteAccess who).dropSeg who (objKey 0x2D01 1)).resetUnitOk b = true) (hc : s.repair.jobs.any (covers b) = false) :
    s.writeNow who 0x2D01 1 b none = (let x := ((s.noteAccess who).dropSeg who (objKey 0x2D01 1)).beginReset b
      ({ x with dict := { x.dict with waitingReqs := x.dict.waitingReqs ++
        [⟨.single, who, 0, false, [], ⟨2, false, 0x2D01, 1, 0, 8, b, true⟩, [], .reset b⟩] } } : State)).resumeRequests := by
  have hR := noteAccess_reports s who
  have hrec' : (s.noteAccess who).recoveryOffered = false := by
    simpa only [State.recoveryOffered, hR.mgmt] using hrec
  have hd : objDef 0x2D01 1 = some (domObj 0x2D01 1 8 .wo) := by decide
  have hh : (highestSub 0x2D01).isNone = false := by decide
  have hacc' : accessFor who 0x2D01 1 .wo = .wo := by
    unfold accessFor; split
    · rw [if_neg (by simp)]
    · rfl
  have hitem : (s.noteAccess who).itemRefusal who ⟨2, false, 0x2D01, 1, 0, 8, b, true⟩ = 0 := by
    simp only [State.itemRefusal, hh, hd]
    simp only [domObj, hacc']
    simp only [hw]
    simp [State.segmentOk, hR.dict]
    simpa using hseg
  have hst : (s.noteAccess who).writeStatus who 0x2D01 1 (domObj 0x2D01 1 8 .wo) 0 0 = 0 := by
    simp [State.writeStatus, State.stateRefuses, domObj, State.rangeOk, State.limitRefuses, State.budgetRefuses, budgetOf, persists]
  have hcov := beginReset_covers ((s.noteAccess who).dropSeg who (objKey 0x2D01 1)) b hf
  have hj : ((s.noteAccess who).dropSeg who (objKey 0x2D01 1)).repair.jobs.any (covers b) = false := by
    simpa [State.dropSeg, hR.repair] using hc
  have hr : s.runItem who ⟨2, false, 0x2D01, 1, 0, 8, b, true⟩ none (0, 0) =
      (((s.noteAccess who).dropSeg who (objKey 0x2D01 1)).beginReset b, .wait (.reset b)) := by
    simp only [State.runItem, hrec', hitem]
    simp only [State.writeItem, hd]
    have e1 : (domObj 0x2D01 1 8 .wo).ty = 8 := rfl
    have e2 : (domObj 0x2D01 1 8 .wo).len = 8 := rfl
    have e3 : (domObj 0x2D01 1 8 .wo).access = .wo := rfl
    simp only [e1, e2, if_true, hst]
    simp [domainOk, State.applyWrite, State.spendBudget, budgetOf, persists, e1, State.writeDomain, State.requestReset, hf, hu, hj, State.resetDone, hcov]
  rw [State.writeNow, if_pos hup, hb]
  unfold runItems
  have hp : s.peersOf ⟨2, false, 0x2D01, 1, 0, 8, b, true⟩ none = (s, 0, 0) := by unfold State.peersOf; simp
  simp only [List.any_nil, Bool.false_eq_true, if_false, hp, hr]
theorem resetBytes_length (k : Nat) (r : ResetReq) : (resetBytes k r).length = 8 := by simp [resetBytes, leBytes_length]
theorem adminCommand_runs (s : State) (c : AdminCmd) (opcode args : Nat) (reserved pfOnly : Bool) (run : State → AdminRef → State)
    (h : s.adminRuns c opcode args reserved pfOnly = true) : s.adminCommand c opcode args reserved pfOnly run = run (s.adminTaken c) (adminRef c) := by
  simp only [State.adminRuns, Bool.and_eq_true, decide_eq_true_eq, Bool.not_eq_true', Bool.and_eq_false_iff, decide_eq_false_iff_not] at h
  obtain ⟨⟨⟨⟨⟨⟨⟨⟨⟨⟨⟨h1, h2⟩, h3⟩, h4⟩, h0⟩, h5⟩, h6⟩, h7⟩, h8⟩, h9⟩, h10⟩, h11⟩ := h
  have hf : ∀ hst, hst.fns = s.host.fns → ({ s with host := hst } : State).fnNow c.fn = s.fnNow c.fn := by
    intro hst e; unfold State.fnNow State.fnState; rw [e]
  unfold State.adminCommand
  have hf' := hf { s.host with taken := s.host.taken.erase ⟨c.fn, 0, c.sqIndex⟩ } rfl
  simp only [h1, h2, hf', h3, h4, Bool.not_true, Bool.false_or, Bool.and_self, if_false, Bool.false_eq_true]
  have hd : (({ s with host := { s.host with taken := s.host.taken.erase ⟨c.fn, 0, c.sqIndex⟩ } } : State).dmaRead c.fn (field c.entry 16 8) (field c.entry 24 8)).1 =
      s.adminTaken c := by
    unfold State.dmaRead State.adminTaken
    rw [hf', if_pos h3]
  simp only [hd, h0, h5, h6, h7, h8, h9]
  simp [h11]
  intro hp hn
  rcases h10 with h | h
  · rw [h] at hp; cases hp
  · exact absurd hn h
@[simp] theorem fnState_setFn (s : State) (fn : Nat) (f : FnState) : (s.setFn fn f).fnState fn = f := by
  simp [State.fnState, State.setFn]
/-- The pins follow the state by a change of the STAT pins alone, which is sent (R471). -/
theorem settleStat_eq (s : State) : ∃ p o, s.settleStat = { s with pins := p, out := o } := by
  unfold State.settleStat; split
  · exact ⟨s.pins, s.out, rfl⟩
  · exact ⟨_, _, rfl⟩
@[simp] theorem settleStat_time (s : State) : s.settleStat.time = s.time := by obtain ⟨p, o, h⟩ := settleStat_eq s; rw [h]
@[simp] theorem settleStat_pipe (s : State) : s.settleStat.pipe = s.pipe := by obtain ⟨p, o, h⟩ := settleStat_eq s; rw [h]
@[simp] theorem settleStat_corpus (s : State) : s.settleStat.corpus = s.corpus := by obtain ⟨p, o, h⟩ := settleStat_eq s; rw [h]
@[simp] theorem settleStat_epochs (s : State) : s.settleStat.epochs = s.epochs := by obtain ⟨p, o, h⟩ := settleStat_eq s; rw [h]
@[simp] theorem settleStat_catalog (s : State) : s.settleStat.catalog = s.catalog := by obtain ⟨p, o, h⟩ := settleStat_eq s; rw [h]
@[simp] theorem settleStat_maint (s : State) : s.settleStat.maint = s.maint := by obtain ⟨p, o, h⟩ := settleStat_eq s; rw [h]
@[simp] theorem settleStat_receipts (s : State) : s.settleStat.receipts = s.receipts := by obtain ⟨p, o, h⟩ := settleStat_eq s; rw [h]
@[simp] theorem settleStat_images (s : State) : s.settleStat.images = s.images := by obtain ⟨p, o, h⟩ := settleStat_eq s; rw [h]
@[simp] theorem settleStat_installs (s : State) : s.settleStat.installs = s.installs := by obtain ⟨p, o, h⟩ := settleStat_eq s; rw [h]
@[simp] theorem settleStat_tenants (s : State) : s.settleStat.tenants = s.tenants := by obtain ⟨p, o, h⟩ := settleStat_eq s; rw [h]
@[simp] theorem settleStat_host (s : State) : s.settleStat.host = s.host := by obtain ⟨p, o, h⟩ := settleStat_eq s; rw [h]
@[simp] theorem settleStat_dict (s : State) : s.settleStat.dict = s.dict := by obtain ⟨p, o, h⟩ := settleStat_eq s; rw [h]
@[simp] theorem settleStat_counters (s : State) : s.settleStat.counters = s.counters := by obtain ⟨p, o, h⟩ := settleStat_eq s; rw [h]
@[simp] theorem settleStat_log (s : State) : s.settleStat.log = s.log := by obtain ⟨p, o, h⟩ := settleStat_eq s; rw [h]
@[simp] theorem settleStat_mbx (s : State) : s.settleStat.mbx = s.mbx := by obtain ⟨p, o, h⟩ := settleStat_eq s; rw [h]
@[simp] theorem settleStat_mgmt (s : State) : s.settleStat.mgmt = s.mgmt := by obtain ⟨p, o, h⟩ := settleStat_eq s; rw [h]
@[simp] theorem settleStat_sensors (s : State) : s.settleStat.sensors = s.sensors := by obtain ⟨p, o, h⟩ := settleStat_eq s; rw [h]
@[simp] theorem settleStat_tiers (s : State) : s.settleStat.tiers = s.tiers := by obtain ⟨p, o, h⟩ := settleStat_eq s; rw [h]
@[simp] theorem settleStat_staging (s : State) : s.settleStat.staging = s.staging := by obtain ⟨p, o, h⟩ := settleStat_eq s; rw [h]
@[simp] theorem settleStat_flash (s : State) : s.settleStat.flash = s.flash := by obtain ⟨p, o, h⟩ := settleStat_eq s; rw [h]
@[simp] theorem settleStat_fabric (s : State) : s.settleStat.fabric = s.fabric := by obtain ⟨p, o, h⟩ := settleStat_eq s; rw [h]
@[simp] theorem settleStat_exchange (s : State) : s.settleStat.exchange = s.exchange := by obtain ⟨p, o, h⟩ := settleStat_eq s; rw [h]
@[simp] theorem settleStat_power (s : State) : s.settleStat.power = s.power := by obtain ⟨p, o, h⟩ := settleStat_eq s; rw [h]
@[simp] theorem settleStat_repair (s : State) : s.settleStat.repair = s.repair := by obtain ⟨p, o, h⟩ := settleStat_eq s; rw [h]
@[simp] theorem settleStat_freeCount (s : State) : s.settleStat.freeCount = s.freeCount := by obtain ⟨p, o, h⟩ := settleStat_eq s; rw [h]
@[simp] theorem settleStat_pending (s : State) : s.settleStat.pending = s.pending := by obtain ⟨p, o, h⟩ := settleStat_eq s; rw [h]
end Sys2Proof.Machine
end

