-- ==== Sys2Proof/Tests/Slice0.lean ====
section
/-! SUPPORT. Small tests: an ill-formed command for each check of WellFormed, states that meet the hypotheses of each statement, and single steps
whose results are worked out from the spec. -/
open Sys2Proof Sys2Proof.Machine

namespace Sys2Proof.Tests

/-! Witnesses of IdleStepAdvancesOneCycle. -/
theorem witness_idleStep : State.reset.pending = [] := by decide

/-! Witnesses of NoStepTakesAnythingBack. -/
theorem witness_noStepTakesAnythingBack : State.reset.repair.phase ≠ 5 ∧ ∃ t, step { State.reset with pending := [.wakeHistClr] } = .next t :=
  ⟨by decide, _, rfl⟩

/-! Witnesses of StoresStayCanonical. -/
theorem witness_storesStayCanonical : memWf (writeMem [] 5 [1, 0, 2]) = true ∧ memWf State.reset.staging.mem = true ∧ Table.wf State.reset.counters = true ∧
    Table.wf (Table.set [(7, 1)] 5 (2 : Nat)) = true := by decide

/-! Witnesses of WellFormedQueueIsSafe. -/
theorem witness_wellFormedQueue : QueueWf { State.reset with pending := [.wakeHistClr] } := by simp [QueueWf, Instr.wf]

/-! Witnesses of PowerSampleAndFStepComplete. -/
theorem witness_fStep_down : let s : State := { power := { above := true, lastDown := [(1, 5)] } }
    (1 : Nat) < 4 ∧ s.power.above = true ∧ s.clockOf 1 > 1000 ∧ (∀ c ∈ s.power.lastDown.get 1, c + 10 * cyclesPerUs ≤ max s.time 16005) := by decide
theorem witness_fStep_up : let s : State := { power := { f := [(1, 2000)], belowSince := some 0, lastUp := [(1, 5)] } }
    (1 : Nat) < 4 ∧ s.power.above = false ∧ s.power.throttled.contains 2 = false ∧ s.power.belowSince = some 0 ∧
    0 + 100 * cyclesPerUs ≤ max s.time 160005 ∧ (∀ k ∈ s.power.lastUp.get 1, k + 100 * cyclesPerUs ≤ max s.time 160005) ∧
    s.clockOf 1 + 100 ≤ s.setting 0x2C00 4 2100 ∧ s.power.step < 6 ∧ s.domain ⟨.upStep, 1⟩ = .gated ∧
    (s.power.requests.any fun r => r.dom == ⟨.upStep, 1⟩ && !r.off) = false := by decide

/-! Witnesses of WakeSequencerCompletes. -/
theorem witness_idleGate : let s : State := { power := { doms := [(259, .powered)], idleAt := [(259, 0, 50)] } }
    s.domain ⟨.strand, 3⟩ = .powered ∧ (s.advance 80000).idleLong (domainKey ⟨.strand, 3⟩) = true ∧ (s.power.requests.any fun r => r.dom == ⟨.strand, 3⟩) = false := by decide
theorem witness_pllOff : let s : State := { power := { doms := [(2, .powered)], idleAt := [(2, 0, 1000)] } }
    s.domain ⟨.base, 2⟩ = .powered ∧ (s.advance 1600000).idleLong 2 = true ∧ (s.power.requests.any fun r => r.dom == ⟨.base, 2⟩) = false := by decide
theorem witness_wakeSlot : max (0 : Nat) 6400 % 3200 = 0 ∧ (3200 : Nat) < max 0 6400 := by decide
theorem witness_domainReady_upStep : let s : State := { power := { granted := [⟨⟨.upStep, 2⟩, 3, false, 1, false, 3200⟩] } }
    (s.power.granted.find? fun r => r.dom == ⟨.upStep, 2⟩) = some ⟨⟨.upStep, 2⟩, 3, false, 1, false, 3200⟩ ∧ 3200 + 3200 ≤ max s.time 6400 := by decide
theorem witness_domainReady_strand : let s : State := { power := { granted := [⟨⟨.strand, 9⟩, 2, false, 1, false, 3200⟩], pllAt := [(1, 19200)] } }
    (s.power.granted.find? fun r => r.dom == ⟨.strand, 9⟩) = some ⟨⟨.strand, 9⟩, 2, false, 1, false, 3200⟩ ∧ 3200 + 3200 ≤ max s.time 19200 ∧
    s.power.pllAt.getD (9 / 8) 0 ≤ max s.time 19200 := by decide

/-! Witnesses of SheddingAndThermalCommandsComplete. -/
theorem witness_limiterTrips : ({ power := { overCurrentAt := some 7 } } : State).power.overCurrentAt = some 7 ∧ 7 + 20 * cyclesPerUs ≤ max 0 32007 := by decide
theorem witness_shedStep_enter : let s : State := { power := { filtered := [36500, 42000], voltStep := 1 } }
    s.filtered = some 36500 ∧ s.power.voltStep ≤ voltEnter 36500 ∧ s.power.filtered.foldl max 0 < 36500 + 6000 := by decide
theorem witness_shedStep_leave : let s : State := { power := { filtered := [42000], voltStep := 3, aboveSince := some 9 } }
    s.filtered = some 42000 ∧ voltEnter 42000 < s.power.voltStep ∧ s.power.voltStep < 6 ∧ s.power.filtered.foldl max 0 < 42000 + 6000 ∧
    s.power.aboveSince = some 9 ∧ 9 + 100 * cyclesPerMs ≤ max s.time 160000009 := by decide
theorem witness_thermalThrottles : let s : State := { sensors := [(objKey 0x2CF0 7, 0x42B20000)] }
    s.thermalPoints 7 = some (85, 82, 95) ∧ s.power.throttled.contains 7 = false ∧ tempGe (s.sensors.getD (objKey 0x2CF0 7) 0) 85 = true ∧
    (7 : Nat) ≠ 5 ∧ (7 : Nat) ≠ 6 ∧ sensorUnit 7 ≠ unitModule := by decide
theorem witness_thermalRelease : let s : State := { sensors := [(objKey 0x2CF0 7, 0x42A00000)] }
    s.thermalPoints 7 = some (85, 82, 95) ∧ tempBelow (s.sensors.getD (objKey 0x2CF0 7) 0) 82 = true := by decide
theorem witness_capNotHeld : let s : State := { power := { capSince := [(2, 4)] } }
    (2 : Nat) < 4 ∧ s.power.capSince.get 2 = some 4 ∧ 4 + cyclesPerS ≤ max s.time 1600000004 ∧ s.power.capCounted.contains 2 = false := by decide

/-! Witnesses of SingleObjectWritesComplete. -/
/-- A module whose server is up and answers the management firmware. -/
def up : State := { mgmt := { serverUp := true } }
theorem witness_writes_up : up.mgmt.serverUp = true ∧ up.recoveryOffered = false := by decide
theorem witness_shedForce : (3 : Nat) ≤ 5 ∧ mayWrite .operator 0x2C00 6 .rw = true ∧ up.dict.storeFailed = false := by decide
theorem witness_fMax : (1000 : Nat) ≤ 1500 ∧ 1500 ≤ 2100 ∧ 1500 % 100 = 0 ∧ mayWrite .mgmt 0x2C00 4 .rw = true ∧ up.dict.storeFailed = false := by decide
theorem witness_logBase : (5 : Nat) < 256 ^ 8 ∧ mayWrite .operator 0x2E0B 3 .rw = true := by decide
theorem witness_settingsDefault : mayWrite .mgmt 0x2E06 1 .wo = true ∧ up.mgmt.sealed_ = false := by decide
theorem witness_compositionSeal : mayWrite .mgmt 0x2E01 1 .rw = true ∧ up.dict.storeFailed = false ∧ up.mgmt.sealed_ = false ∧ up.pins.stepping ≠ 0 ∧
    (up.noteAccess .mgmt).budgetRefuses 0x2E01 1 1 0 (rwObj 0x2E01 1 1 0 0 1) = false := by decide
theorem witness_compositionUnseal : mayWrite .mgmt 0x2E01 1 .rw = true ∧ up.dict.storeFailed = false ∧
    (up.noteAccess .mgmt).budgetRefuses 0x2E01 1 0 0 (rwObj 0x2E01 1 1 0 0 1) = false := by decide
theorem witness_tenantSnapReq : let s : State := { up with tenants := [(1, {})] }
    mayWrite .mgmt 0x2033 1 .wo = true ∧ (s.noteAccess .mgmt).tenantGone .mgmt = false := by decide
theorem witness_tenantRemove : let s : State := { up with tenants := [(1, {}), (9, {})] }
    (1 : Nat) ≤ 9 ∧ 9 ≤ 0xFFFE ∧ mayWrite .mgmt 0x2030 4 .wo = true ∧ (s.tenants.get 9).isSome = true ∧ (s.noteAccess .mgmt).tenantBound 9 = false ∧
    (s.noteAccess .mgmt).tenantBusy 9 = false := by decide
theorem witness_tenantIsolationMode : (1 : Nat) ≤ 1 ∧ mayWrite .mgmt 0x2030 2 .rw = true ∧ up.dict.storeFailed = false ∧ 1 ≠ up.setting 0x2030 2 0 ∧
    (up.noteAccess .mgmt).leadsOthers = false ∧ (up.noteAccess .mgmt).budgetRefuses 0x2030 2 1 0 (rwObj 0x2030 2 1 0 0 1) = false := by decide
theorem witness_isolationLate : (4 : Nat) ≤ ({ epochs := { closed := 5 } } : State).epochs.closed := by decide

/-! Witnesses of ResetAndHealthCommandsComplete. -/
theorem witness_resetTile : let s : State := { mgmt := { serverUp := true } }
    let a := (s.noteAccess .mgmt).dropSeg .mgmt (objKey 0x2D01 1)
    mayWrite .mgmt 0x2D01 1 .wo = true ∧ resetFormOk (resetBytes 1 ⟨2, 3, 5, 1⟩) = true ∧ a.resetUnitOk (resetBytes 1 ⟨2, 3, 5, 1⟩) = true ∧
    s.repair.jobs.any (covers (resetBytes 1 ⟨2, 3, 5, 1⟩)) = false := by decide
theorem witness_resetStrand : let a := (({ mgmt := { serverUp := true } } : State).noteAccess .mgmt).dropSeg .mgmt (objKey 0x2D01 1)
    resetFormOk (resetBytes 2 ⟨2, 3, 0, 0⟩) = true ∧ a.resetUnitOk (resetBytes 2 ⟨2, 3, 0, 0⟩) = true ∧
    a.repair.jobs.any (covers (resetBytes 2 ⟨2, 3, 0, 0⟩)) = false := by decide
theorem witness_resetPartition : let a := (({ mgmt := { serverUp := true } } : State).noteAccess .mgmt).dropSeg .mgmt (objKey 0x2D01 1)
    resetFormOk (resetBytes 3 ⟨2, 0, 0, 0⟩) = true ∧ a.resetUnitOk (resetBytes 3 ⟨2, 0, 0, 0⟩) = true ∧
    a.repair.jobs.any (covers (resetBytes 3 ⟨2, 0, 0, 0⟩)) = false := by decide
theorem witness_resetModule : let a := (({ mgmt := { serverUp := true } } : State).noteAccess .mgmt).dropSeg .mgmt (objKey 0x2D01 1)
    resetFormOk (resetBytes 4 ⟨0, 0, 0, 0⟩) = true ∧ a.resetUnitOk (resetBytes 4 ⟨0, 0, 0, 0⟩) = true ∧
    a.repair.jobs.any (covers (resetBytes 4 ⟨0, 0, 0, 0⟩)) = false := by decide
/-- A job of a strand's drain, and of a strand's reset that has run. -/
def drainJob : ResetJob := { scope := 2, part := 1, strand := 3, draining := true, startedAt := 5, limit := 100 }
theorem witness_resetDrainEnd : let s : State := { repair := { jobs := [drainJob] } }
    (s.repair.jobs.find? fun j => jobNamed 2 1 3 j && j.draining && !j.waiting) = some drainJob ∧ drainJob.startedAt + drainJob.limit ≤ max s.time 105 := by decide
theorem witness_unitReturn : let j : ResetJob := { drainJob with draining := false }
    let s : State := { repair := { jobs := [j] } }
    (s.repair.jobs.find? fun j => jobNamed 2 1 3 j && !j.draining && decide (max s.time 160005 ≥ j.startedAt + resetCycles j.scope)) = some j ∧
    s.stillHot j = false := by decide
theorem witness_healthHalfLife : let s : State := { repair := { halfLifeH := 1 } }
    s.repair.halfLifeAt + s.repair.halfLifeH * 3600 * cyclesPerS ≤ max s.time (3600 * cyclesPerS) := by decide

/-! Witnesses of CounterAndRegisterCommandsComplete. -/
theorem witness_eventCounterClear : counterKeyOf (State.reset).selectedTenant 0x2C20 6 = some (objKey 0x2C20 6) := by decide
theorem witness_satClear : summaryKeyOf (State.reset).selectedTenant 0x2C20 0xB = some (objKey 0x2C20 0xB) := by decide
theorem witness_satReassert : let s : State := { counters := [(objKey 0x2C20 6, eventMax)] }
    summaryKeyOf s.selectedTenant 0x2C20 0xB = some (objKey 0x2C20 0xB) ∧
    (groupMembers s.counters (objKey 0x2C20 0xB)).any (fun k => s.counter k == eventMax) = true := by decide
theorem witness_register_page0 : (3 : Nat) < 64 ∧ ((3 : Nat) = 0 && (State.reset).recoveryOffered) = false ∧
    (if ((State.reset).fnState 3).enabled then ((State.reset).fnState 3).expert else (State.reset).levelExpert 3) = true := by decide
theorem witness_register_msix : (0 : Nat) < 64 ∧ 64 < (State.reset).vectorCount 0 ∧ bit 1 0 = true := by decide
theorem witness_register_port : (3 : Nat) < 32 ∧ (State.reset).portRegStatus 3 0x000 (portRegMask 0x000 9) = 0 := by decide
theorem witness_register_recovery : ({ mgmt := { boot := .recovery 0 } } : State).recoveryOffered = true := by decide
theorem witness_meterCapture_fn : let s : State := { host := { fns := [(2, { snap := { busy := true } })] } }
    ((s.advance 100).fnState 2).snap.busy = true := by decide
theorem witness_meterCapture_tenant : ({ dict := { tenantSnap := { busy := true } } } : State).dict.tenantSnap.busy = true := by decide

/-! Witnesses of HostInterfaceCommandsComplete. -/
/-- A function ready to be enabled, with a window over its administration rings. -/
def readyFn : State := { host := { perst := false, fns := [(0, { mse := true, bme := true, adminSqBase := 4096, adminCqBase := 8192, adminSize := 16 + 16 * 65536,
                                                                 windows := [(0, ⟨4096, 16383, true, true, true⟩)] })] } }
theorem witness_pcieLinkTrain : readyFn.host.perst = false := by decide
theorem witness_vfEnable : readyFn.host.vfEnable = false := by decide
theorem witness_fnEnable : readyFn.enableAllowed 0 = true ∧ readyFn.levelExpert 0 = true ∧ ringSizeOk ((readyFn.fnState 0).adminSize % 65536) = true ∧
    ringSizeOk ((readyFn.fnState 0).adminSize / 65536) = true ∧ (readyFn.fnState 0).adminSqBase % 4096 = 0 ∧ (readyFn.fnState 0).adminCqBase % 4096 = 0 ∧
    dmaInside { readyFn.fnState 0 with expert := true } false (readyFn.fnState 0).adminSqBase (128 * ((readyFn.fnState 0).adminSize % 65536)) = true ∧
    dmaInside { readyFn.fnState 0 with expert := true } true (readyFn.fnState 0).adminCqBase (64 * ((readyFn.fnState 0).adminSize / 65536)) = true := by decide
theorem witness_run : let s : State := { readyFn with dict := { settings := [(objKey 0x2034 1, 0)] } }
    s.enableAllowed 0 = true ∧ s.levelExpert 0 = false := by decide
theorem witness_dmaWindowWrite : (15 : Nat) < 16 ∧ (if (readyFn.fnState 0).enabled then (readyFn.fnState 0).expert else readyFn.levelExpert 0) = true := by decide
/-- An enabled function with an active ring pair. -/
def ringFn : State := { host := { fns := [(0, { enabled := true, tenant := 1, pairs := [(3, { state := 1, kind := 1, sqSize := 16, cqSize := 16, unconsumed := 5, unsignalled := 2, cqHead := 14 })] })] } }
theorem witness_sqTail : ringFn.doorbells 0 = true ∧ (ringFn.pairOf 0 3).state ≠ 0 ∧ 15 % 65536 < (ringFn.pairOf 0 3).sqSize ∧
    (ringFn.pairOf 0 3).sqSize ≤ 16 % 65536 := by decide
theorem witness_cqHead : ringFn.doorbells 0 = true ∧ (ringFn.pairOf 0 3).state ≠ 0 ∧ 3 % 65536 < (ringFn.pairOf 0 3).cqSize ∧
    (3 % 65536 + (ringFn.pairOf 0 3).cqSize - (ringFn.pairOf 0 3).cqHead) % (ringFn.pairOf 0 3).cqSize ≤ (ringFn.pairOf 0 3).unconsumed := by decide
theorem witness_coalTimer : ((ringFn.advance 9).pairOf 0 3).unsignalled > 0 ∧
    ((ringFn.advance 9).pairOf 0 3).oldestAt + ((ringFn.advance 9).pairOf 0 3).coalUs * cyclesPerUs ≤ max ringFn.time 9 := by decide
theorem witness_msixUnmask : (64 : Nat) < ringFn.vectorCount 0 := by decide
/-- An enabled basic-level function. -/
def basicFn : State := { host := { fns := [(0, { enabled := true, expert := false, tenant := 1, basic := { qsrSize := 16, qcrSize := 16, igrSize := 16, unconsumed := 4 } })] } }
theorem witness_basic_doorbells : (if (basicFn.fnState 0).enabled then (basicFn.fnState 0).expert else basicFn.levelExpert 0) = false ∧
    15 % 65536 < (basicFn.fnState 0).basic.qsrSize ∧ 15 % 65536 < (basicFn.fnState 0).basic.igrSize := by decide
theorem witness_qcrHead : (basicFn.fnState 0).enabled = true ∧ (basicFn.fnState 0).expert = false ∧ 4 % 65536 < (basicFn.fnState 0).basic.qcrSize ∧
    (4 % 65536 + (basicFn.fnState 0).basic.qcrSize - (basicFn.fnState 0).basic.qcrHead) % (basicFn.fnState 0).basic.qcrSize ≤ (basicFn.fnState 0).basic.unconsumed := by decide

/-! Witnesses of RingAndAccessCommandsComplete. -/
/-- A module that is ready, whose function 0 of tenant 1 has taken the administration entry 5. -/
def adminUp : State := { host := { taken := [⟨0, 0, 5⟩], fns := [(0, { enabled := true, tenant := 1, pairs := [(0, { state := 1, sqSize := 16, cqSize := 16 }), (7, { state := 2 })] })] }
                         repair := { ready := true }, mgmt := { serverUp := true } }
/-- An administration command with an opcode and its argument bytes, and no buffers. -/
def adminCmd (opcode : Nat) (args : List Byte) : AdminCmd := ⟨0, 5, leBytes 8 opcode ++ List.replicate 40 0 ++ slice args 0 80, [], true⟩
theorem witness_entryTake : let s : State := { host := { fns := [(0, { enabled := true, tenant := 1, pairs := [(0, { state := 1, sqSize := 16, sqTail := 2, cqSize := 16 })], windows := [(0, ⟨0, 65535, true, true, true⟩)] })] } }
    nextRobin 64 s.host.lastFn (fun fn => (s.nextPair fn).isSome) = some 0 ∧ s.nextPair 0 = some 0 ∧
    (s.fnState 0).expert = true ∧ dmaInside (s.fnNow 0) false ((s.pairOf 0 0).sqBase + 128 * (s.pairOf 0 0).sqHead) 128 = true := by decide
theorem witness_createRing : let cmd := adminCmd 0x10 ([3, 1, 16, 0, 16, 0, 1, 0, 1, 0] ++ List.replicate 22 0)
    adminUp.adminRuns cmd 0x10 32 (allZero cmd.entry 60 4) false = true ∧ field cmd.entry 48 1 = 3 ∧ ((adminUp.adminTaken cmd).pairOf 0 3).state = 0 ∧
    field cmd.entry 49 1 = 1 ∧ ringSizeOk (field cmd.entry 50 2) = true ∧ ringSizeOk (field cmd.entry 52 2) = true ∧ field cmd.entry 64 8 % 4096 = 0 ∧
    field cmd.entry 72 8 % 4096 = 0 ∧ (adminUp.adminTaken cmd).interruptOk 0 (field cmd.entry 54 2) (field cmd.entry 56 2) (field cmd.entry 58 2) = true := by decide
theorem witness_deleteRing : let cmd := adminCmd 0x11 [7]
    adminUp.adminRuns cmd 0x11 1 true false = true ∧ field cmd.entry 48 1 = 7 ∧ ((adminUp.adminTaken cmd).pairOf 0 7).state = 2 := by decide
theorem witness_setInterrupt : let cmd := adminCmd 0x12 [7, 0, 1, 0, 1, 0, 0, 0]
    adminUp.adminRuns cmd 0x12 8 (allZero cmd.entry 49 1) false = true ∧ field cmd.entry 48 1 = 7 ∧ ((adminUp.adminTaken cmd).pairOf 0 7).state ≠ 0 ∧
    (adminUp.adminTaken cmd).interruptOk 0 (field cmd.entry 50 2) (field cmd.entry 52 2) (field cmd.entry 54 2) = true := by decide
theorem witness_identity : adminUp.adminRuns (adminCmd 0x51 []) 0x51 0 true false = true := by decide
/-- A request for one byte of the status of the module, with an output buffer that holds the answer. -/
def accessCmd : AdminCmd := ⟨0, 5, leBytes 8 0x70 ++ leBytes 8 0 ++ leBytes 8 4096 ++ leBytes 8 24 ++ leBytes 8 4096 ++ leBytes 4 4096 ++ List.replicate 84 0,
  leBytes 2 1 ++ leBytes 6 0 ++ [1, 1, 0x30, 0x20, 1] ++ List.replicate 11 0, true⟩
theorem witness_objectAccess : let s : State := { adminUp with host := { adminUp.host with fns := [(0, { enabled := true, tenant := 1, windows := [(0, ⟨0, 65535, true, true, true⟩)] })] } }
    s.adminRuns accessCmd 0x70 0 true false = true ∧ (adminInput accessCmd).length ≤ 65568 ∧ requestHeaderOk (adminInput accessCmd) = true ∧
    responseSize (parseItems (field (adminInput accessCmd) 0 2) ((adminInput accessCmd).drop 8)) ≤ (adminRef accessCmd).outLen := by decide

/-! Witnesses of CatalogCommandsComplete. -/
/-- Namespace 9 of tenant 1 with index 4, and a grant to tenant 2. -/
def catalogUp : State := { adminUp with catalog := { namespaces := [⟨9, 1, 0, none⟩], indices := [⟨9, 4, 0, 0, 8, 0, none, false, false⟩], grants := [⟨9, 2, 1, 0, none⟩] } }
theorem witness_namespaceCreate : let cmd := adminCmd 0x33 [10, 0, 0, 0, 1, 0]
    catalogUp.adminRuns cmd 0x33 6 true true = true ∧ field cmd.entry 52 2 = 1 ∧ field cmd.entry 48 4 = 10 ∧
    (catalogUp.adminTaken cmd).nsUsed 10 = false ∧ (catalogUp.adminTaken cmd).nsCount < 4096 := by decide
theorem witness_namespaceDelete : let s : State := { catalogUp with catalog := { catalogUp.catalog with indices := [] } }
    let cmd := adminCmd 0x34 [9, 0, 0, 0]
    s.adminRuns cmd 0x34 4 true true = true ∧ ((s.adminTaken cmd).nsAt 9 (s.adminTaken cmd).epochs.open_).isSome = true ∧
    ((s.adminTaken cmd).catalog.indices.any fun i => i.ns = 9 && i.deleted.isNone && !(s.adminTaken cmd).idxEnding 9 i.idx) = false ∧
    (s.adminTaken cmd).idxComing 9 = false := by decide
theorem witness_indexCreate : let cmd := adminCmd 0x35 [9, 0, 0, 0, 5, 0, 0, 0, 3, 3, 0, 16]
    let a := catalogUp.adminTaken cmd
    catalogUp.adminRuns cmd 0x35 12 true false = true ∧ field cmd.entry 56 1 ≤ 3 ∧ field cmd.entry 57 1 ≤ 3 ∧ 1 ≤ field cmd.entry 58 2 ∧
    field cmd.entry 58 2 ≤ 4096 ∧ field cmd.entry 52 4 = 5 ∧ a.ownerFail 0 9 none = none ∧ a.idxUsed 9 5 = false ∧ a.idxCount < 16384 := by decide
theorem witness_indexDelete : let cmd := adminCmd 0x36 [9, 0, 0, 0, 4, 0, 0, 0]
    catalogUp.adminRuns cmd 0x36 8 true false = true ∧ (catalogUp.adminTaken cmd).ownerFail 0 9 (some 4) = none := by decide
theorem witness_grantCreate : let cmd := adminCmd 0x40 [9, 0, 0, 0, 3, 0, 0, 0, 1, 0, 0, 0]
    let a := catalogUp.adminTaken cmd
    catalogUp.adminRuns cmd 0x40 12 (allZero cmd.entry 54 2) false = true ∧ field cmd.entry 52 2 = 3 ∧ field cmd.entry 56 4 ≠ 0 ∧
    a.ownerFail 0 9 none = none ∧ ((a.nsAt 9 a.epochs.open_).any fun n => n.owner = 3) = false ∧ a.grantFor 9 3 = none ∧ a.grantWaits 9 3 true = false ∧ a.grantCount 9 < 16 := by decide
theorem witness_grantByFirmware : (catalogUp.nsAt 9 catalogUp.epochs.open_).isSome = true ∧ ((catalogUp.nsAt 9 catalogUp.epochs.open_).any fun n => n.owner = 3) = false ∧
    catalogUp.grantFor 9 3 = none ∧ catalogUp.grantWaits 9 3 true = false ∧ catalogUp.grantCount 9 < 16 := by decide
theorem witness_grantRevoke : let cmd := adminCmd 0x41 [9, 0, 0, 0, 2, 0]
    let a := catalogUp.adminTaken cmd
    catalogUp.adminRuns cmd 0x41 6 true false = true ∧ a.ownerFail 0 9 none = none ∧ (a.grantFor 9 2).isSome = true ∧ a.grantWaits 9 2 false = false := by decide
theorem witness_tableCreate : let cmd : AdminCmd := ⟨0, 5, leBytes 8 0x42 ++ leBytes 8 0 ++ leBytes 8 4096 ++ leBytes 8 8 ++ leBytes 16 0 ++
      leBytes 4 7 ++ leBytes 4 9 ++ leBytes 8 100 ++ leBytes 2 8 ++ [16] ++ List.replicate 61 0, List.replicate 8 1, true⟩
    let s : State := { catalogUp with host := { catalogUp.host with fns := [(0, { enabled := true, tenant := 1, windows := [(0, ⟨0, 65535, true, true, true⟩)] })] } }
    let a := s.adminTaken cmd
    s.adminRuns cmd 0x42 32 (allZero cmd.entry 67 13) false = true ∧ field (cmd.entry.drop 48) 0 4 = 7 ∧ field (cmd.entry.drop 48) 4 4 = 9 ∧
    field (cmd.entry.drop 48) 8 8 = 100 ∧ field (cmd.entry.drop 48) 16 2 = 8 ∧ field (cmd.entry.drop 48) 18 1 = 16 ∧ (adminInput cmd).length = 8 ∧
    a.ownerFail 0 9 none = none ∧ (a.exchange.tables.any fun t => t.table = 7 && t.ns = 9 && t.deletedAt.isNone) = false := by decide

/-! Witnesses of VersionCommandsComplete. -/
/-- The record of version 3 of index 4 of namespace 9. -/
def versionRec : List Byte := leBytes 4 3 ++ leBytes 4 9 ++ leBytes 4 4 ++ [0, 1, 0, 0, 0, 0, 0, 1] ++ leBytes 2 8 ++ List.replicate 106 0
/-- An image without programs whose digest is 64 zero bytes. -/
def plainImage : Image := { digest := List.replicate 64 0, security := 0, encodeTiles := 0, scoreTiles := 0, stageMask := 0, progs := {}, installed := [0] }
/-- A module that holds the image and a version of the index in a state. -/
def versionUp (v : VState) : State := { catalogUp with images := [(0, plainImage)], catalog := { catalogUp.catalog with
  versions := [{ parseVersion versionRec 0 with state := v, digest := List.replicate 64 7, image := List.replicate 64 0 }] } }
set_option maxRecDepth 4000 in
theorem witness_versionCreate : let cmd : AdminCmd := ⟨0, 5, leBytes 8 0x30 ++ leBytes 8 0 ++ leBytes 8 4096 ++ leBytes 8 128 ++ leBytes 16 0 ++ List.replicate 80 0, versionRec, true⟩
    let s : State := { catalogUp with images := [(0, plainImage)], host := { catalogUp.host with fns := [(0, { enabled := true, tenant := 1, windows := [(0, ⟨0, 65535, true, true, true⟩)] })] } }
    let a := s.adminTaken cmd
    let v := parseVersion (adminInput cmd) a.epochs.open_
    s.adminRuns cmd 0x30 0 true false = true ∧ versionFormOk (adminInput cmd) = true ∧ a.ownerFail 0 v.ns (some v.idx) = none ∧
    (∃ i, a.idxAt v.ns v.idx a.epochs.open_ = some i ∧ i.width = v.width ∧ i.metric = v.metric ∧ i.dim = v.dim) ∧
    a.catalog.versions = [] ∧ a.imageByDigest v.image = some (0, plainImage) := by
  refine ⟨by decide, by decide, by decide, ⟨_, rfl, by decide⟩, by decide, by decide⟩
theorem witness_versionBuildComplete : let s := versionUp .building
    ((s.versionOf 9 4 3).map (·.state)) = some .building ∧ s.maintRuns = true ∧ ((s.versionOf 9 4 3).any fun v => buildBytes v ≤ s.tierRoom 0 true) = true := by decide
theorem witness_versionSwitch : let cmd := adminCmd 0x31 [9, 0, 0, 0, 4, 0, 0, 0, 3, 0, 0, 0]
    let s := versionUp .ready
    let a := s.adminTaken cmd
    s.adminRuns cmd 0x31 12 true false = true ∧ a.ownerFail 0 9 (some 4) = none ∧
    ((a.versionOf 9 4 3).any fun v => v.state == .ready && !a.oldDrains v && v.switchEpoch = 0 && ((a.imageByDigest v.image).any fun x => !x.2.installed.isEmpty)) = true := by decide
theorem witness_versionInfo : let cmd := adminCmd 0x32 [9, 0, 0, 0, 4, 0, 0, 0, 3, 0, 0, 0]
    let a := (versionUp .ready).adminTaken cmd
    (versionUp .ready).adminRuns cmd 0x32 12 true false = true ∧ a.ownerFail 0 9 (some 4) = none ∧ (a.versionOf 9 4 3).isSome = true := by decide
theorem witness_versionFree : let s := versionUp .draining
    ((s.versionOf 9 4 3).any fun v => v.state == .draining && v.endEpoch.getD 0 ≤ s.usableClosed && !s.versionHeld v (v.endEpoch.getD 0)) = true ∧ s.corpus.dir = [] := by decide
theorem witness_indexDataDiscard : let s : State := { catalog := { indices := [⟨9, 4, 0, 0, 8, 0, some 0, false, false⟩] } }
    (s.catalog.indices.find? fun i => i.ns = 9 && i.idx = 4 && i.deleted.isSome && !i.discarded).isSome = true ∧
    s.snapBelow 0 = false ∧ (s.catalog.versions.any fun v => v.ns = 9 && v.idx = 4) = false := by decide

/-! Witnesses of ReceiptAndImageCommandsComplete. -/
theorem witness_receiptPeriodEnd : (State.reset.receipts.periodStart + receiptPeriod ≤ max State.reset.time 160000000) := by decide
/-- A module whose tree 0 of one leaf is closed, signed or not. -/
def treeUp (durable : Bool) : State := { adminUp with receipts := { nextLeaf := 1, nextTree := 1, trees := [{ seq := 0, first := 0, leaves := [[1]], header := [], durable, periodStart := 0 }] } }
theorem witness_receiptTrees : ((treeUp false).receipts.trees.find? fun t => t.seq = 0 && !t.durable).isSome = true ∧
    ((treeUp false).receipts.trees.any fun u => u.seq < 0 && !u.durable) = false := by decide
theorem witness_receiptProof : let cmd := adminCmd 0x50 []
    (treeUp true).adminRuns cmd 0x50 8 true false = true ∧ cmd.fn = 0 ∧
    (((treeUp true).adminTaken cmd).leafAt (field cmd.entry 48 8)).any (fun x => x.2.isSome) = true := by decide
theorem witness_imageSubmit : adminUp.adminRuns (adminCmd 0x20 []) 0x20 0 true true = true := by decide
/-- A module with one image resident and an installation of it in partition 0 that has drained or not. -/
def installUp (drained : Bool) : State := { adminUp with images := [(0, plainImage)], installs := [{ part := 0, image := 0, remove := false, startedAt := 0, limitUs := 0, drained }] }
theorem witness_imageRemove : let cmd := adminCmd 0x21 []
    let a := (installUp false).adminTaken cmd
    (installUp false).adminRuns cmd 0x21 64 true true = true ∧ a.imageByDigest (slice cmd.entry 48 64) = some (0, plainImage) ∧
    (a.catalog.versions.any fun v => v.image = plainImage.digest) = false := by decide
theorem witness_imageInstall : let cmd := adminCmd 0x22 (List.replicate 64 0 ++ [2, 1])
    let s : State := { installUp false with installs := [] }
    let a := s.adminTaken cmd
    s.adminRuns cmd 0x22 66 true true = true ∧ field cmd.entry 112 1 < 4 ∧ a.imageByDigest (slice cmd.entry 48 64) = some (0, plainImage) ∧
    (a.installs.any fun i => !i.waiting) = false ∧ field cmd.entry 113 1 = 1 := by decide
theorem witness_imageUninstall : let cmd := adminCmd 0x22 (List.replicate 64 0 ++ [2, 2])
    let s : State := { installUp false with installs := [] }
    s.adminRuns cmd 0x22 66 true true = true ∧ field cmd.entry 113 1 = 2 := by decide
theorem witness_installDrainEnd : let s := installUp false
    ((s.installIn 0).any fun i => !i.drained) = true ∧ s.partBusy 0 = false := by decide
theorem witness_installDrainLimit : let s : State := { installUp false with pipe := { batches := [(3, { ns := 9, idx := 4, version := 3, list := 0, view := [], g := 0, openedAt := 0, window := 0, max := 1, gig := false })] } }
    (((s.advance 5).installIn 0).any fun i => !i.drained && i.startedAt + i.limitUs * cyclesPerUs ≤ max s.time 5) = true ∧
    (s.advance 5).partBusy 0 = true := by decide
theorem witness_installWriteComplete : (((installUp true).installIn 0).any fun i => i.drained) = true := by decide
theorem witness_imageInfo : let cmd := adminCmd 0x23 []
    (installUp false).adminRuns cmd 0x23 64 true false = true ∧
    (((installUp false).adminTaken cmd).imageByDigest (slice cmd.entry 48 64)).isSome = true := by decide

/-! Witnesses of AdmissionCommandsComplete. -/
theorem witness_basicQueryDescriptor : let s : State := { repair := { ready := true }, mgmt := { serverUp := true }, host := { fns := [(0, {
      enabled := true, expert := false, windows := [(0, ⟨0, 65535, true, true, true⟩)], basic := { arenaSize := 65536, qsrSize := 4, qsrTail := 1, qcrSize := 4 } })] } }
    s.turn = some (0, 0) ∧ (s.fnState 0).expert = false ∧ dmaInside (s.fnNow 0) false 0 64 = true := by decide
/-- A vector query of tenant 1 on version 3 of index 4 of namespace 9, in a phase. -/
def plainQuery (p : QPhase) : Query := {
  fn := 0, pair := 1, sqIndex := 0, basic := false, tenant := 1, seq := 0, arrivedAt := 0, phase := p, version := 3,
  fields := ⟨9, 4, 0, false, 0, 8, List.replicate 32 0, 4, 1, none, none, 100, false, 0, [], [], 7, 4096⟩ }
/-- A module in which the query waits and its index is CURRENT. -/
def queryUp (p : QPhase) : State := { versionUp .current with
  time := 10, epochs := { closed := 3, closedAt := 5 }, pipe := { queries := [(0, plainQuery p)] },
  catalog := { catalogUp.catalog with
    versions := [{ parseVersion versionRec 0 with state := .current, switchEpoch := 1, image := List.replicate 64 0 }] } }
theorem witness_queryEntryArrive : let entry := [1] ++ List.replicate 127 0
    let s : State := { host := { taken := [⟨0, 1, 0⟩], fns := [(0, { enabled := true, pairs := [(1, { kind := 1 })], windows := [(0, ⟨0, 65535, true, true, true⟩)] })] } }
    s.host.taken.contains ⟨0, 1, 0⟩ = true ∧ (s.pairOf 0 1).kind = 1 ∧ field entry 0 1 = 1 ∧
    dmaInside (s.fnNow 0) false (field entry 56 8) (field entry 64 4) = true ∧
    dmaInside (s.fnNow 0) true (parseQuery entry []).resultAddr (16 * (parseQuery entry []).k) = true := by decide
theorem witness_queryPlace : let s := queryUp .placing
    ((s.query 0).any fun x => x.phase == .placing && x.fields.minEpoch ≤ s.usableClosed && (match s.checkAt x s.usableClosed with
      | .ok (_, _, img, _) => !img.installed.isEmpty && (s.placeStrand img.installed).isSome
      | .error _ => false)) = true := by decide
theorem witness_minEpochHoldEnd : let s := queryUp .minHold
    ((s.query 0).any fun x => x.phase == .minHold && x.fields.minEpoch ≤ s.usableClosed && (match s.checkAt x s.usableClosed with
      | .ok (_, _, img, _) => img.installed.contains (x.g / 8)
      | .error _ => false)) = true ∧ s.inFlight 1 < (s.tenant 1).inflightCap := by decide
/-- A partition's tensor pool with one ENCODE request of the query waiting. -/
def encodeUp : State := { queryUp .encodeWait with
  images := [(0, { plainImage with encodeTiles := 2, encoder := some ⟨1, 0, 8, 8, 16, 0, 0, [], 0, 0, [], ⟨[]⟩⟩ })],
  pipe := { queries := [(0, plainQuery .encodeWait)], tensor := [(0, { queue := [⟨.encode, 0, 2, 100, 0, 0, 0⟩] })] } }
theorem witness_tensorGrant : ((encodeUp.pool 0).queue.any fun r => r.tiles ≤ (freeTiles (encodeUp.pool 0)).length &&
    (encodeUp.query r.owner).isSome && (encodeUp.modelOf r.model).isSome) = true := by decide
theorem witness_encodeDeadline : (((encodeUp.advance 20).query 0).any fun x => x.phase == .encodeWait && x.deadlineAt ≤ max encodeUp.time 20) = true := by decide
theorem witness_encodeComplete : (((queryUp .encoding).query 0).any fun x => x.phase == .encoding) = true := by decide
theorem witness_querySketch : let s : State := { queryUp .toSketch with power := { doms := [(domainKey ⟨.strand, 0⟩, .powered)] } }
    ((s.query 0).any fun x => x.phase == .toSketch && s.powered .strand x.g && s.sketchesOut x.g < 32 && (match s.versionOf 9 4 x.version with
      | some v => (s.imageByDigest v.image).isSome
      | none => false)) = true := by decide

/-! Witnesses of RoutingAndScanCommandsComplete. -/
/-- A probe of tenant 1 at snapshot 3. -/
def plainMember : Member := {
  handle := 0, origin := 0, tenant := 1, ns := 9, snapshot := 3, sketches := [(0, 0)], vector := [], n := 4, r := 0, kSel := 4, bound := 64,
  inTerms := [], postTerms := [], forced := 0, deadlineAt := 100, listBound := 64, ctx := { kSel := 4 } }
/-- A batch on list 2, closed or open. -/
def plainBatch (closed : Option CloseCause) : Batch := {
  list := 2, ns := 9, idx := 4, version := 3, view := [0], g := 0, openedAt := 0, window := 0, max := 8, gig := false, members := [plainMember], closed }
/-- A module with the batch, its list of one entry, and every domain of strand 0 powered. -/
def scanUp (closed : Option CloseCause) : State := { queryUp .toWalk with
  pipe := { queries := [(0, plainQuery .toWalk)], batches := [(0, plainBatch closed)], svc := [(0, [900])],
            scanFifo := [(0, [⟨0, 0, 2, 0, 0, 0, 0⟩])], rerankFifo := [(0, [⟨0, 0, 2, 0, 0, 0, 0⟩])], bounds := [(0, [(0, 0, 5)])] },
  corpus := { lists := [(2, { ns := 9, idx := 4, version := 3, listId := 1, shard := 0, segs := [(0, ⟨0, false, 0, [⟨1, 0, 0, [], [], [], 1, 0⟩], [], 1, none, 0, []⟩)] })] },
  power := { doms := [(domainKey ⟨.base, 0⟩, .powered), (domainKey ⟨.strand, 0⟩, .powered)] }, staging := { owner := [(0, 2), (1, 2)] } }
theorem witness_walk : let s := scanUp none
    s.powered .base 0 = true ∧ ((s.nextWalk 0).any fun qx => (match s.versionOf 9 4 qx.2.version with
      | some v => (s.imageByDigest v.image).isSome
      | none => false)) = true := by decide
theorem witness_closeWindow : let s := scanUp none
    (((s.advance 20).batch 0).any fun b => b.closed.isNone && b.openedAt + b.window * cyclesPerUs ≤ max s.time 20) = true ∧
    (s.advance 20).pipe.svc.getD 0 [] ≠ [] := by decide
theorem witness_closeUrgent : let s := scanUp none
    (((s.advance 20).batch 0).any fun b => b.members.any fun m => (m.deadlineAt - max s.time 20) * ((s.advance 20).pipe.svc.getD (b.g / 8) []).length <
        2 * ((s.advance 20).pipe.svc.getD (b.g / 8) []).sum) = true := by decide
theorem witness_gigInterval : max State.reset.time 160000 % (100 * cyclesPerUs) = 0 := by decide
theorem witness_gigQuotaSecond : max State.reset.time 1600000000 % cyclesPerS = 0 := by decide
theorem witness_batchScanPass : let s := scanUp (some .window)
    ((s.batch 0).any fun b => (s.list b.list).isSome && s.passReady 0 0 b && !s.tiers.unheld.contains b.list) = true := by decide
theorem witness_filterCandidate : let s := scanUp (some .window)
    ((s.pipe.scanFifo.getD 0 []).head?.any fun c => (s.batch c.batch).isSome && (s.member c.batch c.member).any fun m =>
      !m.withdrawn && !m.ended && s.tileLoad 0 (s.tileOf 0 m) < 2048) = true := by decide
theorem witness_scanBoundArrive : let s := scanUp (some .window)
    s.pipe.bounds.getD 0 [] = [(0, 0, 5)] ∧ (s.member 0 0).isSome = true := by decide
theorem witness_tileRestarts : let s : State := { scanUp none with
      pipe := { tensor := [(0, { running := [⟨⟨.maint, 0, 1, 0, 0, 0, 0⟩, [0], 0⟩] })] } }
    ((s.pool 0).running.find? fun i => i.held.contains 0).isSome = true := by decide
theorem witness_maintTensorGrant : let s : State := { maint := { steps := [(0, (2, 1))] } }
    (s.maint.steps.get 0).isSome = true ∧ (s.pipe.tensor.any fun kp => kp.2.running.any fun i => i.req.kind == .maint && i.req.owner = 0) = false ∧
    (s.pool 0).queue = [] ∧ s.modelShed = false ∧ s.upkeepRuns = true ∧ 1 ≤ (freeTiles (s.pool 0)).length ∧
    maintTiles (s.pool 0) + 1 ≤ s.setting 0x2500 2 8 := by decide

/-! Witnesses of RerankAndSelectCommandsComplete. -/
/-- The module of `scanUp` with a change to its member and to its query. -/
def rerankUp (m : Member → Member) (x : Query → Query) : State := { scanUp (some .window) with
  pipe := { (scanUp none).pipe with
    queries := [(0, x (plainQuery .searching))], batches := [(0, { plainBatch (some .window) with members := [m plainMember] })],
    fetches := [(0, { cand := ⟨0, 0, 2, 0, 0, 0, 0⟩, codes := .due, post := .due })], selectFifo := [(0, [⟨0, 0, ⟨1, 0, 0, 0⟩, 0⟩])] } }
theorem witness_scanSummaryReceive : let s := rerankUp id fun x => { x with chosen := [{ list := 1, items := 1 }] }
    let b := leBytes 8 (s.handleOf 0 (plainQuery .searching)) ++ leBytes 4 1 ++ List.replicate 12 0
    let q := (s.queryOf (field b 0 8)).getD (handleSerial (field b 0 8))
    ((s.query q).any fun x => (s.versionOf 9 4 x.version).isSome && s.handleOf q x = field b 0 8 && x.phase == .searching &&
      (chosenOf x (parseSummary b).list).isSome && x.summaries.isEmpty) = true := by decide
theorem witness_rerankCandidateReceive : let s := rerankUp id id
    ((s.pipe.rerankFifo.getD 0 []).head?.any fun c => (s.member c.batch c.member).any fun m => !m.withdrawn && !m.ended &&
      !s.rerankStalled 0 (s.tileOf 0 m) && (s.oldestHeld 0 (s.tileOf 0 m)).2 < 8192) = true := by decide
theorem witness_releaseHold : let s := rerankUp (fun m => { m with summaryAt := some 0, held := [⟨⟨0, 0, 2, 0, 0, 0, 0⟩, 0, 0⟩] }) id
    (((s.advance 20).memberCtx 0 0).any fun c => vectorReady c.2.1 c.2.2 && c.2.1.summaryAt == some 0 &&
      c.2.1.held.any fun h => decide (0 + h.us * cyclesPerUs ≤ max s.time 20)) = true := by decide
theorem witness_releaseLate : let s := rerankUp id id
    (((s.advance 20).memberCtx 0 0).any fun c => vectorReady c.2.1 c.2.2 && !c.2.1.withdrawn && !c.2.1.ended &&
      (s.advance 20).reserveAt c.2.1 ≤ max s.time 20) = true := by decide
theorem witness_fetchCommands : let s := rerankUp id id
    ((s.pipe.fetches.get 0).any fun f => (s.memberCtx f.cand.batch f.cand.member).any fun c => f.key == .due && f.codes == .due && f.post == .due &&
      f.path = 0 && vectorReady c.2.1 c.2.2 && (s.itemOf c.1 f.cand).isSome) = true := by decide
theorem witness_tierReadLate_row : let s := rerankUp id fun x => { x with phase := .assembling, block := [⟨⟨1, 0, 0, 0⟩, false, [1], [], false⟩] }
    ((s.query 0).any fun x => x.phase == .assembling && (x.block[0]?).any fun b => !b.dropped && b.rowsDue.contains 1) = true := by decide
theorem witness_selectEntryOffer : let s := rerankUp id id
    ((s.pipe.selectFifo.getD 0 []).head?.any fun r => (s.member r.batch r.member).any fun m => !m.withdrawn && !m.ended && !m.ctx.poolWait && !m.ctx.spillWait && !s.emitStalled 0) = true := by decide
theorem witness_pieceSend : let s := rerankUp (fun m => { m with built := true, pieces := [[1]] }) id
    ((s.member 0 0).any fun m => m.built && !m.ended && m.pieces == [[1]]) = true ∧ (s.batch 0).isSome = true := by decide
theorem witness_runMergeStart : let c : SelCtx := { kSel := 4, store := 2, runs := List.replicate 16 [], poolWait := true }
    let s := rerankUp (fun m => { m with ctx := c }) fun x => { x with ctx := c }
    ((s.query 0).any fun x => mergeDue x.ctx ((x.chosen.any fun c => !c.waiting.isEmpty) || listsDone x)) = true ∧
    ((s.member 0 0).any fun m => mergeDue m.ctx (m.scanned && s.memberIdle 0 0 m && m.ctx.entries.isEmpty) && m.ctx.poolWait &&
      s.tiers.poolList + listArea m.ctx.kSel ≤ s.poolHalf) = true ∧ s.tileMerges 0 = false := by decide
theorem witness_runMergeComplete : let c : SelCtx := { kSel := 4, store := 2, merging := some [[], []] }
    let s := rerankUp (fun m => { m with ctx := c }) fun x => { x with ctx := c }
    ((s.query 0).any fun x => x.ctx.merging.isSome) = true ∧ ((s.member 0 0).any fun m => m.ctx.merging.isSome) = true := by decide
theorem witness_poolWait : let s := rerankUp id fun x => { x with phase := .poolWait, snapshot := some 3 }
    ((s.query 0).any fun x => x.phase == .poolWait && (s.imageFor x).isSome) = true := by decide

/-! Witnesses of OriginCommandsComplete. -/
/-- A module with one query in a phase, with a chosen list, pieces and a block of one item. -/
def originUp (p : QPhase) (ss : Nat) (f : ChosenList → ChosenList) : State := { queryUp p with
  images := [(0, { plainImage with scorer := some ⟨1, 0, 8, 8, 16, 4, 4, [], 0, 0, [], ⟨[]⟩⟩ })],
  pipe := { queries := [(0, { plainQuery p with s := ss, snapshot := some 3, routed := true, chosen := [f { list := 1, items := 1 }], block := [⟨⟨1, 0, 0, 0⟩, true, [1], [], false⟩] })] } }
theorem witness_pieceReceive : let s := originUp .searching 0 id
    let b := leBytes 8 (s.handleOf 0 (plainQuery .searching)) ++ leBytes 4 1 ++ List.replicate 20 0
    let q := (s.queryOf (parsePiece b).handle).getD (handleSerial (parsePiece b).handle)
    ((s.query q).any fun x => s.handleOf q x = (parsePiece b).handle && x.phase == .searching && Machine.pieceOk b && !(parsePiece b).withdrawn &&
      s.pieceRoom (s.askSpill x) (parsePiece b).total && (chosenOf x (parsePiece b).list).any fun c => c.state == .open && c.pieces.isEmpty && c.waiting.isEmpty) = true := by decide
theorem witness_pieceReservationGrant : let s := originUp .searching 0 fun c => { c with waiting := [(0, [])] }
    ((s.query 0).any fun x => x.phase == .searching && (chosenOf x 1).any fun c => c.waiting == [(0, [])] && s.pieceRoom (s.askSpill x) (parsePiece []).total) = true := by decide
theorem witness_listMergeComplete : let s := originUp .searching 0 fun c => { c with pieces := [(0, [])], last := some 0 }
    ((s.query 0).any fun x => x.phase == .searching && (chosenOf x 1).any fun c => c.state == .open && (wholePartial c).isSome) = true := by decide
theorem witness_cutoff : let s := originUp .searching 0 id
    (((s.advance 20).query 0).any fun x => x.phase == .searching && x.s = 0 && !listsDone x &&
      x.deadlineAt ≤ max s.time 20 + orderTime x.ctx ((s.advance 20).clockOf (x.g / 8)) (max s.time 20)) = true := by decide
theorem witness_scoreCutoff : let s := originUp .searching 4 id
    (((s.advance 20).query 0).any fun x => x.phase == .searching && x.s > 0 && !listsDone x && (s.advance 20).scoreCutAt x ≤ max s.time 20) = true := by decide
theorem witness_scoreWithdrawn : let s := originUp .scoreWait 4 id
    (((s.advance 20).query 0).any fun x => x.phase == .scoreWait && ((s.advance 20).imageFor x).any fun i => i.2.scorer.any fun m =>
      (s.advance 20).tooLate (x.g / 8) x.deadlineAt (statedNs m (x.block.filter fun b => !b.dropped).length)) = true := by decide
theorem witness_scoreAbandoned : let s := originUp .scoring 4 id
    (((s.advance 20).query 0).any fun x => x.phase == .scoring && x.deadlineAt ≤ max s.time 20 + 8 * cyclesPerUs) = true := by decide
theorem witness_scoreInputAssemble : let s := originUp .assembling 4 id
    ((s.query 0).any fun x => x.phase == .assembling && (x.block[0]?).any fun b => !b.dropped && b.payloadDue && b.rowsDue.contains 1) = true := by decide
theorem witness_scoreComplete : let s := originUp .scoring 4 id
    ((s.query 0).any fun x => x.phase == .scoring && [(⟨[], [], []⟩ : ItemInput)].length = (x.block.filter fun b => !b.dropped).length &&
      (((s.dropTensor 0 fun r => r.kind == .score && r.owner = 0).tally 0x2510 5).imageFor x).isSome) = true := by decide
theorem witness_queryCompletionWrite : (((originUp .emitting 0 id).query 0).any fun x => x.phase == .emitting && x.adopted.isNone) = true := by decide

/-! Witnesses of IngestAndEpochCommandsComplete. -/
/-- An ingest entry without records, of tenant 1's function, and a module that has taken it. -/
def ingestEntry : List Byte := [2] ++ List.replicate 15 0 ++ leBytes 8 64 ++ leBytes 4 48 ++ leBytes 2 1 ++ List.replicate 2 0 ++ leBytes 8 4096 ++ List.replicate 88 0
def ingestUp : State := { host := { taken := [⟨0, 1, 0⟩], fns := [(0, { enabled := true, expert := true, tenant := 1, pairs := [(1, { kind := 2 })], windows := [(0, ⟨0, 65535, true, true, true⟩)] })] } }
theorem witness_ingestEntryArrive : let parts := splitRecords (field ingestEntry 28 2) (slice (List.replicate 48 0) 0 (field ingestEntry 24 4))
    ingestUp.host.taken.contains ⟨0, 1, 0⟩ = true ∧ (ingestUp.pairOf 0 1).kind = 2 ∧ field ingestEntry 0 1 = 2 ∧ ingestEntryOk ingestEntry = true ∧
    dmaInside (ingestUp.fnNow 0) false (field ingestEntry 16 8) (field ingestEntry 24 4) = true ∧
    dmaInside (ingestUp.fnNow 0) true (field ingestEntry 32 8) (24 * field ingestEntry 28 2) = true ∧
    parts.1.length = field ingestEntry 28 2 ∧ parts.2 = [] ∧ (ingestUp.fnState 0).tenant ≠ 0 := by decide
theorem witness_basicIngestDescriptor : let s : State := {
      repair := { ready := true }, dict := { domains := [(objKey 0x2035 1, List.replicate 8 1)] },
      host := { fns := [(0, { enabled := true, expert := false, tenant := 1, basic := { arenaSize := 65536, igrSize := 4, igrTail := 1 } })] } }
    let desc : List Byte := leBytes 16 0 ++ leBytes 2 1 ++ List.replicate 14 0
    let a := (s.count (objKey 0x2040 1) 32).takeIngest 0
    let m := a.basicIndex 0 (field desc 18 1 % 16)
    s.turn = some (0, 1) ∧ (s.fnState 0).expert = false ∧ dmaInside (s.fnNow 0) false 0 32 = true ∧ field desc 16 2 = 1 ∧ field desc 18 1 < 16 ∧ allZero desc 24 8 = true ∧
    dmaInside (a.fnNow 0) false (field desc 8 8) (basicRecords m.1 m.2 1 []).2 = true := by decide
/-- A delete of key 1 that waits at its home. -/
def plainWrite : Write := { record := ⟨3, false, false, 0, 0, 9, 4, 1, 0, 0, [], [], 48⟩, tenant := 1, origin := 0, batch := 0, pos := 0, arrivedAt := 0 }
theorem witness_recordOrder : let s : State := { corpus := { held := [plainWrite] }, epochs := { mayStamp := true } }
    (headRun s.corpus.held).1 ≠ [] ∧ 1 ≤ (headRun s.corpus.held).1.length ∧ ((headRun s.corpus.held).1.any fun w => s.writeWaits w) = false := by decide
theorem witness_logFlush : State.reset.corpus.lastFlush + State.reset.corpus.flushUs * cyclesPerUs ≤ max State.reset.time 1600000 := by decide
theorem witness_logPageDurable : let s : State := { corpus := { logPages := [(5, [plainWrite])] } }
    s.corpus.logPages.head? = some (5, [plainWrite]) := by decide
theorem witness_beaconEmit : (State.reset.advance 160000000).leads = true ∧
    State.reset.epochs.lastEmit + (State.reset.advance 160000000).epochCycles ≤ max State.reset.time 160000000 := by decide
theorem witness_beaconReceive : let s : State := { mgmt := { sealed_ := true }, epochs := { open_ := 0 } }
    let b := leBytes 8 3 ++ leBytes 24 0
    s.mgmt.sealed_ = true ∧ b.length = 32 ∧ s.epochs.open_ ≤ (parseBeacon b).closed := by decide
theorem witness_leaderTakeover : let s : State := { mgmt := { sealed_ := true }, dict := { domains := [(objKey 0x2E0A 1, leBytes 4 0 ++ [0, 0])] } }
    (((s.advance (1000 * cyclesPerMs)).rankOf s.mgmt.moduleId).any fun r => s.epochs.lastLower + (r + 1) * s.epochs.timeoutMs * cyclesPerMs ≤ max s.time (1000 * cyclesPerMs)) = true ∧ s.epochs.leading = false := by decide
theorem witness_epochClosureRecord : let s : State := { epochs := { closing := [(1, 100)] } }
    s.epochs.closing = [(1, 100)] ∧ s.writesSettled 1 = true ∧ s.replicasSettled 1 = true := by decide
theorem witness_beaconGaps : State.reset.epochs.gap = false ∧
    State.reset.epochs.lastBeacon + State.reset.epochs.timeoutMs * cyclesPerMs ≤ max State.reset.time 1600000000 := by decide

/-! Witnesses of MapAndDrayCommandsComplete. -/
/-- A map of one shard of module 0, and its content. -/
def oneMap (st : Nat) : CompMap := { epoch := 20, shards := [{ home := 0, state := st, group := List.replicate 10 0xFFFF }] }
/-- A module that has installed the map, with a move of its shard. -/
def mapUp (st : Nat) (moves : List ShardMove) : State := { exchange := { maps := [oneMap st], moves } }
set_option maxRecDepth 4000 in
theorem witness_mapAnnounce : let s : State := {}
    let c := mapBytes (oneMap 0)
    s.leads = true ∧ mapOk c = true ∧ s.epochs.open_ + s.setting 0x2B00 3 8 ≤ (readMap c).epoch ∧ s.announcedEpoch < (readMap c).epoch ∧
    (readMap c).prev = s.announcedEpoch ∧ s.announced = none ∧ ((readMap c).shards.all (s.groupOk s.moduleList)) = true := by decide
theorem witness_mapNotice : let s : State := {}
    (leBytes 8 5 ++ leBytes 88 0).length = 96 ∧ s.newestMap < field (leBytes 8 5 ++ leBytes 88 0) 0 8 ∧ s.exchange.notices = [] := by decide
set_option maxRecDepth 4000 in
theorem witness_mapLateInstall : ∃ n : MapNotice, ([n].find? fun n => n.late && n.digest = shake256 (mapBytes (oneMap 0)) 64) = some n ∧
    mapOk (mapBytes (oneMap 0)) = true := ⟨⟨20, 0, 0, shake256 (mapBytes (oneMap 0)) 64, [], true⟩, by simp, by decide⟩
theorem witness_shardMoveStart_source : let s := mapUp 1 []
    (s.lastMap.any fun c => (c.shards[0]?).any fun e => e.home ≠ 7 && e.state = 1 && e.home = s.mgmt.moduleId) = true ∧
    s.moving s.mgmt.moduleId = false := by decide
theorem witness_shardMoveStart_leader : let s := mapUp 0 []
    (s.lastMap.any fun c => (c.shards[0]?).any fun e => e.home ≠ 7 && e.state = 0 && !s.moving e.home) = true ∧ s.leads = true ∧ s.moving 7 = false ∧
    (s.nextMap (mapShard false 0 fun x => { x with state := 1 })).isSome = true := by decide
theorem witness_shardCopyComplete : let s := mapUp 1 [{ shard := 0, source := 0, dest := 7, f1 := 20 }]
    ((s.exchange.moves.find? fun m => m.shard = 0 && !m.copied && m.dest ≠ s.mgmt.moduleId).any fun m => s.lastMap.any fun c =>
      ((if m.feature then c.features else c.shards)[0]?).any fun e => e.state = 1) = true := by decide
theorem witness_shardFree : let s := mapUp 0 [{ shard := 0, source := 0, dest := 7, f1 := 20, f2 := some 1, switched := true }]
    ((s.exchange.moves.find? fun m => m.shard = 0 && m.switched && m.source = s.mgmt.moduleId).any fun m => !s.snapBelow (m.f2.getD 0)) = true := by decide
theorem witness_drayCloseWindow : let s : State := { exchange := { drays := [{ dest := 7, cls := 0, tenant := 1, items := [], openedAt := 0, windowNs := 0 }] } }
    ((s.advance 100).exchange.drays.find? fun d => d.dest = 7 && d.cls = 0 && d.tenant = 1 &&
      decide (max s.time 100 ≥ d.openedAt + nsCycles d.windowNs)).isSome = true := by decide
/-- A dray of class C with one IRESULT item of batch 0. -/
def drayBody : List Byte := leBytes 8 1 ++ leBytes 2 1 ++ leBytes 6 0 ++ drayItem 7 (leBytes 32 0)
theorem witness_drayReceive : (drayItems 2 drayBody).isSome = true ∧ isRepeat 2 1 0 {} = false ∧ isRepeat 2 1 0 { highest := 1 } = true := by decide
theorem witness_qctxBudgetExpire : let s : State := { exchange := { qctx := [(0, ⟨5, 7, 1, 3, 3, 9, 4, 50, 4, 4, 0, 8, [], [], [], false, 1, 0, [], []⟩)] } }
    (((s.advance 100).ctxOf 7 5).any fun c => c.2.budgetEnd ≤ max s.time 100) = true := by decide

/-! Witnesses of LeaseAndRebuildCommandsComplete. -/
/-- A module that drains, with the lease of a query sent to module 7. -/
def leaseUp : State := { queryUp .searching with exchange := { leases := [{ handle := 0, peer := 7, draining := true, epoch := 1, expiry := 50, copy := [1] }] } }
theorem witness_leaseMessages : let msg (op : Byte) : List Byte := [op, 2] ++ List.replicate 30 0
    ((leaseUp.leaseOf 0 7 true).any fun l => !l.dropped && !l.copy.isEmpty) = true ∧ field (msg 4) 8 8 = 0 ∧ field (msg 4) 1 1 = 2 ∧
    leaseIs 2 (msg 2) = true ∧ leaseIs 3 (msg 3) = true ∧ leaseIs 4 (msg 4) = true ∧ leaseIs 5 (msg 5) = true := by decide
theorem witness_orphanedQueries : let b := leaseUp.advance 100
    let a : State := { b with
      exchange := { b.exchange with leases := b.exchange.leases.filter fun (y : Lease) => !(y.handle = 0 && y.draining == true) } }
    ((b.exchange.leases.find? fun (l : Lease) => l.handle = 0 && decide (b.time ≥ l.expiry)).any fun l => l.draining) = true ∧
    ((a.queryOf 0).any fun q => (a.query q).isSome) = true := by decide
theorem witness_hotRowReplicate : let s : State := { exchange := { tables := [⟨7, 9, 100, 8, 16, List.replicate 8 0, none⟩], sampled := [(rowKey (9 * 2 ^ 32 + 7) 3, 1000)] }, time := 100 }
    (s.table (9 * 2 ^ 32 + 7)).isSome = true ∧ ((s.featShard (9 * 2 ^ 32 + 7) 3).any fun f => (s.featHome f s.epochs.open_).1 = s.mgmt.moduleId) = true ∧ s.rowHot (9 * 2 ^ 32 + 7) 3 = true ∧
    s.exchange.rows.get (rowKey (9 * 2 ^ 32 + 7) 3) = none ∧ s.corpus.logPending = [] ∧ s.corpus.logPages = [] ∧ s.exchange.replicasOut = [] := by decide
theorem witness_invalidate : (leBytes 24 7).length % 24 = 0 ∧ (invalEntries (leBytes 24 7)).length ≤ 20 ∧ invalEntries (leBytes 24 7) ≠ [] := by decide
theorem witness_codeFlush : let s : State := { exchange := { streams := [(0, { open_ := [1], flushMs := 0 })] } }
    (((s.advance 9).exchange.streams.get 0).any fun c => !c.open_.isEmpty && c.firstAt + c.flushMs * cyclesPerMs ≤ max s.time 9) = true := by decide
/-- Eight data fragments of stripe 0. -/
def eightFrags : List FragIn := (List.range 8).map fun i => ⟨0, i, 1, 1, List.replicate 65536 0⟩
theorem eightFrags_stripes : stripesOf eightFrags = [(0, eightFrags)] := by
  simp [stripesOf, eightFrags, List.range, List.range.loop, List.eraseDups_cons, sortBy, insertBy, -List.reduceReplicate]
theorem eightFrags_recover : ∃ d, recoverStripe eightFrags = some d := ⟨_, rfl⟩
theorem witness_homeRebuild : let s : State := { exchange := { maps := [{ epoch := 20, shards := [{ home := 0, state := 2 }] }] } }
    (s.lastMap.bind fun m => shardOf m 0) = some (s.mgmt.moduleId, 2) ∧ stripesOf eightFrags ≠ [] ∧
    ((stripesOf eightFrags).map fun x => recoverStripe x.2).any Option.isNone = false := by
  refine ⟨by decide, by simp [eightFrags_stripes], ?_⟩
  obtain ⟨d, h⟩ := eightFrags_recover
  simp [eightFrags_stripes, h]
theorem witness_memberRebuild : let s : State := { exchange := { maps := [{ epoch := 20, shards := [{ home := 7, group := [7, 7, 7, 7, 7, 7, 7, 7, 0] }] }] } }
    (s.codeGroup 0)[8]? = some s.mgmt.moduleId ∧ stripesOf eightFrags = [(0, eightFrags)] ∧
    ∃ d, recoverStripe (eightFrags.filter fun f => f.frag ≠ 8) = some d := ⟨by decide, eightFrags_stripes, _, rfl⟩

/-! Witnesses of MaintenanceCommandsComplete. -/
theorem witness_maintPeriod : State.reset.maint.periodStart + State.reset.maint.periodS * cyclesPerS ≤ max State.reset.time 16000000000 ∧
    State.reset.maint.sweepStart + State.reset.maint.sweepS * cyclesPerS ≤ max State.reset.time 16000000000 ∧ (State.reset.advance 16000000000).maintRuns = true := by decide
/-- A module with list 1 in the directory, a split or merge of it, and a fold of it. -/
def maintUp (isMerge : Bool) (steps : Table (Nat × Nat)) : State := { scanUp none with
  pipe := { tensor := [(0, { running := [⟨⟨.maint, 1, 1, 0, 0, 0, 0⟩, [0], 0⟩] })] },
  corpus := { (scanUp none).corpus with
    dir := [(1, { csketch := 0, home := 0, handle := 2, state := 1, ns := 9, idx := 4, version := 3 })],
    lists := [(2, { ns := 9, idx := 4, version := 3, listId := 1, shard := 0, segs := [(0, ⟨0, false, 0, [], [], 1, some 2, 0, []⟩)] })] },
  maint := { reorgs := [{ sources := [1], isMerge, reserved := [8, 9] }], folds := [⟨2, 1, 5, [], none, none⟩], steps } }
theorem witness_splitCopyComplete (m : Bool) : let s := { maintUp m [] with maint := { reorgs := [{ sources := [1], isMerge := m, reserved := [8, 9] }] } }
    ((s.maint.reorgs.find? fun g => g.sources.head? = some 1 && !g.deferred && !g.waiting && g.effect.isNone).any fun g => g.isMerge = m &&
      ((g.sources.filterMap fun k => (s.corpus.dir.get k).map (·.handle)).filterMap fun h => s.list h).length = 1) = true ∧
    s.maintRuns = true ∧ s.folding [1] = false ∧ ((s.versionOf 9 4 3).any fun v => (s.list 2).any fun l => s.hbmFits v (mergedSegs l []) &&
      s.hbmFits v (childSegs l (s.toChildA v 1 8 [] []) ++ childSegs l fun i => !s.toChildA v 1 8 [] [] i)) = true := by
  cases m <;> decide
theorem witness_foldBuildComplete : let s := maintUp false []
    ((s.maint.folds.find? fun f => f.handle = 2).any fun f => (s.list 2).any fun l => (s.versionOf l.ns l.idx l.version).any fun v =>
      f.base.isNone && f.c ≤ s.usableClosed && s.maintRuns && s.hbmFits v [s.foldBase l v f] &&
      (s.foldBase l v f).items.length ≤ 33554432) = true := by decide
theorem witness_segmentFree : let s := maintUp false []
    ((s.corpus.lists.find? fun kl => (kl.2.segs.get 0).isSome).any fun hl => (hl.2.segs.get 0).any fun g => g.validUntil == some 2) = true ∧
    2 ≤ s.usableClosed ∧ s.segReferred 0 = false ∧ s.snapBelow 2 = false ∧
    (s.maint.folds.any fun f => f.handle = 2 && (f.old.contains 0 || f.delta = 0)) = false := by decide
theorem witness_maintStepComplete : let s := maintUp false [(1, (0, 1))]
    (s.pipe.tensor.any fun kp => kp.2.running.any fun i => i.req.kind == .maint && i.req.owner = 1) = true ∧ s.maintRuns = true ∧ s.maint.steps.get 1 = some (0, 1) := by decide

/-! Witnesses of PortCommandsComplete. -/
/-- A module whose port 3 is enabled, with a neighbour, in a state of the port. -/
def portIn (st : Nat) : State := { fabric := { ports := [(3, { enable := true, state := st, width := 2 })] } }
theorem witness_queueSample : (State.reset.advance 0).time * 10 % 16384 < 10 := by decide
theorem witness_portEnable : (3 : Nat) < 32 ∧ (State.reset.healthOf (unitPort 3)).retired = false := by decide
theorem witness_portSignalDetect : let s := { portIn 0 with power := { doms := [(domainKey ⟨.port, 3⟩, .powered)] } }
    (s.port 3).enable = true ∧ (s.port 3).state = 0 ∧ s.pins.cables.contains 3 = true ∧ s.powered .port 3 = true := by decide
theorem witness_portSignalDetect_lock : let s := { portIn 1 with power := { doms := [(domainKey ⟨.port, 3⟩, .powered)] } }
    (s.port 3).state = 1 ∧ s.powered .port 3 = true := by decide
theorem witness_trainFails : let p := ((portIn 1).advance 80000000).port 3
    p.state = 1 ∧ p.since + 50 * cyclesPerMs ≤ max (portIn 1).time 80000000 := by decide
theorem witness_trainFails_ident : let p := ((portIn 2).advance 89600000).port 3
    p.state = 2 ∧ p.since + 56 * cyclesPerMs ≤ max (portIn 2).time 89600000 := by decide
theorem witness_trainRetry : let s : State := { fabric := { ports := [(3, { enable := true, failed := true })] } }
    let p := (s.advance 160000000).port 3
    p.enable = true ∧ p.state = 0 ∧ p.failed = true ∧ p.since + 100 * cyclesPerMs ≤ max s.time 160000000 ∧
    (s.advance 160000000).pins.cables.contains 3 = true := by decide
theorem keccakRound_length (a : List Nat) (rc : Nat) : (keccakRound a rc).length = 25 := by
  simp [keccakRound, Function.comp_def, List.map_const']
theorem keccakF_length (a : List Nat) (h : a.length = 25) : (keccakF a).length = 25 := by
  unfold keccakF
  generalize iotaWords 24 1 = xs
  induction xs generalizing a with
  | nil => exact h
  | cons x xs ih => exact ih _ (keccakRound_length a x)
theorem digest_take_length (m : List Byte) : ((digest64 m).take 8).length = 8 := by
  have h : ∀ (bs : List (List Byte)) (a : List Nat), a.length = 25 → (bs.foldl shakeAbsorb a).length = 25 := by
    intro bs; induction bs with
    | nil => exact fun a h => h
    | cons b bs ih => exact fun a _ => ih _ (keccakF_length _ (by simp))
  have := h (chunks 136 (shakePad m)) (List.replicate 25 0) (by simp)
  unfold digest64 shake256
  simp only
  generalize List.foldl shakeAbsorb (List.replicate 25 0) (chunks 136 (shakePad m)) = st at this
  match st, this with
  | x :: st, this => simp [shakeSqueeze, leBytes_length] <;> omega
/-- The module with a descriptor entry for port 3: module 5, port 3. -/
def linkedPort (st : Nat) : State := { portIn st with dict := { domains := [(objKey 0x2E0A 2, leBytes 84 0 ++ leBytes 4 (5 + 3 * 4096 + 2 ^ 19))] } }
theorem witness_ident : ∃ content, (linkedPort 2).identMatches 3 content = true ∧ ((linkedPort 2).port 3).state = 2 := by
  refine ⟨leBytes 2 5 ++ leBytes 1 3 ++ leBytes 5 0 ++ (linkedPort 2).descriptorDigest.take 8, ?_, by decide⟩
  have h : ((linkedPort 2).descriptorDigest.take 8).length = 8 := digest_take_length _
  have e : (linkedPort 2).portEntry 3 = 5 + 3 * 4096 + 2 ^ 19 := by decide
  unfold State.identMatches
  simp only [e]
  generalize (linkedPort 2).descriptorDigest.take 8 = d at h
  simp [field, slice, leBytes, leNat, bit, bits, h, Nat.testBit, List.take_of_length_le]
theorem witness_ident_mismatch : (portIn 3).identMatches 3 [] = false ∧ ((portIn 3).port 3).state = 3 := by decide
theorem witness_retrain : ((portIn 3).port 3).state = 3 ∧ (1 : Nat) < 2 := by decide
theorem witness_retrainComplete : ((portIn 4).port 3).state = 4 ∧ (0 : Nat) < 4 := by decide
theorem witness_portDown : ((portIn 3).port 3).state ≠ 0 ∧ ((portIn 3).port 3).state ≠ 6 ∧ ((portIn 3).port 3).state ≠ 7 := by decide

/-! Witnesses of FrameCommandsComplete. -/
theorem crc64Shift_zero (n : Nat) : crc64Shift n 0 = 0 := by
  induction n with
  | zero => rfl
  | succ n ih => simp [crc64Shift, ih]
theorem crc64_zero (n : Nat) : crc64 (List.replicate n 0) = 0 := by
  unfold crc64
  induction n with
  | zero => rfl
  | succ n ih => rw [List.replicate_succ, List.foldl_cons]; simpa [crc64Shift_zero] using ih
/-- A flit that is all zero but its last byte. -/
def zeroFlit (last : Byte) : List Byte := List.replicate 255 0 ++ [last]
set_option maxRecDepth 4000 in
theorem witness_flitReceive : let s := portIn 3
    (zeroFlit 0).length = 256 ∧ ((s.port 3).state = 2 ∨ (s.port 3).state = 3 ∨ (s.port 3).state = 5) ∧ crc64 ((zeroFlit 0).take 248) = field (zeroFlit 0) 248 8 := by
  refine ⟨by decide, by decide, ?_⟩
  rw [show (zeroFlit 0).take 248 = List.replicate 248 0 by simp [zeroFlit], crc64_zero]; decide
theorem witness_flitReceive_sequence : bits (field (zeroFlit 0) 1 2) 11 0 = (((portIn 3).ackFlit 3 (zeroFlit 0)).port 3).rxSeq ∧
    field (zeroFlit 0) 0 1 % 4 = 0 := by decide
set_option maxRecDepth 4000 in
theorem witness_flitReceive_crc : crc64 ((zeroFlit 1).take 248) ≠ field (zeroFlit 1) 248 8 := by
  rw [show (zeroFlit 1).take 248 = List.replicate 248 0 by simp [zeroFlit], crc64_zero]; decide
/-- A header of 32 bytes to module 5 from module 6, class 4, one hop, kind 5. -/
def plainHeader (dest : Nat) : List Byte := leBytes 2 0 ++ leBytes 2 dest ++ leBytes 2 6 ++ [4, 1] ++ leBytes 2 40 ++ leBytes 2 5 ++ leBytes 20 0
/-- A frame of class M being received. -/
def plainRx (dest : Nat) (accepted whole : Bool) : RxFrame := { tag := 9, header := plainHeader dest, bytes := plainHeader dest ++ leBytes 8 1, need := 1, accepted, whole, cls := 4 }
/-- A module 5 with addresses 5 and 6 and a frame at port 3. -/
def frameUp (r : RxFrame) : State := { fabric := { ports := [(3, { enable := true, state := 3, partial_ := [r] })] }, mgmt := { moduleId := 5, addresses := [5, 6, 7] } }
theorem witness_frameHeaderDecide : let s := frameUp (plainRx 5 false true)
    (((s.port 3).partial_ ++ (s.port 3).rx.toList).find? fun r => !r.accepted && !r.deferred) = some (plainRx 5 false true) ∧
    (match s.decideHeader 3 (plainRx 5 false true) with | .ok _ => true | .error _ => false) = true := by decide
theorem witness_frameHeaderDecide_defer : let s := frameUp (plainRx 8 false true)
    (match s.decideHeader 3 (plainRx 8 false true) with | .ok _ => 0 | .error c => c) = 2 := by decide
theorem witness_frameDeliver (dest : Nat) (h : dest = 5 ∨ dest = 7) : let s := frameUp (plainRx dest true true)
    ((s.port 3).partial_.find? fun r => r.tag = 9 && r.accepted && r.whole) = some (plainRx dest true true) ∧
    (field (plainRx dest true true).header 2 2 = (s.releaseRx 3 (plainRx dest true true)).mgmt.moduleId ↔ dest = 5) := by
  rcases h with rfl | rfl <;> decide
/-- A frame of class M that port 3 has sent. -/
def sentFrame (backoff : Nat) : Frame := { tag := 9, dest := 7, src := 5, cls := 4, hops := 8, kind := 5, demand := 0, mapEpoch := 0, tenant := 0, body := [], sent := 2, backoffUntil := backoff }
theorem witness_answerReceive : let p : Port := { state := 3, flying := [sentFrame 0] }
    (p.flying.find? fun f => f.tag = bits (9 + 2 ^ 16) 15 0 && !f.accepted && f.backoffUntil = 0) = some (sentFrame 0) ∧
    bit (9 + 2 ^ 16) 16 = true ∧ bit (9 + 2 ^ 16) 17 = false ∧ bit (9 + 3 * 2 ^ 16) 17 = true ∧ bits (9 + 3 * 2 ^ 16) 15 0 = 9 := by decide
theorem witness_deferBackoff : let a := ({ fabric := { ports := [(3, { flying := [sentFrame 5] })] } } : State).advance 5
    (a.port 3).flying.find? (fun f => f.tag = 9 && f.backoffUntil ≠ 0 && f.backoffUntil ≤ a.time) = some (sentFrame 5) := by decide
theorem witness_answerTimeout : let a := ({ fabric := { ports := [(3, { flying := [sentFrame 0] })] } } : State).advance 5
    (a.port 3).flying.find? (fun f => f.tag = 9 && !f.accepted && f.backoffUntil = 0 && a.time ≥ f.headerAt + nsCycles f.timeoutNs) = some (sentFrame 0) := by
  decide
theorem witness_frameStart : let s : State := { fabric := { ports := [(3, { state := 3, tokens := [(4, 512)], queues := [(4, [sentFrame 0])] })] }, mgmt := { addresses := [5, 7] } }
    let a := ([4, 1, 0, 2, 3] : List Nat).foldl (fun s c => s.dropRefused 3 c) (s.advance 0)
    (s.advance 0).portUp 3 = true ∧ (([4, 1, 0, 2, 3] : List Nat).findSome? fun c => a.mayStart 3 c) = some (sentFrame 0, false) := by decide
theorem witness_frameStart_idle : let a := ([4, 1, 0, 2, 3] : List Nat).foldl (fun s c => s.dropRefused 3 c) ((portIn 3).advance 0)
    (([4, 1, 0, 2, 3] : List Nat).findSome? fun c => a.mayStart 3 c) = none := by decide
theorem witness_shaperRefill : max State.reset.time 1600 % cyclesPerUs = 0 := by decide

/-! Witnesses of PlacementCommandsComplete. -/
/-- A list 3 with one code pair 4 in LPDDR, moves and pages in REPAIR. -/
def tiersUp (moves : List Move) (repair : List RepairPage) : State := { adminUp with
  tiers := { objs := [(3, { kind := 0, tier := 0xFF, size := 0 }), (4, { kind := 3, tier := 1, size := 4096, owner := 3 })], moves, repair } }
/-- The call that places the code pairs of list 3 in HBM, or cancels. -/
def placeBytes (cancel : Nat) : List Byte := leBytes 8 3 ++ leBytes 1 0 ++ leBytes 1 cancel ++ leBytes 6 0
theorem witness_mgmtPlace : let s := tiersUp [] []
    let b := placeBytes 0
    s.placeRefusal false b = none ∧ (s.liveObj (field b 0 8)).isSome = true ∧ bit (field b 9 1) 0 = false ∧
    (s.liveObj (field b 0 8)).all (fun o => s.callObjs (field b 0 8 % 2 ^ 28) (field b 8 1) o = [4]) = true := by decide
theorem witness_place : let s := tiersUp [] []
    let cmd := adminCmd 0x60 (placeBytes 0)
    let a := s.adminTaken cmd
    let b := slice (cmd.entry.drop 48) 0 16
    s.adminRuns cmd 0x60 16 true false = true ∧ a.placeRefusal (decide (cmd.fn ≠ 0)) b = none ∧
    (a.liveObj (field b 0 8)).any (fun o => a.callObjs (field b 0 8 % 2 ^ 28) (field b 8 1) o = [4]) = true ∧ bit (field b 9 1) 0 = false := by decide
theorem witness_placeCancel : let s := tiersUp [{ obj := 4, source := 1, target := 0, call := 0 }] []
    let cmd := adminCmd 0x60 (placeBytes 1)
    let a := s.adminTaken cmd
    let b := slice (cmd.entry.drop 48) 0 16
    s.adminRuns cmd 0x60 16 true false = true ∧ a.placeRefusal (decide (cmd.fn ≠ 0)) b = none ∧ (a.liveObj (field b 0 8)).isSome = true ∧
    bit (field b 9 1) 0 = true ∧ bit (field cmd.entry 57 1) 0 = true := by decide
theorem witness_describe : let s := tiersUp [] []
    let cmd := adminCmd 0x61 (leBytes 8 3)
    s.adminRuns cmd 0x61 9 (field cmd.entry 56 1 < 2) true = true ∧ ((s.adminTaken cmd).liveObj (field cmd.entry 48 8)).isSome = true ∧
    bit (field cmd.entry 56 1) 0 = false := by decide
theorem witness_moveStart : let s := tiersUp [{ obj := 4, source := 1, target := 0, call := 0 }] []
    (s.tiers.moves.find? fun m => !m.running) = some { obj := 4, source := 1, target := 0, call := 0 } ∧
    s.tiers.objs.get 4 = some { kind := 3, tier := 1, size := 4096, owner := 3 } ∧
    (s.tiers.moves.filter fun x => x.running && !x.switched).length < 8 ∧ s.upkeepRuns = true ∧ 4096 ≤ s.tierRoom 0 false := by decide
theorem witness_moveRoundComplete : let m : Move := { obj := 4, source := 1, target := 0, call := 0, running := true, copied := 4096, dirty := [0] }
    let s := tiersUp [m] []
    (s.tiers.moves.find? fun m => m.obj = 4 && m.running && !m.switched) = some m ∧ s.movesRun m = true ∧
    (s.tiers.repair.any fun r => r.obj = 4) = false := by decide
theorem witness_moveSourceFree : let m : Move := { obj := 4, source := 1, target := 0, call := 0, running := true, switched := true }
    (tiersUp [m] []).tiers.moves.find? (fun m => m.obj = 4 && m.switched) = some m ∧ (tiersUp [m] []).sourceReads m = false := by decide
theorem witness_repairComplete : (((tiersUp [] [⟨1, 2, 0, 4⟩]).tiers.repair.take 64).find? fun r => r.tier = 1 && r.device = 2 && r.page = 0) =
    some ⟨1, 2, 0, 4⟩ := by decide
theorem witness_deviceRetire : (0 : Nat) ≤ 1 ∧ (9 : Nat) < (if (0 : Nat) = 0 then 10 else 24) ∧ State.reset.tiers.retired.contains (0 * 256 + 9) = false := by decide

/-! Witnesses of StagingCommandsComplete. -/
theorem witness_bankOwner : let s := State.reset
    (0 : Nat) < 4 ∧ (8 : Nat) < 9 ∧ (31 : Nat) < 32 ∧ (3 : Nat) < 4 ∧ (3 : Nat) = s.ownerOf (bankId 0 8 31) ∧ (2 : Nat) ≠ s.ownerOf (bankId 0 8 31) := by decide
theorem witness_stagingRefused : let a : StagingAccess := ⟨0, 1, 2, 2047, 3, true, none, 0, none⟩
    a.part < 4 ∧ a.strand < 9 ∧ a.bank < 32 ∧ a.word < 2048 ∧ a.master < 4 ∧ State.reset.ownerOf (bankId a.part a.strand a.bank) = a.master ∧
    State.reset.ownerOf (bankId a.part a.strand a.bank) ≠ 0 := by decide
theorem witness_harebellWord : let a := State.reset.advance 38400000
    let h := a.staging.hb.getD 0 {}
    h.active = false ∧ a.setting 0x2800 4 1 ≠ 0 ∧ a.upkeepRuns = true ∧ h.lastDone + a.setting 0x2800 3 24000 * cyclesPerUs ≤ a.time := by decide
/-- A module whose march tests word 0 of partition 0. -/
def marching : State := { staging := { hb := [(0, { active := true, startedAt := 0 })] } }
theorem witness_harebellTestComplete : ((marching.advance 4096).staging.hb.getD 0 {}).active = true ∧
    ((marching.advance 4096).staging.hb.getD 0 {}).startedAt + 4096 ≤ (marching.advance 4096).time := by decide

/-! Witnesses of FlashCommandsComplete. -/
/-- A module whose unit 16 of row 0 lies on its channel of superblock 40, page 0, with a page in a state and a die retired or not. -/
def flashUp (st : Nat) (retired : List Nat) : State := { flash := {
  rows := [(0, { sbs := [(40, { state := 2 })], retired })], map := [(16, mapEntry 40 0 0)],
  pages := [(({ flash := { rows := [(0, { sbs := [(40, { state := 2 })] })] } } : State).locate 16 (mapEntry 40 0 0) |>.1,
    { units := [{ lba := 16, seq := 1, data := [] }], state := st })] } }
/-- The channel of that unit. -/
def unitChan : Nat := (keyParts ((flashUp 2 []).locate 16 (mapEntry 40 0 0)).1).2.2.2
theorem witness_flashUnitRead (r : Bool) : let s := flashUp 2 (if r then [unitChan] else [])
    let entry := s.flash.map.getD 16 0
    let k := keyParts (s.locate 16 entry).1
    let a := ((s.wake .onfi k.2.2.2 2).count (objKey (0x2920 + k.2.2.2) 1) 4096).spendCycles (0x2920 + k.2.2.2) 3
    entry ≠ 0 ∧ 2 ≤ (s.flash.pages.getD (s.locate 16 entry).1 { units := [] }).state ∧ (a.row k.1).retired.contains k.2.2.2 = r ∧
    s.flash.map.getD 17 0 = 0 := by cases r <;> decide
theorem witness_pageProgramComplete : let s := flashUp 1 []
    let page := (s.locate 16 (mapEntry 40 0 0)).1
    ((s.flash.pages.get page).any fun p => p.state = 1) = true ∧ s.jWaits 2 (keyParts page).1 (keyParts page).2.1 = false := by decide
theorem witness_discard : (1 : Nat) ≤ 4 ∧ (4 : Nat) ≤ 1048576 ∧ (16 : Nat) + 4 ≤ 2 ^ 35 := by decide
theorem witness_journalPageProgram : let s : State := { flash := { jPending := [⟨3, 0, 40, 0, 1, 0, 0, 0⟩] } }
    s.flash.jPending.head? = some ⟨3, 0, 40, 0, 1, 0, 0, 0⟩ ∧ 0 + 200 * cyclesPerUs ≤ max s.time 320000 := by decide
theorem witness_checkpointStart : let a := State.reset.advance 48000000000
    a.flash.ckpt.running = false ∧ a.flash.ckpt.startedAt + a.setting 0x2900 4 30 * cyclesPerS ≤ a.time := by decide
theorem witness_checkpoints : let s : State := { flash := { ckpt := { running := true, segSeq := 4 } } }
    s.flash.ckpt.running = true ∧ (s.flash.jPending.any fun j => decide (j.seq ≤ s.flash.ckpt.segSeq)) = false ∧
    (s.flash.pages.any fun kp => kp.2.state < 2 && !kp.2.parity && kp.2.units.any fun u => decide (u.seq ≤ s.flash.ckpt.segSeq)) = false := by decide
theorem witness_gcVictim : let s : State := { flash := { rows := [(0, { sbs := [(40, { state := 2, refresh := true })] })] } }
    s.collects 0 = true ∧ s.chooseVictim 0 = some 40 := by decide
theorem witness_sbErase : let a := ({ flash := { rows := [(0, { sbs := [(40, { state := 3 })] })] } } : State).tryFree 0 40
    (a.sb 0 40).state = 3 ∧ (a.sb 0 40).erasing = false ∧ a.flash.flushing = false ∧ a.jWaits 4 0 40 = false := by decide
theorem witness_eraseComplete : (({ flash := { rows := [(0, { sbs := [(40, { state := 3, erasing := true })] })] } } : State).sb 0 40).erasing = true := by decide
theorem witness_diesRetired : (31 : Nat) < 32 ∧ (15 : Nat) < 16 ∧ (State.reset.row 15).retired.contains 31 = false := by decide
theorem witness_bufferGrant : let s : State := { flash := { chans := [(5, { writeWait := [9] })] } }
    (s.flash.chans.getD 5 {}).writeWait = [9] ∧ (s.flash.chans.getD 5 {}).writeBufs + 4 ≤ 256 := by decide

/-! Witnesses of ManagementCommandsComplete. -/
theorem witness_mbxPush : senderOk 1 7 = true ∧ (State.reset.channel 7).length < 8 := by decide
theorem witness_mbxPush_full : let s : State := { mbx := { slots := [(7, List.replicate 8 [])] } }
    senderOk 1 7 = true ∧ 8 ≤ (s.channel 7).length := by decide
theorem witness_mbxPush_host : PushPath.posted ≠ .onDie ∧ (State.reset.channel 3).length < 8 ∧ (List.replicate 64 (0 : Byte)).length = 64 := by decide
theorem witness_noticesLost : let s : State := { log := { dropped := 3 } }
    s.log.dropped ≠ 0 ∧ (s.channel 4).length < 8 := by decide
/-- A running server with a host request of a type in channel 0. -/
def requested (ty : Nat) : State := { mgmt := { serverUp := true, committed := true, update := some (400, [1]) }, mbx := { slots := [(0, [leBytes 2 ty ++ leBytes 62 0])] } }
theorem witness_fwFetch : (requested 0x100).hostRequest 0x100 = some (0, leBytes 2 0x100 ++ leBytes 62 0) := by decide
theorem witness_fwActivate : (requested 0x101).hostRequest 0x101 = some (0, leBytes 2 0x101 ++ leBytes 62 0) ∧
    (((requested 0x101).popMessage 0).serveHost).mgmt.committed = true := by decide
theorem witness_keyEnrol : (requested 0x300).hostRequest 0x300 = some (0, leBytes 2 0x300 ++ leBytes 62 0) := by decide
theorem witness_sensorSample : max State.reset.time 16000000 % (10 * cyclesPerMs) = 0 := by decide
theorem witness_settingsCompact : 2097152 < (2090000 : Nat) + 65583 := by decide
theorem witness_fwBegin : (370 : Nat) ≤ 400 ∧ (400 : Nat) ≤ fwMax ∧ State.reset.mgmt.update = none := by decide
theorem witness_fwData : (requested 0).mgmt.update = some (400, [1]) ∧ ([1] : List Byte).length < 400 := by decide
theorem witness_fwCommit : let s : State := { mgmt := { serverUp := true, update := some (0, []) } }
    s.mgmt.committed = false ∧ s.fwStatus 1 [] ≠ 0 := by decide
theorem witness_fwActivateSlot : let a := (requested 0).advance 7
    a.mgmt.serverUp = true ∧ a.mgmt.update.isSome = true ∧ a.mgmt.committed = true := by decide
theorem witness_watchdogResets : let s : State := { mgmt := { boot := .healthy 0 } }
    (s.advance 3200000000).mgmt.boot = .healthy 0 ∧ (s.advance 3200000000).mgmt.serviced + 2 * cyclesPerS ≤ (s.advance 3200000000).time := by decide
theorem witness_hello : let s : State := { dict := { linkUp := true } }
    s.dict.linkUp = true ∧ s.dict.lastHello + 10 * cyclesPerS ≤ max s.time 16000000000 := by decide
theorem witness_oapRequest : (State.reset.count (objKey 0x2E08 1) 0).oapFormOk [] = false := by decide
/-- A READ request frame of slot 0 with an empty body and no valid signature. -/
def oapBytes : List Byte := ascii "SZOA" ++ [1, 1, 0, 0] ++ List.replicate 138 0
set_option maxRecDepth 4000 in
theorem witness_oapRequest_unsigned : (State.reset.count (objKey 0x2E08 1) 146).oapFormOk oapBytes = true ∧
    (State.reset.count (objKey 0x2E08 1) 146).oapSigned oapBytes = false := by decide
theorem witness_telemetryExport : let a := State.reset.advance 16000000000
    a.mgmt.lastExport + a.mgmt.exportS * cyclesPerS ≤ a.time := by decide

/-! Witnesses of StartCommandsComplete. -/
/-- A module with the input good since reset, whose management complex stands at a place of the boot. -/
def bootAt (b : BootPhase) : State := { power := { startSince := some 0 }, mgmt := { boot := b }, pins := { bankMv := 71000, bankMj := 9500 } }
theorem witness_bootStart : let a := (bootAt .off).advance 160000000
    a.mgmt.boot = .off ∧ a.power.startSince = some 0 ∧ 0 + 100 * cyclesPerMs ≤ a.time ∧ 70000 ≤ a.pins.bankMv ∧ 9000 ≤ a.pins.bankMj ∧
    a.power.flushing = false := by decide
theorem witness_bootWatchdog : let a := (bootAt (.running 0 0)).advance 192000000000
    a.mgmt.boot = .running 0 0 ∧ 0 + a.mgmt.watchdogS * cyclesPerS ≤ a.time ∧ a.mgmt.trial = false ∧ 0 = a.bootFails.mgmt.preferred ∧
    1 ≠ a.bootFails.mgmt.preferred := by decide
theorem witness_healthy : let a := (bootAt (.running 0 0)).advance 7
    let b : State := { a with mgmt := { a.mgmt with boot := .healthy 0, serverUp := true, serviced := a.time, trial := false } }
    a.mgmt.boot = .running 0 0 ∧ (if b.repair.started && b.repair.phase = 0 then b.startRails else b).mgmt.partPending = false := by decide
theorem witness_recoveryOfferEnd : let a := (bootAt (.recovery 0)).advance 48000000000
    a.mgmt.boot = .recovery 0 ∧ 0 + 30 * cyclesPerS ≤ a.time := by decide
theorem witness_bootWaitEnd : let a := (bootAt (.wait 0)).advance 1600000000
    a.mgmt.boot = .wait 0 ∧ 0 + min 60 (2 ^ (min 6 (a.mgmt.rounds - 1))) * cyclesPerS ≤ a.time := by decide
theorem witness_recGo : let s := bootAt (.recovery 0)
    s.mgmt.boot = .recovery 0 ∧ s.mgmt.recLen ≤ fwMax ∧ s.mgmt.recAddr % 4096 = 0 ∧ fwMax < fwMax + 1 := by decide
theorem witness_phases (n : Nat) : ({ repair := { phase := n } } : State).repair.phase = n ∧ (({ repair := { phase := n } } : State).advance 9).repair.phase = n := by
  simp
theorem witness_receiptRecovery : let a := ({ repair := { phase := 7 } } : State).advance 9
    a.repair.phase = 7 ∧ a.repair.phasesDone = false := by decide
theorem witness_ready : let a := ({ repair := { phase := 8, phasesDone := true } } : State).advance 9
    a.repair.ready = false ∧ a.repair.phasesDone = true ∧ a.beaconMet = true ∧ a.topologyMet = true := by decide
theorem witness_topologyWait : let a := ({ repair := { phase := 9 }, mgmt := { sealed_ := true }, epochs := { mayStamp := false } } : State).advance 960000000000
    a.repair.phase = 9 ∧ a.repair.ready = false ∧ (a.beaconMet && a.topologyMet) = false ∧
    a.repair.phase7At + a.repair.topoWait * cyclesPerS ≤ a.time := by decide

/-! Witnesses of CheckAndPinCommandsComplete. -/
theorem witness_campionIssue : let a := (({ repair := { ready := true }, power := { doms := [(0, .powered)] } } : State).advance 1600000000).takeRate
    let p := a.repair.nextCampion
    a.repair.ready = true ∧ a.power.step < 2 ∧ a.repair.campionRate ≠ 0 ∧ a.repair.lastCampion + cyclesPerS / a.repair.campionRate ≤ a.time ∧
    (if p % 4 = 3 then rotation a.tensorTiles (p / 4) else rotation (upTo 32 a.strandUp) (p - p / 4)).isSome = true := by decide
theorem witness_campionResult : let s : State := { repair := { campions := [⟨4, false, 3, 0, 0, 0, 0, 0⟩] } }
    (s.repair.campions.find? fun c => c.num = 4) = some ⟨4, false, 3, 0, 0, 0, 0, 0⟩ ∧ campionStageOk ⟨4, false, 3, 0, 0, 0, 0, 0⟩ 3 = true ∧
    campionStageOk ⟨4, false, 3, 0, 0, 0, 0, 0⟩ 0 = true := by decide
theorem witness_dualCheckCompare : let s : State := { repair := { duals := [⟨7, 2, 0, 1, some [], some []⟩] } }
    (s.repair.duals.find? fun d => handleSerial d.handle = handleSerial 7 && d.list = 2 && d.d1.isSome && d.d2.isSome) = some ⟨7, 2, 0, 1, some [], some []⟩ := by
  decide
theorem witness_shadowStart : let s := mapUp 0 []
    (7 : Nat) ≠ s.mgmt.moduleId ∧ s.repair.shadow.state = 0 ∧ s.exchange.moves = [] ∧ s.leads = true ∧
    (s.lastMap.bind fun m => m.shards[0]?) = some { home := 0, state := 0, group := List.replicate 10 0xFFFF } ∧
    ((mapUp 1 []).lastMap.bind fun m => m.shards[0]?) = some { home := 0, state := 1, group := List.replicate 10 0xFFFF } := by decide
theorem witness_shadowStart_shadow : let s := { mapUp 1 [] with mgmt := { moduleId := 5 } }
    (0 : Nat) ≠ s.mgmt.moduleId ∧ s.repair.shadow.state = 0 ∧ s.exchange.moves = [] ∧
    (s.lastMap.bind fun m => m.shards[0]?) = some { home := 0, state := 1, group := List.replicate 10 0xFFFF } := by decide
theorem witness_shadowDigest : let w : ShadowWait := ⟨7, 2, [1], 3, 100, 0⟩
    let s : State := { repair := { shadow := { role := 1, state := 2, waiting := [w] } } }
    let live := s.repair.shadow.waiting.filter fun w => decide (s.time < w.deadlineAt)
    let mine := fun (w : ShadowWait) => decide (w.handle = 7) && decide (w.list = 2) && decide (w.state = 0)
    s.repair.shadow.role = 1 ∧ s.repair.shadow.state = 2 ∧ List.find? mine live = some w ∧ w.digest ≠ [2] ∧
    (live.any fun w => w.handle = 7 && w.state = 2) = false ∧ s.checkRuns 7 = false ∧
    ((replaceFirst mine (fun w => { w with state := 1 }) live).all fun w => w.handle ≠ 7 || w.state = 1) = true := by decide
theorem witness_shadowPeerFail : let s : State := { repair := { shadow := { role := 2, state := 2 } } }
    s.repair.shadow.state ≠ 0 ∧ s.repair.shadow.role = 2 ∧ s.endShadow.leads = true ∧ State.reset.repair.shadow.state = 0 := by decide
theorem witness_presentNOpen : State.reset.pins.present = true ∨ ({ State.reset with pins := { State.reset.pins with present := true } } : State).pins.present = true := by
  decide
theorem witness_overvoltage : let s : State := { power := { volts := List.replicate 10 61001 } }
    (s.power.volts.take 10).length = 10 ∧ 610000 < (s.power.volts.take 10).sum ∧ s.power.switchOpen = false := by decide
theorem witness_bankQualify : State.reset.mgmt.boot = .off := by decide

/-! Witnesses of FieldsAreLittleEndian. -/
theorem witness_fieldsAreLittleEndian : leBytes 2 0x1234 = [0x34, 0x12] ∧ field [0, 0x34, 0x12] 1 2 = 0x1234 := by decide

/-! Witnesses of CountersCountByClass. -/
theorem witness_countersCountByClass : let c : Table Nat := [(objKey 0x2710 1, 4294967294)]
    Table.wf c = true ∧ summaryOf (objKey 0x2710 0xC) ≠ some (objKey 0x2710 0xC) ∧ isFreeRunning (objKey 0x2710 0xC) = false ∧
    isFreeRunning (objKey 0x2910 1) = true ∧ summaryOf (objKey 0x2910 1) ≠ some (objKey 0x2910 1) ∧
    (bumpCounter [(objKey 0x2710 0xC, 4294967294)] (objKey 0x2710 0xC) 1).2 = true := by decide

/-! Witnesses of SelectionOrderIsTotal. -/
def entryOf (key score flags : Nat) : Entry := ⟨key, BitVec.ofNat 32 score, flags, 0⟩
theorem witness_selectionOrder :
    entryPrecedes (entryOf 2 0x40000000 0) (entryOf 1 0x3F800000 0) = true ∧ entryPrecedes (entryOf 1 0x80000000 0) (entryOf 2 0 0) = true ∧
    sameScore (entryOf 1 0x80000000 0) (entryOf 2 0 0) = true ∧ entryPrecedes (entryOf 9 0xFF800000 0) (entryOf 1 0x7FC00000 2) = true ∧
    sameScore (entryOf 1 0x7FC00001 0) (entryOf 2 0x7FC00000 2) = true ∧ f32Lt 0x3F800000 0x40000000 = true ∧
    bit (entryOf 1 0 0).flags 0 = false ∧ bit (entryOf 1 0 1).flags 0 = true := by decide

/-! Witnesses of SelectionIsIndependentOfArrival. -/
theorem witness_selectionIsIndependent : let es := [entryOf 3 0x3F800000 0, entryOf 1 0x3F800000 0, entryOf 2 0x40000000 0]
    (es.map Entry.key).Nodup ∧ (offerAll 2 [] es).1 = [entryOf 2 0x40000000 0, entryOf 1 0x3F800000 0] := by decide

/-! Witnesses of MailboxesAndEventRingStayWithinTheirSizes. -/
theorem witness_mailboxesFit : MailFits State.reset.mbx ∧ RingFits State.reset.log ∧
    MailFits { slots := [(4, [[0], [1], [2], [3], [4], [5], [6], [7]])] } := by
  refine ⟨?_, ?_, ?_⟩
  · unfold MailFits; decide
  · unfold RingFits; decide
  · unfold MailFits; decide

/-! Witnesses of VisibilityFollowsTheEpochs. -/
theorem witness_visibility : existsAt 5 none 5 = true ∧ existsAt 6 none 5 = false ∧ existsAt 1 (some 5) 5 = false ∧ existsAt 1 (some 6) 5 = true ∧
    deleteEpoch { ns := 0, idx := 0, version := 0, listId := 0, shard := 0, segs := [(0, { segIndex := 0, isBase := false, gen := 0, validFrom := 1, marks := [⟨0, 3, 9⟩, ⟨0, 3, 7⟩] })] } [0] 0 3 = some 7 := by decide

/-! Witnesses of SubIndexZeroHoldsTheHighest. -/
theorem witness_subIndexZero : highestSub 0x2E04 = some 4 ∧ (objDef 0x2E04 5).isSome = false ∧ highestSub 0x9999 = none := by decide +kernel

/-! Witnesses of RemainingBudgetsAreReadable. -/
theorem witness_remainingBudgets : State.reset.budgetLeft 2 = 64 ∧
    ({ State.reset with dict := { State.reset.dict with spent := [objKey 0x2E02 1] } } : State).budgetLeft 2 = 0 ∧
    ({ State.reset with dict := { State.reset.dict with used := [(objKey 0x2E02 1, 60)] } } : State).budgetLeft 2 = 4 := by decide

/-! Witnesses of TenantTestPasses. -/
def grantState : State := { State.reset with catalog := { State.reset.catalog with
  namespaces := [{ ns := 3, owner := 1, created := 2 }], isolation := [(1, 4)]
  grants := [{ ns := 3, grantee := 2, from_ := 5, until_ := some 9, groups := 6 }] } }
theorem witness_tenantTest : grantState.tenantTest 1 3 2 = some 0 ∧ grantState.tenantTest 2 3 5 = some 6 ∧ grantState.tenantTest 2 3 9 = none ∧
    grantState.tenantTest 2 3 4 = none ∧ grantState.tenantTest 1 3 1 = none ∧ grantState.modeAt 3 = 0 ∧ grantState.modeAt 4 = 1 := by decide

/-! Witnesses of ContextsStayOrderedAndDistinct. -/
theorem witness_contextsStay : let es := [entryOf 5 0x40000000 0, entryOf 1 0x3F800000 0]
    (es.Pairwise fun a b => entryPrecedes a b = true) ∧ (es.map Entry.key).Nodup ∧ es.length ≤ 2 ∧
    (offerList 2 es (entryOf 9 0x40400000 0)).1 = [entryOf 9 0x40400000 0, entryOf 5 0x40000000 0] ∧
    (offerList 2 es (entryOf 1 0x40400000 0)) = ([entryOf 1 0x40400000 0x80, entryOf 5 0x40000000 0], true) ∧
    (offerList 2 es (entryOf 0 0x00000000 0)).1 = es ∧ (offerList 2 es (entryOf 0 0x3F800000 0)).1 = [entryOf 5 0x40000000 0, entryOf 0 0x3F800000 0] := by
  decide

/-! Witnesses of TheBetterOccurrenceIsKept. -/
theorem witness_occurrenceKept : sameScore (entryOf 1 0 4) (entryOf 1 0x80000000 8) = true ∧ exactRank (entryOf 1 0 8) < exactRank (entryOf 1 0 4) ∧
    sameScore (entryOf 1 0 0) (entryOf 1 0x3F800000 0) = false ∧ entryPrecedes (entryOf 1 0x3F800000 0) (entryOf 1 0 0) = true := by decide

/-! Witnesses of AnswersHoldKEntries. -/
theorem witness_answers : let x := { plainQuery .toSketch with answer := [entryOf 7 0x3F800000 0] }
    statusOf { x with stale := true } = 4 ∧ (validEntries { x with stale := true }) = [] ∧
    (resultEntries x)[0]? = some (entryOf 7 0x3F800000 0) ∧ (resultEntries x)[1]? = some voidEntry ∧ (resultEntries { x with stale := true })[0]? = some voidEntry := by decide

/-! Witnesses of UnknownProductsAreRefused. -/
theorem witness_unknownProduct : let b := List.replicate 16 0 ++ leBytes 4 1 ++ List.replicate 236 0 ++ leBytes 2 2 ++ leBytes 2 9 ++ List.replicate 28 0
    let l : ProdSide := .weight .e2m1 [] []
    let r : ProdSide := .weight .e4m3 [] []
    let f : ImageFacts := ⟨plainImage.progs, true, ⟨[.product l r false 1]⟩, ⟨[]⟩⟩
    (modelSections b).any (fun x => (if x.1.stage = 9 then f.encoder else f.scorer).nodes.contains (.product l r false 1)) = true ∧
      productPair (sideFmt l) (sideFmt r) = false := by decide

/-! Witnesses of IntegerBlocksAreSmall. -/
theorem witness_integerBlock : (activationRow .int8 0x3F800000 [0xC3480000, 0x40000000]).vals.length ≤ 32 ∧
    blockSum (activationRow .int8 0x3F800000 [0xC3480000, 0x40000000]).vals (weightRow .int8 [0x80, 1] []).vals = .fin false 16258 0 := by decide

/-! Witnesses of SegmentImagesFollowTheLayout. -/
theorem witness_segmentImage : let i : Item := ⟨1, 2, 3, [], [], [], 4, 0⟩
    let v : Version := {
      ver := 1, ns := 9, idx := 4, width := 1, assign := 1, metric := 0, codeFmt := 0, scaleFmt := 0, assignLimit := 1, dim := 32,
      reduced := false, image := [], created := 0 }
    ([i] : List Item)[0]? = some i ∧ 3 < planes v ∧ ([⟨1, 2, 5⟩] : List Mark)[0]? = some ⟨1, 2, 5⟩ := by decide

/-! Witnesses of DirectoryWordsCarryTheirFields. -/
theorem witness_successor : ({ csketch := 0, home := 0, handle := 2, succB := some (9, 1) } : DirEntry).succB = some (9, 1) := by decide

/-! Witnesses of RegionWordsRotate. -/
theorem witness_region : (17 : Nat) < 32 ∧ regionOf 17 = (16, 4) ∧ regionWord (16, 4) 5 = (17, 1) := by decide

/-! Witnesses of FlashHeadersFollowTheLayout. -/
theorem witness_pageHeader : ({ units := [{ lba := 16, seq := 1, data := [] }], state := 2 } : FlashPage).parity = false := by decide

/-! Each check of WellFormed refuses a term one past its range and takes the last term in it. -/
theorem test_wf_function : (Instr.run 64).wf = false ∧ (Instr.run 63).wf = true ∧ (Instr.meterCapture (some 64) 0).wf = false ∧
    (Instr.meterCapture none 0).wf = true := by decide
theorem test_wf_pair : (Instr.sqTail 0 64 0).wf = false ∧ (Instr.sqTail 0 63 0).wf = true := by decide
set_option maxRecDepth 8000 in
theorem test_wf_command : (Instr.identity ⟨0, 4096, List.replicate 128 0, [], true⟩).wf = false ∧ (Instr.identity ⟨0, 0, List.replicate 127 0, [], true⟩).wf = false ∧
    (Instr.identity ⟨64, 0, List.replicate 128 0, [], true⟩).wf = false ∧ (Instr.identity ⟨0, 4095, List.replicate 128 0, [], true⟩).wf = true := by decide
set_option maxRecDepth 8000 in
theorem test_wf_descriptor : (Instr.basicQueryDescriptor 0 (List.replicate 63 0) [] ⟨true, true⟩).wf = false ∧
    (Instr.basicQueryDescriptor 0 (List.replicate 64 0) [] ⟨true, true⟩).wf = true := by decide
theorem test_wf_units : (Instr.walk ⟨4, 0⟩).wf = false ∧ (Instr.walk ⟨3, 0⟩).wf = true ∧ (Instr.filterCandidate 32).wf = false ∧ (Instr.filterCandidate 31).wf = true ∧
    (Instr.batchScanPass 0 4 0 ⟨0, false⟩).wf = false ∧ (Instr.tileRestarts 0 16 false).wf = false ∧ (Instr.tileRestarts 3 15 false).wf = true := by decide
theorem test_wf_lists : (Instr.dirFull 1048576).wf = false ∧ (Instr.dirFull 1048575).wf = true := by decide
theorem test_wf_modules : (Instr.replicaLeaseExpire 4096 0).wf = false ∧ (Instr.replicaLeaseExpire 4095 0).wf = true ∧
    (Instr.drayCloseWindow 0 5 0 0).wf = false ∧ (Instr.drayCloseWindow 0 4 65536 0).wf = false ∧ (Instr.drayCloseWindow 0 4 65535 0).wf = true := by decide
set_option maxRecDepth 8000 in
theorem test_wf_ports : (Instr.portEnable 32).wf = false ∧ (Instr.portEnable 31).wf = true ∧ (Instr.flitReceive 0 (List.replicate 255 0)).wf = false := by decide
theorem test_wf_messages : (Instr.beaconReceive 0 (List.replicate 31 0)).wf = false ∧ (Instr.mapNotice 0 (List.replicate 95 0)).wf = false ∧
    (Instr.ask 0 (List.replicate 33 0)).wf = false ∧ (Instr.mgmtPlace (List.replicate 15 0)).wf = false ∧ (Instr.mgmtPlace (List.replicate 16 0)).wf = true := by decide
theorem test_wf_storage : (Instr.memberRebuild 0 10 []).wf = false ∧ (Instr.memberRebuild 0 9 []).wf = true ∧ (Instr.deviceRetire 3 0).wf = false ∧
    (Instr.diesRetired 32 0).wf = false ∧ (Instr.diesRetired 31 16).wf = false ∧ (Instr.diesRetired 31 15).wf = true ∧ (Instr.gcVictim 16).wf = false ∧
    (Instr.sbErase 15 8064).wf = false ∧ (Instr.sbErase 15 8063).wf = true := by decide
theorem test_wf_staging : (Instr.bankOwner 0 9 0 0 0 none).wf = false ∧ (Instr.bankOwner 0 8 32 0 0 none).wf = false ∧ (Instr.bankOwner 3 8 31 0 0 none).wf = true ∧
    (Instr.stagingRefused ⟨0, 0, 0, 2048, 0, true, none, 0, none⟩).wf = false ∧ (Instr.stagingRefused ⟨3, 8, 31, 2047, 0, true, none, 0, none⟩).wf = true := by decide
theorem test_wf_management : (Instr.mbxPush 0 32 .onDie []).wf = false ∧ (Instr.mbxPush 0 31 .onDie []).wf = true ∧ (Instr.fwBegin 4294967296).wf = false ∧
    (Instr.fwBegin 4294967295).wf = true ∧ (Instr.fwData []).wf = false := by decide
theorem test_wf_objects : (Instr.satClear 65536 0).wf = false ∧ (Instr.satClear 0 256).wf = false ∧ (Instr.satClear 65535 255).wf = true ∧
    (Instr.logBase (.fn 64) 0).wf = false ∧ (Instr.logBase .mgmt 0).wf = true ∧ (Instr.thermalThrottles 0).wf = false ∧ (Instr.thermalThrottles 256).wf = false := by decide
theorem test_wf_resets : (Instr.resetTile .mgmt ⟨4, 0, 0, 0⟩).wf = false ∧ (Instr.resetTile .mgmt ⟨0, 8, 0, 0⟩).wf = false ∧ (Instr.resetTile .mgmt ⟨0, 0, 11, 0⟩).wf = false ∧
    (Instr.resetTile .mgmt ⟨0, 0, 0, 16⟩).wf = false ∧ (Instr.resetTile .mgmt ⟨3, 7, 10, 15⟩).wf = true ∧ (Instr.unitReturn 0 0 0 0).wf = false ∧
    (Instr.unitReturn 5 0 0 0).wf = false ∧ (Instr.unitReturn 4 3 7 0).wf = true ∧ (Instr.campionResult 0 11 0).wf = false := by decide
theorem test_wf_domains : (Instr.idleGate ⟨.base, 4⟩ 0).wf = false ∧ (Instr.idleGate ⟨.strand, 32⟩ 0).wf = false ∧ (Instr.idleGate ⟨.tensor, 64⟩ 0).wf = false ∧
    (Instr.idleGate ⟨.port, 32⟩ 0).wf = false ∧ (Instr.idleGate ⟨.onfi, 32⟩ 0).wf = false ∧ (Instr.idleGate ⟨.upStep, 4⟩ 0).wf = false ∧
    (Instr.idleGate ⟨.tensor, 63⟩ 0).wf = true := by decide
theorem test_wf_registers : (Instr.registerWrite (.page0 0 4096) 0).wf = false ∧ (Instr.registerWrite (.page0 63 4095) 0).wf = true ∧
    (Instr.registerWrite (.msixEntry 0 2048 0) 0).wf = false ∧ (Instr.registerWrite (.msixEntry 0 0 3) 0).wf = false ∧ (Instr.registerWrite (.port 32 0) 0).wf = false ∧
    (Instr.registerWrite (.staging 4 0 0) 0).wf = false ∧ (Instr.registerWrite (.mailbox 4096) 0).wf = false ∧ (Instr.registerWrite (.recovery 4096) 0).wf = false ∧
    (Instr.registerWrite (.pciCommand 64) 0).wf = false ∧ (Instr.registerWrite (.meterStatus 64) 0).wf = false := by decide

/-! The worked examples of the spec. -/
/-- The six entries of the example after R29, in its order, give its answer. -/
theorem test_order_example : offerAll 6 [] [entryOf 0xA11 0 0, entryOf 0x310 0x80000000 0, entryOf 0x777 0xFFC12345 0, entryOf 0x42 0xFF800000 0,
      entryOf 0x310 0x80000000 0, entryOf 0x900 0xBFC00000 0] =
    ([entryOf 0x310 0 0x80, entryOf 0xA11 0 0, entryOf 0x900 0xBFC00000 0, entryOf 0x42 0xFF800000 0, entryOf 0x777 0x7FC00000 2], 1) := by decide
/-- The table after R21: record A from 9,001 to 9,040, record B from 9,040 to 9,100. -/
theorem test_visibility_example :
    ([9000, 9039, 9040, 9099, 9100].map fun e => (existsAt 9001 (some 9040) e, existsAt 9040 (some 9100) e)) =
    [(false, false), (true, false), (false, true), (false, true), (false, false)] := by decide
/-- The five elements of the example after R131 and 27 zeros. -/
def exampleGroup : List F32 := [0x40A00000, 0x40200000, 0xBFA00000, 0x3E800000, 0x3F333333] ++ List.replicate 27 0
set_option maxRecDepth 8000 in
/-- The codes 0x7, 0x5, 0xB, 0x1 and 0x1 and the scale 0x7F of the example after R131. -/
theorem test_quantiser_example : (quantise 0 0 exampleGroup).1.take 3 = [0x57, 0x1B, 0x01] ∧ (quantise 0 0 exampleGroup).2.take 1 = [0x7F] := by decide
set_option maxRecDepth 8000 in
/-- The example's dot product: −0.5. -/
theorem test_score_example : (rerankScore 0 0 0 ([0x3F000000, 0xBF800000, 0x40000000, 0x40800000, 0x3F800000] ++ List.replicate 27 0)
    (quantise 0 0 exampleGroup).1 (quantise 0 0 exampleGroup).2).1 = 0xBF000000 := by decide
/-- Operand pairs of R158: MXFP4 never meets MXFP8, nor an integer bf16; an image with such a product, or one that reads a later node, fails. -/
theorem test_operand_pairs : productPair .e2m1 .e3m2 = true ∧ productPair .e4m3 .e2m3 = true ∧ productPair .int8 .int4 = true ∧ productPair .e2m1 .e4m3 = false ∧
    productPair .int8 .bf16 = false ∧ graphOk ⟨[.input 0, .product (.activation 0 .int4 0x3F800000) (.weight .e2m1 [] []) false 1]⟩ 1 = false ∧
    graphOk ⟨[.unary .neg 0]⟩ 1 = false := by decide
/-- A graph of one product: (1, 2) by the columns (3, 4) and (−1, 0.5) is (11, 0) in bf16; the activation −200 in int8 at scale 1 is −127 (R161). -/
theorem test_graph_product : runGraph ⟨[.input 0, .product (.activation 0 .bf16 0) (.weight .bf16 [[0x4040, 0x4080], [0xBF80, 0x3F00]] []) false 1]⟩
      [⟨[1, 2], [0x3F800000, 0x40000000]⟩] = [0x41300000, 0] ∧
    runGraph ⟨[.input 0, .product (.activation 0 .int8 0x3F800000) (.weight .int8 [[1]] []) false 1]⟩ [⟨[1, 1], [0xC3480000]⟩] = [0xC2FE0000] := by decide
/-- MXFP4: 5 and 2 under the shared scale 1 are 6 and 2; an infinity in the block makes every element NaN (R122). -/
theorem test_block_conversion : tensorDot (activationRow .e2m1 0 [0x40A00000, 0x40000000]) (weightRow .e2m1 [2, 2] [127]) = 0x41000000 ∧
    tensorDot (activationRow .e2m1 0 [0x40A00000, 0x7F800000]) (weightRow .e2m1 [2, 0] [127]) = 0x7FC00000 := by decide
/-- Broadcast, transpose, slice and concatenation by ONNX rules: (1, 2) added to the column (1, 2) and taken apart. -/
theorem test_graph_shapes : runGraph ⟨[.const ⟨[1, 2], [0x3F800000, 0x40000000]⟩, .transpose 0 [1, 0], .binary .add 0 1, .slice 2 1 1 2 1, .concat 1 [2, 3]]⟩ [] =
    [0x40000000, 0x40400000, 0x40400000, 0x40400000, 0x40800000, 0x40800000] := by decide
/-- A module whose TENANT_ISOLATION_MODE has been changed once, as in the example after R430. -/
def changedOnce : State := { State.reset with dict := { State.reset.dict with used := [(objKey 0x2030 2, 1)] } }
/-- The request of the example after R430, from its ninth byte on. -/
def exampleItems : List Byte := [1, 0, 4, 0x2E, 1, 0, 0, 0, 0, 0, 0, 0, 0, 0, 0, 0, 2, 0, 0x30, 0x20, 2, 0, 0, 0, 0, 0, 0, 0, 1, 0, 0, 0, 1, 0, 0, 0, 0, 0, 0, 0]
set_option maxRecDepth 8000 in
/-- The example's items: a READ of 0x2E04.01 and a WRITE of 0x2030.02. -/
theorem test_request_example : parseItems 2 exampleItems =
    [⟨1, false, 0x2E04, 1, 0, 0, [], true⟩, ⟨2, false, 0x2030, 2, 0, 1, [1], true⟩] := by decide
set_option maxRecDepth 8000 in
/-- The PF's READ is answered with the value 3, its WRITE refused with ABORT_RIGHTS; the operator's is not refused. -/
theorem test_response_example :
    changedOnce.readItem (.fn 0) ⟨1, false, 0x2E04, 1, 0, 0, [], true⟩ (roObjs 0x2E04 0x2E04 1 4 2) none =
      [0, 0, 0, 0, 4, 0x2E, 1, 2, 0, 0, 0, 0, 2, 0, 0, 0, 3, 0, 0, 0, 0, 0, 0, 0] ∧
    changedOnce.itemRefusal (.fn 0) ⟨2, false, 0x2030, 2, 0, 1, [1], true⟩ = 4 ∧
    changedOnce.itemRefusal .operator ⟨2, false, 0x2030, 2, 0, 1, [1], true⟩ = 0 := by decide
/-- The epoch beacon's, the request's and every other word's bytes come least significant first (R4). -/
theorem test_little_endian : leBytes 4 0x12345678 = [0x78, 0x56, 0x34, 0x12] ∧ leNat [0x78, 0x56, 0x34, 0x12] = 0x12345678 := by decide

end Sys2Proof.Tests
end

section
/-! SUPPORT. What one step leaves: every well-formed command has a next state, and the state after a step comes after the state before it
with its queue one command shorter. The settled statements on steps follow. -/
namespace Sys2Proof.Machine

/-- A FLIT_RECEIVE whose bytes are a flit's 256 goes on (R316). -/
theorem execFlitReceive_next {flit : List Byte} (h : flit.length = 256) (port : Nat) (s : State) : ∃ t, execFlitReceive port flit s = .next t :=
  ⟨_, if_neg (not_not_intro h)⟩

/-- Every well-formed command has a next state in every state: of all meanings only FLIT_RECEIVE's has another answer. -/
theorem exec_next_of_wf {c : Instr} (h : c.wf = true) (s : State) : ∃ t, exec c s = .next t := by
  cases c with
  | flitReceive port flit =>
    have hflit : flitOk flit = true := ((Bool.and_eq_true _ _).mp h).2
    exact execFlitReceive_next (of_decide_eq_true hflit) port s
  | _ => exact ⟨_, rfl⟩

/-- A step on an empty queue is the idle cycle. -/
theorem step_of_pending_nil {s : State} (h : s.pending = []) : step s = .next (s.advance (s.time + 1)).resumeRequests.startBlocks.unpark := by
  unfold step; rw [h]

/-- A step with a command at the front of the queue runs it on the rest of the queue. -/
theorem step_of_pending_cons {s : State} {c : Instr} {rest : List Instr} (h : s.pending = c :: rest) :
    step s = exec c { s with pending := rest } := by
  unfold step; rw [h]

/-- The idle cycle moves only forward. -/
theorem idle_later (s : State) : Later s (s.advance (s.time + 1)).resumeRequests.startBlocks.unpark :=
  State.unpark_later _ (State.startBlocks_later _ (State.resumeRequests_later _ (State.advance_later _ _ (Later.refl s))))

/-- The state after a step comes after the state before it without its front command. -/
theorem step_later {s t : State} (h : step s = .next t) : Later { s with pending := s.pending.tail } t := by
  cases hp : s.pending with
  | nil =>
    rw [step_of_pending_nil hp] at h
    have ht := Host.Outcome.next.inj h
    have hs : { s with pending := [] } = s := by rw [← hp]
    rw [List.tail_nil, hs, ← ht]
    exact idle_later s
  | cons c rest =>
    rw [step_of_pending_cons hp] at h
    exact exec_later c _ t h

/-- A step on a queue of well-formed commands goes on. -/
theorem step_next_of_queueWf {s : State} (h : QueueWf s) : ∃ t, step s = .next t := by
  cases hp : s.pending with
  | nil => exact ⟨_, step_of_pending_nil hp⟩
  | cons c rest =>
    rw [step_of_pending_cons hp]
    exact exec_next_of_wf (h c (hp ▸ List.mem_cons_self)) _

/-- A step adds no command to the queue, so what remains of a well-formed queue is well formed. -/
theorem queueWf_of_step {s t : State} (h : QueueWf s) (ht : step s = .next t) : QueueWf t := by
  intro c hc
  rw [(step_later ht).queue] at hc
  exact h c (List.mem_of_mem_tail hc)

/-- Settles O4: each step leaves a later state, and later states keep both stores canonical. -/
theorem storesStayCanonical : Obligations.StoresStayCanonical := by
  unfold Obligations.StoresStayCanonical
  intro s t hmem hcounters h
  have hkept := (step_later h).kept
  exact ⟨hkept.staged hmem, hkept.counted hcounters⟩

/-- Settles O6: a well-formed front command has a next state, and that state is a later one. -/
theorem wellFormedQueueIsSafe : Obligations.WellFormedQueueIsSafe := by
  unfold Obligations.WellFormedQueueIsSafe
  intro s h
  refine ⟨?_, fun t ht => queueWf_of_step h ht⟩
  obtain ⟨t, ht⟩ := step_next_of_queueWf h
  have hlater := step_later ht
  exact ⟨t, ht, hlater.clock, hlater.sent⟩

end Sys2Proof.Machine
end

section
/-! SUPPORT. What a byte string spells (R4): the digits that `leBytes` writes and the weights by which `field` reads. -/
namespace Sys2Proof.Machine

/-- The byte at place `i` of a number's little-endian bytes is its digit of weight 256 to the `i`. -/
theorem leBytes_getElem? {n i : Nat} (v : Nat) (h : i < n) : (leBytes n v)[i]? = some (BitVec.ofNat 8 (v / 256 ^ i)) := by
  induction n generalizing v i with
  | zero => omega
  | succ n ih =>
    cases i with
    | zero => simp [leBytes]
    | succ i =>
      rw [leBytes, List.getElem?_cons_succ, ih (v / 256) (by omega), Nat.div_div_eq_div_mul, ← Nat.pow_succ']

/-- A common factor of a sum's terms is a factor of the sum. -/
theorem sum_map_mul {α : Type} (k : Nat) (f : α → Nat) (xs : List α) : (xs.map fun x => k * f x).sum = k * (xs.map f).sum := by
  induction xs with
  | nil => rfl
  | cons x xs ih => rw [List.map_cons, List.map_cons, List.sum_cons, List.sum_cons, ih, Nat.mul_add]

/-- Bytes spell the sum of their values, each weighed by its place. -/
theorem leNat_eq_sum (bs : List Byte) : leNat bs = ((List.range bs.length).map fun i => (bs[i]?.getD 0).toNat * 256 ^ i).sum := by
  induction bs with
  | nil => rfl
  | cons b bs ih =>
    have htail : ((List.range bs.length).map fun i => (((b :: bs)[i + 1]?).getD 0).toNat * 256 ^ (i + 1)).sum = 256 * leNat bs := by
      rw [ih, ← sum_map_mul]
      refine congrArg List.sum (List.map_congr_left fun i _ => ?_)
      rw [List.getElem?_cons_succ, Nat.pow_succ', Nat.mul_left_comm]
    have hhead : (((b :: bs)[0]?).getD 0).toNat * 256 ^ 0 = b.toNat := Nat.mul_one _
    rw [List.length_cons, List.range_succ_eq_map, List.map_cons, List.sum_cons, List.map_map, hhead]
    exact congrArg (b.toNat + ·) htail.symm

/-- A byte of a field that lies inside its string is the string's byte at that place. -/
theorem getElem?_take_drop {bs : List Byte} {off n i : Nat} (h : i < n) : ((bs.drop off).take n)[i]? = bs[off + i]? := by
  rw [List.getElem?_take_of_lt h, List.getElem?_drop]

/-- A field that lies inside its string is the sum of its bytes by their weights. -/
theorem field_eq_sum {bs : List Byte} {off n : Nat} (h : off + n ≤ bs.length) :
    field bs off n = ((List.range n).map fun i => (bs[off + i]?.getD 0).toNat * 256 ^ i).sum := by
  have hlen : ((bs.drop off).take n).length = n := by simp; omega
  rw [field, leNat_eq_sum, hlen]
  refine congrArg List.sum (List.map_congr_left fun i hi => ?_)
  rw [getElem?_take_drop (List.mem_range.1 hi)]

/-- Settles O36, by induction on the number of bytes in each direction. -/
theorem fieldsAreLittleEndian : Obligations.FieldsAreLittleEndian := by
  unfold Obligations.FieldsAreLittleEndian
  exact ⟨fun n v => ⟨leBytes_length n v, fun _ hi => leBytes_getElem? v hi⟩, fun _ _ _ h => field_eq_sum h⟩

end Sys2Proof.Machine
end

section
/-! SUPPORT. What adding to a counter does, case by case (R10, R11). -/
namespace Sys2Proof.Machine

/-- Set the SAT bit of a group, where there is a group (R11). -/
def setSat (counters : Table Nat) (g : Option Nat) : Table Nat := g.elim counters fun g => counters.set g 1

/-- A read after a SAT bit is set: 1 at the summary, the count as before at every other key. -/
theorem getD_setSat (counters : Table Nat) (g : Option Nat) (j : Nat) :
    (setSat counters g).getD j 0 = if g = some j then 1 else counters.getD j 0 := by
  cases g with
  | none => rfl
  | some g =>
    by_cases h : g = j
    · subst h; simp [setSat]
    · simp [setSat, h, Table.getD_set_other _ _ _ _ (Ne.symm h)]

/-- Adding to a free-running counter wraps it and raises nothing (R10). -/
theorem bumpCounter_of_free {counters : Table Nat} {key n : Nat} (h : isFreeRunning key = true) :
    bumpCounter counters key n = (counters.put key 0 ((counters.getD key 0 + n) % 2 ^ 64), false) := if_pos h

/-- An addition that brings an event counter to its highest value raises the event and sets its group's SAT bit (R11). -/
theorem bumpCounter_of_saturating {counters : Table Nat} {key n : Nat} (h : isFreeRunning key = false)
    (hsat : counters.getD key 0 < eventMax ∧ eventMax ≤ counters.getD key 0 + n) :
    bumpCounter counters key n = (setSat (counters.put key 0 (min eventMax (counters.getD key 0 + n))) (summaryOf key), true) := by
  unfold bumpCounter
  simp only [h, Bool.false_eq_true, if_false]
  rw [if_pos (by simp [hsat])]
  cases summaryOf key <;> rfl

/-- Any other addition to an event counter only stops it at its highest value (R11). -/
theorem bumpCounter_of_not_saturating {counters : Table Nat} {key n : Nat} (h : isFreeRunning key = false)
    (hsat : ¬ (counters.getD key 0 < eventMax ∧ eventMax ≤ counters.getD key 0 + n)) :
    bumpCounter counters key n = (counters.put key 0 (min eventMax (counters.getD key 0 + n)), false) := by
  unfold bumpCounter
  simp only [h, Bool.false_eq_true, if_false]
  have hfull : (counters.getD key 0 < eventMax && min eventMax (counters.getD key 0 + n) == eventMax) = false := by
    rw [Bool.and_eq_false_iff, decide_eq_false_iff_not, beq_eq_false_iff_ne]
    omega
  rw [if_neg (Bool.eq_false_iff.1 hfull)]

/-- Settles O37, by the three ways in which an addition can go. -/
theorem countersCountByClass : Obligations.CountersCountByClass := by
  unfold Obligations.CountersCountByClass
  intro counters key n hwf hown r v
  by_cases hfree : isFreeRunning key = true
  · have hr : r = _ := bumpCounter_of_free hfree
    simp +contextual [hr, hfree, Table.getD_put _ _ _ _ _ hwf, v]
  · have hevent : isFreeRunning key = false := Bool.eq_false_iff.2 hfree
    by_cases hsat : v < eventMax ∧ eventMax ≤ v + n
    · have hr : r = _ := bumpCounter_of_saturating hevent hsat
      simp +contextual [hr, hevent, hsat, hown, getD_setSat, Table.getD_put _ _ _ _ _ hwf, v]
    · have hr : r = _ := bumpCounter_of_not_saturating hevent hsat
      simp +contextual [hr, hevent, hsat, Table.getD_put _ _ _ _ _ hwf, v]

end Sys2Proof.Machine
end

section
/-! SUPPORT. The entries of an answer and their bytes (R30, R31, R42, R406). -/
namespace Sys2Proof.Machine

/-- A query that was given no status and is neither rejected, stale, retried nor orphaned ends with one of the other statuses (R8). -/
theorem statusOf_of_none {x : Query} (hgiven : x.given = none) (hrejected : x.rejected.isSome = false) (hstale : x.stale = false)
    (hretry : x.retry = false) (horphaned : x.orphaned = false) : statusOf x ∈ [9, 7, 2, 3, 1, 0] := by
  simp only [statusOf, hgiven, hrejected, hstale, hretry, horphaned, Bool.false_eq_true, if_false]
  repeat' split
  all_goals decide

/-- The statuses STALE_MAP, RETRY, ORPHANED and REJECTED void the whole answer, whether the query has them itself or was given them (R42). -/
theorem allVoid_of_status {x : Query} (h : statusOf x ∈ [4, 5, 6, 8]) : allVoid x = true := by
  cases hv : allVoid x with
  | true => rfl
  | false =>
    simp only [allVoid, Bool.or_eq_false_iff] at hv
    obtain ⟨⟨⟨⟨hrejected, hstale⟩, hretry⟩, horphaned⟩, hgiven⟩ := hv
    cases hg : x.given with
    | some g =>
      simp only [hg, Bool.or_eq_false_iff, decide_eq_false_iff_not] at hgiven
      simp only [statusOf, hg, List.mem_cons, List.not_mem_nil, or_false] at h
      omega
    | none =>
      have hother := statusOf_of_none hg hrejected hstale hretry horphaned
      simp only [List.mem_cons, List.not_mem_nil, or_false] at h hother
      omega

/-- At most k entries of an answer are valid (R30). -/
theorem validEntries_length_le (x : Query) : (validEntries x).length ≤ x.fields.k := by
  unfold validEntries
  split
  · exact Nat.zero_le _
  · exact List.length_take_le _ _

theorem validEntries_of_status {x : Query} (h : statusOf x ∈ [4, 5, 6, 8]) : validEntries x = [] := if_pos (allVoid_of_status h)

/-- An answer has exactly k entries (R30). -/
theorem resultEntries_length (x : Query) : (resultEntries x).length = x.fields.k := by
  rw [resultEntries, List.length_append, List.length_replicate, Nat.add_sub_cancel' (validEntries_length_le x)]

/-- The valid entries stand first (R30). -/
theorem resultEntries_take (x : Query) : (resultEntries x).take (validEntries x).length = validEntries x := List.take_left

/-- Every entry after the valid ones is void (R30). -/
theorem resultEntries_getElem?_void {x : Query} {i : Nat} (hv : (validEntries x).length ≤ i) (hk : i < x.fields.k) :
    (resultEntries x)[i]? = some voidEntry := by
  rw [resultEntries, List.getElem?_append_right hv, List.getElem?_replicate, if_pos (by omega)]

/-- An entry as an answer carries it: FLAGS and SHARD_HINT are zero at the basic level (R406). -/
def answerEntry (basic : Bool) (e : Entry) : Entry := if basic then { e with flags := 0, shard := 0 } else e

theorem entryBytes_length (e : Entry) : (entryBytes e).length = 16 := by simp [entryBytes, leBytes_length]

/-- Zeros in bytes 12 to 15 of an entry are the bytes of zero FLAGS and a zero SHARD_HINT. -/
theorem entryBytes_take (e : Entry) : (entryBytes e).take 12 ++ leBytes 4 0 = entryBytes (answerEntry true e) := by
  have h : (leBytes 8 e.key ++ leBytes 4 e.score.toNat).length = 12 := by simp [leBytes_length]
  have hz : leBytes 4 0 = leBytes 2 0 ++ leBytes 2 0 := by decide
  rw [entryBytes, List.append_assoc _ (leBytes 2 e.flags), List.take_append_of_le_length (Nat.le_of_eq h.symm), List.take_of_length_le (Nat.le_of_eq h), hz,
    ← List.append_assoc]
  rfl

/-- The bytes of an answer are those of its entries, one after the other. -/
theorem resultBytes_eq (x : Query) : resultBytes x = (resultEntries x).flatMap fun e => entryBytes (answerEntry x.basic e) := by
  unfold resultBytes
  cases hb : x.basic with
  | false => rfl
  | true => simp only [if_true, entryBytes_take]

/-- A key's 8 bytes spell it modulo 2^64. -/
theorem field_leBytes_eight (v : Nat) : field (leBytes 8 v) 0 8 = v % 2 ^ 64 := field_leBytes 8 v

/-- A score's 4 bytes spell it. -/
theorem field_leBytes_score (x : F32) : field (leBytes 4 x.toNat) 0 4 = x.toNat := (field_leBytes 4 x.toNat).trans (Nat.mod_eq_of_lt x.isLt)

/-- Two bytes spell a number modulo 2^16. -/
theorem field_leBytes_two (v : Nat) : field (leBytes 2 v) 0 2 = v % 2 ^ 16 := field_leBytes 2 v

/-- The fields of an entry's bytes (R31). -/
theorem field_entryBytes (e : Entry) :
    field (entryBytes e) 0 8 = e.key % 2 ^ 64 ∧ field (entryBytes e) 8 4 = e.score.toNat ∧
    field (entryBytes e) 12 2 = e.flags % 2 ^ 16 ∧ field (entryBytes e) 14 2 = e.shard % 2 ^ 16 := by
  unfold entryBytes
  refine ⟨?_, ?_, ?_, ?_⟩
  · rw [field_left _ _ _ _ (by simp [leBytes_length]), field_left _ _ _ _ (by simp [leBytes_length]),
      field_left _ _ _ _ (by simp [leBytes_length]), field_leBytes_eight]
  · rw [field_left _ _ _ _ (by simp [leBytes_length]), field_left _ _ _ _ (by simp [leBytes_length]),
      field_right _ _ _ _ (by simp [leBytes_length]), field_leBytes_score]
  · rw [field_left _ _ _ _ (by simp [leBytes_length]), field_right _ _ _ _ (by simp [leBytes_length]), field_leBytes_two]
  · rw [field_right _ _ _ _ (by simp [leBytes_length]), field_leBytes_two]

/-- A field of an answer's bytes at its i-th entry is that field of the entry's bytes. -/
theorem field_resultBytes {x : Query} {i : Nat} {e : Entry} (h : (resultEntries x)[i]? = some e) {o n : Nat} (ho : o + n ≤ 16) :
    field (resultBytes x) (16 * i + o) n = field (entryBytes (answerEntry x.basic e)) o n := by
  rw [resultBytes_eq]
  exact field_block _ 16 (fun _ => entryBytes_length _) _ i e h o n ho

/-- Settles O47, by the entries before and after the last valid one and by the 16 bytes of each. -/
theorem answersHoldKEntries : Obligations.AnswersHoldKEntries := by
  unfold Obligations.AnswersHoldKEntries
  intro x
  refine ⟨resultEntries_length x, validEntries_length_le x, resultEntries_take x, fun i => resultEntries_getElem?_void, validEntries_of_status,
    ?_, fun i e he => ?_⟩
  · rw [resultBytes_eq, length_blocks _ 16 (fun _ => entryBytes_length _), resultEntries_length]
  · obtain ⟨hkey, hscore, hflags, hshard⟩ := field_entryBytes (answerEntry x.basic e)
    rw [← Nat.add_zero (16 * i)]
    refine ⟨?_, ?_, ?_, ?_⟩
    · rw [field_resultBytes he (by omega), hkey]; cases x.basic <;> rfl
    · rw [Nat.add_zero, field_resultBytes he (by omega), hscore]; cases x.basic <;> rfl
    · rw [Nat.add_zero, field_resultBytes he (by omega), hflags]; cases x.basic <;> rfl
    · rw [Nat.add_zero, field_resultBytes he (by omega), hshard]; cases x.basic <;> rfl

end Sys2Proof.Machine
end

section
/-! SUPPORT. What writes to counters and registers, snapshots and function resets do (R11, R12, R200 to R202, R340, R380 to R383, R403,
R447, R463): one lemma per operation, then the statement on their commands. -/
namespace Sys2Proof.Machine

/-! ## Counters -/

/-- Nothing added is nothing changed. -/
@[simp] theorem State.count_zero (s : State) (key : Nat) : s.count key 0 = s := if_pos rfl

theorem clearCounter_zero (s : State) (key : Nat) : s.clearCounter key 0 = { s with counters := s.counters.erase key } := State.count_zero _ key

/-- A cleared counter that counts again differs in nothing that a report does not change (R11). -/
theorem clearCounter_reports (s : State) (key k : Nat) : Reports { s with counters := s.counters.erase key } (s.clearCounter key k) :=
  State.count_reports _ key k

theorem execEventCounterClear_of_key {s : State} {index sub key : Nat} (h : counterKeyOf s.selectedTenant index sub = some key) (k : Nat) :
    execEventCounterClear index sub 1 k s = .next (s.clearCounter key k) := by
  unfold execEventCounterClear; rw [h]; rfl

theorem execSatClear_of_key {s : State} {index sub key : Nat} (h : summaryKeyOf s.selectedTenant index sub = some key) :
    execSatClear index sub s = .next (s.clearSat key) := by
  unfold execSatClear; rw [h]

theorem execSatReassert_of_key {s : State} {index sub key : Nat} (h : summaryKeyOf s.selectedTenant index sub = some key) :
    execSatReassert index sub s = .next (s.reassertSat key) := by
  unfold execSatReassert; rw [h]

/-- SAT is set again while a counter of its group is full (R12). -/
theorem reassertSat_of_full {s : State} {key : Nat} (h : (groupMembers s.counters key).any (fun k => s.counter k == eventMax) = true) :
    s.reassertSat key = { s with counters := s.counters.set key 1 } := if_pos h

/-! ## Registers -/

/-- A function's state after it is changed. -/
@[simp] theorem fnState_updFn (s : State) (fn : Nat) (f : FnState → FnState) : (s.updFn fn f).fnState fn = f (s.fnState fn) := fnState_setFn _ _ _

/-- A write of the PCI command register leaves its two bits as written (R380). -/
theorem writePciCommand_bits {fn : Nat} (h : fn < 64) (s : State) (v : Nat) :
    ((s.writePciCommand fn v).fnState fn).mse = bit v 0 ∧ ((s.writePciCommand fn v).fnState fn).bme = bit v 1 := by
  unfold State.writePciCommand
  rw [if_neg (by omega)]
  simp

/-- Page 0 of a function at the expert level, or of one that is to be enabled at it, is its control page (R382). -/
theorem writePage0_of_expert {s : State} {fn : Nat} (h : fn < 64) (hrec : (fn = 0 && s.recoveryOffered) = false)
    (hexpert : (if (s.fnState fn).enabled then (s.fnState fn).expert else s.levelExpert fn) = true) (off v : Nat) :
    s.writePage0 fn off v = s.writeControlPage fn off v := by
  unfold State.writePage0
  dsimp only
  rw [if_neg (by simp [hrec, h]), if_pos hexpert]

/-- A function's MSI-X vector replaced by another. -/
def State.setVec (s : State) (fn vec : Nat) (v : Vec) : State := s.setFn fn { s.fnState fn with vecs := (s.fnState fn).vecs.set vec v }

/-- The vector of a function, masked with nothing in it where it was never written. -/
def State.vec (s : State) (fn vec : Nat) : Vec := (s.fnState fn).vecs.getD vec {}

theorem vec_setVec (s : State) (fn vec : Nat) (v : Vec) : (s.setVec fn vec v).vec fn vec = v := by
  rw [State.vec, State.setVec, fnState_setFn, Table.getD_set_same]

/-- A write to a word of a vector that the function has (R403). -/
theorem writeMsix_of_lt {s : State} {fn vec : Nat} (h : fn < 64) (hvec : vec < s.vectorCount fn) (v : Nat) :
    s.writeMsix fn vec 0 v = s.setVec fn vec { s.vec fn vec with addr := v % 2 ^ 64 } ∧
    s.writeMsix fn vec 1 v = s.setVec fn vec { s.vec fn vec with data := v % 2 ^ 32 } ∧
    (bit v 0 = true → s.writeMsix fn vec 2 v = s.setVec fn vec { s.vec fn vec with masked := true }) := by
  have hin : ¬ ((decide (fn ≥ 64) || decide (vec ≥ s.vectorCount fn)) = true) := by simp [h, hvec]
  exact ⟨if_neg hin, if_neg hin, fun hbit => (if_neg hin).trans (if_pos hbit)⟩

/-- OVERLAP of a function's snapshot block clears by a write of 1 (R201). -/
theorem execRegisterWrite_meterStatus {fn v : Nat} (h : fn < 64) (hbit : bit v 1 = true) (s : State) :
    execRegisterWrite (.meterStatus fn) v s = .next (s.updFn fn fun f => { f with snap := { f.snap with overlap := false } }) :=
  congrArg _ (if_pos (by simp [h, hbit]))

/-- A port register takes a value that its object would take (R340). -/
theorem execRegisterWrite_port {s : State} {port off v : Nat} (h : port < 32) (hok : s.portRegStatus port off (portRegMask off v) = 0) :
    execRegisterWrite (.port port off) v s = .next (s.writePortReg port off (portRegMask off v)) :=
  congrArg _ (if_pos (by simp [h, hok]))

/-- A write of 1 to STG_STATUS clears SAT of the strand's refusal counters (R270). -/
theorem writeStaging_status {part strand v : Nat} (hpart : part < 4) (hstrand : strand < 9) (hbit : bit v 0 = true) (s : State) :
    s.writeStaging part strand 0x080 v = { s with counters := s.counters.erase (objKey (s.stagingIndex part strand) 0xA) } := by
  unfold State.writeStaging
  dsimp only
  rw [if_neg (by simp [hpart, hstrand]), if_pos rfl, if_pos hbit]
  rfl

/-- A write to the recovery page while it is offered (R463). -/
theorem writeRecovery_of_offered {s : State} (h : s.recoveryOffered = true) (v : Nat) :
    s.writeRecovery 0x008 v = { s with mgmt := { s.mgmt with recAddr := v % 2 ^ 64 } } ∧
    s.writeRecovery 0x010 v = { s with mgmt := { s.mgmt with recLen := v % 2 ^ 32 } } := by
  constructor <;> exact if_neg (by simp [h])

/-! ## Metering snapshots -/

theorem execSnapReq_of_lt {fn : Nat} (h : fn < 64) (s : State) :
    execSnapReq fn s = .next (s.updFn fn fun f => { f with snap := requestSnap f.snap s.time }) := congrArg _ (if_pos h)

theorem execMeterCapture_of_lt {fn : Nat} (h : fn < 64) (t : Nat) (s : State) :
    execMeterCapture (some fn) t s = .next ((s.advance t).updFn fn fun f => { f with snap := (s.advance t).captureSnap f.snap f.tenant }) :=
  congrArg _ (if_pos h)

/-- A capture at cycle `t` replaces everything of a block that awaits it (R201). -/
theorem captureSnap_advance_of_busy {b : SnapBlock} (h : b.busy = true) (s : State) (t tenant : Nat) :
    (s.advance t).captureSnap b tenant = { b with
      busy := false, seq := (b.seq + 1) % 2 ^ 32, time := max s.time t, epoch := s.epochs.closed
      meters := (s.advance t).meterList tenant } := by
  unfold State.captureSnap
  rw [if_neg (by simp [h]), State.advance_time, State.advance_epochs]

/-! ## Function resets -/

/-- No batch of a function outlives its work (R381). -/
theorem endFnWork_batches (s : State) (fn : Nat) : ∀ kb ∈ (s.endFnWork fn).corpus.batches, kb.2.fn ≠ fn :=
  fun _ h => of_decide_eq_true (List.mem_filter.1 h).2

/-- No entry that was taken from a function's rings outlives its work (R381). -/
theorem endFnWork_taken (s : State) (fn : Nat) : ∀ e ∈ (s.endFnWork fn).host.taken, e.fn ≠ fn :=
  fun _ h => of_decide_eq_true (List.mem_filter.1 h).2

theorem clearMaster_of_enabled {s : State} {fn : Nat} (h : (s.fnState fn).enabled = true) :
    s.clearMaster fn = (s.endFnWork fn).updFn fn fun f => { f with
      bme := false, enabled := false, pairs := [], basic := { f.basic with reserved := 0 } } := if_pos h

theorem clearMaster_of_not_enabled {s : State} {fn : Nat} (h : (s.fnState fn).enabled = false) :
    s.clearMaster fn = s.setFn fn { s.fnState fn with bme := false } := if_neg (by simp [h])

/-- Bus Master Enable is clear after it was cleared, whether the function was enabled or not (R380). -/
theorem clearMaster_bme (s : State) (fn : Nat) : ((s.clearMaster fn).fnState fn).bme = false := by
  cases h : (s.fnState fn).enabled with
  | false => rw [clearMaster_of_not_enabled h, fnState_setFn]
  | true => rw [clearMaster_of_enabled h, fnState_updFn]

theorem execBusMasterClear_of_lt {fn : Nat} (h : fn < 64) (s : State) : execBusMasterClear fn s = .next (s.clearMaster fn) := congrArg _ (if_pos h)

theorem execFunctionLevelReset_of_lt {fn : Nat} (h : fn < 64) (s : State) : execFunctionLevelReset fn s = .next (s.resetFn fn) :=
  congrArg _ (if_pos h)

/-- A function's state after its reset: registers as after power-on, with its tenant, its level and its snapshot block (R381; log 3). -/
theorem fnState_resetFn (s : State) (fn : Nat) : (s.resetFn fn).fnState fn = { ({} : FnState) with
    tenant := ((s.endFnWork fn).fnState fn).tenant, expert := ((s.endFnWork fn).fnState fn).expert, snap := ((s.endFnWork fn).fnState fn).snap } :=
  fnState_updFn _ _ _

/-- Settles O14: each command is its operation, and the lemma on the operation gives the state. -/
theorem counterAndRegisterCommandsComplete : Obligations.CounterAndRegisterCommandsComplete := by
  unfold Obligations.CounterAndRegisterCommandsComplete
  refine ⟨?eventCounterClear, ?satClear, ?satReassert, ?pciCommand, ?page0, ?msix, ?meterStatus, ?port, ?staging, ?mailbox, ?recovery,
    ?snapReq, ?captureFn, ?captureTenant, ?busMasterClear, ?functionLevelReset⟩
  case eventCounterClear =>
    intro index sub k key s h
    exact ⟨_, execEventCounterClear_of_key h k, fun hk => hk ▸ clearCounter_zero s key, clearCounter_reports s key k⟩
  case satClear =>
    intro index sub key s h
    exact ⟨_, execSatClear_of_key h, rfl⟩
  case satReassert =>
    intro index sub key s h hfull
    exact ⟨_, execSatReassert_of_key h, reassertSat_of_full hfull⟩
  case pciCommand =>
    intro fn v s h
    exact ⟨_, rfl, writePciCommand_bits h s v⟩
  case page0 =>
    intro fn v s h hrec hexpert
    have hpage := writePage0_of_expert h hrec hexpert
    exact ⟨⟨_, rfl, hpage 0x00C v⟩, ⟨_, rfl, hpage 0x010 v⟩, ⟨_, rfl, hpage 0x014 v⟩⟩
  case msix =>
    intro fn vec v s h hvec
    obtain ⟨haddr, hdata, hmask⟩ := writeMsix_of_lt h hvec v
    exact ⟨⟨_, congrArg Host.Outcome.next haddr, vec_setVec _ _ _ _⟩, ⟨_, congrArg Host.Outcome.next hdata, vec_setVec _ _ _ _⟩,
      fun hbit => ⟨_, congrArg Host.Outcome.next (hmask hbit), vec_setVec _ _ _ _⟩⟩
  case meterStatus =>
    intro fn v s h hbit
    exact ⟨_, execRegisterWrite_meterStatus h hbit s, congrArg FnState.snap (fnState_updFn _ _ _)⟩
  case port =>
    intro port off v s h hok
    exact ⟨_, execRegisterWrite_port h hok, rfl⟩
  case staging =>
    intro part strand v s hpart hstrand hbit
    exact ⟨_, rfl, writeStaging_status hpart hstrand hbit s⟩
  case mailbox =>
    intro v s
    exact ⟨_, rfl, rfl⟩
  case recovery =>
    intro v s h
    obtain ⟨haddr, hlen⟩ := writeRecovery_of_offered h v
    exact ⟨⟨_, rfl, haddr⟩, ⟨_, rfl, hlen⟩⟩
  case snapReq =>
    intro fn s h
    exact ⟨_, execSnapReq_of_lt h s, rfl⟩
  case captureFn =>
    intro fn t s h hbusy
    exact ⟨_, execMeterCapture_of_lt h t s, by rw [fnState_updFn]; exact captureSnap_advance_of_busy hbusy s t _⟩
  case captureTenant =>
    intro t s hbusy
    refine ⟨_, rfl, ?_⟩
    dsimp only
    rw [State.advance_dict]
    exact congrArg (fun b => ({ s.dict with tenantSnap := b } : Dict)) (captureSnap_advance_of_busy hbusy s t _)
  case busMasterClear =>
    intro fn s h
    refine ⟨_, execBusMasterClear_of_lt h s, clearMaster_bme s fn, fun henabled => ?_, clearMaster_of_not_enabled⟩
    rw [clearMaster_of_enabled henabled, fnState_updFn]
    exact ⟨rfl, rfl, endFnWork_batches s fn, endFnWork_taken s fn⟩
  case functionLevelReset =>
    intro fn s h
    refine ⟨_, execFunctionLevelReset_of_lt h s, ?_⟩
    rw [fnState_resetFn]
    exact ⟨rfl, rfl, rfl, rfl, rfl, endFnWork_batches s fn, endFnWork_taken s fn⟩

end Sys2Proof.Machine
end

section
/-! SUPPORT. The order of result entries by a class, a score and a key (R26, R33). -/
namespace Sys2Proof.Machine

/-! ## What the order compares -/

/-- The class of an entry, which R26 compares first: valid entries before void ones, and within each the numbers before the NaNs. -/
def entryClass (e : Entry) : Nat := 2 * (bit e.flags 0).toNat + (f32IsNaN e.score).toNat

/-- The value of an entry's score, which R26 compares within a class; NaNs are all alike. -/
def entryValue (e : Entry) : Int := if f32IsNaN e.score then 0 else f32Key e.score

section
variable {va vb na nb : Bool} (v : Bool) (K L : Int) (k l : Nat)

/-- Of a valid and a void entry the valid one comes first. -/
theorem before_of_void_ne (h : va ≠ vb) : before va vb na nb K L k l = vb := if_pos (bne_iff_ne.2 h)

/-- Of a number and a NaN the number comes first. -/
theorem before_of_nan_ne (h : na ≠ nb) : before v v na nb K L k l = nb :=
  (if_neg (fun hv => bne_iff_ne.1 hv rfl)).trans (if_pos (bne_iff_ne.2 h))

/-- Between NaNs the key decides. -/
theorem before_of_nans : before v v true true K L k l = true ↔ k < l := by
  cases v <;> exact decide_eq_true_iff

/-- Between scores that are numbers, the larger one decides, and between equal ones the key. -/
theorem before_of_numbers : before v v false false K L k l = true ↔ L < K ∨ K = L ∧ k < l := by
  by_cases h : K = L <;> simp [before, h]

end

/-- Of two different Booleans one is false and the other true. -/
theorem bool_cases_of_ne {v w : Bool} (h : v ≠ w) : v = false ∧ w = true ∨ v = true ∧ w = false := by
  cases v with
  | false => exact .inl ⟨rfl, Bool.eq_not_of_ne h.symm⟩
  | true => exact .inr ⟨rfl, Bool.eq_not_of_ne h.symm⟩

/-- The comparison of R26: the smaller class first, within a class the larger score, between equal scores the smaller key. -/
theorem entryPrecedes_iff (a b : Entry) : entryPrecedes a b = true ↔ entryClass a < entryClass b ∨
    entryClass a = entryClass b ∧ (entryValue b < entryValue a ∨ entryValue a = entryValue b ∧ a.key < b.key) := by
  rw [precedes_eq, entryClass, entryClass, entryValue, entryValue]
  by_cases hv : bit a.flags 0 = bit b.flags 0
  · rw [hv]
    by_cases hn : f32IsNaN a.score = f32IsNaN b.score
    · rw [hn]
      cases f32IsNaN b.score with
      | true => rw [before_of_nans, if_pos rfl, if_pos rfl]; omega
      | false => rw [before_of_numbers, if_neg Bool.false_ne_true, if_neg Bool.false_ne_true]; omega
    · rw [before_of_nan_ne _ _ _ _ _ hn]
      rcases bool_cases_of_ne hn with ⟨ha, hb⟩ | ⟨ha, hb⟩
      · rw [ha, hb]; exact iff_of_true rfl (.inl (by simp only [Bool.toNat_false, Bool.toNat_true]; omega))
      · rw [ha, hb]; exact iff_of_false Bool.false_ne_true (by simp only [Bool.toNat_false, Bool.toNat_true]; omega)
  · have hna := Bool.toNat_le (f32IsNaN a.score)
    have hnb := Bool.toNat_le (f32IsNaN b.score)
    rw [before_of_void_ne _ _ _ _ hv]
    rcases bool_cases_of_ne hv with ⟨ha, hb⟩ | ⟨ha, hb⟩
    · rw [ha, hb]; exact iff_of_true rfl (.inl (by simp only [Bool.toNat_false, Bool.toNat_true]; omega))
    · rw [ha, hb]; exact iff_of_false Bool.false_ne_true (by simp only [Bool.toNat_false, Bool.toNat_true]; omega)

theorem entryPrecedes_irrefl (a : Entry) : entryPrecedes a a = false := by
  rw [Bool.eq_false_iff, ne_eq, entryPrecedes_iff]
  omega

theorem entryPrecedes_trans {a b c : Entry} (hab : entryPrecedes a b = true) (hbc : entryPrecedes b c = true) : entryPrecedes a c = true := by
  rw [entryPrecedes_iff] at *
  omega

theorem entryPrecedes_asymm {a b : Entry} (h : entryPrecedes a b = true) : entryPrecedes b a = false := by
  rw [Bool.eq_false_iff, ne_eq]
  rw [entryPrecedes_iff] at *
  omega

/-- The order decides between any two entries with different keys. -/
theorem entryPrecedes_or_of_key_ne {a b : Entry} (h : a.key ≠ b.key) : entryPrecedes a b = true ∨ entryPrecedes b a = true := by
  rw [entryPrecedes_iff, entryPrecedes_iff]
  omega

theorem entryPrecedes_of_not {a b : Entry} (hkey : a.key ≠ b.key) (h : entryPrecedes b a = false) : entryPrecedes a b = true :=
  (entryPrecedes_or_of_key_ne hkey).resolve_right (Bool.eq_false_iff.1 h)

/-- Both scores are NaN, or both are numbers of one value, zeros of either sign included (R143). -/
theorem sameScore_iff (a b : Entry) : sameScore a b = true ↔
    f32IsNaN a.score = f32IsNaN b.score ∧ (f32IsNaN a.score = false → f32Key a.score = f32Key b.score) := by
  simp only [sameScore, f32Eq, canon_key, canon_nan]
  cases f32IsNaN a.score <;> cases f32IsNaN b.score <;> simp

theorem f32Lt_iff (x y : F32) : f32Lt x y = true ↔ f32IsNaN x = false ∧ f32IsNaN y = false ∧ f32Key x < f32Key y := by
  simp [f32Lt, and_assoc]

/-- A valid entry comes before a void one. -/
theorem entryPrecedes_of_void {a b : Entry} (ha : bit a.flags 0 = false) (hb : bit b.flags 0 = true) : entryPrecedes a b = true := by
  simp [precedes_eq, before, ha, hb]

/-- A number comes before a NaN. -/
theorem entryPrecedes_of_nan {a b : Entry} (hv : bit a.flags 0 = bit b.flags 0) (ha : f32IsNaN a.score = false) (hb : f32IsNaN b.score = true) :
    entryPrecedes a b = true := by
  simp [precedes_eq, before, hv, ha, hb]

/-- The larger score comes first. -/
theorem entryPrecedes_of_score {a b : Entry} (hv : bit a.flags 0 = bit b.flags 0) (h : f32Lt b.score a.score = true) : entryPrecedes a b = true := by
  obtain ⟨hb, ha, hlt⟩ := (f32Lt_iff _ _).1 h
  rw [precedes_eq, hv, ha, hb]
  exact (before_of_numbers _ _ _ _ _).2 (.inl hlt)

/-- Equal scores leave the choice to the key. -/
theorem entryPrecedes_of_sameScore {a b : Entry} (hv : bit a.flags 0 = bit b.flags 0) (h : sameScore a b = true) :
    entryPrecedes a b = true ↔ a.key < b.key := by
  obtain ⟨hnan, hkey⟩ := (sameScore_iff a b).1 h
  rw [precedes_eq, hv, hnan]
  cases hb : f32IsNaN b.score with
  | true => simp [before]
  | false => rw [before_of_numbers, hkey (hnan.trans hb)]; simp

/-- Settles O38: the order compares classes, scores and keys in turn, so it is strict and total but for equal keys. -/
theorem selectionOrderIsTotal : Obligations.SelectionOrderIsTotal := by
  unfold Obligations.SelectionOrderIsTotal
  intro a b c
  exact ⟨entryPrecedes_irrefl a, entryPrecedes_asymm, entryPrecedes_trans, entryPrecedes_or_of_key_ne, entryPrecedes_of_void,
    fun hv => ⟨entryPrecedes_of_nan hv, entryPrecedes_of_score hv, entryPrecedes_of_sameScore hv⟩⟩

end Sys2Proof.Machine
end

section
/-! SUPPORT. The first k of entries that arrive one after another (R28, R29, R142). -/
namespace Sys2Proof.Machine

/-! ## Insertion -/

/-- An element that comes after all others is inserted last. -/
theorem insertBy_eq_concat {α : Type} {lt : α → α → Bool} {x : α} {xs : List α} (h : ∀ y ∈ xs, lt y x = true) : insertBy lt x xs = xs ++ [x] := by
  induction xs with
  | nil => rfl
  | cons y ys ih =>
    rw [insertBy, if_pos (h y List.mem_cons_self), ih fun z hz => h z (List.mem_cons_of_mem y hz), List.cons_append]

/-- An element that does not come after the last one is inserted before it. -/
theorem insertBy_concat {α : Type} {lt : α → α → Bool} {x l : α} (h : lt l x = false) (xs : List α) :
    insertBy lt x (xs ++ [l]) = insertBy lt x xs ++ [l] := by
  induction xs with
  | nil => simp [insertBy, h]
  | cons y ys ih =>
    rw [List.cons_append, insertBy, insertBy]
    split
    · rw [ih, List.cons_append]
    · rfl

/-- What stands beyond the first `k` places is not among them after an insertion either. -/
theorem take_insertBy_take {α : Type} (lt : α → α → Bool) (x : α) (k : Nat) (xs : List α) :
    (insertBy lt x (xs.take k)).take k = (insertBy lt x xs).take k := by
  induction xs generalizing k with
  | nil => rw [List.take_nil]
  | cons y ys ih =>
    cases k with
    | zero => rfl
    | succ k =>
      rw [List.take_succ_cons, insertBy, insertBy]
      split
      · rw [List.take_succ_cons, List.take_succ_cons, ih]
      · exact congrArg (x :: ·) (by rw [← List.take_succ_cons, List.take_take, Nat.min_eq_left (Nat.le_succ k)])

/-- Insertion of an entry with a new key keeps a list ordered. -/
theorem pairwise_insertBy {x : Entry} {xs : List Entry} (hxs : xs.Pairwise fun a b => entryPrecedes a b = true) (hx : ∀ y ∈ xs, y.key ≠ x.key) :
    (insertBy entryPrecedes x xs).Pairwise fun a b => entryPrecedes a b = true := by
  induction xs with
  | nil => exact List.pairwise_singleton _ _
  | cons y ys ih =>
    obtain ⟨hy, hys⟩ := List.pairwise_cons.1 hxs
    rw [insertBy]
    split
    · rename_i hyx
      refine List.pairwise_cons.2 ⟨fun z hz => ?_, ih hys fun z hz => hx z (List.mem_cons_of_mem y hz)⟩
      rcases (mem_insertBy x z ys).1 hz with rfl | hz
      · exact hyx
      · exact hy z hz
    · rename_i hyx
      have hxy : entryPrecedes x y = true := entryPrecedes_of_not (hx y List.mem_cons_self).symm (Bool.eq_false_iff.2 hyx)
      refine List.pairwise_cons.2 ⟨fun z hz => ?_, hxs⟩
      rcases List.mem_cons.1 hz with rfl | hz
      · exact hxy
      · exact entryPrecedes_trans hxy (hy z hz)

/-! ## One offer -/

/-- An ordered list of entries with distinct keys. -/
def OrderedDistinct (es : List Entry) : Prop := (es.Pairwise fun a b => entryPrecedes a b = true) ∧ (es.map Entry.key).Nodup

theorem OrderedDistinct.sublist {es fs : List Entry} (h : OrderedDistinct fs) (hsub : es.Sublist fs) : OrderedDistinct es :=
  ⟨h.1.sublist hsub, h.2.sublist (hsub.map _)⟩

/-- An entry with a new key leaves an ordered list of distinct keys. -/
theorem OrderedDistinct.insertEntry {x : Entry} {xs : List Entry} (h : OrderedDistinct xs) (hx : ∀ y ∈ xs, y.key ≠ x.key) :
    OrderedDistinct (insertEntry x xs) := by
  refine ⟨pairwise_insertBy h.1 hx, ((perm_insertBy x xs).map Entry.key).nodup_iff.2 ?_⟩
  rw [List.map_cons, List.nodup_cons]
  exact ⟨fun hmem => by obtain ⟨y, hy, hkey⟩ := List.mem_map.1 hmem; exact hx y hy hkey, h.2⟩

/-- A list without the key of an entry has no occurrence of its written form. -/
theorem find?_key_eq_none {es : List Entry} {e : Entry} (hnew : ∀ y ∈ es, y.key ≠ e.key) :
    es.find? (fun o => decide (o.key = (writtenEntry e).key)) = none :=
  List.find?_eq_none.2 fun y hy => by simpa [written_key] using hnew y hy

/-- An entry whose key a full list does not hold drives the last entry out where it comes before it (R142). -/
theorem offerList_of_full {k : Nat} {e l : Entry} {init : List Entry} (hnew : ∀ y ∈ init ++ [l], y.key ≠ e.key) (hfull : (init ++ [l]).length = k) :
    (offerList k (init ++ [l]) e).1 = if entryPrecedes (writtenEntry e) l then insertEntry (writtenEntry e) init else init ++ [l] := by
  unfold offerList
  dsimp only
  rw [find?_key_eq_none hnew]
  dsimp only
  rw [if_neg (by omega), List.getLast?_concat, List.dropLast_concat]
  dsimp only
  split <;> rfl

/-- While there is room, an entry with a new key is inserted (R142). -/
theorem offerList_of_room {k : Nat} {es : List Entry} {e : Entry} (hnew : ∀ y ∈ es, y.key ≠ e.key) (hroom : es.length < k) :
    (offerList k es e).1 = insertEntry (writtenEntry e) es := by
  unfold offerList
  dsimp only
  rw [find?_key_eq_none hnew]
  exact congrArg Prod.fst (if_pos hroom)

/-- Where one occurrence of the key is held, the kept one of the two takes its place in the order (R143). -/
theorem offerList_of_held_key {k : Nat} {es : List Entry} {e o : Entry} (hfind : es.find? (fun o => decide (o.key = e.key)) = some o) :
    (offerList k es e).1 = insertEntry (keepOccurrence o (writtenEntry e)) (es.erase o) := by
  unfold offerList
  dsimp only
  rw [written_key, hfind]

/-- Whether there is room or not, an entry with a new key takes its place in the order, and the first `k` entries stay (R142). -/
theorem offerList_of_new_key {k : Nat} {es : List Entry} {e : Entry} (hes : es.Pairwise fun a b => entryPrecedes a b = true) (hlen : es.length ≤ k)
    (hnew : ∀ y ∈ es, y.key ≠ e.key) : (offerList k es e).1 = (insertEntry (writtenEntry e) es).take k := by
  rcases Nat.lt_or_eq_of_le hlen with hroom | hfull
  · have hlength : (insertEntry (writtenEntry e) es).length = es.length + 1 := (perm_insertBy _ _).length_eq
    rw [offerList_of_room hnew hroom, List.take_of_length_le (by omega)]
  · rcases List.eq_nil_or_concat es with rfl | ⟨init, l, rfl⟩
    · subst hfull; rfl
    · rw [List.concat_eq_append] at *
      rw [offerList_of_full hnew hfull]
      have hl : l.key ≠ (writtenEntry e).key := by rw [written_key]; exact hnew l (by simp)
      cases hbefore : entryPrecedes (writtenEntry e) l with
      | true =>
        have hlength : (insertEntry (writtenEntry e) init).length = k := by
          rw [← hfull, List.length_append]; exact (perm_insertBy _ _).length_eq
        rw [if_pos rfl, insertEntry, insertEntry, insertBy_concat (entryPrecedes_asymm hbefore)]
        exact (List.take_left' hlength).symm
      | false =>
        have hlast : entryPrecedes l (writtenEntry e) = true := entryPrecedes_of_not hl hbefore
        have hall : ∀ y ∈ init ++ [l], entryPrecedes y (writtenEntry e) = true := by
          intro y hy
          rcases List.mem_append.1 hy with hy | hy
          · exact entryPrecedes_trans ((List.pairwise_append.1 hes).2.2 y hy l (by simp)) hlast
          · rwa [List.mem_singleton.1 hy]
        rw [if_neg Bool.false_ne_true, insertEntry, insertBy_eq_concat hall]
        exact (List.take_left' hfull).symm

/-! ## Entries offered one after another -/

/-- The sorted entries are ordered where their keys are distinct. -/
theorem orderedDistinct_sortBy {es : List Entry} (h : (es.map Entry.key).Nodup) : OrderedDistinct (sortBy entryPrecedes es) := by
  induction es using snoc_induction with
  | h0 => exact ⟨List.Pairwise.nil, List.nodup_nil⟩
  | h1 xs x ih =>
    rw [List.map_append, List.nodup_append] at h
    obtain ⟨hxs, -, hx⟩ := h
    rw [sortBy_snoc]
    exact (ih hxs).insertEntry fun y hy => hx _ (List.mem_map_of_mem ((sortBy_perm xs).mem_iff.1 hy)) _ (by simp)

/-- Writing the scores keeps the keys. -/
theorem map_key_written (es : List Entry) : (es.map writtenEntry).map Entry.key = es.map Entry.key := by
  rw [List.map_map]
  exact List.map_congr_left fun e _ => written_key e

/-- Entries with different keys leave the first `k` of them under R26 (R29). -/
theorem offerAll_eq_take_sortBy (k : Nat) {es : List Entry} (h : (es.map Entry.key).Nodup) :
    (offerAll k [] es).1 = (sortBy entryPrecedes (es.map writtenEntry)).take k := by
  induction es using snoc_induction with
  | h0 => exact List.take_nil.symm
  | h1 xs x ih =>
    rw [List.map_append, List.nodup_append] at h
    obtain ⟨hxs, -, hx⟩ := h
    have hsorted := orderedDistinct_sortBy ((map_key_written xs).symm ▸ hxs)
    have hnew : ∀ y ∈ (sortBy entryPrecedes (xs.map writtenEntry)).take k, y.key ≠ x.key := by
      intro y hy
      have hmem : y.key ∈ (xs.map writtenEntry).map Entry.key := List.mem_map_of_mem ((sortBy_perm _).mem_iff.1 (List.mem_of_mem_take hy))
      exact hx _ (map_key_written xs ▸ hmem) _ (by simp)
    rw [offerAll_snoc, ih hxs, offerList_of_new_key (hsorted.1.sublist (List.take_sublist _ _)) (List.length_take_le _ _) hnew,
      insertEntry, take_insertBy_take, List.map_append, List.map_singleton, sortBy_snoc]

/-- Sorting forgets the order of arrival. -/
theorem sortBy_eq_of_perm {es fs : List Entry} (h : (es.map Entry.key).Nodup) (hperm : es.Perm fs) : sortBy entryPrecedes es = sortBy entryPrecedes fs := by
  refine List.Perm.eq_of_pairwise (fun a b _ _ hab hba => ?_) (orderedDistinct_sortBy h).1
    (orderedDistinct_sortBy ((hperm.map Entry.key).nodup_iff.1 h)).1 ((sortBy_perm es).trans (hperm.trans (sortBy_perm fs).symm))
  exact absurd hba (Bool.eq_false_iff.1 (entryPrecedes_asymm hab))

/-- Settles O39: each arrival keeps the first `k` of what has arrived, and sorting forgets the order of arrival. -/
theorem selectionIsIndependentOfArrival : Obligations.SelectionIsIndependentOfArrival := by
  unfold Obligations.SelectionIsIndependentOfArrival
  intro k es fs hes hperm
  have hfs : (fs.map Entry.key).Nodup := (hperm.map Entry.key).nodup_iff.1 hes
  refine ⟨offerAll_eq_take_sortBy k hes, ?_⟩
  rw [offerAll_eq_take_sortBy k hes, offerAll_eq_take_sortBy k hfs,
    sortBy_eq_of_perm ((map_key_written es).symm ▸ hes) (hperm.map writtenEntry)]

end Sys2Proof.Machine
end

section
/-! SUPPORT. Which of two occurrences of a key is kept (R143), and what an offer keeps (R28, R142 to R144). -/
namespace Sys2Proof.Machine

/-! ## Two occurrences of a key -/

/-- A bit of a number in which a bit was set. -/
theorem bit_setBit_true (v i j : Nat) : bit (setBit v i true) j = (bit v j || decide (i = j)) := by
  simp [bit, setBit, Nat.testBit_or, Nat.testBit_two_pow]

/-- The occurrence that is kept of two, before it is marked (R143). -/
def betterOccurrence (old new : Entry) : Entry :=
  if sameScore old new then (if exactRank new < exactRank old then new else old) else if entryPrecedes new old then new else old

theorem keepOccurrence_eq (old new : Entry) :
    keepOccurrence old new = { betterOccurrence old new with flags := setBit (betterOccurrence old new).flags 7 true } := rfl

theorem betterOccurrence_or (old new : Entry) : betterOccurrence old new = old ∨ betterOccurrence old new = new := by
  unfold betterOccurrence; split <;> split <;> simp

/-- The kept one of two occurrences of a key has that key. -/
theorem key_keepOccurrence {old new : Entry} (h : old.key = new.key) : (keepOccurrence old new).key = old.key := by
  rw [keepOccurrence_eq]
  rcases betterOccurrence_or old new with hkept | hkept
  · rw [hkept]
  · rw [hkept]; exact h.symm

/-- Settles O46, by the cases of the choice and by the bits of the kept flags. -/
theorem theBetterOccurrenceIsKept : Obligations.TheBetterOccurrenceIsKept := by
  unfold Obligations.TheBetterOccurrenceIsKept
  intro old new
  refine ⟨betterOccurrence old new, keepOccurrence_eq old new, betterOccurrence_or old new, ?moreExact, ?firstToArrive, ?newFirst, ?oldFirst, ?marked, ?others⟩
  case moreExact => intro hsame hrank; rw [betterOccurrence, if_pos hsame, if_pos hrank]
  case firstToArrive => intro hsame hrank; rw [betterOccurrence, if_pos hsame, if_neg (Nat.not_lt.2 hrank)]
  case newFirst => intro hsame hbefore; rw [betterOccurrence, if_neg (Bool.eq_false_iff.1 hsame), if_pos hbefore]
  case oldFirst => intro hsame hbefore; rw [betterOccurrence, if_neg (Bool.eq_false_iff.1 hsame), if_neg (Bool.eq_false_iff.1 hbefore)]
  case marked => rw [keepOccurrence_eq, bit_setBit_true]; simp
  case others => intro b hb; rw [keepOccurrence_eq, bit_setBit_true]; simp [hb.symm]

/-! ## What an offer keeps -/

/-- An offer of an entry with a new key: the list stays ordered and distinct within its capacity, it takes in nothing else, and an entry leaves only a full list
in which every entry that stays comes before it (R142). -/
theorem offerList_new_key_keeps {k : Nat} {es : List Entry} {e : Entry} (hes : OrderedDistinct es) (hlen : es.length ≤ k) (hnew : ∀ y ∈ es, y.key ≠ e.key) :
    OrderedDistinct (offerList k es e).1 ∧ (offerList k es e).1.length ≤ k ∧ (∀ x ∈ (offerList k es e).1, x ∈ es ∨ x = writtenEntry e) ∧
    ∀ x ∈ es, x ∉ (offerList k es e).1 → es.length = k ∧ ∀ y ∈ (offerList k es e).1, entryPrecedes y x = true := by
  have hinsert : OrderedDistinct (insertEntry (writtenEntry e) es) := hes.insertEntry fun y hy => by rw [written_key]; exact hnew y hy
  rw [offerList_of_new_key hes.1 hlen hnew]
  refine ⟨hinsert.sublist (List.take_sublist _ _), List.length_take_le _ _, fun x hx => ?_, fun x hx hout => ?_⟩
  · exact ((mem_insertBy _ _ _).1 (List.mem_of_mem_take hx)).symm
  · have hmem : x ∈ (insertEntry (writtenEntry e) es).take k ++ (insertEntry (writtenEntry e) es).drop k := by
      rw [List.take_append_drop]; exact (mem_insertBy _ _ _).2 (.inr hx)
    have hdrop : x ∈ (insertEntry (writtenEntry e) es).drop k := (List.mem_append.1 hmem).resolve_left hout
    have hlength : (insertEntry (writtenEntry e) es).length = es.length + 1 := (perm_insertBy _ _).length_eq
    have hpos : 0 < ((insertEntry (writtenEntry e) es).drop k).length := List.length_pos_of_mem hdrop
    rw [List.length_drop] at hpos
    have hsplit := hinsert.1
    rw [← List.take_append_drop k (insertEntry (writtenEntry e) es)] at hsplit
    exact ⟨by omega, fun y hy => (List.pairwise_append.1 hsplit).2.2 y hy x hdrop⟩

/-- An offer of an entry whose key is held: the kept occurrence stands in place of the one held (R143). -/
theorem offerList_held_key_keeps {k : Nat} {es : List Entry} {e o : Entry} (hes : OrderedDistinct es) (ho : o ∈ es) (hkey : o.key = e.key)
    (hoffer : (offerList k es e).1 = insertEntry (keepOccurrence o (writtenEntry e)) (es.erase o)) :
    OrderedDistinct (offerList k es e).1 ∧ (offerList k es e).1.length = es.length ∧
    (∀ x ∈ (offerList k es e).1, x ∈ es ∨ x = keepOccurrence o (writtenEntry e)) ∧ ∀ x ∈ es, x ∉ (offerList k es e).1 → x = o := by
  have hperm := List.perm_cons_erase ho
  have hkept : (keepOccurrence o (writtenEntry e)).key = o.key := key_keepOccurrence (hkey.trans (written_key e).symm)
  have hdistinct := (hperm.map Entry.key).nodup_iff.1 hes.2
  rw [List.map_cons, List.nodup_cons] at hdistinct
  have hnew : ∀ y ∈ es.erase o, y.key ≠ (keepOccurrence o (writtenEntry e)).key := fun y hy hyo =>
    hdistinct.1 (List.mem_map.2 ⟨y, hy, hyo.trans hkept⟩)
  rw [hoffer]
  refine ⟨(hes.sublist List.erase_sublist).insertEntry hnew, (perm_insertBy _ _).length_eq.trans hperm.length_eq.symm, fun x hx => ?_, fun x hx hout => ?_⟩
  · exact ((mem_insertBy _ _ _).1 hx).symm.imp_left List.mem_of_mem_erase
  · exact Decidable.byContradiction fun hne => hout ((mem_insertBy _ _ _).2 (.inr ((List.mem_erase_of_ne hne).2 hx)))

/-- Settles O45, by whether the list holds the key of the entry that is offered. -/
theorem contextsStayOrderedAndDistinct : Obligations.ContextsStayOrderedAndDistinct := by
  unfold Obligations.ContextsStayOrderedAndDistinct
  intro k es e hordered hdistinct hlen
  have hes : OrderedDistinct es := ⟨hordered, hdistinct⟩
  cases hfind : es.find? fun o => decide (o.key = e.key) with
  | none =>
    have hnew : ∀ y ∈ es, y.key ≠ e.key := fun y hy => by simpa using List.find?_eq_none.1 hfind y hy
    obtain ⟨⟨hp, hn⟩, hl, hin, hout⟩ := offerList_new_key_keeps hes hlen hnew
    exact ⟨hp, hn, hl, fun x hx => (hin x hx).imp_right .inl, fun x hx hx' => .inr (hout x hx hx')⟩
  | some o =>
    have ho := List.mem_of_find?_eq_some hfind
    have hkey : o.key = e.key := by simpa using List.find?_some hfind
    obtain ⟨⟨hp, hn⟩, hl, hin, hout⟩ := offerList_held_key_keeps hes ho hkey (offerList_of_held_key hfind)
    exact ⟨hp, hn, Nat.le_trans (Nat.le_of_eq hl) hlen, fun x hx => (hin x hx).imp_right fun h => .inr ⟨o, ho, hkey, h⟩, fun x hx hx' => .inl (hout x hx hx' ▸ hkey)⟩

end Sys2Proof.Machine
end

section
/-! SUPPORT. Visibility of a slot at a snapshot (R19, R85, R87). -/
namespace Sys2Proof.Machine

/-- The number that comes first under `<` is the least one. -/
theorem firstBy_lt_eq_min? (xs : List Nat) : firstBy (fun a b => decide (a < b)) xs = xs.min? := by
  induction xs with
  | nil => rfl
  | cons x xs ih =>
    rw [firstBy, ih, List.min?_cons]
    cases xs.min? with
    | none => rfl
    | some y =>
      by_cases h : y < x
      · simp [h, Nat.min_eq_right (Nat.le_of_lt h)]
      · simp [h, Nat.min_eq_left (Nat.le_of_not_lt h)]

/-- What is created and perhaps deleted exists from the one epoch to before the other (R19). -/
theorem existsAt_iff (created : Nat) (deleted : Option Nat) (e : Nat) :
    existsAt created deleted e = true ↔ ¬ created > e ∧ (deleted = none ∨ ∃ d, deleted = some d ∧ d > e) := by
  cases deleted <;> simp [existsAt]

theorem visibleAt_of_item {g : Segment} {slot : Nat} {i : Item} (h : g.items[slot]? = some i) (l : ListData) (view : List Nat) (snap : Nat) :
    visibleAt l view g slot snap = existsAt (if g.isBase then g.validFrom else i.insert) (deleteEpoch l view g.segIndex slot) snap := by
  unfold visibleAt; rw [h]

theorem visibleAt_of_no_item {g : Segment} {slot : Nat} (h : g.items[slot]? = none) (l : ListData) (view : List Nat) (snap : Nat) :
    visibleAt l view g slot snap = false := by
  unfold visibleAt; rw [h]

/-- The epochs of the marks of a view's segments that target a slot (R85). -/
def markEpochs (l : ListData) (view : List Nat) (seg slot : Nat) : List Nat :=
  view.flatMap fun k => match segOf l k with
    | some g => (g.marks.filter fun m => m.seg = seg && m.slot = slot).map (·.epoch)
    | none => []

theorem mem_markEpochs {l : ListData} {view : List Nat} {seg slot d : Nat} : d ∈ markEpochs l view seg slot ↔
    ∃ k ∈ view, ∃ h, l.segs.get k = some h ∧ ∃ m ∈ h.marks, m.seg = seg ∧ m.slot = slot ∧ m.epoch = d := by
  unfold markEpochs
  rw [List.mem_flatMap]
  refine exists_congr fun k => and_congr_right fun _ => ?_
  unfold segOf
  cases l.segs.get k with
  | none => simp
  | some g => simp [and_assoc]

/-- A slot's delete epoch is the least of the epochs of its marks (R87). -/
theorem deleteEpoch_eq_min? (l : ListData) (view : List Nat) (seg slot : Nat) :
    deleteEpoch l view seg slot = (markEpochs l view seg slot).min? := firstBy_lt_eq_min? _

/-- Settles O41: visibility by its definition, the delete epoch as the least among the epochs of the slot's marks. -/
theorem visibilityFollowsTheEpochs : Obligations.VisibilityFollowsTheEpochs := by
  unfold Obligations.VisibilityFollowsTheEpochs
  refine ⟨existsAt_iff, fun l view g slot snap i h => visibleAt_of_item h l view snap, fun l view g slot snap h => visibleAt_of_no_item h l view snap,
    fun l view seg slot d => ?_⟩
  rw [deleteEpoch_eq_min?, List.min?_eq_some_iff, mem_markEpochs]
  refine and_congr_right fun _ => ⟨fun hleast k hk h hh m hm hseg hslot => hleast _ (mem_markEpochs.2 ⟨k, hk, h, hh, m, hm, hseg, hslot, rfl⟩), ?_⟩
  intro hleast x hx
  obtain ⟨k, hk, h, hh, m, hm, hseg, hslot, rfl⟩ := mem_markEpochs.1 hx
  exact hleast k hk h hh m hm hseg hslot

end Sys2Proof.Machine
end

section
/-! SUPPORT. The commands that take a query from its entry to its sketch (R16, R17, R51, R54, R59, R79 to R82, R170, R171, R391, R394,
R405, R406): one lemma per command and case, then the statement on all of them. -/
namespace Sys2Proof.Machine

/-! ## Entries and descriptors -/

/-- A read inside the windows counts its bytes and succeeds (R387). -/
theorem dmaRead_of_inside {s : State} {fn addr len : Nat} (h : dmaInside (s.fnNow fn) false addr len = true) :
    s.dmaRead fn addr len = (s.count (objKey (0x2040 + fn) 1) len, true) := if_pos h

/-- The state once a taken entry is read: it is no longer awaited. -/
def State.forgetTaken (s : State) (e : TakenEntry) : State := { s with host := { s.host with taken := s.host.taken.erase e } }

/-- A query entry whose entry and body pass the windows becomes a query (R391, R394). -/
theorem execQueryEntryArrive_of_inside {fn pair sqIndex : Nat} {entry body : List Byte} {s : State}
    (htaken : s.host.taken.contains ⟨fn, pair, sqIndex⟩ = true) (hkind : (s.pairOf fn pair).kind = 1) (hop : field entry 0 1 = 1)
    (hbody : dmaInside ((s.forgetTaken ⟨fn, pair, sqIndex⟩).fnNow fn) false (field entry 56 8) (field entry 64 4) = true)
    (hresult : dmaInside ((s.forgetTaken ⟨fn, pair, sqIndex⟩).fnNow fn) true (parseQuery entry body).resultAddr (16 * (parseQuery entry body).k) = true) :
    execQueryEntryArrive fn pair sqIndex entry body true s = .next
      (((s.forgetTaken ⟨fn, pair, sqIndex⟩).count (objKey (0x2040 + fn) 1) (field entry 64 4)).newQuery fn pair sqIndex false (parseQuery entry body)
        (if queryEntryOk entry body s.epochs.open_ then none else some 0x82)) := by
  have hread := dmaRead_of_inside hbody
  unfold State.forgetTaken at *
  simp only [execQueryEntryArrive, htaken, hkind, hop, hbody, hresult, hread, State.count_epochs, Bool.not_true, Bool.false_or, Bool.and_self,
    ne_eq, not_true_eq_false, decide_false, Bool.false_eq_true, if_false]

/-- A basic-level descriptor whose descriptor and vector pass the windows is taken and becomes a query (R405, R406). -/
theorem execBasicQueryDescriptor_of_inside {fn : Nat} {desc vec : List Byte} {s : State} (hturn : s.turn = some (fn, 0))
    (hbasic : (s.fnState fn).expert = false)
    (hdesc : dmaInside (s.fnNow fn) false ((s.fnState fn).basic.qsrBase + 64 * (s.fnState fn).basic.qsrHead) 64 = true) :
    let a := (s.count (objKey (0x2040 + fn) 1) 64).takeDescriptor fn
    let m := a.basicIndex fn (field desc 27 1 % 16)
    let f := parseBasicQuery desc vec m.1 m.2
    dmaInside (a.fnNow fn) false (field desc 8 8) (inputBytes false f.fmt f.len) = true → dmaInside (a.fnNow fn) true f.resultAddr (16 * f.k) = true →
    let c := a.count (objKey (0x2040 + fn) 1) (inputBytes false f.fmt f.len)
    execBasicQueryDescriptor fn desc vec ⟨true, true⟩ s = .next (c.newQuery fn 0 (s.fnState fn).basic.qsrHead true f
      (if basicQueryOk desc vec c.epochs.open_ = false then some 0x82 else if m.1 = 0 ∧ m.2 = 0 then some 0x81 else none)) := by
  intro a m f hvec hresult c
  have hread := dmaRead_of_inside hdesc
  have hread' : a.dmaRead fn (field desc 8 8) (inputBytes false f.fmt f.len) = _ := dmaRead_of_inside hvec
  simp only [a, m, f, c] at *
  simp only [execBasicQueryDescriptor, hturn, hbasic, hread, hread', hvec, hresult, Bool.not_true, Bool.and_self, Bool.not_eq_true',
    ne_eq, not_true_eq_false, decide_false, Bool.or_self, Bool.false_eq_true, if_false]

/-! ## Placement and admission -/

/-- A query that passes its checks is admitted at the strand of R51 (R16). -/
theorem execQueryPlace_of_ok {q g : Nat} {x : Query} {v : Version} {slot forced : Nat} {img : Image} {s : State} (hq : s.query q = some x)
    (hphase : x.phase = .placing) (hcheck : s.checkAt x s.usableClosed = .ok (v, slot, img, forced)) (hmin : x.fields.minEpoch ≤ s.usableClosed)
    (himg : img.installed ≠ []) (hplace : s.placeStrand img.installed = some g) :
    execQueryPlace q s = .next (s.admitQuery q x g s.usableClosed (.ok (v, slot, img, forced))) := by
  simp [execQueryPlace, hq, hphase, hcheck, Nat.not_lt.2 hmin, himg, hplace]

/-- A query that fails a check is rejected with its cause where it is (R16). -/
theorem execQueryPlace_of_error {q c : Nat} {x : Query} {s : State} (hq : s.query q = some x) (hphase : x.phase = .placing)
    (hcheck : s.checkAt x s.usableClosed = .error c) (hmin : x.fields.minEpoch ≤ s.usableClosed) :
    execQueryPlace q s = .next (s.reject q x c) := by
  simp [execQueryPlace, hq, hphase, hcheck, Nat.not_lt.2 hmin]

/-- A query whose version has an image in some partition and whose tenant is below its cap takes its place in the dual-check count, its gig
decision and its snapshot (R51, R60, R64, R504). -/
theorem admitChecked_of_ok {q snap : Nat} {x : Query} {v : Version} {slot forced : Nat} {img : Image} {s : State} (himg : img.installed ≠ [])
    (hcap : s.inFlight x.tenant < (s.tenant x.tenant).inflightCap) :
    let y : Query := { x with dual := s.setting 0x2D04 2 1 = 1 && dualSelected s.pipe.admitted }
    let d := ({ s with pipe := { s.pipe with admitted := s.pipe.admitted + 1 } } : State).gigDecision y
    s.admitChecked q x snap (.ok (v, slot, img, forced)) = d.1.stampQuery q { y with gig := d.2 } snap v slot img forced := by
  simp [State.admitChecked, himg, Nat.not_le.2 hcap]

/-- A hold ends with the checks at the snapshot that has closed, on the strand where the query is (R17). -/
theorem execMinEpochHoldEnd_of_ok {q : Nat} {x : Query} {v : Version} {slot forced : Nat} {img : Image} {s : State} (hq : s.query q = some x)
    (hphase : x.phase = .minHold) (hmin : x.fields.minEpoch ≤ s.usableClosed) (hcheck : s.checkAt x s.usableClosed = .ok (v, slot, img, forced))
    (hpart : img.installed.contains (x.g / 8) = true) :
    execMinEpochHoldEnd q s = .next (s.admitChecked q x s.usableClosed (.ok (v, slot, img, forced))) := by
  simp only [execMinEpochHoldEnd, hq, hphase, hcheck, hpart, decide_eq_false (Nat.not_lt.2 hmin), beq_self_eq_true, Bool.not_true, Bool.or_false,
    Bool.or_true, Bool.false_eq_true, if_false, if_true]

/-! ## Tensor requests -/

/-- Which of its two ends the head of a tensor queue meets at its grant, once its tiles are free (R54, R56, R170, R174). -/
theorem execTensorGrant_of_free {part n : Nat} {r : TensorReq} {rest : List TensorReq} {x : Query} {m : Model} {s : State}
    (hqueue : (s.pool part).queue = r :: rest) (hfree : r.tiles ≤ (freeTiles (s.pool part)).length) (hq : s.query r.owner = some x)
    (hmodel : s.modelOf r.model = some (m, n)) :
    execTensorGrant part s = .next (if s.tooLate part x.deadlineAt (statedNs m (rowsOf r.kind x)) then s.withdrawRequest r.owner x r.kind
      else (s.grantTiles part r (pickTiles (s.pool part) r.model r.tiles)).setQuery r.owner { x with
        phase := if r.kind == .encode then .encoding else .scoring }) := by
  simp only [execTensorGrant, hqueue, hq, hmodel, if_neg (Nat.not_lt.2 hfree)]

/-- A query whose ENCODE waits at its deadline, or runs 2 µs before it, completes DEADLINE (R170). -/
theorem execEncodeDeadline_of_due {q t : Nat} {x : Query} {s : State} (hq : (s.advance t).query q = some x)
    (hdue : (x.phase = .encodeWait ∧ x.deadlineAt ≤ max s.time t) ∨ (x.phase = .encoding ∧ x.deadlineAt ≤ max s.time t + 2 * cyclesPerUs)) :
    execEncodeDeadline q t s = .next (((s.advance t).tally (0x2510 + x.g / 8) 6).toEmit q { x with deadlineHit := true, answer := [] }) := by
  have hcond : (x.phase == .encodeWait && decide ((s.advance t).time ≥ x.deadlineAt) ||
      x.phase == .encoding && decide ((s.advance t).time + 2 * cyclesPerUs ≥ x.deadlineAt)) = true := by
    simpa only [State.advance_time, Bool.or_eq_true, Bool.and_eq_true, beq_iff_eq, decide_eq_true_eq] using hdue
  simp only [execEncodeDeadline, hq, hcond, if_true]
  rfl

/-- ENCODE_COMPLETE frees the tiles and gives the query its vector, or rejects it where the encoder's output is not finite (R171). -/
theorem execEncodeComplete_of_encoding {q : Nat} {x : Query} {s : State} (hq : s.query q = some x) (hphase : x.phase = .encoding) :
    let out := s.encoderOutput x
    let a := (s.dropTensor (x.g / 8) fun r => r.kind == .encode && r.owner = q).tally (0x2510 + x.g / 8) 4
    execEncodeComplete q s = .next (if out.any f32NonFinite then (a.tally (0x2510 + x.g / 8) 0xB).reject q x 0x82
      else a.setQuery q { x with vector := out, phase := .toSketch, restarted := false }) := by
  simp only [execEncodeComplete, hq, hphase, beq_self_eq_true, Bool.not_true, Bool.false_eq_true, if_false]

/-! ## Sketches -/

/-- The sketches of a query under the generations active at its snapshot (R79 to R82). -/
theorem execQuerySketch_of_room {q slot : Nat} {x : Query} {v : Version} {img : Image} {s : State} (hq : s.query q = some x)
    (hphase : x.phase = .toSketch) (hpower : s.powered .strand x.g = true) (hroom : s.sketchesOut x.g < 32)
    (hversion : s.versionOf x.fields.ns x.fields.idx x.version = some v) (himage : s.imageByDigest v.image = some (slot, img)) :
    let vec := if x.fields.tokens then x.vector else x.fields.elements
    let r := sketchesAt v (x.snapshot.getD 0) img.progs.inputScale vec
    execQuerySketch q s = .next (((s.count (objKey (0x2318 + x.g / 8) 7) r.2).wake .base (x.g / 8) 2).setQuery q { x with
      vector := vec, sketches := r.1, phase := .toWalk }) := by
  simp only [execQuerySketch, hq, hphase, hpower, hversion, himage, decide_eq_false (Nat.not_le.2 hroom), beq_self_eq_true, Bool.not_true,
    Bool.or_self, Bool.false_eq_true, if_false]

/-- Settles O20: each command's lemma gives the state, case by case. -/
theorem admissionCommandsComplete : Obligations.AdmissionCommandsComplete := by
  unfold Obligations.AdmissionCommandsComplete
  refine ⟨?entry, ?descriptor, ?place, ?reject, ?holdEnd, ?grant, ?deadline, ?encoded, ?sketch, ?publish⟩
  case entry =>
    intro fn pair sqIndex entry body s htaken hkind hop a q hbody hresult
    exact ⟨_, execQueryEntryArrive_of_inside htaken hkind hop hbody hresult, rfl⟩
  case descriptor =>
    intro fn desc vec s hturn hbasic b hdesc a m f hvec hresult c
    exact ⟨_, execBasicQueryDescriptor_of_inside hturn hbasic hdesc hvec hresult, rfl⟩
  case place =>
    intro q g x v slot forced img s hq hphase hcheck hmin himg hplace
    exact ⟨_, execQueryPlace_of_ok hq hphase hcheck hmin himg hplace, rfl⟩
  case reject =>
    intro q c x s hq hphase hcheck hmin
    exact ⟨_, execQueryPlace_of_error hq hphase hcheck hmin, rfl⟩
  case holdEnd =>
    intro q x v slot forced img s hq hphase hmin hcheck hpart hcap y d
    have himg : img.installed ≠ [] := by rintro h; simp [h] at hpart
    exact ⟨_, execMinEpochHoldEnd_of_ok hq hphase hmin hcheck hpart, admitChecked_of_ok himg hcap⟩
  case grant =>
    intro part r rest x m n s hqueue hfree hq hmodel
    exact ⟨_, execTensorGrant_of_free hqueue hfree hq hmodel, fun hlate => if_pos hlate, fun hearly => if_neg (Bool.eq_false_iff.1 hearly)⟩
  case deadline =>
    intro q t x s hq hdue
    exact ⟨_, execEncodeDeadline_of_due hq hdue, rfl⟩
  case encoded =>
    intro q x s hq hphase out a
    exact ⟨_, execEncodeComplete_of_encoding hq hphase, fun hbad => if_pos hbad, fun hfinite => if_neg (Bool.eq_false_iff.1 hfinite)⟩
  case sketch =>
    intro q x v slot img s hq hphase hpower hroom hversion himage vec r
    exact ⟨_, execQuerySketch_of_room hq hphase hpower hroom hversion himage, rfl⟩
  case publish => exact fun s => ⟨_, rfl, rfl⟩

end Sys2Proof.Machine
end

section
/-! SUPPORT. The commands at a query's origin, from the pieces of its partial results to its completion (R38, R56, R61, R147, R148, R154,
R172 to R175, R396): one lemma per command and case, then the statement on all of them. -/
namespace Sys2Proof.Machine

/-! ## Pieces of a partial result -/

/-- A piece of an open list of a query in its search goes to the list (R146). -/
theorem execPieceReceive_of_open {src : Nat} {b : List Byte} {x : Query} {c : ChosenList} {s : State} :
    let p := parsePiece b
    let q := (s.queryOf p.handle).getD (handleSerial p.handle)
    s.query q = some x → s.handleOf q x = p.handle → chosenOf x p.list = some c → x.phase = .searching → c.state = .open →
    execPieceReceive src b s = .next (s.receivePiece q x src b p c) := by
  intro p q hq hhandle hlist hphase hstate
  simp [execPieceReceive, p, q, hq, hhandle, hlist, hphase, hstate]

section
variable {q src : Nat} {b : List Byte} {x : Query} {p : Piece} {c : ChosenList} {s : State}

/-- A piece of another module than the one whose partial result is reserved is discarded, and its partial counted once (R148). -/
theorem receivePiece_of_other_sender (hreserved : c.reserved = true) (hsender : c.sender ≠ some src) :
    s.receivePiece q x src b p c = if p.last || p.withdrawn then s.tally (0x2430 + x.g) 5 else s := by
  simp [State.receivePiece, hreserved, hsender]

/-- A list that is free, or reserved for the sender, is not held by another module. -/
theorem not_held_by_other (hmine : c.reserved = false ∨ c.sender = some src) : (c.reserved && c.sender != some src) = false := by
  rcases hmine with h | h <;> simp [h]

/-- A malformed or withdrawn piece of a list that no other module holds loses the list (R145, R146). -/
theorem receivePiece_of_lost (hmine : c.reserved = false ∨ c.sender = some src) (hbad : pieceOk b = false ∨ p.withdrawn = true) :
    s.receivePiece q x src b p c = s.listLost q x p.list := by
  have hother := not_held_by_other hmine
  have hlost : (!pieceOk b || p.withdrawn) = true := by simpa using hbad
  simp only [State.receivePiece, hother, hlost, Bool.false_eq_true, if_false, if_true]

/-- A good piece that is new to its list is taken where its reservation is held or fits, and waits where it does not (R147). -/
theorem receivePiece_of_new (hmine : c.reserved = false ∨ c.sender = some src) (hok : pieceOk b = true) (hwithdrawn : p.withdrawn = false)
    (hnew : c.reserved = true → (c.pieces.any fun y => y.1 = p.num) = false) :
    s.receivePiece q x src b p c = if c.waiting.isEmpty && (c.reserved || s.pieceRoom (s.askSpill x) p.total) then s.takePiece q (s.askSpill x) src p
      else s.setQuery q (updChosen (s.askSpill x) p.list fun c => { c with waiting := c.waiting ++ [(src, b)] }) := by
  have hother := not_held_by_other hmine
  have hagain : (c.reserved && c.pieces.any fun y => y.1 = p.num) = false := by
    cases hr : c.reserved with
    | false => rfl
    | true => exact hnew hr
  simp only [State.receivePiece, hother, hok, hwithdrawn, hagain, Bool.not_true, Bool.or_self, Bool.false_eq_true, if_false]

end

/-- Pieces that waited are taken one after the other for a query (R147). -/
def State.takePieces (s : State) (q : Nat) (ws : List (Nat × List Byte)) : State :=
  ws.foldl (fun s w => match s.query q with
    | some x => s.takePiece q x w.1 (parsePiece w.2)
    | none => s) s

/-- The pieces that wait for a list are taken once its partial result fits, those of the module that has waited longest (R147, R148). -/
theorem execPieceReservationGrant_of_room {q list src : Nat} {b : List Byte} {rest : List (Nat × List Byte)} {x : Query} {c : ChosenList} {s : State}
    (hq : s.query q = some x) (hlist : chosenOf x list = some c) (hphase : x.phase = .searching) (hwaiting : c.waiting = (src, b) :: rest)
    (hroom : s.pieceRoom (s.askSpill x) (parsePiece b).total = true) :
    let a := s.count (objKey (0x2430 + x.g) 5) ((c.waiting.filter fun w => w.1 ≠ src && (parsePiece w.2).last).length)
    execPieceReservationGrant q list s = .next ((a.setQuery q (updChosen (s.askSpill x) list fun c => { c with waiting := [] })).takePieces q
      (c.waiting.filter fun w => w.1 = src)) := by
  have hphase' : (s.askSpill x).phase = .searching := hphase
  simp only [execPieceReservationGrant, hq, hlist, hwaiting, hphase', hroom, beq_self_eq_true, Bool.not_true, Bool.or_self, Bool.false_eq_true,
    if_false]
  rfl

/-- A whole partial result of an open list is merged, unless SELECT stalls (R148). -/
theorem execListMergeComplete_of_whole {q list : Nat} {es : List Entry} {x : Query} {c : ChosenList} {s : State} (hq : s.query q = some x)
    (hlist : chosenOf x list = some c) (hphase : x.phase = .searching) (hwhole : wholePartial c = some es) (hopen : c.state = .open)
    (hstalled : s.emitStalled x.g = false) :
    let r := s.mergePartial x.g x.ctx es
    execListMergeComplete q list s = .next (r.1.tryFinish q { updChosen x list fun c =>
      { c with state := .reached, reserved := false, pieces := [] } with ctx := r.2.1, merged := x.merged + r.2.2 }) := by
  simp only [execListMergeComplete, hq, hlist, hphase, hwhole, hopen, hstalled, beq_self_eq_true, Bool.not_true, Bool.or_self, Bool.false_eq_true,
    if_false]
  rfl

/-! ## The ends of a search -/

section
variable {q t : Nat} {x : Query} {s : State} (hq : (s.advance t).query q = some x)
include hq

/-- A search that is not done is cut off once only the time to order its context is left (R154). -/
theorem execCutoff_of_due (hphase : x.phase = .searching) (hs : x.s = 0) (hopen : listsDone x = false)
    (hdue : x.deadlineAt ≤ max s.time t + orderTime x.ctx ((s.advance t).clockOf (x.g / 8)) (max s.time t)) :
    execCutoff q t s = .next (((s.advance t).tally (0x2430 + x.g) 9).cutSearch q x) := by
  simp [execCutoff, hq, hphase, hs, hopen, hdue]

/-- A placed query expires at its deadline (R38, R61). -/
theorem execQueryDeadline_of_due (hphase : x.phase ≠ .placing) (hdue : x.deadlineAt ≤ max s.time t) :
    execQueryDeadline q t s = .next (((s.advance t).dropStalled ((s.advance t).handleOf q x)).expireQuery q x) := by
  have hwaits : (x.phase == .placing || decide ((s.advance t).time < x.deadlineAt)) = false := by
    rw [State.advance_time, decide_eq_false (Nat.not_lt.2 hdue), beq_eq_false_iff_ne.2 hphase]; rfl
  simp only [execQueryDeadline, hq, hwaits, Bool.false_eq_true, if_false]

/-- At the score cut-off the first context is frozen and its block forms, or an empty answer goes out (R173). -/
theorem execScoreCutoff_of_searching (hphase : x.phase = .searching) (hs : 0 < x.s) (hopen : listsDone x = false)
    (hdue : (s.advance t).scoreCutAt x ≤ max s.time t) :
    let y := giveUpLists { x with frozen := true, deadlineHit := true }
    execScoreCutoff q t s = .next (if (ctxOutput y.ctx).1.isEmpty then (s.advance t).toEmit q { y with answer := [] } else (s.advance t).sendBlock q y) := by
  have hearly : (decide (x.s = 0) || decide ((s.advance t).time < (s.advance t).scoreCutAt x)) = false := by
    rw [State.advance_time, decide_eq_false (Nat.not_lt.2 hdue), decide_eq_false (Nat.ne_of_gt hs)]; rfl
  simp only [execScoreCutoff, hq, hphase, hopen, hearly, beq_self_eq_true, Bool.not_false, Bool.and_self, Bool.false_eq_true, if_false, if_true]
  rfl

/-- Rows that the score cut-off meets unanswered are late (R259, R173). -/
theorem execScoreCutoff_of_assembling (hphase : x.phase = .assembling) (hs : 0 < x.s) (hdue : (s.advance t).scoreCutAt x ≤ max s.time t) :
    execScoreCutoff q t s = .next ((s.advance t).lateBlock q x) := by
  have hearly : (decide (x.s = 0) || decide ((s.advance t).time < (s.advance t).scoreCutAt x)) = false := by
    rw [State.advance_time, decide_eq_false (Nat.not_lt.2 hdue), decide_eq_false (Nat.ne_of_gt hs)]; rfl
  simp only [execScoreCutoff, hq, hphase, hearly, beq_self_eq_true, Bool.false_eq_true, if_false, if_true]

/-- A waiting SCORE request that its deadline no longer allows is withdrawn, and the exact scores stand (R56). -/
theorem execScoreWithdrawn_of_late {slot : Nat} {img : Image} {m : Model} (hphase : x.phase = .scoreWait)
    (himage : (s.advance t).imageFor x = some (slot, img)) (hscorer : img.scorer = some m)
    (hlate : (s.advance t).tooLate (x.g / 8) x.deadlineAt (statedNs m (x.block.filter fun b => !b.dropped).length) = true) :
    execScoreWithdrawn q t s = .next (((s.advance t).tally (0x2110 + x.g) 0xA).emitExact q (addReason x 4)) := by
  simp [execScoreWithdrawn, hq, hphase, himage, hscorer, hlate]

/-- An invocation unfinished 8 µs before the deadline is abandoned, and the exact scores stand (R174). -/
theorem execScoreAbandoned_of_due (hphase : x.phase = .scoring) (hdue : x.deadlineAt ≤ max s.time t + 8 * cyclesPerUs) :
    execScoreAbandoned q t s = .next (((s.advance t).tally (0x2510 + x.g / 8) 7).emitExact q (addReason x 4)) := by
  have hcond : (x.phase == .scoring && decide ((s.advance t).time + 8 * cyclesPerUs ≥ x.deadlineAt)) = true := by
    rw [State.advance_time, hphase, decide_eq_true hdue]; rfl
  simp only [execScoreAbandoned, hq, hcond, if_true]

end

/-! ## Scoring -/

section
variable {q item : Nat} {x : Query} {b : BlockItem} {s : State} (hq : s.query q = some x) (hitem : x.block[item]? = some b)
  (hphase : x.phase = .assembling) (hkept : b.dropped = false)
include hq hitem hphase hkept

/-- The payload of a block item arrives and is metered, or drops the item where it is unreadable (R172, R198). -/
theorem execScoreInputAssemble_of_payload (hdue : b.payloadDue = true) (ok : Bool) :
    execScoreInputAssemble q item .payload ok s = .next (if ok then (s.meter x.tenant 16 4096).requestScore q
      { x with block := x.block.set item { b with payloadDue := false } } else s.blockLoss q item x b) := by
  simp only [execScoreInputAssemble, hq, hitem, hphase, hkept, hdue, beq_self_eq_true, Bool.not_true, Bool.or_self, Bool.false_eq_true, if_false]

/-- A feature row of a block item arrives, or the default row stands for it (R172, R261). -/
theorem execScoreInputAssemble_of_row {n : Nat} (hdue : b.rowsDue.contains n = true) (ok : Bool) :
    execScoreInputAssemble q item (.row n) ok s = .next (if ok then s.requestScore q
      { x with block := x.block.set item { b with rowsDue := b.rowsDue.erase n } } else s.blockDefault q item n x b) := by
  simp only [execScoreInputAssemble, hq, hitem, hphase, hkept, hdue, beq_self_eq_true, Bool.not_true, Bool.or_self, Bool.false_eq_true, if_false]

end

/-- The scoring model's outputs, scaled, go to a second context, whose entries are the answer (R155, R175). -/
theorem execScoreComplete_of_scoring {q slot : Nat} {inputs : List ItemInput} {x : Query} {img : Image} {s : State} (hq : s.query q = some x)
    (hphase : x.phase = .scoring) (hinputs : inputs.length = (x.block.filter fun b => !b.dropped).length) :
    let a := (s.dropTensor (x.g / 8) fun r => r.kind == .score && r.owner = q).tally (0x2510 + x.g / 8) 5
    let live := x.block.filter fun b => !b.dropped
    let es := List.zipWith (fun (i : BlockItem) y => modelEntry i.entry (f32Add (f32Mul img.progs.scaleA y) img.progs.scaleB))
      live (List.zipWith (fun b i => s.scorerOutput x { i with rows := s.rowInputs x b i }) live inputs)
    a.imageFor x = some (slot, img) →
    let c := (a.count (objKey (0x2510 + x.g / 8) 0xB) ((es.filter fun e => f32IsNaN e.score).length)).openCtx x.g x.fields.k false
    let r := c.1.offerEach x.g c.2 es
    execScoreComplete q inputs s = .next (r.1.toEmit q { x with answer := r.2.1.entries }) := by
  intro a live es himage c r
  simp only [a] at himage
  simp only [execScoreComplete, hq, hphase, hinputs, himage, beq_self_eq_true, Bool.not_true, ne_eq, not_true_eq_false, decide_false, Bool.or_self,
    Bool.false_eq_true, if_false]
  rfl

/-! ## The completion -/

/-- EMIT writes the completion of a query of this module's own (R396). -/
theorem execQueryCompletionWrite_of_own {q : Nat} {x : Query} {s : State} (hq : s.query q = some x) (hphase : x.phase = .emitting)
    (hown : x.adopted = none) : execQueryCompletionWrite q s = .next (s.finishQuery q x true).startBlocks := by
  simp [execQueryCompletionWrite, hq, hphase, hown]

/-- A query taken over in a drain answers the module that drains (R369). -/
theorem execQueryCompletionWrite_of_adopted {q h : Nat} {x : Query} {s : State} (hq : s.query q = some x) (hphase : x.phase = .emitting)
    (hadopted : x.adopted = some h) :
    let a := s.sendAnswer (((s.exchange.leases.find? fun l => l.handle = h && !l.draining).map (·.peer)).getD (h % 4096)) h x
    execQueryCompletionWrite q s = .next (({ a with
      exchange := { a.exchange with leases := a.exchange.leases.filter fun l => !(l.handle = h && !l.draining) } } : State).finishQuery q x false).startBlocks := by
  cases hlease : s.exchange.leases.find? fun l => l.handle = h && !l.draining <;>
    simp [execQueryCompletionWrite, hq, hphase, hadopted, hlease]

/-- Settles O23: each command's lemma gives the state, case by case. -/
theorem originCommandsComplete : Obligations.OriginCommandsComplete := by
  unfold Obligations.OriginCommandsComplete
  refine ⟨?piece, ?waiting, ?ends, ?inputs, ?scored, ?completion⟩
  case piece =>
    intro src b x c s p q hq hhandle hlist hphase hstate y
    refine ⟨_, execPieceReceive_of_open hq hhandle hlist hphase hstate, receivePiece_of_other_sender, fun hmine => ⟨receivePiece_of_lost hmine, ?_, ?_⟩⟩
    · intro hok hwithdrawn hnew hempty hroom
      rw [receivePiece_of_new hmine hok hwithdrawn fun _ => hnew, if_pos]
      rcases hroom with hroom | hroom <;> simp [hempty, hroom, y]
    · intro hok hwithdrawn hfree hroom
      rw [receivePiece_of_new hmine hok hwithdrawn fun hr => by simp [hfree] at hr, if_neg]
      simp [hfree, hroom, y]
  case waiting =>
    intro q list x c s hq hlist hphase
    exact ⟨fun src b rest hwaiting hroom => ⟨_, execPieceReservationGrant_of_room hq hlist hphase hwaiting hroom, rfl⟩,
      fun es hwhole hopen hstalled => ⟨_, execListMergeComplete_of_whole hq hlist hphase hwhole hopen hstalled, rfl⟩⟩
  case ends =>
    intro q t x s hq
    exact ⟨fun hphase hs hopen hdue => ⟨_, execCutoff_of_due hq hphase hs hopen hdue, rfl⟩,
      fun hphase hdue => ⟨_, execQueryDeadline_of_due hq hphase hdue, rfl⟩,
      fun hphase hs hopen hdue => ⟨_, execScoreCutoff_of_searching hq hphase hs hopen hdue, rfl⟩,
      fun hphase hs hdue => ⟨_, execScoreCutoff_of_assembling hq hphase hs hdue, rfl⟩,
      fun slot img m hphase himage hscorer hlate => ⟨_, execScoreWithdrawn_of_late hq hphase himage hscorer hlate, rfl⟩,
      fun hphase hdue => ⟨_, execScoreAbandoned_of_due hq hphase hdue, rfl⟩⟩
  case inputs =>
    intro q item x b s hq hitem hphase hkept
    exact ⟨fun hdue => ⟨⟨_, execScoreInputAssemble_of_payload hq hitem hphase hkept hdue true, rfl⟩,
        ⟨_, execScoreInputAssemble_of_payload hq hitem hphase hkept hdue false, rfl⟩⟩,
      fun n hdue => ⟨⟨_, execScoreInputAssemble_of_row hq hitem hphase hkept hdue true, rfl⟩,
        ⟨_, execScoreInputAssemble_of_row hq hitem hphase hkept hdue false, rfl⟩⟩⟩
  case scored =>
    intro q slot inputs x img s hq hphase hinputs a live es himage c r
    exact ⟨_, execScoreComplete_of_scoring hq hphase hinputs himage, rfl⟩
  case completion =>
    intro q x s hq hphase
    exact ⟨fun hown => ⟨_, execQueryCompletionWrite_of_own hq hphase hown, rfl⟩,
      fun h hadopted => ⟨_, execQueryCompletionWrite_of_adopted hq hphase hadopted, rfl⟩⟩

end Sys2Proof.Machine
end

section
/-! SUPPORT. The commands on composition maps, shard moves, drays and held work (R18, R344 to R350, R354, R356 to R359): one lemma per command
and case, then the statement on all of them. -/
namespace Sys2Proof.Machine

/-! ## Maps -/

/-- The leader announces a map that keeps the rules (R354, R356). -/
theorem execMapAnnounce_of_ok {content : List Byte} {s : State} (hleads : s.leads = true) (hok : mapOk content = true)
    (hlead : s.epochs.open_ + s.setting 0x2B00 3 8 ≤ (readMap content).epoch) (hnewer : s.announcedEpoch < (readMap content).epoch)
    (hprev : (readMap content).prev = s.announcedEpoch) (hcount : ∀ x, s.announced = some x → x.shards.length = (readMap content).shards.length)
    (hgroups : (readMap content).shards.all (s.groupOk s.moduleList) = true) : execMapAnnounce content s = .next (s.announceMap content) := by
  simp only [execMapAnnounce, hleads, hok, hprev, hgroups, Nat.not_lt.2 hlead, Nat.not_le.2 hnewer, Bool.not_true, decide_false, ne_eq,
    not_true_eq_false, Bool.or_self, Bool.false_or, Bool.or_false]
  cases hlast : s.announced with
  | none => rfl
  | some x => simp [hcount x hlast]

/-- A notice newer than every map here and not yet known is kept and relayed (R356). -/
theorem execMapNotice_of_new {port : Nat} {notice : List Byte} {s : State} :
    let n : MapNotice := ⟨field notice 0 8, field notice 8 8, field notice 16 8, slice (notice.drop 24) 0 64, [], false⟩
    notice.length = 96 → s.newestMap < n.epoch → (s.exchange.notices.any fun x => x.epoch = n.epoch && x.digest = n.digest) = false →
    execMapNotice port notice s =
      .next (({ s with exchange := { s.exchange with notices := s.exchange.notices ++ [n] } } : State).sendAllPorts (some port) 6 notice) := by
  intro n hlength hnewer hunknown
  have hskip : (decide (notice.length ≠ 96) || decide (n.epoch ≤ s.newestMap) ||
      s.exchange.notices.any fun x => x.epoch = n.epoch && x.digest = n.digest) = false := by
    rw [hunknown, decide_eq_false (Nat.not_le.2 hnewer), decide_eq_false (not_not_intro hlength)]; rfl
  exact congrArg Host.Outcome.next (if_neg (Bool.eq_false_iff.1 hskip))

/-- The content of a late map is installed when it arrives (R356). -/
theorem execMapLateInstall_of_late {content : List Byte} {n : MapNotice} {s : State}
    (hfind : (s.exchange.notices.find? fun n => n.late && n.digest = shake256 content 64) = some n) (hok : mapOk content = true) :
    execMapLateInstall content s =
      .next (({ s with exchange := { s.exchange with notices := s.exchange.notices.filter fun x => x.epoch ≠ n.epoch } } : State).installMap content) := by
  simp only [execMapLateInstall, hfind, hok, Bool.not_true, Bool.false_eq_true, if_false]

/-! ## Shard moves -/

section
variable {shard dest : Nat} {c : CompMap} {e : ShardEntry} {s : State} (hmap : s.lastMap = some c) (hentry : c.shards[shard]? = some e)
  (hdest : e.home ≠ dest)
include hmap hentry hdest

/-- At the source of a shard that its map marks MOVING, the copy starts (R359 step 2). -/
theorem execShardMoveStart_of_source (hstate : e.state = 1) (hhome : e.home = s.mgmt.moduleId)
    (hidle : (s.exchange.moves.any fun m => m.shard = shard && m.feature == false) = false) (hmoving : s.moving s.mgmt.moduleId = false) :
    let v : ShardMove := { shard, source := s.mgmt.moduleId, dest, f1 := s.newestMap }
    execShardMoveStart shard dest none s = .next (({ s with
      exchange := { s.exchange with
        moves := (s.exchange.moves.filter fun m => !(m.shard = shard && m.feature == false)) ++ [v],
        overCapacity := s.exchange.overCapacity.filter (· ≠ shard) } } : State).copyRound v) := by
  rw [hhome] at hdest
  simp only [execShardMoveStart, hmap, hentry, hstate, hhome, hdest, hidle, hmoving, Option.isSome_none, Option.bind_some, Bool.false_eq_true, if_false]
  rfl

/-- The leader marks a LIVE shard MOVING in its next map (R359 step 1). -/
theorem execShardMoveStart_of_leader {m : CompMap} (hstate : e.state = 0) (hleads : s.leads = true) (hhome : s.moving e.home = false)
    (hmoving : s.moving dest = false) (hnext : s.nextMap (mapShard false shard fun x => { x with state := 1 }) = some m) :
    execShardMoveStart shard dest none s = .next (({ s with
      exchange := { s.exchange with
        moves := s.exchange.moves ++ [{ shard, source := e.home, dest, f1 := m.epoch }],
        overCapacity := s.exchange.overCapacity.filter (· ≠ shard) } } : State).announceMap (mapBytes m)) := by
  simp only [execShardMoveStart, hmap, hentry, hstate, hdest, hleads, hhome, hmoving, hnext, Option.isSome_none, Option.bind_some, Bool.false_eq_true,
    if_false]
  rfl

end

/-- The rounds of a copy end, and the leader makes the destination the home, unless the move is a shadow's (R359 steps 3 and 4, R507). -/
theorem execShardCopyComplete_of_marked {shard : Nat} {m : ShardMove} {c : CompMap} {e : ShardEntry} {s : State}
    (hfind : (s.exchange.moves.find? fun m => m.shard = shard && !m.copied && m.dest ≠ s.mgmt.moduleId) = some m) (hmap : s.lastMap = some c)
    (hentry : (if m.feature then c.features else c.shards)[shard]? = some e) (hstate : e.state = 1) :
    let a := ((if m.source = s.mgmt.moduleId then s.copyRound m else s).updMove shard m.feature fun x => { x with copied := true }).shadowCopied
    execShardCopyComplete shard s = .next (if a.leads && !m.shadow then a.announceNext (a.homeTo m.feature shard m.dest) else a) := by
  simp only [execShardCopyComplete, hfind, hmap, hentry, hstate, Option.bind_some, decide_true, Bool.not_true, Bool.false_eq_true, if_false]

/-- The source frees a moved shard once no snapshot below F2 is held (R359 step 7). -/
theorem execShardFree_of_unused {shard : Nat} {m : ShardMove} {s : State}
    (hfind : (s.exchange.moves.find? fun m => m.shard = shard && m.switched && m.source = s.mgmt.moduleId) = some m)
    (hsnap : s.snapBelow (m.f2.getD 0) = false) :
    let a := if m.feature then s.dropFeature shard else s.dropShard shard
    execShardFree shard s = .next (({ a with
      exchange := { a.exchange with moves := a.exchange.moves.filter fun x => !(x.shard = shard && x.feature == m.feature) } } : State).shadowTidy) := by
  simp only [execShardFree, hfind, hsnap, Bool.false_eq_true, if_false]

/-! ## Drays -/

/-- A dray closes once its window has passed (R349). -/
theorem execDrayCloseWindow_of_due {dest cls tenant t : Nat} {d : Dray} {s : State}
    (hfind : ((s.advance t).exchange.drays.find? fun d => d.dest = dest && d.cls = cls && d.tenant = tenant &&
      decide (max s.time t ≥ d.openedAt + nsCycles d.windowNs)) = some d) :
    execDrayCloseWindow dest cls tenant t s = .next ((s.advance t).closeDray d) := by
  simp only [execDrayCloseWindow, State.advance_time, hfind]

/-- Is a frame a Q dray without an UP port whose queries have all spent their budget (R350)? -/
def State.routeLate (s : State) (f : Frame) : Bool := f.cls = 0 && decide (s.time ≥ f.budgetEnd) && (s.routePort f.dest 0).isNone

/-- Late drays leave the waiting frames, and their probes are lost (R350). -/
theorem execDrayRouteDrop_eq (t : Nat) (s : State) : execDrayRouteDrop t s =
    .next ((s.exchange.waiting.filter (s.advance t).routeLate).foldl (fun s f => s.loseProbes f) { s.advance t with
      exchange := { s.exchange with waiting := s.exchange.waiting.filter fun f => !(s.advance t).routeLate f } }) := by
  rw [← State.advance_exchange s t]
  rfl

/-- At a cycle to which time has moved on, lateness is counted from that cycle. -/
theorem routeLate_advance (s : State) (t : Nat) : (s.advance t).routeLate =
    fun f => f.cls = 0 && decide (max s.time t ≥ f.budgetEnd) && ((s.advance t).routePort f.dest 0).isNone := by
  funext f
  rw [State.routeLate, State.advance_time]

section
variable {src cls tenant mapEpoch : Nat} {body : List Byte} {items : List (List Byte)} {s : State} (hitems : drayItems cls body = some items)
include hitems

/-- A dray that was taken before is only counted (R348). -/
theorem execDrayReceive_of_repeat
    (hrepeat : isRepeat cls (field body 0 8 % 2 ^ 40) (field body 0 8 / 2 ^ 40) (s.exchange.rxSeqs.getD (rxKey src cls) {}) = true) :
    execDrayReceive src cls tenant mapEpoch body s = .next (s.tally 0x2B10 6) := by
  simp only [execDrayReceive, hitems, hrepeat, if_true]

/-- A new dray is recorded, counted and taken item by item (R344, R345). -/
theorem execDrayReceive_of_new
    (hnew : isRepeat cls (field body 0 8 % 2 ^ 40) (field body 0 8 / 2 ^ 40) (s.exchange.rxSeqs.getD (rxKey src cls) {}) = false) :
    execDrayReceive src cls tenant mapEpoch body s = .next (items.foldl (fun s i => s.onItem i src cls tenant mapEpoch (bit (field body 10 2) 1))
      ((s.recordSeq src cls (field body 0 8 % 2 ^ 40) (field body 0 8 / 2 ^ 40)).count (objKey 0x2B10 2) body.length)) := by
  simp only [execDrayReceive, hitems, hnew, Bool.false_eq_true, if_false]

end

/-! ## Held work -/

/-- The held work that a test picks leaves the hold and is served (R18). -/
def State.serveHeld (s : State) (ok : HeldWork → Bool) : State :=
  (s.exchange.held.filter ok).foldl (fun s h => s.onItem h.item h.source h.cls h.tenant h.mapEpoch h.forwarded)
    { s with exchange := { s.exchange with held := s.exchange.held.filter fun h => !ok h } }

/-- Work held for a snapshot that has closed here goes on (R18). -/
theorem execPeerSnapshotHoldEnd_eq (s : State) : execPeerSnapshotHoldEnd s =
    .next (s.serveHeld fun h => (h.snapshot.map fun n => decide (n ≤ s.usableClosed)).getD false) := by
  refine congrArg (fun ok => Host.Outcome.next (s.serveHeld ok)) (funext fun h => ?_)
  cases h.snapshot <;> rfl

/-- A context ends with its budget (R347). -/
theorem execQctxBudgetExpire_of_due {src handle t k : Nat} {c : QCtx} {s : State} (hctx : (s.advance t).ctxOf src handle = some (k, c))
    (hdue : c.budgetEnd ≤ max s.time t) : execQctxBudgetExpire src handle t s = .next ((s.advance t).expireCtx src handle k) := by
  simp only [execQctxBudgetExpire, hctx, State.advance_time, if_neg (Nat.not_lt.2 hdue)]

/-- Settles O25: each command's lemma gives the state, case by case. -/
theorem mapAndDrayCommandsComplete : Obligations.MapAndDrayCommandsComplete := by
  unfold Obligations.MapAndDrayCommandsComplete
  refine ⟨?announce, ?notice, ?lateInstall, ?moveStart, ?copyComplete, ?free, ?close, ?drop, ?receive, ?snapshot, ?budget, ?map⟩
  case announce =>
    intro content s m hleads hok hlead hnewer hprev hcount hgroups
    exact ⟨_, execMapAnnounce_of_ok hleads hok hlead hnewer hprev hcount hgroups, rfl⟩
  case notice =>
    intro port notice s n hlength hnewer hunknown
    exact ⟨_, execMapNotice_of_new hlength hnewer hunknown, rfl⟩
  case lateInstall =>
    intro content n s hfind hok
    exact ⟨_, execMapLateInstall_of_late hfind hok, rfl⟩
  case moveStart =>
    intro shard dest c m e s hmap hentry hdest
    exact ⟨fun hstate hhome hidle hmoving => ⟨_, execShardMoveStart_of_source hmap hentry hdest hstate hhome hidle hmoving, rfl⟩,
      fun hstate hleads hhome hmoving hnext => ⟨_, execShardMoveStart_of_leader hmap hentry hdest hstate hleads hhome hmoving hnext, rfl⟩⟩
  case copyComplete =>
    intro shard m c e s hfind hmap hentry hstate a
    exact ⟨_, execShardCopyComplete_of_marked hfind hmap hentry hstate, rfl⟩
  case free =>
    intro shard m s hfind hsnap a
    exact ⟨_, execShardFree_of_unused hfind hsnap, rfl⟩
  case close =>
    intro dest cls tenant t d s hfind
    exact ⟨_, execDrayCloseWindow_of_due hfind, rfl⟩
  case drop =>
    intro t s late
    refine ⟨_, execDrayRouteDrop_eq t s, ?_⟩
    rw [routeLate_advance]
  case receive =>
    intro src cls tenant mapEpoch body items s hitems
    exact ⟨fun hrepeat => ⟨_, execDrayReceive_of_repeat hitems hrepeat, rfl⟩, fun hnew => ⟨_, execDrayReceive_of_new hitems hnew, rfl⟩⟩
  case snapshot => exact fun s => ⟨_, execPeerSnapshotHoldEnd_eq s, rfl⟩
  case budget =>
    intro src handle t k c s hctx hdue
    exact ⟨_, execQctxBudgetExpire_of_due hctx hdue, rfl⟩
  case map => exact fun t s => ⟨_, rfl, rfl⟩

end Sys2Proof.Machine
end

section
/-! SUPPORT. The commands on receipt trees and on images (R72 to R76, R242 to R244, R400, R541): one lemma per command and case, then the
statement on all of them. -/
namespace Sys2Proof.Machine

/-! ## Receipt trees -/

/-- A receipt period that has run its 100 ms is closed, and the next one starts where it ends (R242). -/
theorem execReceiptPeriodEnd_of_due {t : Nat} {s : State} (hdue : s.receipts.periodStart + receiptPeriod ≤ max s.time t) :
    execReceiptPeriodEnd t s = .next ((s.advance t).closePeriod false (s.receipts.periodStart + receiptPeriod)) := by
  simp only [execReceiptPeriodEnd, State.advance_time, State.advance_receipts, if_pos hdue]

/-- What is left of the leaves fills the last unit of the period, and its tree waits for its signature (R242, R243). -/
theorem closePeriod_advance (s : State) (t next : Nat) :
    let a := (s.advance t).receiptWrite (List.replicate ((4096 - s.receipts.buffer.length % 4096) % 4096) 0)
    (s.advance t).closePeriod false next = { a with
      receipts := { a.receipts with
        open_ := [], units := [], nextTree := a.receipts.nextTree + 1, periodStart := next,
        trees := a.receipts.trees ++ [{
          seq := a.receipts.nextTree, first := a.receipts.nextLeaf - a.receipts.open_.length,
          leaves := a.receipts.open_, header := a.treeHeader false, periodStart := a.receipts.periodStart, units := a.receipts.units }] } } := by
  unfold State.closePeriod
  rw [State.advance_receipts]

/-- The oldest unsigned tree is signed and made durable (R243). -/
theorem execReceiptTrees_of_unsigned {seq : Nat} {x : Tree} {s : State}
    (hfind : (s.receipts.trees.find? fun t => t.seq = seq && !t.durable) = some x)
    (holder : (s.receipts.trees.any fun u => u.seq < seq && !u.durable) = false) :
    let header := x.header.take 120 ++ slice s.receipts.prevDigest 0 64 ++ leBytes 72 0
    let sig := edSign (ascii "ZR96RCPT") identitySecret header
    let w := (s.spendCycles 0x2E0C 8).storeBytes (header ++ sig)
    execReceiptTrees seq s = .next (({ w.1 with
      receipts := { w.1.receipts with
        trees := replaceFirst (fun y => y.seq = seq) (fun _ => { x with header, signature := sig, durable := true, units := x.units ++ w.2 }) s.receipts.trees,
        prevDigest := shake256 (header ++ sig) 64 } } : State).tally 0x2710 0xC) := by
  simp only [execReceiptTrees, State.sealTree, hfind, holder, Bool.false_eq_true, if_false]

/-- Has RECEIPT_RETAIN passed for a durable tree (R244)? -/
def State.treeOld (s : State) (x : Tree) : Bool :=
  x.durable && decide (s.time ≥ x.periodStart + receiptPeriod + s.setting 0x2702 1 24 * 3600 * cyclesPerS)

/-- Old trees go, oldest first, and their units are freed (R244). -/
theorem execReceiptErase_eq (t : Nat) (s : State) :
    execReceiptErase t s = .next (({ s.advance t with
      receipts := { s.receipts with trees := s.receipts.trees.dropWhile (s.advance t).treeOld } } : State).discardUnits
        ((s.receipts.trees.takeWhile (s.advance t).treeOld).flatMap (·.units))) := by
  rw [← State.advance_receipts s t]
  rfl

/-- At a cycle to which time has moved on, a tree's age is counted to that cycle. -/
theorem treeOld_advance (s : State) (t : Nat) : (s.advance t).treeOld = fun x =>
    x.durable && decide (max s.time t ≥ x.periodStart + receiptPeriod + (s.advance t).setting 0x2702 1 24 * 3600 * cyclesPerS) := by
  funext x
  rw [State.treeOld, State.advance_time]

/-- RECEIPT_PROOF answers for a leaf of a durable tree, to the PF and to the leaf's tenant (R244). -/
theorem execReceiptProof_of_durable {cmd : AdminCmd} {leaf : List Byte} {x : Tree} {s : State} (hruns : s.adminRuns cmd 0x50 8 true false = true)
    (hleaf : (s.adminTaken cmd).leafAt (field cmd.entry 48 8) = some (leaf, some x))
    (hmine : cmd.fn = 0 ∨ field leaf 20 2 = ((s.adminTaken cmd).fnState cmd.fn).tenant) :
    let sibs := proofSiblings x.leaves (field cmd.entry 48 8 - x.first)
    execReceiptProof cmd s = .next ((s.adminTaken cmd).adminDone (adminRef cmd) 0 (slice leaf 0 448 ++ slice x.header 0 256 ++
      slice x.signature 0 114 ++ leBytes 2 0 ++ leBytes 4 sibs.length ++ sibs.flatten) []) := by
  have hallowed : (decide (cmd.fn ≠ 0) && decide (field leaf 20 2 ≠ ((s.adminTaken cmd).fnState cmd.fn).tenant)) = false := by
    rcases hmine with h | h <;> simp [h]
  simp only [execReceiptProof, adminCommand_runs _ _ _ _ _ _ _ hruns, hleaf, hallowed, Bool.false_eq_true, if_false]

/-! ## Images submitted and removed -/

section
variable {cmd : AdminCmd} {facts : ImageFacts} {s : State} (hruns : s.adminRuns cmd 0x20 0 true true = true)
include hruns

/-- An image that fails a check leaves its log record and the status of the check (R72). -/
theorem execImageSubmit_of_refused (hstatus : (s.adminTaken cmd).imageStatus (adminInput cmd) facts ≠ 0) :
    execImageSubmit cmd facts s = .next (((s.adminTaken cmd).logEvent 0 0 1 unitModule []).adminDone (adminRef cmd)
      ((s.adminTaken cmd).imageStatus (adminInput cmd) facts) [] []) := by
  simp only [execImageSubmit, adminCommand_runs _ _ _ _ _ _ _ hruns, if_pos hstatus]

variable (hstatus : (s.adminTaken cmd).imageStatus (adminInput cmd) facts = 0)
include hstatus

/-- An image that is resident already is only named by its digest (R73). -/
theorem execImageSubmit_of_resident (hthere : ((s.adminTaken cmd).imageByDigest (imageDigest (adminInput cmd))).isSome = true) :
    execImageSubmit cmd facts s = .next ((s.adminTaken cmd).adminDone (adminRef cmd) 0 (imageDigest (adminInput cmd)) []) := by
  simp only [execImageSubmit, adminCommand_runs _ _ _ _ _ _ _ hruns, hstatus, hthere, ne_eq, not_true_eq_false, if_false, if_true]

/-- A new image that passes becomes resident where its digest can be answered (R73, R399). -/
theorem execImageSubmit_of_new (hnew : (s.adminTaken cmd).imageByDigest (imageDigest (adminInput cmd)) = none) (hroom : 64 ≤ (adminRef cmd).outLen) :
    execImageSubmit cmd facts s = .next (((s.adminTaken cmd).loadImage (adminInput cmd) facts).adminDone (adminRef cmd) 0
      (imageDigest (adminInput cmd)) []) := by
  simp only [execImageSubmit, adminCommand_runs _ _ _ _ _ _ _ hruns, hstatus, hnew, Option.isSome_none, Nat.not_lt.2 hroom, ne_eq, not_true_eq_false,
    Bool.false_eq_true, if_false]

end

/-- An image that no version names is removed, and its weights and reserved tiles are freed (R73). -/
theorem execImageRemove_of_unheld {cmd : AdminCmd} {slot : Nat} {img : Image} {s : State} (hruns : s.adminRuns cmd 0x21 64 true true = true)
    (himage : (s.adminTaken cmd).imageByDigest (slice cmd.entry 48 64) = some (slot, img))
    (hfree : (s.adminTaken cmd).imageHeld img.digest = false) :
    let f := ((img.encoder.toList ++ img.scorer.toList).flatMap (·.weights)).foldl (fun (s : State) o => s.freeObj o) (s.adminTaken cmd)
    execImageRemove cmd s = .next (({ f with
      images := f.images.erase slot,
      pipe := { f.pipe with tensor := f.pipe.tensor.mapVals fun p => { p with shares := p.shares.filter fun x => x.model / 2 ≠ slot } } }
      : State).adminDone (adminRef cmd) 0 [] []) := by
  simp only [execImageRemove, adminCommand_runs _ _ _ _ _ _ _ hruns, himage, hfree, Bool.false_eq_true, if_false]

/-- IMAGE_INFO answers the digests, the security version and the partitions of an image (R541). -/
theorem execImageInfo_of_resident {cmd : AdminCmd} {slot : Nat} {img : Image} {s : State} (hruns : s.adminRuns cmd 0x23 64 true false = true)
    (himage : (s.adminTaken cmd).imageByDigest (slice cmd.entry 48 64) = some (slot, img)) :
    let dig (m : Option Model) : List Byte := (m.map fun m => slice m.digest 0 64).getD zero64
    execImageInfo cmd s = .next ((s.adminTaken cmd).adminDone (adminRef cmd) 0 (slice img.digest 0 64 ++ dig img.encoder ++ dig img.scorer ++
      leBytes 4 img.security ++ leBytes 1 ((img.installed.map fun p => 2 ^ p).sum) ++ leBytes 3 0) []) := by
  simp only [execImageInfo, adminCommand_runs _ _ _ _ _ _ _ hruns, himage]
  cases img.encoder <;> cases img.scorer <;> rfl

/-! ## Installations -/

/-- An installation begins at once where none runs, and its partition takes no new work (R74). -/
theorem beginInstall_of_none_running {s : State} (hidle : (s.installs.any fun i => !i.waiting) = false) (part image : Nat) (remove : Bool)
    (cmd : Option AdminRef) :
    s.beginInstall part image remove cmd = ({ s with
      installs := s.installs ++ [{
        part, image, remove, startedAt := s.time, limitUs := s.setting 0x2100 4 20000, cmd, waiting := false }] } : State).quiesce part := by
  simp only [State.beginInstall, hidle, Bool.false_eq_true, if_false]

/-- Installing or removing a resident image in a partition begins its installation there (R74, R400). -/
theorem installCommand_of_resident {cmd : AdminCmd} {slot : Nat} {img : Image} {s : State} (hruns : s.adminRuns cmd 0x22 66 true true = true)
    (hpart : field cmd.entry 112 1 < 4) (hlow : 1 ≤ field cmd.entry 113 1) (hhigh : field cmd.entry 113 1 ≤ 2)
    (himage : (s.adminTaken cmd).imageByDigest (slice cmd.entry 48 64) = some (slot, img)) :
    s.installCommand cmd =
      (s.adminTaken cmd).beginInstall (field cmd.entry 112 1) slot (field cmd.entry 113 1 = 2) (some (adminRef cmd)) := by
  have hform : (decide (field cmd.entry 112 1 < 4) && decide (1 ≤ field cmd.entry 113 1) && decide (field cmd.entry 113 1 ≤ 2)) = true := by
    simp [hpart, hlow, hhigh]
  simp only [State.installCommand, hform, adminCommand_runs _ _ _ _ _ _ _ hruns, himage]

section
variable {part : Nat} {i : Install} {s : State} (hinstall : s.installIn part = some i)
include hinstall

/-- The drain of a partition ends when no work is left in it (R74). -/
theorem execInstallDrainEnd_of_draining (hdrained : i.drained = false) :
    execInstallDrainEnd part s = .next (if s.partBusy part then s else s.setInstall part { i with drained := true }) := by
  simp only [execInstallDrainEnd, hinstall, hdrained, Bool.false_or]

/-- A readback that matches ends the installation; a first mismatch repeats it, a second one ends it with INSTALL_FAILED (R74, R76). -/
theorem execInstallWriteComplete_of_drained (hdrained : i.drained = true) (unit : Nat) :
    execInstallWriteComplete part true unit s = .next (s.endInstall i 0) ∧
    execInstallWriteComplete part false unit s = .next (if i.retried then ((s.score unit 250).endInstall i 0x108).settle
      else ((s.score unit 250).setInstall part { i with retried := true }).settle) := by
  simp only [execInstallWriteComplete, hinstall, hdrained, Bool.not_true, Bool.false_eq_true, if_false, if_true, true_and]
  cases i.retried <;> rfl

end

/-- Work still in flight at SWAP_DRAIN_LIMIT is cut off by a reset of the partition's strands (R75). -/
theorem execInstallDrainLimit_of_due {part t : Nat} {i : Install} {s : State} (hinstall : (s.advance t).installIn part = some i)
    (hdrained : i.drained = false) (hbusy : (s.advance t).partBusy part = true) (hdue : i.startedAt + i.limitUs * cyclesPerUs ≤ max s.time t) :
    execInstallDrainLimit part t s = .next (((s.advance t).resetStrandsOf part).setInstall part { i with drained := true }) := by
  simp only [execInstallDrainLimit, hinstall, hdrained, hbusy, State.advance_time, Nat.not_lt.2 hdue, decide_false, Bool.not_true, Bool.or_self,
    Bool.false_eq_true, if_false]

/-- Settles O19: each command's lemma gives the state, case by case. -/
theorem receiptAndImageCommandsComplete : Obligations.ReceiptAndImageCommandsComplete := by
  unfold Obligations.ReceiptAndImageCommandsComplete
  refine ⟨?periodEnd, ?trees, ?erase, ?proof, ?submit, ?remove, ?install, ?drainEnd, ?drainLimit, ?written, ?info⟩
  case periodEnd =>
    intro t s hdue a
    exact ⟨_, execReceiptPeriodEnd_of_due hdue, closePeriod_advance s t _⟩
  case trees =>
    intro seq x s hfind holder header sig w
    exact ⟨_, execReceiptTrees_of_unsigned hfind holder, rfl⟩
  case erase =>
    intro t s old
    refine ⟨_, execReceiptErase_eq t s, ?_⟩
    rw [treeOld_advance]
  case proof =>
    intro cmd leaf x s hruns a sibs hleaf hmine
    exact ⟨_, execReceiptProof_of_durable hruns hleaf hmine, rfl⟩
  case submit =>
    intro cmd facts s hruns a b
    refine ⟨_, rfl, fun hstatus => ?_, fun hstatus hthere => ?_, fun hstatus hnew hroom => ?_⟩
    · exact Host.Outcome.next.inj (execImageSubmit_of_refused hruns hstatus)
    · exact Host.Outcome.next.inj (execImageSubmit_of_resident hruns hstatus hthere)
    · exact Host.Outcome.next.inj (execImageSubmit_of_new hruns hstatus hnew hroom)
  case remove =>
    intro cmd slot img s hruns a himage hfree f
    exact ⟨_, execImageRemove_of_unheld hruns himage hfree, rfl⟩
  case install =>
    intro cmd slot img s hruns a hpart himage hidle begun
    refine ⟨fun haction => ⟨_, rfl, ?_⟩, fun haction => ⟨_, rfl, ?_⟩⟩
    all_goals
      rw [installCommand_of_resident hruns hpart (by omega) (by omega) himage, beginInstall_of_none_running hidle]
      simp only [begun, a, haction, Nat.reduceEqDiff, decide_true, decide_false]
  case drainEnd =>
    intro part i s hinstall hdrained
    exact ⟨fun hidle => ⟨_, execInstallDrainEnd_of_draining hinstall hdrained, if_neg (Bool.eq_false_iff.1 hidle)⟩,
      fun hbusy => ⟨_, execInstallDrainEnd_of_draining hinstall hdrained, if_pos hbusy⟩⟩
  case drainLimit =>
    intro part t i s hinstall hdrained hbusy hdue
    exact ⟨_, execInstallDrainLimit_of_due hinstall hdrained hbusy hdue, rfl⟩
  case written =>
    intro part unit i s hinstall hdrained
    obtain ⟨hgood, hbad⟩ := execInstallWriteComplete_of_drained hinstall hdrained unit
    exact ⟨⟨_, hgood, rfl⟩, ⟨_, hbad, rfl⟩⟩
  case info =>
    intro cmd slot img s hruns a dig himage
    exact ⟨_, execImageInfo_of_resident hruns himage, rfl⟩

end Sys2Proof.Machine
end

section
/-! SUPPORT. Operand pairs (R158) and the form check that refuses an image with any other product (R72, R159). -/
namespace Sys2Proof.Machine

/-! ## Operand pairs -/

/-- The three kinds of number formats, of which products join only equal ones (R158). -/
inductive OperandKind where
  | integer | bf16 | mx

/-- The kind of a number format. -/
def operandKind : NumFmt → OperandKind
  | .int8 | .int4 => .integer
  | .bf16 => .bf16
  | .e4m3 | .e5m2 | .e2m3 | .e3m2 | .e2m1 => .mx

theorem operandKind_eq_integer_iff {f : NumFmt} : operandKind f = .integer ↔ f = .int8 ∨ f = .int4 := by cases f <;> simp [operandKind]

theorem operandKind_eq_bf16_iff {f : NumFmt} : operandKind f = .bf16 ↔ f = .bf16 := by cases f <;> simp [operandKind]

/-- The table of pairs reads the same from either side. -/
theorem productPair_comm (l r : NumFmt) : productPair l r = productPair r l := by cases l <;> cases r <;> rfl

/-- Every pair of the table joins two formats of one kind. -/
theorem operandKind_eq_of_productPair {l r : NumFmt} : productPair l r = true → operandKind l = operandKind r := by
  cases l <;> cases r <;> simp [productPair, mxBits, operandKind]

/-! ## The form check of an image -/

/-- A graph with a product whose operand pair does not exist is not one that a tile runs (R159). -/
theorem graphOk_of_unknown_product {g : Graph} {l r : ProdSide} {tr : Bool} {n : Nat} (hnode : .product l r tr n ∈ g.nodes)
    (hpair : productPair (sideFmt l) (sideFmt r) = false) (heads : Nat) : graphOk g heads = false := by
  obtain ⟨i, hi, hget⟩ := List.mem_iff_getElem.1 hnode
  have hmem : (GraphNode.product l r tr n, i) ∈ g.nodes.zipIdx := List.mem_zipIdx_iff_getElem?.2 (List.getElem?_eq_some_iff.2 ⟨hi, hget⟩)
  have hbad : nodeOk g heads (.product l r tr n) = false := by simp [nodeOk, hpair]
  rw [graphOk, List.all_eq_false.2 ⟨_, hmem, by simp [hbad]⟩, Bool.and_false]

/-- An image has its form only if each of its model sections has a graph that a tile runs (R72, R159). -/
theorem graphOk_of_imageFormOk {b : List Byte} {f : ImageFacts} (h : imageFormOk b f = true) {x : Section × List Byte} (hx : x ∈ modelSections b) :
    graphOk (if x.1.stage = 9 then f.encoder else f.scorer) (field x.2 18 2) = true := by
  rw [imageFormOk, Bool.and_eq_true] at h
  exact List.all_eq_true.1 h.2 x hx

/-- The form comes first among the checks of R72. -/
theorem imageStatus_of_form {b : List Byte} {f : ImageFacts} (h : imageFormOk b f = false) (s : State) : s.imageStatus b f = 0x100 :=
  if_pos (by rw [h]; rfl)

/-- Settles O48: the form check reads the graph of every model section, and a pair joins formats of one kind. -/
theorem unknownProductsAreRefused : Obligations.UnknownProductsAreRefused := by
  unfold Obligations.UnknownProductsAreRefused
  refine ⟨fun s b f x l r tr heads hsection hnode hpair => imageStatus_of_form ?_ s, fun l r hpair => ?_⟩
  · refine Bool.eq_false_iff.2 fun hform => ?_
    have hgraph := graphOk_of_imageFormOk hform hsection
    rw [graphOk_of_unknown_product hnode hpair] at hgraph
    exact Bool.false_ne_true hgraph
  · have hkind := operandKind_eq_of_productPair hpair
    rw [← operandKind_eq_integer_iff, ← operandKind_eq_integer_iff, ← operandKind_eq_bf16_iff, ← operandKind_eq_bf16_iff, hkind]
    exact ⟨Iff.rfl, Iff.rfl, (productPair_comm r l).trans hpair⟩

end Sys2Proof.Machine
end

section
/-! SUPPORT. The commands on routing, batches, scan passes, the filter and the tensor tiles (R52, R53, R57, R62, R64, R65, R89, R90, R92,
R95, R98, R108, R177, R178): one lemma per command and case, then the statement on all of them. -/
namespace Sys2Proof.Machine

/-! ## Walks and the dispatch of their probes -/

/-- The walk whose turn it is runs on the settings of its version's image, and its probes enter the link to the dispatch (R53, R108). -/
theorem walkNext_of_turn {part q slot : Nat} {x : Query} {v : Version} {img : Image} {s : State} (hturn : s.nextWalk part = some (q, x))
    (hversion : s.versionOf x.fields.ns x.fields.idx x.version = some v) (himage : s.imageByDigest v.image = some (slot, img)) :
    let w := s.walkOf x v img.progs
    let lists := (w.1.kept.take x.nprobe).map (·.2)
    s.walkNext part = (s.walkCounts part w.2 w.1 lists).walked part q x lists := by
  simp only [State.walkNext, hturn, hversion, himage]

/-- WALK of a powered base dispatches after the walk (R52, R57). -/
theorem execWalk_of_powered {part n : Nat} {s : State} (hpower : s.powered .base part = true) :
    execWalk ⟨part, n⟩ s = .next (State.dispatchProbes part n (s.walkNext part)) := congrArg Host.Outcome.next (if_pos hpower)

/-- Where no probe waits, the dispatch takes none. -/
theorem dispatchProbes_of_none {part : Nat} {s : State} (hnone : s.nextProbe part = none) (n : Nat) : State.dispatchProbes part n s = s := by
  cases n with
  | zero => rfl
  | succ n => simp only [State.dispatchProbes, hnone]

/-- The dispatch sends the probe that comes next and goes on with the others (R52, R57). -/
theorem dispatchProbes_succ {part q list : Nat} {x : Query} {v : Version} {s : State} (hnext : s.nextProbe part = some (q, x, list))
    (hversion : s.versionOf x.fields.ns x.fields.idx x.version = some v) (n : Nat) :
    State.dispatchProbes part (n + 1) s = State.dispatchProbes part n (s.dispatchList q
      { x with chosen := replaceFirst (fun c => c.list = list) (fun c => { c with sent := true }) x.chosen } v list (s.seedPolicy v)) := by
  simp only [State.dispatchProbes, hnext, hversion]

/-! ## Batches and gigs -/

section
variable {batch t : Nat} {b : Batch} {s : State} (hbatch : (s.advance t).batch batch = some b) (hopen : b.closed = none)
include hbatch hopen

/-- An open batch whose window has run closes (R62). -/
theorem execCloseWindow_of_due (hdue : b.openedAt + b.window * cyclesPerUs ≤ max s.time t) :
    execCloseWindow batch t s = .next ((s.advance t).closeBatch batch .window) := by
  simp only [execCloseWindow, hbatch, hopen, State.advance_time, ge_iff_le, hdue, Option.isNone_none, decide_true, Bool.and_self, if_true]

/-- An open batch with a member whose deadline is near closes, once the partition has a service time to compare with (R62). -/
theorem execCloseUrgent_of_urgent (hserved : (s.advance t).pipe.svc.getD (b.g / 8) [] ≠ [])
    (hurgent : (b.members.any fun m => (m.deadlineAt - max s.time t) * ((s.advance t).pipe.svc.getD (b.g / 8) []).length <
      2 * ((s.advance t).pipe.svc.getD (b.g / 8) []).sum) = true) :
    execCloseUrgent batch t s = .next ((s.advance t).closeBatch batch .urgent) := by
  have hsome : ((s.advance t).pipe.svc.getD (b.g / 8) []).isEmpty = false := List.isEmpty_eq_false_iff.2 hserved
  simp only [execCloseUrgent, hbatch, hopen, State.advance_time, hsome, hurgent, Option.isNone_none, Bool.not_false, Bool.and_self, if_true]

end

/-- Each 100 µs a new interval begins, with no gig cycles spent and the share then written (R64). -/
theorem execGigInterval_of_start {t : Nat} {s : State} (hstart : max s.time t % (100 * cyclesPerUs) = 0) :
    execGigInterval t s = .next { s.advance t with
      pipe := { s.pipe with gigUsed := [], gigInterval := max s.time t / (100 * cyclesPerUs), gigShare := (s.advance t).setting 0x2100 3 25 } } := by
  simp only [execGigInterval, State.advance_time, State.advance_pipe, hstart, ne_eq, not_true_eq_false, if_false]

/-- Each second every tenant's gig quota is renewed (R65). -/
theorem execGigQuotaSecond_of_start {t : Nat} {s : State} (hstart : max s.time t % cyclesPerS = 0) :
    execGigQuotaSecond t s = .next { s.advance t with
      tenants := (s.tenantsAt t).mapVals fun r => { r with gigUsed := 0, gigQuotaNow := r.gigQuota } } := by
  simp only [execGigQuotaSecond, State.advance_time, State.advance_tenants, hstart, ne_eq, not_true_eq_false, if_false]

/-! ## Scan passes -/

/-- A read that error correction could not save fails. -/
theorem tierRead_failed (s : State) (obj : Nat) : (s.tierRead obj false).2 = false := by
  unfold State.tierRead; split <;> rfl

section
variable {g tile batch : Nat} {b : Batch} {l : ListData} {s : State} (hbatch : s.batch batch = some b) (hlist : s.list b.list = some l)
  (hready : s.passReady g tile b = true)
include hbatch hlist hready

/-- A pass whose staged list can be read counts its work and hands its candidates to FILTER (R57, R64, R89). -/
theorem execBatchScanPass_of_read (blocks : Nat) :
    let h := s.takeBuffer g tile batch b
    ∀ w : State, h.1.tierRead (h.1.scanObj l h.2) true = (w, true) → h.1.tiers.unheld.contains h.2.list = false →
      let p := w.batchProgs h.2
      let ms := passMembers h.2 (passColumns p)
      let r := scanPass l h.2 batch blocks (planesInOrder p (w.batchWidth h.2 / 64)) ms
        (fun a => decide ((w.pipe.scanFifo.getD g []).length + a.cands.length > 2048))
        (fun a => w.runsGig h.2 && w.gigSpent g tile (ceilDiv a.words (passRate p ms.length)))
      execBatchScanPass g tile batch ⟨blocks, false⟩ s = .next
        (((w.objRead (w.scanObj l h.2) r.1.read).passCounts g tile h.2 p ms r.1).passed g tile batch h.2 ms (passColumns p)
          (decide (h.2.blocksDone + r.2 ≥ (blocksOf l h.2.view).length)) r.2) := by
  intro h w hread hheld p ms r
  simp only [h] at hread hheld
  simp only [execBatchScanPass, hbatch, hlist, hready, hheld, hread, Bool.not_true, Bool.not_false, Bool.and_self, Bool.false_eq_true, if_false]
  rfl

/-- A pass whose staged list cannot be read withdraws the batch (R90). -/
theorem execBatchScanPass_of_eccFail (blocks : Nat) :
    let h := s.takeBuffer g tile batch b
    execBatchScanPass g tile batch ⟨blocks, true⟩ s = .next ((h.1.tierRead (h.1.scanObj l h.2) false).1.scanFailed g batch h.2 l true) := by
  simp only [execBatchScanPass, hbatch, hlist, hready, tierRead_failed, Bool.not_true, Bool.not_false, Bool.false_and, Bool.false_eq_true, if_false,
    if_true]

end

/-! ## The filter -/

/-- The state once the head candidate has left the link to FILTER and is counted (R98). -/
def State.takeCand (s : State) (g : Nat) (rest : List Cand) : State :=
  ({ s with pipe := { s.pipe with scanFifo := s.pipe.scanFifo.put g [] rest } } : State).count (objKey (0x2610 + g) 1) 1

/-- FILTER drops a candidate at the forced filter or at the terms, each counted, or passes it to RERANK (R92, R98, R187, R189). -/
def State.filterCand (s : State) (g : Nat) (b : Batch) (m : Member) (c : Cand) : State :=
  if !forcedPass m.forced (s.attrOf b.list c) then s.tally (0x2610 + g) 4
  else if !passesTerms m.inTerms (s.attrOf b.list c) then s.tally (0x2610 + g) 3
  else s.passCandidate g b m c

section
variable {g : Nat} {b : Batch} {m : Member} {c : Cand} {s : State}

theorem filterCand_of_forced_drop (hforced : forcedPass m.forced (s.attrOf b.list c) = false) : s.filterCand g b m c = s.tally (0x2610 + g) 4 :=
  if_pos (by rw [hforced]; rfl)

variable (hforced : forcedPass m.forced (s.attrOf b.list c) = true)
include hforced

theorem filterCand_of_terms_drop (hterms : passesTerms m.inTerms (s.attrOf b.list c) = false) : s.filterCand g b m c = s.tally (0x2610 + g) 3 := by
  simp only [State.filterCand, hforced, hterms, Bool.not_true, Bool.not_false, Bool.false_eq_true, if_false, if_true]

theorem filterCand_of_pass (hterms : passesTerms m.inTerms (s.attrOf b.list c) = true) : s.filterCand g b m c = s.passCandidate g b m c := by
  simp only [State.filterCand, hforced, hterms, Bool.not_true, Bool.false_eq_true, if_false]

end

section
variable {g : Nat} {c : Cand} {rest : List Cand} {b : Batch} {m : Member} {s : State} (hlink : s.pipe.scanFifo.getD g [] = c :: rest)
  (hbatch : s.batch c.batch = some b) (hmember : s.member c.batch c.member = some m) (hkept : m.withdrawn = false) (hrunning : m.ended = false)
  (hroom : s.tileLoad g (s.tileOf g m) < 2048)
include hlink hbatch hmember hkept hrunning hroom

/-- A candidate of another namespace than its batch's withdraws the member and scores the strand (R194, R497). -/
theorem execFilterCandidate_of_foreign (hns : m.ns ≠ b.ns) : execFilterCandidate g s = .next
    ((((s.takeCand g rest).tally (0x2610 + g) 5).score (unitStrand g) 250).withdrawMember c.batch c.member).settle := by
  simp only [execFilterCandidate, hlink, hbatch, hmember, hkept, hrunning, Nat.not_le.2 hroom, hns, ne_eq, not_false_eq_true, Bool.or_self,
    Bool.false_eq_true, if_false, if_true]
  rfl

/-- A candidate of the batch's namespace is filtered, and its member may then be done (R98, R124). -/
theorem execFilterCandidate_of_own (hns : m.ns = b.ns) {u : State} (hfilter : (s.takeCand g rest).filterCand g b m c = u) :
    execFilterCandidate g s = .next ((u.trySummary c.batch c.member).tryEnd c.batch c.member).settle := by
  rw [← hfilter]
  simp only [execFilterCandidate, hlink, hbatch, hmember, hkept, hrunning, Nat.not_le.2 hroom, hns, ne_eq, not_true_eq_false, Bool.or_self,
    Bool.false_eq_true, if_false]
  rfl

end

/-- A bound that reaches SCAN lowers its member's bound (R95). -/
theorem execScanBoundArrive_of_member {g b i d : Nat} {rest : List (Nat × Nat × Nat)} {m : Member} {s : State}
    (hbounds : s.pipe.bounds.getD g [] = (b, i, d) :: rest) :
    let a : State := { s with pipe := { s.pipe with bounds := s.pipe.bounds.put g [] rest } }
    a.member b i = some m → execScanBoundArrive g s = .next (a.setMember b i { m with bound := min m.bound d }) := by
  intro a hmember
  simp only [a] at hmember
  simp only [execScanBoundArrive, hbounds, hmember]
  rfl

/-! ## Tensor tiles -/

/-- A tile with a fault that is no failed weight read is scored by the kind of its fault and is reset (R178, R493, R497). -/
theorem execTileRestarts_of_fault {part tile : Nat} {i : Invocation} {s : State}
    (hholds : ((s.pool part).running.find? fun i => i.held.contains tile) = some i) :
    let a : State := { s with freeCount := s.freeCount + 2 }
    let unit := unitTensor part tile
    execTileRestarts part tile false s = .next ((if Config.residueFault s.freeCount then
        ((a.logFault (0x2510 + part) 9 unit part 10 i.req.owner (Config.loadBin (s.freeCount + 1))).tileFault unit part
          (Config.loadBin (s.freeCount + 1))).score unit 250
      else a.score unit 200).resetTensor part tile true).settle := by
  simp only [execTileRestarts, hholds, Bool.false_eq_true, if_false]

/-- A waiting maintenance step gets free tiles where no query request waits and its cap has room (R177). -/
theorem execMaintTensorGrant_of_room {part step tiles : Nat} {s : State} (hstep : (s.maint.steps.get step).isSome = true)
    (hidle : (s.pipe.tensor.any fun kp => kp.2.running.any fun i => i.req.kind == .maint && i.req.owner = step) = false)
    (hqueue : (s.pool part).queue = []) (hshed : s.modelShed = false) (hupkeep : s.upkeepRuns = true) (htiles : 0 < tiles)
    (hfree : tiles ≤ (freeTiles (s.pool part)).length) (hcap : maintTiles (s.pool part) + tiles ≤ s.setting 0x2500 2 8) :
    let a : State := { s with
      pipe := { s.pipe with tensor := s.pipe.tensor.mapVals fun p => { p with suspended := p.suspended.filter (· ≠ step) } } }
    execMaintTensorGrant part step tiles s = .next (a.grantTiles part {
      kind := .maint, owner := step, tiles, deadlineAt := 0, strand := 0, model := 0, queuedAt := s.time } ((freeTiles (s.pool part)).take tiles)) := by
  simp only [execMaintTensorGrant, hstep, hidle, hqueue, hshed, hupkeep, Nat.ne_of_gt htiles, Nat.not_lt.2 hfree, gt_iff_lt, Nat.not_lt.2 hcap,
    List.isEmpty_nil, Bool.not_true, Bool.not_false, Bool.and_self, decide_false, Bool.or_self, Bool.false_eq_true, if_false]

/-- Settles O21: each command's lemma gives the state, case by case. -/
theorem routingAndScanCommandsComplete : Obligations.RoutingAndScanCommandsComplete := by
  unfold Obligations.RoutingAndScanCommandsComplete
  refine ⟨?walk, ?dispatch, ?close, ?interval, ?second, ?pass, ?filter, ?bound, ?fault, ?grant, ?yields⟩
  case walk =>
    intro part n q slot x v img s hpower hturn hversion himage w lists
    exact ⟨_, execWalk_of_powered hpower, congrArg (State.dispatchProbes part n) (walkNext_of_turn hturn hversion himage)⟩
  case dispatch =>
    intro part s
    exact ⟨rfl, fun n hnone => dispatchProbes_of_none hnone n, fun n q list x v hnext hversion => dispatchProbes_succ hnext hversion n⟩
  case close =>
    intro batch t b s hbatch hopen
    exact ⟨fun hdue => ⟨_, execCloseWindow_of_due hbatch hopen hdue, rfl⟩,
      fun hserved hurgent => ⟨_, execCloseUrgent_of_urgent hbatch hopen hserved hurgent, rfl⟩⟩
  case interval => exact fun t s hstart => ⟨_, execGigInterval_of_start hstart, rfl⟩
  case second => exact fun t s hstart => ⟨_, execGigQuotaSecond_of_start hstart, rfl⟩
  case pass =>
    intro g tile batch blocks b l s hbatch hlist hready h
    exact ⟨fun w hread hheld => ⟨_, execBatchScanPass_of_read hbatch hlist hready blocks w hread hheld, rfl⟩,
      ⟨_, execBatchScanPass_of_eccFail hbatch hlist hready blocks, rfl⟩⟩
  case filter =>
    intro g c rest b m s hlink hbatch hmember hkept hrunning hroom a word
    have hforeign := execFilterCandidate_of_foreign hlink hbatch hmember hkept hrunning hroom
    have hown (hns : m.ns = b.ns) {u : State} := execFilterCandidate_of_own (u := u) hlink hbatch hmember hkept hrunning hroom hns
    exact ⟨_, rfl, fun hns => Host.Outcome.next.inj (hforeign hns),
      fun hns hforced => Host.Outcome.next.inj (hown hns (filterCand_of_forced_drop hforced)),
      fun hns hforced hterms => Host.Outcome.next.inj (hown hns (filterCand_of_terms_drop hforced hterms)),
      fun hns hforced hterms => Host.Outcome.next.inj (hown hns (filterCand_of_pass hforced hterms))⟩
  case bound =>
    intro g b i d rest m s hbounds a hmember
    exact ⟨_, execScanBoundArrive_of_member hbounds hmember, rfl⟩
  case fault =>
    intro part tile i s hholds a unit
    exact ⟨_, execTileRestarts_of_fault hholds, rfl⟩
  case grant =>
    intro part step tiles s hstep hidle hqueue hshed hupkeep htiles hfree hcap a
    exact ⟨_, execMaintTensorGrant_of_room hstep hidle hqueue hshed hupkeep htiles hfree hcap, rfl⟩
  case yields => exact fun part s => ⟨_, rfl, rfl⟩

end Sys2Proof.Machine
end

section
/-! SUPPORT. Byte strings that are words one after another, and where a segment's image holds its words (R83 to R85, R117). -/
namespace Sys2Proof.Machine

/-! ## Strings of words -/

/-- The bytes of words one after another, each given by its number of bytes and its value (R4). -/
def packed (ws : List (Nat × Nat)) : List Byte := ws.flatMap fun w => leBytes w.1 w.2

theorem packed_length (ws : List (Nat × Nat)) : (packed ws).length = (ws.map (·.1)).sum := by
  simp [packed, List.length_flatMap, leBytes_length]

/-- A field behind the first of two strings is a field of the second one. -/
theorem field_behind {a : List Byte} {len : Nat} (h : a.length = len) (b : List Byte) (o n : Nat) : field (a ++ b) (len + o) n = field b o n := by
  rw [field, field, ← h, ← List.drop_drop, List.drop_left]

/-- The field at a word's place and of its size spells the word. -/
theorem field_packed {ws : List (Nat × Nat)} {i : Nat} {w : Nat × Nat} (h : ws[i]? = some w) :
    field (packed ws) ((ws.take i).map (·.1)).sum w.1 = w.2 % 256 ^ w.1 := by
  induction ws generalizing i with
  | nil => simp at h
  | cons x ws ih =>
    rw [packed, List.flatMap_cons, ← packed]
    cases i with
    | zero =>
      obtain rfl : x = w := by simpa using h
      rw [List.take_zero, List.map_nil, List.sum_nil, field_left _ _ _ _ (by simp [leBytes_length]), field_leBytes]
    | succ i =>
      rw [List.take_succ_cons, List.map_cons, List.sum_cons, field_behind (leBytes_length x.1 x.2), ih (by simpa using h)]

/-! ## Pieces of a list -/

/-- The number of pieces of `n` elements that a list splits into is the ceiling of the quotient. -/
theorem chunkFuel_length {α : Type} {n fuel : Nat} (hn : 0 < n) {xs : List α} (hfuel : xs.length ≤ fuel) :
    (chunkFuel n fuel xs).length = ceilDiv xs.length n := by
  induction fuel generalizing xs with
  | zero =>
    rw [Nat.le_zero.1 hfuel]
    exact (Nat.div_eq_of_lt (by omega)).symm
  | succ fuel ih =>
    cases xs with
    | nil => exact (Nat.div_eq_of_lt (by simp; omega)).symm
    | cons x xs =>
      have hdrop : ((x :: xs).drop n).length = xs.length + 1 - n := List.length_drop
      rw [List.length_cons] at hfuel
      rw [chunkFuel, List.length_cons, ih (by omega), hdrop, List.length_cons, ceilDiv, ceilDiv, ← Nat.add_div_right _ hn]
      · by_cases hle : xs.length + 1 ≤ n
        · rw [Nat.sub_eq_zero_of_le hle, Nat.div_eq_of_lt_le (k := 1), Nat.div_eq_of_lt_le (k := 1)] <;> omega
        · congr 1; omega
      · exact List.cons_ne_nil _ _

/-- Of the pieces of `n` elements the `k`-th begins at the `n * k`-th element. -/
theorem chunkFuel_getElem? {α : Type} {n fuel k : Nat} (hn : 0 < n) {xs : List α} (hfuel : xs.length ≤ fuel) (hk : n * k < xs.length) :
    (chunkFuel n fuel xs)[k]? = some ((xs.drop (n * k)).take n) := by
  induction fuel generalizing k xs with
  | zero => omega
  | succ fuel ih =>
    cases xs with
    | nil => exact absurd hk (Nat.not_lt_zero _)
    | cons x xs =>
      cases k with
      | zero => rfl
      | succ k =>
        rw [Nat.mul_succ] at hk ⊢
        have hlen : ((x :: xs).drop n).length = (x :: xs).length - n := List.length_drop
        rw [chunkFuel, List.getElem?_cons_succ, ih (by simp at hfuel hlen ⊢; omega) (by omega), List.drop_drop, Nat.add_comm]
        exact List.cons_ne_nil _ _

theorem chunks_length {α : Type} {n : Nat} (hn : 0 < n) (xs : List α) : (chunks n xs).length = ceilDiv xs.length n :=
  chunkFuel_length hn (Nat.le_refl _)

/-- The element at place `i` stands in the piece `i / n`, at the place `i % n`. -/
theorem chunks_getElem? {α : Type} {n i : Nat} (hn : 0 < n) {xs : List α} {x : α} (h : xs[i]? = some x) :
    ∃ piece, (chunks n xs)[i / n]? = some piece ∧ piece[i % n]? = some x := by
  obtain ⟨hi, -⟩ := List.getElem?_eq_some_iff.1 h
  refine ⟨_, chunkFuel_getElem? hn (Nat.le_refl _) (Nat.lt_of_le_of_lt (Nat.mul_div_le i n) hi), ?_⟩
  rw [List.getElem?_take_of_lt (Nat.mod_lt i hn), List.getElem?_drop, Nat.div_add_mod, h]

/-! ## Blocks -/

theorem blockRow_length (xs : List Item) (f : Item → Nat) : (blockRow xs f).length = 512 := by
  rw [blockRow, length_blocks _ 8 (fun _ => leBytes_length _ _), List.length_range]

/-- A row gives the word of the entry at place `j` at `8 j`. -/
theorem field_blockRow {xs : List Item} {j : Nat} {i : Item} (h : xs[j]? = some i) (hj : j < 64) (f : Item → Nat) :
    field (blockRow xs f) (8 * j) 8 = f i % 2 ^ 64 := by
  rw [blockRow, ← Nat.add_zero (8 * j), field_block _ 8 (fun _ => leBytes_length _ _) _ j j (List.getElem?_range hj) 0 8 (Nat.le_refl _), h,
    field_leBytes_eight]

theorem blockBytes_planes_length (v : Version) (xs : List Item) :
    ((List.range (planes v)).flatMap fun p => blockRow xs fun i => planeWord i.sketch p).length = 512 * planes v := by
  rw [length_blocks _ 512 (fun _ => blockRow_length _ _), List.length_range]

theorem blockBytes_length (v : Version) (xs : List Item) : (blockBytes v xs).length = blockSize v := by
  rw [blockBytes, List.length_append, blockBytes_planes_length, blockRow_length, blockSize]
  omega

/-- A block gives plane word `p` of its `j`-th entry in its `p`-th row (R84). -/
theorem field_blockBytes_plane {v : Version} {xs : List Item} {j p : Nat} {i : Item} (h : xs[j]? = some i) (hj : j < 64) (hp : p < planes v) :
    field (blockBytes v xs) (512 * p + 8 * j) 8 = planeWord i.sketch p := by
  rw [blockBytes, field_left _ _ _ _ (by rw [blockBytes_planes_length]; omega),
    field_block _ 512 (fun _ => blockRow_length _ _) _ p p (List.getElem?_range hp) _ _ (by omega), field_blockRow h hj, planeWord, Nat.mod_mod]

/-- A block gives the `attr` of its `j`-th entry behind the planes (R84). -/
theorem field_blockBytes_attr {v : Version} {xs : List Item} {j : Nat} {i : Item} (h : xs[j]? = some i) (hj : j < 64) :
    field (blockBytes v xs) (512 * planes v + 8 * j) 8 = i.attr % 2 ^ 64 := by
  rw [blockBytes, field_behind (blockBytes_planes_length v xs), field_blockRow h hj]

/-! ## Headers and marks -/

/-- The words of a segment's header (R83). -/
def headerWords (l : ListData) (v : Version) (g : Segment) : List (Nat × Nat) :=
  [(2, if g.isBase then 1 else 2), (1, v.width), (1, g.gen), (4, l.listId % 2 ^ 20), (4, g.items.length), (4, g.marks.length), (8, g.validFrom),
    (8, g.validUntil.getD 0xFFFFFFFFFFFFFFFF), (8, blocksOffset), (8, stampsOffset v g), (8, marksOffset v g), (1, g.segIndex), (7, 0)]

theorem segHeader_eq (l : ListData) (v : Version) (g : Segment) : segHeader l v g = packed (headerWords l v g) := by
  simp only [segHeader, packed, headerWords, List.flatMap_cons, List.flatMap_nil, List.append_assoc, List.append_nil]

/-- The words of a delete mark (R85). -/
def markWords (m : Mark) : List (Nat × Nat) := [(1, m.seg), (3, 0), (4, m.slot), (8, m.epoch)]

theorem markBytes_eq (m : Mark) : markBytes m = packed (markWords m) := by
  simp only [markBytes, packed, markWords, List.flatMap_cons, List.flatMap_nil, List.append_assoc, List.append_nil]

theorem markBytes_length (m : Mark) : (markBytes m).length = 16 := by rw [markBytes_eq, packed_length]; rfl

/-! ## The image of a segment -/

/-- What stands before the first block: the header and zeros (log 81). -/
def segLead (l : ListData) (v : Version) (g : Segment) : List Byte := segHeader l v g ++ List.replicate (blocksOffset - 64) 0

/-- All blocks of a segment. -/
def segBlocks (v : Version) (g : Segment) : List Byte := (chunks 64 g.items).flatMap (blockBytes v)

/-- The insert epochs of a delta's entries (R85). -/
def segStamps (g : Segment) : List Byte := if g.isBase then [] else g.items.flatMap fun i => leBytes 8 i.insert

/-- A segment's image is its lead, its blocks, its stamps and its marks. -/
theorem segmentBytes_eq (l : ListData) (v : Version) (g : Segment) :
    segmentBytes l v g = segLead l v g ++ (segBlocks v g ++ (segStamps g ++ g.marks.flatMap markBytes)) := by
  simp only [segmentBytes, segLead, segBlocks, segStamps, List.append_assoc]

theorem segHeader_length (l : ListData) (v : Version) (g : Segment) : (segHeader l v g).length = 64 := by rw [segHeader_eq, packed_length]; rfl

theorem segLead_length (l : ListData) (v : Version) (g : Segment) : (segLead l v g).length = blocksOffset := by
  rw [segLead, List.length_append, segHeader_length, List.length_replicate, blocksOffset]

theorem segBlocks_length (v : Version) (g : Segment) : (segBlocks v g).length = ceilDiv g.items.length 64 * blockSize v := by
  rw [segBlocks, length_blocks _ _ (blockBytes_length v), chunks_length (by decide), Nat.mul_comm]

theorem segStamps_length (g : Segment) : (segStamps g).length = if g.isBase then 0 else 8 * g.items.length := by
  unfold segStamps
  split
  · rfl
  · exact length_blocks _ 8 (fun _ => leBytes_length _ _) _

/-- A segment's image is as long as the size of its object counts. -/
theorem segmentBytes_length (l : ListData) (v : Version) (g : Segment) : (segmentBytes l v g).length = sketchSegBytes g (widthBits v.width) := by
  rw [segmentBytes_eq, List.length_append, List.length_append, List.length_append, segLead_length, segBlocks_length, segStamps_length,
    length_blocks _ 16 markBytes_length, blockSize, planes, sketchSegBytes, ← Nat.mul_assoc]
  omega

/-- The image gives each word of the header behind the words before it. -/
theorem field_segmentBytes_header {l : ListData} {v : Version} {g : Segment} (i : Nat) {o n x : Nat} (h : (headerWords l v g)[i]? = some (n, x))
    (hplace : (((headerWords l v g).take i).map (·.1)).sum = o) (hfits : o + n ≤ 64) : field (segmentBytes l v g) o n = x % 256 ^ n := by
  rw [segmentBytes_eq, segLead, List.append_assoc, field_left _ _ _ _ (by rwa [segHeader_length]), segHeader_eq, ← hplace]
  exact field_packed h

/-- The image gives a block's fields in the block of the entry's slot (R84). -/
theorem field_segmentBytes_block {v : Version} {g : Segment} {k : Nat} {c : List Item} (h : (chunks 64 g.items)[k]? = some c) (l : ListData)
    {o n : Nat} (hfits : o + n ≤ blockSize v) :
    field (segmentBytes l v g) (blocksOffset + k * blockSize v + o) n = field (blockBytes v c) o n := by
  have hin : blockSize v * k + o + n ≤ (segBlocks v g).length := by
    obtain ⟨hk, -⟩ := List.getElem?_eq_some_iff.1 h
    calc blockSize v * k + o + n ≤ blockSize v * (k + 1) := by rw [Nat.mul_succ]; omega
      _ ≤ blockSize v * (chunks 64 g.items).length := Nat.mul_le_mul_left _ hk
      _ = (segBlocks v g).length := (length_blocks _ _ (blockBytes_length v) _).symm
  rw [segmentBytes_eq, Nat.mul_comm, Nat.add_assoc, field_behind (segLead_length l v g), field_left _ _ _ _ hin, segBlocks,
    field_block _ _ (blockBytes_length v) _ k c h o n hfits]

/-- A delta's stamps stand behind its lead and its blocks (R85). -/
theorem segStamps_place (l : ListData) (v : Version) {g : Segment} (hdelta : g.isBase = false) :
    (segLead l v g ++ segBlocks v g).length = stampsOffset v g := by
  simp [segLead_length, segBlocks_length, stampsOffset, hdelta]

/-- A delta's image gives the insert epoch of the entry in slot `s` as stamp `s` (R85). -/
theorem field_segmentBytes_stamp {g : Segment} {s : Nat} {i : Item} (h : g.items[s]? = some i) (hdelta : g.isBase = false) (l : ListData) (v : Version) :
    field (segmentBytes l v g) (stampsOffset v g + 8 * s) 8 = i.insert % 2 ^ 64 := by
  have hin : 8 * s + 8 ≤ (segStamps g).length := by
    obtain ⟨hs, -⟩ := List.getElem?_eq_some_iff.1 h
    simp [segStamps_length, hdelta]
    omega
  have hstamps : segStamps g = g.items.flatMap fun i => leBytes 8 i.insert := by simp [segStamps, hdelta]
  rw [segmentBytes_eq, ← List.append_assoc, field_behind (segStamps_place l v hdelta), field_left _ _ _ _ hin, hstamps, ← Nat.add_zero (8 * s),
    field_block _ 8 (fun _ => leBytes_length _ _) _ s i h 0 8 (Nat.le_refl _), field_leBytes_eight]

/-- A delta's image gives the fields of its `n`-th mark among its marks (R85). -/
theorem field_segmentBytes_mark {g : Segment} {n : Nat} {m : Mark} (h : g.marks[n]? = some m) (hdelta : g.isBase = false) (l : ListData) (v : Version)
    {o k : Nat} (hfits : o + k ≤ 16) :
    field (segmentBytes l v g) (marksOffset v g + 16 * n + o) k = field (markBytes m) o k := by
  have hmarks : g.marks.isEmpty = false := by
    cases hm : g.marks with
    | nil => simp [hm] at h
    | cons => rfl
  have hplace : (segLead l v g ++ segBlocks v g ++ segStamps g).length = marksOffset v g := by
    rw [List.length_append, segStamps_place l v hdelta, segStamps_length]
    simp [marksOffset, hmarks, hdelta]
  rw [segmentBytes_eq, ← List.append_assoc, ← List.append_assoc, Nat.add_assoc, field_behind hplace, field_block _ 16 markBytes_length _ n m h o k hfits]

/-- The fields of a delete mark (R85). -/
theorem field_markBytes (m : Mark) :
    field (markBytes m) 0 1 = m.seg % 2 ^ 8 ∧ field (markBytes m) 4 4 = m.slot % 2 ^ 32 ∧ field (markBytes m) 8 8 = m.epoch % 2 ^ 64 := by
  rw [markBytes_eq]
  exact ⟨field_packed (ws := markWords m) (i := 0) rfl, field_packed (ws := markWords m) (i := 2) rfl, field_packed (ws := markWords m) (i := 3) rfl⟩

/-- The key column gives the key of the entry in slot `s` at `8 s` (R117). -/
theorem field_keyColumn {g : Segment} {s : Nat} {i : Item} (h : g.items[s]? = some i) : field (keyColumn g) (8 * s) 8 = i.key % 2 ^ 64 := by
  rw [keyColumn, ← Nat.add_zero (8 * s), field_block _ 8 (fun _ => leBytes_length _ _) _ s i h 0 8 (Nat.le_refl _), field_leBytes_eight]

/-- Settles O50, by the words of the header, the rows of a slot's block, and the stamps and marks behind the blocks. -/
theorem segmentImagesFollowTheLayout : Obligations.SegmentImagesFollowTheLayout := by
  unfold Obligations.SegmentImagesFollowTheLayout
  intro l v g b
  have hkind : field b 0 2 = (if g.isBase then 1 else 2) % 256 ^ 2 := field_segmentBytes_header 0 rfl rfl (by decide)
  have hlist : field b 4 4 = l.listId % 2 ^ 20 % 256 ^ 4 := field_segmentBytes_header 3 rfl rfl (by decide)
  refine ⟨segmentBytes_length l v g, ?kind, field_segmentBytes_header 1 rfl rfl (by decide), field_segmentBytes_header 2 rfl rfl (by decide), ?list,
    field_segmentBytes_header 4 rfl rfl (by decide), field_segmentBytes_header 5 rfl rfl (by decide), field_segmentBytes_header 6 rfl rfl (by decide),
    field_segmentBytes_header 7 rfl rfl (by decide), field_segmentBytes_header 8 rfl rfl (by decide), field_segmentBytes_header 9 rfl rfl (by decide),
    field_segmentBytes_header 10 rfl rfl (by decide), field_segmentBytes_header 11 rfl rfl (by decide), field_segmentBytes_header 12 rfl rfl (by decide),
    fun s i hi => ?slots, fun n m hm hdelta => ?marks⟩
  case kind =>
    rw [hkind]
    cases g.isBase <;> rfl
  case list =>
    rw [hlist]
    omega
  case slots =>
    obtain ⟨piece, hpiece, hslot⟩ := chunks_getElem? (n := 64) (by decide) hi
    have hj : s % 64 < 64 := Nat.mod_lt _ (by decide)
    have hrow {p : Nat} (hp : p ≤ planes v) : 512 * p + 8 * (s % 64) + 8 ≤ blockSize v := by rw [blockSize]; omega
    refine ⟨fun p hp => ?_, ?_, fun hdelta => field_segmentBytes_stamp hi hdelta l v, field_keyColumn hi⟩
    · rw [Nat.add_assoc, Nat.mul_comm p, Nat.mul_comm (s % 64), field_segmentBytes_block hpiece l (hrow (Nat.le_of_lt hp)),
        field_blockBytes_plane hslot hj hp, planeWord]
    · rw [Nat.add_assoc, Nat.mul_comm (planes v), Nat.mul_comm (s % 64), field_segmentBytes_block hpiece l (hrow (Nat.le_refl _)),
        field_blockBytes_attr hslot hj]
  case marks =>
    obtain ⟨hseg, hslot, hepoch⟩ := field_markBytes m
    exact ⟨(field_segmentBytes_mark hm hdelta l v (by decide)).trans hseg, (field_segmentBytes_mark hm hdelta l v (by decide)).trans hslot,
      (field_segmentBytes_mark hm hdelta l v (by decide)).trans hepoch⟩

end Sys2Proof.Machine
end

section
/-! SUPPORT. The words of a directory entry and of its edges, field by field (R99, R102 to R106). -/
namespace Sys2Proof.Machine

/-- Bits [hi:lo] of a number are the remainder of a quotient by powers of two. -/
theorem bits_eq_div_mod (v hi lo : Nat) : bits v hi lo = v / 2 ^ lo % 2 ^ (hi - lo + 1) := by rw [bits, Nat.shiftRight_eq_div_pow]

/-- The fields of a location word (R103). -/
theorem bits_locationWord (e : DirEntry) :
    let w := locationWord e
    bits w 11 0 = e.home % 2 ^ 12 ∧ bits w 39 12 = e.handle % 2 ^ 28 ∧ bits w 47 40 = e.entryGen % 256 ∧ bits w 55 48 = e.projGen % 256 ∧
    bits w 57 56 = e.state % 4 ∧ bits w 63 58 = 0 := by
  simp only [bits_eq_div_mod, locationWord]
  refine ⟨?_, ?_, ?_, ?_, ?_, ?_⟩ <;> omega

/-- What every successor word carries (R105). -/
theorem bits_succWord_first (e : DirEntry) :
    let w := succWord e
    bits w 19 0 = e.succA % 2 ^ 20 ∧ bits w 27 20 = e.succAGen % 256 ∧ bits w 62 56 = 0 ∧ (bits w 63 63 = 1 ↔ e.succB.isSome = true) := by
  simp only [bits_eq_div_mod, succWord]
  cases e.succB with
  | none =>
    simp only [Option.isSome_none, Bool.false_eq_true, iff_false]
    refine ⟨?_, ?_, ?_, ?_⟩ <;> omega
  | some bg =>
    simp only [Option.isSome_some, iff_true]
    refine ⟨?_, ?_, ?_, ?_⟩ <;> omega

/-- The second successor in a successor word (R105). -/
theorem bits_succWord_second {e : DirEntry} {b g : Nat} (h : e.succB = some (b, g)) :
    bits (succWord e) 47 28 = b % 2 ^ 20 ∧ bits (succWord e) 55 48 = g % 256 := by
  simp only [bits_eq_div_mod, succWord, h]
  constructor <;> omega

/-- The two counts of a load word (R104). -/
theorem bits_loadWord (s : State) (p list : Nat) (e : DirEntry) :
    bits (s.loadWord p list e) 31 0 = s.counter (probesKey p list) % 2 ^ 32 ∧ bits (s.loadWord p list e) 63 32 = e.items % 2 ^ 32 := by
  simp only [bits_eq_div_mod, State.loadWord]
  constructor <;> omega

/-- The fields of an edge word (R106). -/
theorem bits_edgeWord (t : Nat × Nat) :
    let w := edgeWord t
    bits w 19 0 = t.1 % 2 ^ 20 ∧ bits w 27 20 = t.2 % 256 ∧ bits w 30 28 = 0 ∧ bits w 31 31 = 1 := by
  simp only [bits_eq_div_mod, edgeWord]
  refine ⟨?_, ?_, ?_, ?_⟩ <;> omega

/-- A directory entry has 48 bytes (R102). -/
theorem dirEntryBytes_length (s : State) (p list : Nat) (e : DirEntry) : (s.entryBytes p list e).length = 48 := by
  simp [State.entryBytes, leBytes_length]

/-- The edges of an entry have 128 bytes (R106). -/
theorem edgeBytes_length (e : DirEntry) : (edgeBytes e).length = 128 := by
  rw [edgeBytes, length_blocks _ 4 (fun _ => leBytes_length _ _), List.length_range]

/-- A candidate record has 16 bytes (R99). -/
theorem candBytes_length (s : State) (c : Cand) : (s.candBytes c).length = 16 := by simp [State.candBytes, leBytes_length]

/-- Settles O51: each word by its own lemma, as quotients and remainders by powers of two. -/
theorem directoryWordsCarryTheirFields : Obligations.DirectoryWordsCarryTheirFields := by
  unfold Obligations.DirectoryWordsCarryTheirFields
  refine ⟨bits_locationWord, fun e => ?succ, bits_loadWord, bits_edgeWord, fun s p list e => ⟨dirEntryBytes_length s p list e, edgeBytes_length e⟩,
    candBytes_length⟩
  case succ =>
    obtain ⟨hfirst, hgen, hzero, htop⟩ := bits_succWord_first e
    exact ⟨hfirst, hgen, hzero, htop, fun b g => bits_succWord_second⟩

end Sys2Proof.Machine
end

section
/-! SUPPORT. The commands of the rerank gate, RERANK and SELECT on a list's strand (R99, R124 to R126, R130, R133, R142, R145, R146, R149,
R152, R196): one lemma per command and case, then the statement on all of them. -/
namespace Sys2Proof.Machine

/-! ## The gate -/

/-- A scan summary of a list that a searching query has chosen, the first for the list, recomputes the gate (R124, R125). -/
theorem execScanSummaryReceive_of_first {b : List Byte} {handle q : Nat} {x : Query} {v : Version} {s : State} (hhandle : field b 0 8 = handle)
    (hserial : (s.queryOf handle).getD (handleSerial handle) = q) (hquery : s.query q = some x)
    (hversion : s.versionOf x.fields.ns x.fields.idx x.version = some v) (hown : s.handleOf q x = handle) (hphase : x.phase = .searching)
    (hchosen : (chosenOf x (parseSummary b).list).isSome = true) (hfirst : (x.summaries.any fun y => y.list = (parseSummary b).list) = false)
    (src : Nat) : execScanSummaryReceive src b s = .next (s.takeSummary q x v (parseSummary b) handle) := by
  have hsome : (chosenOf x (parseSummary b).list).isNone = false := Option.isNone_eq_false_iff.2 hchosen
  simp only [execScanSummaryReceive, hhandle, hserial, hquery, hversion, hown, hphase, hsome, hfirst, ne_eq, not_true_eq_false, decide_false,
    beq_self_eq_true, Bool.not_true, Bool.or_self, Bool.false_eq_true, if_false]

/-! ## Candidates held and released -/

section
variable {g : Nat} {c : Cand} {rest : List Cand} {m : Member} {s : State} (hlink : s.pipe.rerankFifo.getD g [] = c :: rest)
  (hmember : s.member c.batch c.member = some m) (hkept : m.withdrawn = false) (hrunning : m.ended = false)
  (hflows : s.rerankStalled g (s.tileOf g m) = false)
include hlink hmember hkept hrunning hflows

/-- A tile with room takes its candidate in: it is held or passes (R126). -/
theorem execRerankCandidateReceive_of_room (hroom : (s.oldestHeld g (s.tileOf g m)).2 < 8192) :
    let a : State := { s with pipe := { s.pipe with rerankFifo := s.pipe.rerankFifo.put g [] rest } }
    execRerankCandidateReceive g s = .next ((a.holdCand g c).tryEnd c.batch c.member) := by
  rcases hheld : s.oldestHeld g (s.tileOf g m) with ⟨oldest, n⟩
  rw [hheld] at hroom
  cases oldest <;> simp only [execRerankCandidateReceive, hlink, hmember, hkept, hrunning, hflows, hheld, ge_iff_le, Nat.not_le.2 hroom,
    Bool.or_self, Bool.false_eq_true, if_false]

/-- A full tile releases the member whose candidates it has held longest, and takes its candidate in (R126). -/
theorem execRerankCandidateReceive_of_full {b i : Nat} (holdest : (s.oldestHeld g (s.tileOf g m)).1 = some (b, i))
    (hfull : 8192 ≤ (s.oldestHeld g (s.tileOf g m)).2) :
    let a : State := { s with pipe := { s.pipe with rerankFifo := s.pipe.rerankFifo.put g [] rest } }
    execRerankCandidateReceive g s = .next ((((a.tally (0x2410 + g) 6).releaseMember b i false).holdCand g c).tryEnd c.batch c.member) := by
  rcases hheld : s.oldestHeld g (s.tileOf g m) with ⟨oldest, n⟩
  rw [hheld] at holdest hfull
  obtain rfl : oldest = some (b, i) := holdest
  have hfull : 8192 ≤ n := hfull
  simp only [execRerankCandidateReceive, hlink, hmember, hkept, hrunning, hflows, hheld, ge_iff_le, hfull, Bool.or_self, Bool.false_eq_true,
    if_false, if_true]

/-- A full tile with no member to release takes nothing in (R126, R347). -/
theorem execRerankCandidateReceive_of_stuck (hnone : (s.oldestHeld g (s.tileOf g m)).1 = none)
    (hfull : 8192 ≤ (s.oldestHeld g (s.tileOf g m)).2) : execRerankCandidateReceive g s = .next s := by
  rcases hheld : s.oldestHeld g (s.tileOf g m) with ⟨oldest, n⟩
  rw [hheld] at hnone hfull
  obtain rfl : oldest = none := hnone
  have hfull : 8192 ≤ n := hfull
  simp only [execRerankCandidateReceive, hlink, hmember, hkept, hrunning, hflows, hheld, ge_iff_le, hfull, Bool.or_self, Bool.false_eq_true,
    if_false, if_true]

end

/-- Once its member's scan summary is out, a hold ends after GATE_HOLD (R126). -/
theorem holdOver_of_summary {m : Member} {sent : Nat} (h : m.summaryAt = some sent) (s : State) (us : Nat) :
    s.holdOver m us = (us = 0 || decide (sent + us * cyclesPerUs ≤ s.time)) := by
  rw [State.holdOver, h]
  rfl

section
variable {batch member t : Nat} {bt : Batch} {m : Member} {v : Version} {s : State}
  (hctx : (s.advance t).memberCtx batch member = some (bt, m, v)) (hready : vectorReady m v = true)
include hctx hready

/-- GATE_HOLD after the scan summary the candidates whose hold is over are released (R126). -/
theorem execReleaseHold_of_over {sent : Nat} (hsummary : m.summaryAt = some sent)
    (hdue : (m.held.any fun c => decide (sent + c.us * cyclesPerUs ≤ max s.time t)) = true) :
    execReleaseHold batch member t s = .next (((s.advance t).tally (0x2410 + bt.g) 5).releaseCands batch member
      fun c => c.us = 0 || decide (sent + c.us * cyclesPerUs ≤ max s.time t)) := by
  have hover : (m.held.any fun c => c.us = 0 || decide (sent + c.us * cyclesPerUs ≤ max s.time t)) = true := by
    obtain ⟨c, hc, hlate⟩ := List.any_eq_true.1 hdue
    exact List.any_eq_true.2 ⟨c, hc, by rw [hlate, Bool.or_true]⟩
  simp only [execReleaseHold, hctx, hready, holdOver_of_summary hsummary, State.advance_time, hover, Bool.not_true, Bool.or_self,
    Bool.false_eq_true, if_false]

/-- When the rest of its deadline is the reserve, a member's outstanding fetches are late and all it holds is released (R126, R133). -/
theorem execReleaseLate_of_reserve (hkept : m.withdrawn = false) (hrunning : m.ended = false) (hdue : (s.advance t).reserveAt m ≤ max s.time t) :
    execReleaseLate batch member t s =
      .next (((s.advance t).abandonFetches bt.g bt m v batch member).releaseMember batch member true) := by
  simp only [execReleaseLate, hctx, hready, hkept, hrunning, State.advance_time, Nat.not_lt.2 hdue, Bool.not_true, Bool.or_self, decide_false,
    Bool.false_eq_true, if_false]

end

/-! ## Keys, codes and payloads -/

section
variable {fetch : Nat} {f : Fetch} {bt : Batch} {m : Member} {v : Version} {s : State} (hfetch : s.pipe.fetches.get fetch = some f)
  (hctx : s.memberCtx f.cand.batch f.cand.member = some (bt, m, v))
include hfetch hctx

/-- A key that cannot be read withdraws the batch, and its region is in repair (R99, R260). -/
theorem execKeyFetchComplete_of_unreadable (hkey : f.key = .due) :
    execKeyFetchComplete fetch false s = .next ((s.withdrawBatch f.cand.batch).markRepair 0 (s.objAt bt f.cand.seg 2)).readFailed := by
  simp only [execKeyFetchComplete, hfetch, hctx, hkey, beq_self_eq_true, Bool.not_true, Bool.not_false, Bool.false_eq_true, if_false, if_true]

/-- A key in a page under repair withdraws the batch (R260). -/
theorem execKeyFetchComplete_of_inRepair (hkey : f.key = .due) (hread : (s.tierRead (s.objAt bt f.cand.seg 2) true).2 = false) :
    execKeyFetchComplete fetch true s =
      .next ((s.tierRead (s.objAt bt f.cand.seg 2) true).1.withdrawBatch f.cand.batch).readFailed := by
  simp only [execKeyFetchComplete, hfetch, hctx, hkey, hread, beq_self_eq_true, Bool.not_true, Bool.not_false, Bool.false_eq_true, if_false,
    if_true]

/-- A key that is read goes into its fetch, and is counted and metered; where no codes are needed the score is there too (R99, R127, R135). -/
theorem execKeyFetchComplete_of_read (hkey : f.key = .due) (hread : (s.tierRead (s.objAt bt f.cand.seg 2) true).2 = true) :
    let obj := s.objAt bt f.cand.seg 2
    let a := (((s.tierRead obj true).1.count (objKey (0x2410 + bt.g) 3) 8).meter m.tenant 15 8).objRead obj 8
    let k : Fetch := { f with key := .done, keyVal := ((a.itemOf bt f.cand).map (·.key)).getD voidKey }
    execKeyFetchComplete fetch true s = .next (if needsCodes m v then a.finishFetch fetch k
      else (a.count (objKey (0x2410 + bt.g) 4) 1).finishFetch fetch { k with score := hammingScore f.cand.dist }) := by
  intro obj a k
  cases hitem : a.itemOf bt f.cand <;> simp only [a, obj] at hitem <;>
    simp only [execKeyFetchComplete, hfetch, hctx, hkey, hread, hitem, beq_self_eq_true, Bool.not_true, Bool.false_eq_true, if_false, a, k, obj,
      Option.map_none, Option.map_some, Option.getD_none, Option.getD_some]

section
variable {it : Item} (hcodes : f.codes = .due) (hready : vectorReady m v = true) (hitem : s.itemOf bt f.cand = some it)
include hcodes hready hitem

/-- Codes that are read are scored (R130). -/
theorem execCodeFetchComplete_of_read (hread : (s.tierRead (s.codeObj bt f) true).2 = true) :
    let r := (s.tierRead (s.codeObj bt f) true).1.scoreFetch bt m v f it
    execCodeFetchComplete fetch true s = .next (r.1.finishFetch fetch r.2) := by
  simp only [execCodeFetchComplete, hfetch, hctx, hcodes, hready, hitem, hread, beq_self_eq_true, Bool.not_true, Bool.or_self,
    Bool.false_eq_true, if_false, if_true]

/-- Codes in a page under repair leave the candidate its estimate (R132, R260). -/
theorem execCodeFetchComplete_of_inRepair (hread : (s.tierRead (s.codeObj bt f) true).2 = false) :
    let l := (s.tierRead (s.codeObj bt f) true).1.readFailed.estimateFetch bt.g bt m v f 1
    execCodeFetchComplete fetch true s = .next (l.1.finishFetch fetch l.2) := by
  simp only [execCodeFetchComplete, hfetch, hctx, hcodes, hready, hitem, hread, beq_self_eq_true, Bool.not_true, Bool.or_self, Bool.false_and,
    Bool.false_eq_true, if_false]

/-- Codes that cannot be read leave the candidate its estimate, and a region of HBM or LPDDR is in repair (R132, R260, R261). -/
theorem execCodeFetchComplete_of_unreadable :
    let z := (s.tierRead (s.codeObj bt f) false).1
    let l := (if f.tier ≤ 1 then z.markRepair f.tier (z.codeObj bt f) else z).readFailed.estimateFetch bt.g bt m v f 1
    execCodeFetchComplete fetch false s = .next (l.1.finishFetch fetch l.2) := by
  simp only [execCodeFetchComplete, hfetch, hctx, hcodes, hready, hitem, tierRead_failed, beq_self_eq_true, Bool.not_true, Bool.not_false,
    Bool.or_self, Bool.true_and, Bool.false_eq_true, if_false, decide_eq_true_eq]

end

/-- A late read of the codes' home tier takes its substitute (R133). -/
theorem execTierReadLate_of_code (hcodes : f.codes = .due) (hpath : f.path = 0) (hready : vectorReady m v = true) :
    let l := (s.tally 0x2810 5).lateFetch bt.g bt m v f
    execTierReadLate (.code fetch) s = .next (l.1.finishFetch fetch l.2) := by
  simp only [execTierReadLate, hfetch, hctx, hcodes, hpath, hready, beq_self_eq_true, ne_eq, not_true_eq_false, decide_false, Bool.not_true,
    Bool.or_self, Bool.false_eq_true, if_false]

section
variable {it : Item} (hpost : f.post = .due) (hitem : s.itemOf bt f.cand = some it)
include hpost hitem

/-- A payload that is read passes or fails the post-filter (R196, R198). -/
theorem execPostfilterReadComplete_of_read :
    let pp := passesPost m.postTerms (((s.corpus.records.get it.record).map (·.payload)).getD [])
    let a := (s.count (objKey (0x2610 + bt.g) 7) pp.2).meter m.tenant 16 4096
    execPostfilterReadComplete fetch true s = .next ((if pp.1 then a
      else (a.tally (0x2610 + bt.g) 6).meter m.tenant 17 1).finishFetch fetch { f with post := .done, passed := pp.1 }) := by
  cases hrecord : s.corpus.records.get it.record <;>
    simp only [execPostfilterReadComplete, hfetch, hctx, hpost, hitem, hrecord, beq_self_eq_true, Bool.not_true, Bool.false_eq_true, if_false,
      if_true, Option.map_none, Option.map_some, Option.getD_none, Option.getD_some]

/-- An unreadable payload is a loss of its query (R40, R198). -/
theorem execPostfilterReadComplete_of_unreadable :
    let l := (s.readFailed.logLoss it.key (((s.list bt.list).map (·.shard)).getD 0) bt.ns v.ver).noteLoss m (s.listId bt.list)
    execPostfilterReadComplete fetch false s = .next (l.finishFetch fetch { f with post := .done, passed := false }) := by
  cases hlist : s.list bt.list <;>
    simp only [execPostfilterReadComplete, hfetch, hctx, hpost, hitem, hlist, beq_self_eq_true, Bool.not_true, Bool.false_eq_true, if_false,
      Option.map_none, Option.map_some, Option.getD_none, Option.getD_some]

end
end

/-- A late read of a feature row leaves its item the default row (R133, R259). -/
theorem execTierReadLate_of_row {q item n : Nat} {x : Query} {b : BlockItem} {s : State} (hquery : s.query q = some x) (hblock : x.block[item]? = some b)
    (hphase : x.phase = .assembling) (hkept : b.dropped = false) (hdue : b.rowsDue.contains n = true) :
    execTierReadLate (.row q item n) s = .next ((s.tally 0x2810 5).blockDefault q item n x b) := by
  simp only [execTierReadLate, hquery, hblock, hphase, hkept, hdue, beq_self_eq_true, Bool.not_true, Bool.or_self, Bool.false_eq_true, if_false]

/-! ## Selection and pieces -/

/-- SELECT takes the head record into its member's context, which first asks again for the spill store it waits for (R141, R142). -/
theorem execSelectEntryOffer_of_kept {g : Nat} {r : Scored} {rest : List Scored} {m : Member} {s : State}
    (hlink : s.pipe.selectFifo.getD g [] = r :: rest) (hmember : s.member r.batch r.member = some m) (hkept : m.withdrawn = false)
    (hrunning : m.ended = false) (hpool : m.ctx.poolWait = false) (hspill : (s.retrySpill g m.ctx).spillWait = false)
    (hflows : s.emitStalled g = false) :
    let o := ({ s with pipe := { s.pipe with selectFifo := s.pipe.selectFifo.put g [] rest } } : State).offer g (s.retrySpill g m.ctx) r.entry
    execSelectEntryOffer g s = .next (((o.1.setMember r.batch r.member { m with ctx := o.2.1 }).noteOrigin m
      fun q => { q with merged := q.merged + o.2.2 }).tryEnd r.batch r.member) := by
  simp only [execSelectEntryOffer, hlink, hmember, hkept, hrunning, hpool, hspill, hflows, Bool.or_self, Bool.false_eq_true, if_false]

/-- A member's next piece goes to its origin, but for a mirror's; after the last one the member has ended (R145, R146, R508). -/
theorem execPieceSend_of_next {batch member : Nat} {p : List Byte} {rest : List (List Byte)} {bt : Batch} {m : Member} {s : State}
    (hbatch : s.batch batch = some bt) (hmember : s.member batch member = some m) (hbuilt : m.built = true) (hrunning : m.ended = false)
    (hpieces : m.pieces = p :: rest) :
    let a := if m.discard then s else s.sendPiece m.origin m.tenant p
    execPieceSend batch member s = .next (if rest = [] then (a.checkPiece bt m).lastPiece batch member m
      else a.setMember batch member { m with pieces := rest }) := by
  cases rest with
  | nil =>
    simp only [execPieceSend, hbatch, hmember, hbuilt, hrunning, hpieces, List.isEmpty_nil, Bool.not_true, Bool.or_self, Bool.false_eq_true,
      if_false, if_true]
  | cons next rest =>
    simp only [execPieceSend, hbatch, hmember, hbuilt, hrunning, hpieces, List.isEmpty_cons, reduceCtorEq, Bool.not_true, Bool.not_false,
      Bool.or_self, Bool.false_eq_true, if_false, if_true]

/-! ## Contexts in HBM -/

section
variable {q : Nat} {x : Query} {s : State} (hquery : s.query q = some x)
include hquery

/-- A merge of an origin's context starts when it is due and the tile runs none (R149). -/
theorem execRunMergeStart_of_origin (hdue : mergeDue x.ctx ((x.chosen.any fun c => !c.waiting.isEmpty) || listsDone x) = true)
    (hfree : s.tileMerges x.g = false) :
    execRunMergeStart (.origin q) s = .next (s.setQuery q { x with ctx := mergeStart x.ctx s.time }) := by
  simp only [execRunMergeStart, hquery, hdue, hfree, Bool.not_false, Bool.and_self, if_true]

/-- A merge of an origin's context ends, its duplicates and bytes counted (R149, R153). -/
theorem execRunMergeComplete_of_origin (hmerging : x.ctx.merging.isSome = true) :
    let r := mergeEnd x.ctx
    execRunMergeComplete (.origin q) s = .next ((s.mergeCounts x.g r).tryFinish q { x with ctx := r.1, merged := x.merged + r.2.1 }) := by
  have hsome : x.ctx.merging.isNone = false := Option.isNone_eq_false_iff.2 hmerging
  simp only [execRunMergeComplete, hquery, hsome, Bool.false_eq_true, if_false]

/-- An origin that waits for the selection pool asks for its work area (R152). -/
theorem execPoolWait_of_origin {slot : Nat} {img : Image} (himage : s.imageFor x = some (slot, img)) (hphase : x.phase = .poolWait) :
    execPoolWait (.origin q) s = .next (s.reserveOrigin q x slot img) := by
  simp only [execPoolWait, hquery, himage, hphase, beq_self_eq_true, if_true]

end

section
variable {b i : Nat} {m : Member} {bt : Batch} {s : State} (hmember : s.member b i = some m)
include hmember

/-- A member that waits for the selection pool gets its work area once the list side's half has room (R152). -/
theorem execPoolWait_of_member (hwait : m.ctx.poolWait = true) (hroom : s.tiers.poolList + listArea m.ctx.kSel ≤ s.poolHalf) :
    execPoolWait (.member b i) s =
      .next ((({ s with tiers := { s.tiers with poolList := s.tiers.poolList + listArea m.ctx.kSel } } : State).setMember b i { m with
        ctx := { m.ctx with poolWait := false, store := 2, runs := [m.ctx.entries], entries := [], hbmBytes := listArea m.ctx.kSel } }).tryEnd b i) := by
  simp only [execPoolWait, hmember, hwait, hroom, decide_true, Bool.and_self, if_true]

variable (hbatch : s.batch b = some bt)
include hbatch

/-- A merge of a member's context starts when it is due and the tile runs none (R149). -/
theorem execRunMergeStart_of_member (hdue : mergeDue m.ctx (m.scanned && s.memberIdle b i m && m.ctx.entries.isEmpty) = true)
    (hfree : s.tileMerges bt.g = false) :
    execRunMergeStart (.member b i) s = .next (s.setMember b i { m with ctx := mergeStart m.ctx s.time }) := by
  simp only [execRunMergeStart, hbatch, hmember, hdue, hfree, Bool.not_false, Bool.and_self, if_true]

/-- A merge of a member's context ends, and its output may be the partial result (R145, R149). -/
theorem execRunMergeComplete_of_member (hmerging : m.ctx.merging.isSome = true) :
    let r := mergeEnd m.ctx
    execRunMergeComplete (.member b i) s = .next (((s.mergeCounts bt.g r).noteOrigin m fun q =>
      { q with merged := q.merged + r.2.1 }).memberOutput b i bt { m with ctx := r.1 } (r.1.carry.getD [])) := by
  have hsome : m.ctx.merging.isNone = false := Option.isNone_eq_false_iff.2 hmerging
  simp only [execRunMergeComplete, hbatch, hmember, hsome, Bool.false_eq_true, if_false]

end

/-- Settles O22: each command's lemma gives the state, case by case. -/
theorem rerankAndSelectCommandsComplete : Obligations.RerankAndSelectCommandsComplete := by
  unfold Obligations.RerankAndSelectCommandsComplete
  refine ⟨?summary, fun g msg s => ⟨_, rfl, rfl⟩, ?candidate, ?release, ?fetch, ?row, ?select, ?piece, ?origin, ?member⟩
  case summary =>
    intro src b x v s handle q m hquery hversion hown hphase hchosen hfirst
    exact ⟨_, execScanSummaryReceive_of_first rfl rfl hquery hversion hown hphase hchosen hfirst src, rfl⟩
  case candidate =>
    intro g c rest m s hlink hmember hkept hrunning hflows a o
    exact ⟨_, rfl, fun hroom => Host.Outcome.next.inj (execRerankCandidateReceive_of_room hlink hmember hkept hrunning hflows hroom),
      fun b i holdest hfull => Host.Outcome.next.inj (execRerankCandidateReceive_of_full hlink hmember hkept hrunning hflows holdest hfull),
      fun hnone hfull => Host.Outcome.next.inj (execRerankCandidateReceive_of_stuck hlink hmember hkept hrunning hflows hnone hfull)⟩
  case release =>
    intro batch member t at_ bt m v s hctx hready
    exact ⟨fun hsummary hdue => ⟨_, execReleaseHold_of_over hctx hready hsummary hdue, rfl⟩,
      fun hkept hrunning hdue => ⟨_, execReleaseLate_of_reserve hctx hready hkept hrunning hdue, rfl⟩⟩
  case fetch =>
    intro fetch f bt m v s hfetch hctx
    refine ⟨fun hkey => ?_, fun it hcodes hready hitem => ?_, fun hcodes hpath hready => ?_, fun it hpost hitem => ?_⟩
    · exact ⟨⟨_, execKeyFetchComplete_of_unreadable hfetch hctx hkey, rfl⟩, ⟨_, rfl,
        fun hread => Host.Outcome.next.inj (execKeyFetchComplete_of_inRepair hfetch hctx hkey hread),
        fun hread => Host.Outcome.next.inj (execKeyFetchComplete_of_read hfetch hctx hkey hread)⟩⟩
    · refine ⟨?_, ⟨_, execCodeFetchComplete_of_unreadable hfetch hctx hcodes hready hitem, rfl⟩⟩
      by_cases hread : (s.tierRead (s.codeObj bt f) true).2 = true
      · exact ⟨_, execCodeFetchComplete_of_read hfetch hctx hcodes hready hitem hread, (if_pos hread).symm⟩
      · exact ⟨_, execCodeFetchComplete_of_inRepair hfetch hctx hcodes hready hitem (Bool.eq_false_iff.2 hread), (if_neg hread).symm⟩
    · exact ⟨_, execTierReadLate_of_code hfetch hctx hcodes hpath hready, rfl⟩
    · exact ⟨⟨_, execPostfilterReadComplete_of_read hfetch hctx hpost hitem, rfl⟩,
        ⟨_, execPostfilterReadComplete_of_unreadable hfetch hctx hpost hitem, rfl⟩⟩
  case row =>
    intro q item n x b s hquery hblock hphase hkept hdue
    exact ⟨_, execTierReadLate_of_row hquery hblock hphase hkept hdue, rfl⟩
  case select =>
    intro g r rest m s hlink hmember hkept hrunning hpool c hspill hflows o
    exact ⟨_, execSelectEntryOffer_of_kept hlink hmember hkept hrunning hpool hspill hflows, rfl⟩
  case piece =>
    intro batch member p rest bt m s hbatch hmember hbuilt hrunning hpieces a
    exact ⟨_, execPieceSend_of_next hbatch hmember hbuilt hrunning hpieces, rfl⟩
  case origin =>
    intro q x s hquery
    exact ⟨fun hdue hfree => ⟨_, execRunMergeStart_of_origin hquery hdue hfree, rfl⟩,
      fun hmerging => ⟨_, execRunMergeComplete_of_origin hquery hmerging, rfl⟩,
      fun slot img himage hphase => ⟨_, execPoolWait_of_origin hquery himage hphase, rfl⟩⟩
  case member =>
    intro b i m bt s hmember hbatch
    exact ⟨fun hdue hfree => ⟨_, execRunMergeStart_of_member hmember hbatch hdue hfree, rfl⟩,
      fun hmerging => ⟨_, execRunMergeComplete_of_member hmember hbatch hmerging, rfl⟩,
      fun hwait hroom => ⟨_, execPoolWait_of_member hmember hwait hroom, rfl⟩⟩

end Sys2Proof.Machine
end

section
/-! SUPPORT. The commands of background maintenance (R88, R112, R224 to R232, R538): one lemma per command and case, then the statement on
all of them. -/
namespace Sys2Proof.Machine

/-! ## Periods and sweeps -/

/-- A maintenance period runs once its length has passed (R225, R226). -/
theorem execMaintPeriod_of_due {t : Nat} {s : State} (hdue : s.maint.periodStart + s.maint.periodS * cyclesPerS ≤ max s.time t) :
    execMaintPeriod t s = .next (s.advance t).runPeriod := by
  simp only [execMaintPeriod, State.advance_time, State.advance_maint, Nat.not_lt.2 hdue, if_false]

/-- A sweep runs once its period has passed, unless shedding suspends maintenance (R112, R232, R538). -/
theorem execEdgeSweep_of_due {t : Nat} {s : State} (hdue : s.maint.sweepStart + s.maint.sweepS * cyclesPerS ≤ max s.time t)
    (hruns : (s.advance t).maintRuns = true) (view : SweepView) :
    execEdgeSweep t view s = .next ((s.advance t).sweep view.edges view.named) := by
  simp only [execEdgeSweep, State.advance_time, State.advance_maint, Nat.not_lt.2 hdue, hruns, decide_false, Bool.not_true, Bool.or_self,
    Bool.false_eq_true, if_false]

/-! ## Splits and merges -/

section
variable {list : Nat} {ca cb : List F32} {g : Reorg} {hs : List Nat} {l : ListData} {rest : List ListData} {v : Version} {s : State}
  (hreorg : (s.maint.reorgs.find? fun g => g.sources.head? = some list && !g.deferred && !g.waiting && g.effect.isNone) = some g)
  (hhandles : (g.sources.filterMap fun k => (s.corpus.dir.get k).map (·.handle)) = hs) (hlists : (hs.filterMap fun h => s.list h) = l :: rest)
  (hversion : s.versionOf l.ns l.idx l.version = some v) (hall : (l :: rest).length = g.sources.length) (hruns : s.maintRuns = true)
  (hidle : s.folding g.sources = false)
include hreorg hhandles hlists hversion hall hruns hidle

/-- A merge's copies are made, and the change is scheduled, once HBM has room (R227, R228, R232). -/
theorem execSplitCopyComplete_of_merge (hmerge : g.isMerge = true) (hroom : s.hbmFits v (mergedSegs l rest) = true) :
    execSplitCopyComplete list ca cb s = .next (s.copyMerge g l rest v (g.reserved.headD 0) ca hs) := by
  simp only [execSplitCopyComplete, hreorg, hhandles, hlists, hversion, hall, hruns, hidle, hmerge, hroom, ne_eq, not_true_eq_false, decide_false,
    Bool.not_true, Bool.or_self, Bool.false_eq_true, if_false, if_true]

/-- A split's copies are made, and the change is scheduled, once HBM has room (R227, R232). -/
theorem execSplitCopyComplete_of_split (hsplit : g.isMerge = false)
    (hroom : s.hbmFits v (childSegs l (s.toChildA v list (g.reserved.headD 0) ca cb) ++
      childSegs l fun i => !s.toChildA v list (g.reserved.headD 0) ca cb i) = true) :
    execSplitCopyComplete list ca cb s = .next (s.copySplit g l v list (g.reserved.headD 0) ca cb hs) := by
  simp only [execSplitCopyComplete, hreorg, hhandles, hlists, hversion, hall, hruns, hidle, hsplit, hroom, ne_eq, not_true_eq_false, decide_false,
    Bool.not_true, Bool.or_self, Bool.false_eq_true, if_false]

end

/-! ## Folds and segments -/

/-- A fold's base is complete for the next epoch once C is closed and HBM has room (R86, R224, R232). -/
theorem execFoldBuildComplete_of_closed {handle : Nat} {f : Fold} {l : ListData} {v : Version} {s : State}
    (hfold : (s.maint.folds.find? fun f => f.handle = handle) = some f) (hlist : s.list handle = some l)
    (hversion : s.versionOf l.ns l.idx l.version = some v) (hopen : f.base = none) (hclosed : f.c ≤ s.usableClosed) (hruns : s.maintRuns = true)
    (hroom : s.hbmFits v [s.foldBase l v f] = true) (hsize : (s.foldBase l v f).items.length ≤ 33554432) :
    let a := s.noteNans (s.foldNans l v f)
    execFoldBuildComplete handle s = .next { a with
      maint := { a.maint with
        folds := replaceFirst (fun x => x.handle = handle) (fun x => { x with base := some (s.foldBase l v f), switchAt := some (a.epochs.open_ + 1) })
          a.maint.folds } } := by
  simp only [execFoldBuildComplete, hfold, hlist, hversion, hopen, Nat.not_lt.2 hclosed, hruns, hroom, gt_iff_lt, Nat.not_lt.2 hsize,
    Option.isSome_none, decide_false, Bool.not_true, Bool.or_self, Bool.false_eq_true, if_false]

/-- A segment that nothing needs is freed with the objects that are its alone; a former list goes with its last segment (R88, R227). -/
theorem execSegmentFree_of_unneeded {seg h e : Nat} {l : ListData} {g : Segment} {s : State}
    (hlist : (s.corpus.lists.find? fun kl => (kl.2.segs.get seg).isSome) = some (h, l)) (hseg : l.segs.get seg = some g)
    (huntil : g.validUntil = some e) (hclosed : e ≤ s.usableClosed) (hbatches : s.segReferred seg = false) (hsnaps : s.snapBelow e = false)
    (hfolds : (s.maint.folds.any fun f => f.handle = h && (f.old.contains seg || f.delta = seg)) = false) :
    let segs := l.segs.erase seg
    let a := (g.objs.filter fun n => !(segs.any fun kg => kg.2.objs.contains n)).foldl (fun s n => s.freeObj n) s
    execSegmentFree seg s = .next (if l.retired && segs.isEmpty then a.dropList h else a.setList h { l with segs }) := by
  simp only [execSegmentFree, hlist, hseg, huntil, Nat.not_lt.2 hclosed, hbatches, hsnaps, hfolds, decide_false, Bool.or_self, Bool.false_eq_true,
    if_false]

/-! ## Re-fits and projections -/

section
variable {step n : Nat} {s : State}
  (htiles : (s.pipe.tensor.any fun kp => kp.2.running.any fun i => i.req.kind == .maint && i.req.owner = step) = true) (hruns : s.maintRuns = true)
include htiles hruns

/-- A re-fit that runs on tensor tiles gives a list its new centroid (R230). -/
theorem execMaintStepComplete_of_refit (hstep : s.maint.steps.get step = some (0, n)) (centroid : List F32) :
    execMaintStepComplete step centroid s = .next ((s.dropStep step).refitDone n (s.maint.refitBits.getD step 8) centroid) := by
  simp only [execMaintStepComplete, hstep, htiles, hruns, Bool.not_true, Bool.or_self, Bool.false_eq_true, if_false]

/-- A projection's fit that runs on tensor tiles gives its version the new generation (R231). -/
theorem execMaintStepComplete_of_fit (hstep : s.maint.steps.get step = some (1, n)) (centroid : List F32) :
    execMaintStepComplete step centroid s = .next ((s.dropStep step).fitDone n) := by
  simp only [execMaintStepComplete, hstep, htiles, hruns, Bool.not_true, Bool.or_self, Bool.false_eq_true, if_false]

end

/-- Settles O27: each command's lemma gives the state, case by case. -/
theorem maintenanceCommandsComplete : Obligations.MaintenanceCommandsComplete := by
  unfold Obligations.MaintenanceCommandsComplete
  refine ⟨fun t s hdue => ⟨_, execMaintPeriod_of_due hdue, rfl⟩, ?copies, fun list s => ⟨_, rfl, rfl⟩, ?fold, ?free, ?sweep, ?step⟩
  case copies =>
    intro list ca cb g l rest v s hreorg hs id pick hlists hversion hall hruns hidle
    exact ⟨fun hmerge hroom => ⟨_, execSplitCopyComplete_of_merge hreorg rfl hlists hversion hall hruns hidle hmerge hroom, rfl⟩,
      fun hsplit hroom => ⟨_, execSplitCopyComplete_of_split hreorg rfl hlists hversion hall hruns hidle hsplit hroom, rfl⟩⟩
  case fold =>
    intro handle f l v s hfold hlist hversion hopen hclosed b hruns hroom hsize a
    exact ⟨_, execFoldBuildComplete_of_closed hfold hlist hversion hopen hclosed hruns hroom hsize, rfl⟩
  case free =>
    intro seg h e l g s hlist hseg huntil hclosed hbatches hsnaps hfolds segs a
    exact ⟨_, execSegmentFree_of_unneeded hlist hseg huntil hclosed hbatches hsnaps hfolds, rfl⟩
  case sweep => exact fun t edges named s hdue hruns => ⟨_, execEdgeSweep_of_due hdue hruns ⟨edges, named⟩, rfl⟩
  case step =>
    intro step n centroid s htiles hruns
    exact ⟨fun hstep => ⟨_, execMaintStepComplete_of_refit htiles hruns hstep centroid, rfl⟩,
      fun hstep => ⟨_, execMaintStepComplete_of_fit htiles hruns hstep centroid, rfl⟩⟩

end Sys2Proof.Machine
end

section
/-! SUPPORT. The commands on index versions, and the data of a deleted index (R116, R235 to R239, R400, R401, R536; logs 34, 88): one lemma per
command and case, then the statement on all of them. -/
namespace Sys2Proof.Machine

/-! ## Administration commands -/

section
variable {cmd : AdminCmd} {s : State}

/-- An owner's VERSION_CREATE that fits its index, with no other version of it under way, makes the version (R236, R536). -/
theorem execVersionCreate_of_fitting {a : State} {v : Version} {held : List Version} {i : IndexRec} {slot : Nat} {img : Image}
    (hruns : s.adminRuns cmd 0x30 0 true false = true) (ha : s.adminTaken cmd = a)
    (hv : parseVersion (adminInput cmd) a.epochs.open_ = v)
    (hheld : (a.catalog.versions.filter fun x => x.ns = v.ns && x.idx = v.idx) = held) (hform : versionFormOk (adminInput cmd) = true)
    (howner : a.ownerFail cmd.fn v.ns (some v.idx) = none) (hindex : a.idxAt v.ns v.idx a.epochs.open_ = some i)
    (hwidth : i.width = v.width) (hmetric : i.metric = v.metric) (hdim : i.dim = v.dim) (hcount : held.length < 3)
    (hnone : (held.any fun x => x.ver = v.ver || x.state == .building || x.state == .ready) = false)
    (himage : a.imageByDigest v.image = some (slot, img)) (hencoder : ∀ m, img.encoder = some m → m.outDim = v.dim) :
    execVersionCreate cmd s = .next ((a.createVersion v).adminDone (adminRef cmd) 0 [] []) := by
  rw [List.any_eq_false] at hnone
  have hnew : (held.any fun x => decide (x.ver = v.ver)) = false :=
    List.any_eq_false.2 fun x hx heq => hnone x hx (by rw [heq]; rfl)
  have hsettled : (held.any fun x => x.state == .building || x.state == .ready) = false :=
    List.any_eq_false.2 fun x hx heq => hnone x hx (by rw [Bool.or_assoc, heq, Bool.or_true])
  simp only [execVersionCreate, adminCommand_runs _ _ _ _ _ _ _ hruns, ha, hv, hheld, hform, howner, hindex, hnew, hwidth, hmetric, hdim,
    Nat.not_le.2 hcount, hsettled, himage, ge_iff_le, ne_eq, not_true_eq_false, decide_false, Bool.not_true, Bool.or_self, Bool.false_eq_true,
    if_false]
  cases henc : img.encoder with
  | none => rfl
  | some m => simp only [hencoder m henc, not_true_eq_false, decide_false, Bool.false_eq_true, if_false]

/-- VERSION_SWITCH of a READY version whose predecessor does not drain and whose image is installed: the leader announces the fourth epoch to
open, another module asks its leader (R77, R239; log 88). -/
theorem execVersionSwitch_of_ready {a : State} {ns idx ver : Nat} {v : Version} (hruns : s.adminRuns cmd 0x31 12 true false = true)
    (ha : s.adminTaken cmd = a) (hns : field cmd.entry 48 4 = ns) (hidx : field cmd.entry 52 4 = idx) (hver : field cmd.entry 56 4 = ver)
    (howner : a.ownerFail cmd.fn ns (some idx) = none) (hversion : a.versionOf ns idx ver = some v) (hready : v.state = .ready)
    (hdrains : a.oldDrains v = false) (himage : ((a.imageByDigest v.image).any fun x => !x.2.installed.isEmpty) = true)
    (hfirst : v.switchEpoch = 0) :
    execVersionSwitch cmd s = .next (if !a.leads then a.askSwitch (adminRef cmd) ns idx ver
      else ({ a.updVersion ns idx ver (fun v => { v with switchEpoch := a.epochs.open_ + 4 }) with
        epochs := { a.epochs with switches := a.epochs.switches ++ [(ver, ns, idx, a.epochs.open_ + 4)] } } : State).adminDone
          (adminRef cmd) 0 [] (leBytes 8 (a.epochs.open_ + 4))) := by
  simp only [execVersionSwitch, adminCommand_runs _ _ _ _ _ _ _ hruns, ha, hns, hidx, hver, howner, hversion, hready, hdrains, himage, hfirst,
    beq_self_eq_true, ne_eq, not_true_eq_false, Bool.not_true, Bool.or_self, Bool.false_eq_true, if_false]
  rfl

/-- VERSION_INFO answers the record and the state of a version to its index's owner (R400, R401). -/
theorem execVersionInfo_of_version {v : Version} (hruns : s.adminRuns cmd 0x32 12 true false = true)
    (howner : (s.adminTaken cmd).ownerFail cmd.fn (field cmd.entry 48 4) (some (field cmd.entry 52 4)) = none)
    (hversion : (s.adminTaken cmd).versionOf (field cmd.entry 48 4) (field cmd.entry 52 4) (field cmd.entry 56 4) = some v) :
    execVersionInfo cmd s =
      .next ((s.adminTaken cmd).adminDone (adminRef cmd) 0 (versionBytes v) (leBytes 1 (vstateCode v.state))) := by
  simp only [execVersionInfo, adminCommand_runs _ _ _ _ _ _ _ hruns, howner, hversion]

end

/-! ## The end of a build and of a version -/

/-- This home's part of a build ends: the records left are taken in, and the homes that have reported are noted (R238). -/
def State.endBuild (s : State) (ns idx ver : Nat) (reports : List BuildReport) (v : Version) : State :=
  (v.toBuild.foldl (fun s r => s.buildRecord ns idx ver r) s).updVersion ns idx ver fun v =>
    { v with toBuild := [], homesReady := reports.map (·.home) }

/-- A version of which every home has reported is READY, with its NORM_EST and its digest (R116, R238). -/
def State.readyVersion (s : State) (ns idx ver : Nat) (reports : List BuildReport) (v : Version) : State :=
  s.updVersion ns idx ver fun w =>
    let y : Version := { w with state := .ready, normEst := s.normEst v (reports.filter fun r => s.otherHomes.contains r.home) }
    { y with digest := shake256 ((versionBytes y).take 104) 64 }

/-- A build for which HBM has room ends, and the version is READY once every other home has reported (R116, R238, R251). -/
theorem execVersionBuildComplete_of_building {ns idx ver : Nat} {v : Version} {s : State} (reports : List BuildReport)
    (hversion : s.versionOf ns idx ver = some v) (hbuilding : v.state = .building) (hruns : s.maintRuns = true)
    (hroom : buildBytes v ≤ s.tierRoom 0 true) :
    let x := s.endBuild ns idx ver reports v
    execVersionBuildComplete ns idx ver reports s =
      .next (if x.otherHomes.all (reports.map (·.home)).contains then x.readyVersion ns idx ver reports v else x) := by
  simp only [execVersionBuildComplete, hversion, hbuilding, hruns, Nat.not_lt.2 hroom, decide_false, beq_self_eq_true, Bool.not_true, Bool.or_self,
    Bool.false_eq_true, if_false]
  rfl

/-- A DRAINING version that nothing reads leaves the catalog, and maintenance, once its directory entries can be freed (R112, R237, R239). -/
theorem execVersionFree_of_unheld {ns idx ver : Nat} {v : Version} {mine : List Nat} {s : State} (hversion : s.versionOf ns idx ver = some v)
    (hdraining : v.state = .draining) (hclosed : v.endEpoch.getD 0 ≤ s.usableClosed) (hfree : s.versionHeld v (v.endEpoch.getD 0) = false)
    (hmine : ((s.corpus.dir.filter fun kv => kv.2.state ≠ 0 && kv.2.ns = ns && kv.2.idx = idx && kv.2.version = ver).map (·.1)) = mine)
    (hspent : (mine.any fun k => (s.corpus.dir.get k).any fun e => e.frees ≥ 255) = false) :
    let d := (s.versionLists v).foldl (fun s kl => s.dropList kl.1) s
    let a := mine.foldl (fun s k => s.freeEntry k) (d.dropEdges mine)
    ∃ m : Maint, execVersionFree ns idx ver s = .next { a with
      catalog := { a.catalog with versions := a.catalog.versions.filter fun x => !(x.ns = ns && x.idx = idx && x.ver = ver) }, maint := m } := by
  simp only [execVersionFree, hversion, hdraining, Nat.not_lt.2 hclosed, hfree, hmine, hspent, decide_false, beq_self_eq_true, Bool.not_true,
    Bool.or_self, Bool.false_eq_true, if_false]
  exact ⟨_, rfl⟩

/-! ## The data of a deleted index -/

/-- A home that discards an index keeps no record of it (R235). -/
theorem records_discardIndex (s : State) (ns idx : Nat) :
    ∀ kr ∈ (s.discardIndex ns idx).corpus.records, ¬(kr.2.ns = ns ∧ kr.2.idx = idx) := by
  intro kr hkr hname
  have hkept := (List.mem_filter.1 hkr).2
  simp [hname] at hkept

/-- The last thing a home that discards an index sends is its report, with the number of records that went (R235). -/
theorem out_discardIndex (s : State) (ns idx : Nat) :
    ∃ sent, (s.discardIndex ns idx).out =
      sent ++ [.report 3 [ns, idx, (s.corpus.records.filter fun kr => kr.2.ns = ns && kr.2.idx = idx).length]] := ⟨_, rfl⟩

/-- A deleted index that no version and no snapshot needs loses its data here once, and is done with once every other home has reported
(R235). -/
theorem execIndexDataDiscard_of_unneeded {ns idx : Nat} {i : IndexRec} {s : State} (homes : List Nat)
    (hindex : (s.catalog.indices.find? fun i => i.ns = ns && i.idx = idx && i.deleted.isSome && !i.discarded) = some i)
    (hopen : i.deleted.getD 0 ≤ s.epochs.open_) (hsnaps : s.snapBelow (i.deleted.getD 0) = false)
    (hversions : (s.catalog.versions.any fun v => v.ns = ns && v.idx = idx) = false) :
    let d := if i.reported then s else s.discardIndex ns idx
    execIndexDataDiscard ⟨ns, idx⟩ homes s = .next (if d.otherHomes.all homes.contains then { d with catalog := { d.catalog with
      indices := replaceFirst (fun x => x.ns = ns && x.idx = idx && !x.discarded) (fun x => { x with discarded := true }) d.catalog.indices } }
      else d) := by
  simp only [execIndexDataDiscard, hindex, Nat.not_lt.2 hopen, hsnaps, hversions, decide_false, Bool.or_self, Bool.false_eq_true, if_false,
    Bool.not_eq_true', ← Bool.not_eq_true, ite_not]

/-- Settles O18: each command's lemma gives the state, case by case. -/
theorem versionCommandsComplete : Obligations.VersionCommandsComplete := by
  unfold Obligations.VersionCommandsComplete
  refine ⟨?create, ?build, ?switch, ?info, ?free, ?discard⟩
  case create =>
    intro cmd s i slot img hruns a v held hform howner hindex hwidth hmetric hdim hcount hnone himage hencoder
    exact ⟨_, execVersionCreate_of_fitting hruns rfl rfl rfl hform howner hindex hwidth hmetric hdim hcount hnone himage hencoder, rfl⟩
  case build =>
    intro ns idx ver reports v s hversion hbuilding hruns hroom x
    exact ⟨_, execVersionBuildComplete_of_building reports hversion hbuilding hruns hroom,
      fun hsome => if_neg (Bool.eq_false_iff.1 hsome), fun hall => if_pos hall⟩
  case switch =>
    intro cmd s v hruns a ns idx ver howner hversion hready hdrains himage hfirst
    exact ⟨_, execVersionSwitch_of_ready hruns rfl rfl rfl rfl howner hversion hready hdrains himage hfirst,
      fun hasks => if_pos (by rw [hasks]; rfl), fun hleads => if_neg (by rw [hleads]; decide)⟩
  case info =>
    intro cmd s v hruns a howner hversion
    exact ⟨_, execVersionInfo_of_version hruns howner hversion, rfl⟩
  case free =>
    intro ns idx ver v s hversion hdraining hclosed hfree mine hspent
    obtain ⟨m, hnext⟩ := execVersionFree_of_unheld hversion hdraining hclosed hfree rfl hspent
    refine ⟨_, hnext, fun x hx hname => ?_⟩
    have hkept := (List.mem_filter.1 hx).2
    simp [hname] at hkept
  case discard =>
    intro ns idx i s hindex hopen hsnaps hversions d
    refine ⟨fun homes => ⟨_, execIndexDataDiscard_of_unneeded homes hindex hopen hsnaps hversions, rfl⟩, fun hfirst => ?_⟩
    have hd : d = s.discardIndex ns idx := if_neg (Bool.eq_false_iff.1 hfirst)
    rw [hd, List.length_map]
    exact ⟨records_discardIndex s ns idx, out_discardIndex s ns idx⟩

end Sys2Proof.Machine
end

section
/-! SUPPORT. Integers of bounded magnitude among the exact values, from the operands of a product to a block's sum (R122, R160, R161). -/
namespace Sys2Proof.Machine

/-- The value is an integer of magnitude at most `b`, under no power of two; a zero may have either sign. -/
def FVal.WholeUpTo (b : Nat) (x : FVal) : Prop := ∃ neg m, x = .fin neg m 0 ∧ m ≤ b

theorem FVal.WholeUpTo.mono {b c : Nat} {x : FVal} (h : x.WholeUpTo b) (hbc : b ≤ c) : x.WholeUpTo c := by
  obtain ⟨neg, m, rfl, hm⟩ := h
  exact ⟨neg, m, rfl, Nat.le_trans hm hbc⟩

theorem wholeUpTo_intFVal {v : Int} {b : Nat} (h : v.natAbs ≤ b) : (intFVal v).WholeUpTo b := ⟨_, _, rfl, h⟩

/-! ## Activations -/

theorem natAbs_ite_neg (p : Prop) [Decidable p] (n : Nat) : (if p then -(n : Int) else n).natAbs = n := by
  split
  · rw [Int.natAbs_neg, Int.natAbs_natCast]
  · exact Int.natAbs_natCast n

/-- Rounding to an integer format saturates (R122). -/
theorem natAbs_roundInt_le (maxMag : Nat) (x : FVal) : (roundInt maxMag x).natAbs ≤ maxMag := by
  cases x with
  | nan => exact Nat.zero_le _
  | inf neg => exact Nat.le_of_eq (natAbs_ite_neg _ _)
  | fin neg m e => exact Nat.le_trans (Nat.le_of_eq (natAbs_ite_neg _ _)) (Nat.min_le_right _ _)

/-- A quotient saturates at the format's largest magnitude (R122, R161): it is zero, an infinity rounded, or a least of two. -/
theorem natAbs_quotInt_le (n : Nat) (x s : F32) : (quotInt n x s).natAbs ≤ intMax n := by
  have hzero : (0 : Int).natAbs ≤ intMax n := Nat.zero_le _
  unfold quotInt
  split
  case h_4 => exact natAbs_roundInt_le _ _
  case h_6 =>
    split
    · split
      · exact hzero
      · exact natAbs_roundInt_le _ _
    · exact Nat.le_trans (Nat.le_of_eq (natAbs_ite_neg _ _)) (Nat.min_le_right _ _)
  all_goals exact hzero

/-- The elements of an integer activation row are integers within the larger format's bound (R161). -/
theorem wholeUpTo_of_mem_activationRow {f : NumFmt} (hf : f = .int8 ∨ f = .int4) {scale : F32} {xs : List F32} {p : FVal}
    (hp : p ∈ (activationRow f scale xs).vals) : p.WholeUpTo 128 := by
  obtain rfl | rfl := hf
  all_goals
    obtain ⟨x, -, rfl⟩ := List.mem_map.1 hp
    exact wholeUpTo_intFVal (Nat.le_trans (natAbs_quotInt_le _ x scale) (by decide))

/-! ## Weight codes -/

/-- A two's-complement integer of n bits has magnitude at most 2^(n−1). -/
theorem wholeUpTo_intVal {n c : Nat} (hn : 0 < n) (hc : c < 2 ^ n) : (intVal n c).WholeUpTo (2 ^ (n - 1)) := by
  have hdouble : 2 ^ (n - 1) * 2 = 2 ^ n := Nat.two_pow_pred_mul_two hn
  unfold intVal
  split
  case isTrue hbit =>
    have hlow : 2 ^ (n - 1) ≤ c := Nat.ge_two_pow_of_testBit hbit
    exact ⟨_, _, rfl, by omega⟩
  case isFalse hbit =>
    refine ⟨_, _, rfl, Nat.le_of_lt (Nat.lt_pow_two_of_testBit c fun i hi => ?_)⟩
    obtain rfl | hgt := Nat.eq_or_lt_of_le hi
    · exact Bool.eq_false_iff.2 hbit
    · exact Nat.testBit_lt_two_pow (Nat.lt_of_lt_of_le hc (Nat.pow_le_pow_right Nat.two_pos (by omega)))

/-- The elements of an integer weight row are integers within the larger format's bound. -/
theorem wholeUpTo_of_mem_weightRow {f : NumFmt} (hf : f = .int8 ∨ f = .int4) {codes scales : List Nat} {p : FVal}
    (hp : p ∈ (weightRow f codes scales).vals) : p.WholeUpTo 128 := by
  obtain ⟨c, -, rfl⟩ := List.mem_map.1 hp
  obtain rfl | rfl := hf
  · exact wholeUpTo_intVal (n := 8) (by decide) (Nat.mod_lt c (by decide))
  · exact (wholeUpTo_intVal (n := 4) (by decide) (Nat.mod_lt c (by decide))).mono (by decide)

/-! ## Sums of products -/

/-- The product of integers is an integer within the product of their bounds. -/
theorem wholeUpTo_mulVal {b c : Nat} {x y : FVal} (hx : x.WholeUpTo b) (hy : y.WholeUpTo c) : (mulVal x y).WholeUpTo (b * c) := by
  obtain ⟨neg, m, rfl, hm⟩ := hx
  obtain ⟨neg', m', rfl, hm'⟩ := hy
  exact ⟨_, _, rfl, Nat.mul_le_mul hm hm'⟩

/-- Under no power of two a sign and a magnitude are the integer they spell. -/
theorem signedAt_zero (neg : Bool) (m : Nat) : signedAt neg m 0 0 = if neg then -(m : Int) else m := by
  simp only [signedAt, Int.sub_self, Int.toNat_zero, Nat.pow_zero, Nat.mul_one]

theorem signedAt_natAbs (v : Int) : signedAt (decide (v < 0)) v.natAbs 0 0 = v := by
  rw [signedAt_zero]
  by_cases hv : v < 0
  · rw [if_pos (decide_eq_true hv)]; omega
  · rw [if_neg (mt of_decide_eq_true hv)]; omega

/-- The sum of integers is the integer that is their sum. -/
theorem addVal_intFVal_fin (v : Int) (neg : Bool) (m : Nat) : addVal (intFVal v) (.fin neg m 0) = intFVal (v + signedAt neg m 0 0) := by
  simp only [addVal, intFVal, Int.min_self, signedAt_natAbs]

/-- A running sum of integers of magnitude at most `b` stays an integer, and each summand moves it by at most `b`. -/
theorem foldl_addVal_intFVal {b : Nat} (ps : List FVal) (h : ∀ p ∈ ps, p.WholeUpTo b) (v : Int) :
    ∃ w : Int, ps.foldl addVal (intFVal v) = intFVal w ∧ w.natAbs ≤ v.natAbs + ps.length * b := by
  induction ps generalizing v with
  | nil => exact ⟨v, rfl, Nat.le_add_right _ _⟩
  | cons p ps ih =>
    obtain ⟨⟨neg, m, rfl, hm⟩, hps⟩ := List.forall_mem_cons.1 h
    obtain ⟨w, hw, hwle⟩ := ih hps (v + signedAt neg m 0 0)
    refine ⟨w, by rw [List.foldl_cons, addVal_intFVal_fin, hw], ?_⟩
    have hstep : (v + signedAt neg m 0 0).natAbs ≤ v.natAbs + m := by
      rw [signedAt_zero]
      exact Nat.le_trans (Int.natAbs_add_le _ _) (Nat.add_le_add_left (Nat.le_of_eq (natAbs_ite_neg _ _)) _)
    rw [List.length_cons, Nat.succ_mul]
    omega

/-- The exact sum of a block of integer products is an integer of at most the bounds' product for each pair (R160). -/
theorem blockSum_of_wholeUpTo {b c : Nat} {xs ys : List FVal} (hx : ∀ x ∈ xs, x.WholeUpTo b) (hy : ∀ y ∈ ys, y.WholeUpTo c) :
    ∃ v : Int, blockSum xs ys = intFVal v ∧ v.natAbs ≤ xs.length * (b * c) := by
  have hproducts : ∀ p ∈ List.zipWith mulVal xs ys, p.WholeUpTo (b * c) := by
    intro p hp
    rw [← List.map_uncurry_zip_eq_zipWith] at hp
    obtain ⟨xy, hxy, rfl⟩ := List.mem_map.1 hp
    obtain ⟨hxmem, hymem⟩ := List.of_mem_zip hxy
    exact wholeUpTo_mulVal (hx _ hxmem) (hy _ hymem)
  obtain ⟨v, hv, hvle⟩ := foldl_addVal_intFVal _ hproducts 0
  refine ⟨v, hv, Nat.le_trans hvle ?_⟩
  rw [Int.natAbs_zero, Nat.zero_add, List.length_zipWith]
  exact Nat.mul_le_mul_right _ (Nat.min_le_left _ _)

/-- Settles O49: each operand is an integer of magnitude at most 2^7, and 32 products of two of them sum to at most 2^19. -/
theorem integerBlocksAreSmall : Obligations.IntegerBlocksAreSmall := by
  unfold Obligations.IntegerBlocksAreSmall
  intro whole a b ha hb hlength
  have hwhole : ∀ r : ProdRow, whole r → ∀ p ∈ r.vals, p.WholeUpTo 128 := by
    rintro r (⟨scale, xs, rfl | rfl⟩ | ⟨codes, rfl | rfl⟩) p hp
    · exact wholeUpTo_of_mem_activationRow (.inl rfl) hp
    · exact wholeUpTo_of_mem_activationRow (.inr rfl) hp
    · exact wholeUpTo_of_mem_weightRow (.inl rfl) hp
    · exact wholeUpTo_of_mem_weightRow (.inr rfl) hp
  obtain ⟨v, hv, hvle⟩ := blockSum_of_wholeUpTo (hwhole a ha) (hwhole b hb)
  refine ⟨v, hv, ?_⟩
  calc v.natAbs ≤ a.vals.length * (128 * 128) := hvle
    _ ≤ 32 * (128 * 128) := Nat.mul_le_mul_right _ hlength
    _ = 2 ^ 19 := by decide

end Sys2Proof.Machine
end

section
/-! SUPPORT. Who may search a namespace at a snapshot epoch (R182, R185, R187, R188). -/
namespace Sys2Proof.Machine

/-- The existence of `existsAt_iff` with the end of it as a bound: every epoch of deletion lies ahead (R187). -/
theorem existsAt_iff_le_and_lt {created e : Nat} {deleted : Option Nat} :
    existsAt created deleted e = true ↔ created ≤ e ∧ ∀ u, deleted = some u → e < u := by
  cases deleted <;> simp [existsAt_iff]

/-- The grant of a namespace to a tenant that is valid at an epoch, where there is one (R187). -/
def State.grantAt (s : State) (ns tenant e : Nat) : Option Grant :=
  s.catalog.grants.find? fun g => g.ns = ns && g.grantee = tenant && existsAt g.from_ g.until_ e

section
variable {s : State} {ns tenant e : Nat}

/-- A grant that is found is one of the catalog's, names the namespace and the tenant, and is valid at the epoch. -/
theorem grantAt_eq_some {g : Grant} (h : s.grantAt ns tenant e = some g) :
    g ∈ s.catalog.grants ∧ g.ns = ns ∧ g.grantee = tenant ∧ existsAt g.from_ g.until_ e = true := by
  have hvalid := List.find?_some h
  simp only [Bool.and_eq_true, decide_eq_true_eq, and_assoc] at hvalid
  exact ⟨List.mem_of_find?_eq_some h, hvalid⟩

/-- A grant is found exactly where the catalog holds one that is valid at the epoch. -/
theorem grantAt_isSome_iff :
    (s.grantAt ns tenant e).isSome = true ↔ ∃ g ∈ s.catalog.grants, g.ns = ns ∧ g.grantee = tenant ∧ existsAt g.from_ g.until_ e = true := by
  simp only [State.grantAt, List.find?_isSome, Bool.and_eq_true, decide_eq_true_eq, and_assoc]

/-! ## The cases of the test -/

/-- The unbound and the reserved tenant pass nowhere (R182). -/
theorem tenantTest_of_unbound (h : tenant = 0 ∨ tenant = 0xFFFF) : s.tenantTest tenant ns e = none := if_pos h

/-- Nobody passes where no namespace exists. -/
theorem tenantTest_of_nsAt_none (h : s.nsAt ns e = none) : s.tenantTest tenant ns e = none := by
  unfold State.tenantTest
  rw [h]
  exact ite_self none

variable {n : Namespace} (hzero : tenant ≠ 0) (hreserved : tenant ≠ 0xFFFF) (hns : s.nsAt ns e = some n)
include hzero hreserved hns

/-- The owner passes with no forced groups; another tenant passes under its grant while the mode is DELEGATED (R185, R187, R188). -/
theorem tenantTest_of_nsAt_some :
    s.tenantTest tenant ns e =
      if n.owner = tenant then some 0 else if s.modeAt e = 1 then (s.grantAt ns tenant e).map (·.groups) else none := by
  unfold State.tenantTest
  rw [if_neg (not_or.2 ⟨hzero, hreserved⟩), hns]
  rfl

theorem tenantTest_of_owner (howner : n.owner = tenant) : s.tenantTest tenant ns e = some 0 :=
  (tenantTest_of_nsAt_some hzero hreserved hns).trans (if_pos howner)

theorem tenantTest_of_ownerOnly (howner : n.owner ≠ tenant) (hmode : s.modeAt e ≠ 1) : s.tenantTest tenant ns e = none := by
  rw [tenantTest_of_nsAt_some hzero hreserved hns, if_neg howner, if_neg hmode]

theorem tenantTest_of_delegated (howner : n.owner ≠ tenant) (hmode : s.modeAt e = 1) :
    s.tenantTest tenant ns e = (s.grantAt ns tenant e).map (·.groups) := by
  rw [tenantTest_of_nsAt_some hzero hreserved hns, if_neg howner, if_pos hmode]

end

/-- Settles O44, by the cases of the test: no tenant, no namespace, the owner, another tenant under each mode. -/
theorem tenantTestPasses : Obligations.TenantTestPasses := by
  unfold Obligations.TenantTestPasses
  refine fun s tenant ns e => ⟨?nobody, fun n hzero hreserved hns => ⟨?owner, ?ownerOnly, ?delegated⟩⟩
  case nobody =>
    rintro (hzero | hreserved | hns)
    · exact tenantTest_of_unbound (.inl hzero)
    · exact tenantTest_of_unbound (.inr hreserved)
    · exact tenantTest_of_nsAt_none hns
  case owner => exact tenantTest_of_owner hzero hreserved hns
  case ownerOnly => exact tenantTest_of_ownerOnly hzero hreserved hns
  case delegated =>
    intro howner hmode
    rw [tenantTest_of_delegated hzero hreserved hns howner hmode, Option.isSome_map]
    refine ⟨by simp only [grantAt_isSome_iff, existsAt_iff_le_and_lt], fun m hm => ?_⟩
    obtain ⟨g, hg, rfl⟩ := Option.map_eq_some_iff.1 hm
    obtain ⟨hmem, hname, hgrantee, hvalid⟩ := grantAt_eq_some hg
    exact ⟨g, hmem, hname, hgrantee, hvalid, rfl⟩

end Sys2Proof.Machine
end

section
/-! SUPPORT. The catalog commands (R186, R234, R235, R248, R360, R400; log 36): one lemma per command, then the statement on all of them. -/
namespace Sys2Proof.Machine

/-! ## Namespaces and indices -/

section
variable {cmd : AdminCmd} {s a : State} {ns idx : Nat} (ha : s.adminTaken cmd = a) (hns : field cmd.entry 48 4 = ns)
include ha hns

/-- NAMESPACE_CREATE of an ID that is free, for a tenant that can own, below the limit on namespaces, schedules the creation (R233, R234). -/
theorem execNamespaceCreate_of_free {owner : Nat} (hruns : s.adminRuns cmd 0x33 6 true true = true) (howner : field cmd.entry 52 2 = owner)
    (hbound : owner ≠ 0) (hreserved : owner ≠ 0xFFFF) (hzero : ns ≠ 0) (hones : ns ≠ 0xFFFFFFFF) (hfree : a.nsUsed ns = false)
    (hroom : a.nsCount < 4096) :
    execNamespaceCreate cmd s = .next (a.schedule (some (adminRef cmd)) fun f => .nsCreate { ns, owner, created := f }) := by
  simp only [execNamespaceCreate, adminCommand_runs _ _ _ _ _ _ _ hruns, ha, hns, howner, hbound, hreserved, hzero, hones, hfree,
    Nat.not_le.2 hroom, ge_iff_le, decide_false, Bool.or_self, Bool.false_eq_true, if_false]

/-- NAMESPACE_DELETE of a namespace without an index, now or to come, schedules the deletion (R234, R235). -/
theorem execNamespaceDelete_of_empty (hruns : s.adminRuns cmd 0x34 4 true true = true) (hexists : (a.nsAt ns a.epochs.open_).isSome = true)
    (hempty : (a.catalog.indices.any fun i => i.ns = ns && i.deleted.isNone && !a.idxEnding ns i.idx) = false)
    (hcoming : a.idxComing ns = false) :
    execNamespaceDelete cmd s = .next (a.schedule (some (adminRef cmd)) fun _ => .nsDelete ns) := by
  simp only [execNamespaceDelete, adminCommand_runs _ _ _ _ _ _ _ hruns, ha, hns, Option.isNone_eq_false_iff.2 hexists, hempty, hcoming,
    Bool.or_self, Bool.false_eq_true, if_false]

/-- An owner's INDEX_CREATE of an ID that is free, with a defined form, below the limit on indices, schedules the creation (R233, R234). -/
theorem execIndexCreate_of_free {metric width dim : Nat} (hruns : s.adminRuns cmd 0x35 12 true false = true) (hidx : field cmd.entry 52 4 = idx)
    (hm : field cmd.entry 56 1 = metric) (hw : field cmd.entry 57 1 = width) (hd : field cmd.entry 58 2 = dim) (hmetric : metric ≤ 3)
    (hwidth : width ≤ 3) (hdim : 1 ≤ dim) (hmost : dim ≤ 4096) (hzero : idx ≠ 0) (hones : idx ≠ 0xFFFFFFFF)
    (howner : a.ownerFail cmd.fn ns none = none) (hfree : a.idxUsed ns idx = false) (hroom : a.idxCount < 16384) :
    execIndexCreate cmd s = .next (a.schedule (some (adminRef cmd)) fun f => .idxCreate { ns, idx, metric, width, dim, created := f }) := by
  simp only [execIndexCreate, adminCommand_runs _ _ _ _ _ _ _ hruns, ha, hns, hidx, hm, hw, hd, Nat.not_lt.2 hmetric, Nat.not_lt.2 hwidth,
    Nat.one_le_iff_ne_zero.1 hdim, Nat.not_lt.2 hmost, hzero, hones, howner, hfree, Nat.not_le.2 hroom, ge_iff_le, decide_false,
    Bool.or_self, Bool.false_eq_true, if_false]

/-- An owner's INDEX_DELETE schedules the deletion (R234, R235). -/
theorem execIndexDelete_of_owner (hruns : s.adminRuns cmd 0x36 8 true false = true) (hidx : field cmd.entry 52 4 = idx)
    (howner : a.ownerFail cmd.fn ns (some idx) = none) :
    execIndexDelete cmd s = .next (a.schedule (some (adminRef cmd)) fun _ => .idxDelete ns idx) := by
  simp only [execIndexDelete, adminCommand_runs _ _ _ _ _ _ _ hruns, ha, hns, hidx, howner]

end

/-! ## Grants -/

/-- A new grant of a namespace that nothing but its caller's rights can refuse: its grantee is another tenant, that has no grant and waits for none,
it forces some group, and fewer than 16 grants count against the limit (R186). -/
structure State.GrantFits (s : State) (ns grantee groups : Nat) : Prop where
  bound : grantee ≠ 0
  unreserved : grantee ≠ 0xFFFF
  forces : groups ≠ 0
  notOwner : ((s.nsAt ns s.epochs.open_).any fun n => n.owner = grantee) = false
  fresh : s.grantFor ns grantee = none
  unawaited : s.grantWaits ns grantee true = false
  room : s.grantCount ns < 16

section
variable {cmd : AdminCmd} {s a : State} {ns grantee groups : Nat}

/-- The owner's function is refused no grant that fits. -/
theorem grantFail_of_owner {fn : Nat} (h : s.GrantFits ns grantee groups) (howner : s.ownerFail fn ns none = none) :
    s.grantFail (some fn) ns grantee groups = none := by
  simp only [State.grantFail, h.bound, h.unreserved, h.forces, howner, h.notOwner, h.fresh, h.unawaited, Nat.not_le.2 h.room,
    Option.isSome_none, Bool.false_and, decide_false, Bool.or_self, Bool.false_eq_true, if_false]

/-- The management firmware is refused no grant that fits a namespace that exists. -/
theorem grantFail_of_firmware (h : s.GrantFits ns grantee groups) (hexists : (s.nsAt ns s.epochs.open_).isSome = true) :
    s.grantFail none ns grantee groups = none := by
  simp only [State.grantFail, h.bound, h.unreserved, h.forces, Option.isNone_eq_false_iff.2 hexists, h.notOwner, h.fresh, h.unawaited,
    Nat.not_le.2 h.room, Option.isSome_none, Bool.false_and, decide_false, Bool.or_self, Bool.false_eq_true, if_false]

variable (hns : field cmd.entry 48 4 = ns) (hgrantee : field cmd.entry 52 2 = grantee)
include hns hgrantee

/-- An owner's GRANT_CREATE of a grant that fits schedules the grant (R186). -/
theorem execGrantCreate_of_owner (hruns : s.adminRuns cmd 0x40 12 (allZero cmd.entry 54 2) false = true) (ha : s.adminTaken cmd = a)
    (hgroups : field cmd.entry 56 4 = groups) (hfits : a.GrantFits ns grantee groups) (howner : a.ownerFail cmd.fn ns none = none) :
    execGrantCreate ⟨cmd, false⟩ s =
      .next (a.schedule (some (adminRef cmd)) fun f => .grantCreate { ns, grantee, groups, from_ := f }) := by
  simp only [execGrantCreate, adminCommand_runs _ _ _ _ _ _ _ hruns, ha, hns, hgrantee, hgroups, grantFail_of_owner hfits howner,
    Bool.false_eq_true, if_false]

/-- The management firmware's GRANT_CREATE of a grant that fits schedules the grant, and no command waits for it (R186). -/
theorem execGrantCreate_of_firmware (hgroups : field cmd.entry 56 4 = groups) (hfits : s.GrantFits ns grantee groups)
    (hexists : (s.nsAt ns s.epochs.open_).isSome = true) :
    execGrantCreate ⟨cmd, true⟩ s = .next (s.schedule none fun f => .grantCreate { ns, grantee, groups, from_ := f }) := by
  simp only [execGrantCreate, hns, hgrantee, hgroups, grantFail_of_firmware hfits hexists, Option.isSome_none, Bool.false_eq_true, if_false,
    if_true]

/-- An owner's GRANT_REVOKE of a grant that is current and not being revoked schedules the revocation (R186). -/
theorem execGrantRevoke_of_owner (hruns : s.adminRuns cmd 0x41 6 true false = true) (ha : s.adminTaken cmd = a)
    (howner : a.ownerFail cmd.fn ns none = none) (hcurrent : (a.grantFor ns grantee).isSome = true)
    (hfirst : a.grantWaits ns grantee false = false) :
    execGrantRevoke ⟨cmd, false⟩ s = .next (a.schedule (some (adminRef cmd)) fun _ => .grantRevoke ns grantee) := by
  simp only [execGrantRevoke, State.revokeFail, adminCommand_runs _ _ _ _ _ _ _ hruns, ha, hns, hgrantee, howner,
    Option.isNone_eq_false_iff.2 hcurrent, hfirst, Bool.or_self, Bool.false_eq_true, if_false]

end

/-! ## Feature tables -/

/-- A feature table joins the module's, and its shards take their places (R248, R360). -/
def State.addTable (s : State) (t : FeatTable) : State :=
  ({ s with exchange := { s.exchange with tables := s.exchange.tables ++ [t] } } : State).syncFeatures

/-- An owner's TABLE_CREATE with a form in range, of an ID that no table of the namespace has, makes the table with its default row at once
(R360). -/
theorem execTableCreate_of_free {cmd : AdminCmd} {s a : State} {table ns rows bytes log : Nat}
    (hruns : s.adminRuns cmd 0x42 32 (allZero cmd.entry 67 13) false = true) (ha : s.adminTaken cmd = a)
    (htable : field (cmd.entry.drop 48) 0 4 = table) (hns : field (cmd.entry.drop 48) 4 4 = ns) (hrows : field (cmd.entry.drop 48) 8 8 = rows)
    (hbytes : field (cmd.entry.drop 48) 16 2 = bytes) (hlog : field (cmd.entry.drop 48) 18 1 = log) (hrow : 1 ≤ rows) (hmost : rows ≤ 2 ^ 40)
    (hshort : 8 ≤ bytes) (hlong : bytes ≤ 1024) (hwords : bytes % 8 = 0) (hsmall : 16 ≤ log) (hlarge : log ≤ 24)
    (hdefault : (adminInput cmd).length = bytes) (howner : a.ownerFail cmd.fn ns none = none)
    (hfree : (a.exchange.tables.any fun t => t.table = table && t.ns = ns && t.deletedAt.isNone) = false) :
    execTableCreate cmd s = .next
      ((a.addTable { table, ns, rows, rowBytes := bytes, shardLog := log, default_ := adminInput cmd }).adminDone (adminRef cmd) 0 [] []) := by
  simp only [execTableCreate, adminCommand_runs _ _ _ _ _ _ _ hruns, ha, htable, hns, hrows, hbytes, hlog, Nat.one_le_iff_ne_zero.1 hrow,
    Nat.not_lt.2 hmost, Nat.not_lt.2 hshort, Nat.not_lt.2 hlong, hwords, Nat.not_lt.2 hsmall, Nat.not_lt.2 hlarge, hdefault, howner, hfree,
    ne_eq, not_true_eq_false, decide_false, Bool.or_self, Bool.false_eq_true, if_false]
  rfl

/-- Settles O17: each command's lemma gives the state, as the change that `State.schedule` schedules. -/
theorem catalogCommandsComplete : Obligations.CatalogCommandsComplete := by
  unfold Obligations.CatalogCommandsComplete
  intro cmd s a sched scheduled ns idx who
  have hsched : ∀ x r c, State.schedule x r c = sched x r c := fun _ _ _ => rfl
  refine ⟨?nsCreate, ?nsDelete, ?idxCreate, ?idxDelete, ?grantByOwner, ?grantByFirmware, ?revoke, ?table⟩
  case nsCreate =>
    intro hruns hbound hreserved hzero hones hfree hroom
    exact ⟨_, execNamespaceCreate_of_free rfl rfl hruns rfl hbound hreserved hzero hones hfree hroom, hsched _ _ _⟩
  case nsDelete =>
    intro hruns hexists hempty hcoming
    exact ⟨_, execNamespaceDelete_of_empty rfl rfl hruns hexists hempty hcoming, hsched _ _ _⟩
  case idxCreate =>
    intro hruns hmetric hwidth hdim hmost hzero hones howner hfree hroom
    exact ⟨_, execIndexCreate_of_free rfl rfl hruns rfl rfl rfl rfl hmetric hwidth hdim hmost hzero hones howner hfree hroom, hsched _ _ _⟩
  case idxDelete =>
    intro hruns howner
    exact ⟨_, execIndexDelete_of_owner rfl rfl hruns rfl howner, hsched _ _ _⟩
  case grantByOwner =>
    intro hruns hbound hreserved hgroups howner hother hfresh hunawaited hroom
    exact ⟨_, execGrantCreate_of_owner rfl rfl hruns rfl rfl ⟨hbound, hreserved, hgroups, hother, hfresh, hunawaited, hroom⟩ howner, hsched _ _ _⟩
  case grantByFirmware =>
    intro hbound hreserved hgroups hexists hother hfresh hunawaited hroom
    exact ⟨_, execGrantCreate_of_firmware rfl rfl rfl ⟨hbound, hreserved, hgroups, hother, hfresh, hunawaited, hroom⟩ hexists, hsched _ _ _⟩
  case revoke =>
    intro hruns howner hcurrent hfirst
    exact ⟨_, execGrantRevoke_of_owner rfl rfl hruns rfl howner hcurrent hfirst, hsched _ _ _⟩
  case table =>
    intro table tns rows bytes log hruns htable hns hrows hbytes hlog hrow hmost hshort hlong hwords hsmall hlarge hdefault howner hfree
    exact ⟨_, execTableCreate_of_free hruns rfl htable.symm hns.symm hrows.symm hbytes.symm hlog.symm hrow hmost hshort hlong hwords hsmall
      hlarge hdefault howner hfree, rfl⟩

end Sys2Proof.Machine
end

section
/-! SUPPORT. Writes of one scalar object (R183, R185, R202, R420, R425, R427, R430, R453, R459, R461, R478, R484; log 73): when a write is
accepted, what an accepted one does to any object, and one lemma per command, then the statement on all of them. -/
namespace Sys2Proof.Machine

/-! ## Checks -/

/-- Is a row the definition of a scalar of some bytes that can be written, and whose access no accessor meets otherwise (R411, R412, R414)? -/
def ObjRow.isScalarAt (d : ObjRow) (index sub bytes : Nat) : Bool :=
  decide (objDef index sub = some d) && (highestSub index).isSome && decide (d.access ≠ .ro) && decide (d.ty ≠ 8) && decide (d.len = bytes) &&
    decide (index ≠ 0x2B20)

/-- Every check of a write from ABORT_STATE on passes (R537). -/
structure State.AcceptsWrite (s : State) (who : Accessor) (index sub : Nat) (d : ObjRow) (v spentModules : Nat) : Prop where
  state : s.stateRefuses who index sub d v = false
  range : s.rangeOk index sub d v = true
  limit : s.limitRefuses index v = false
  budget : s.budgetRefuses index sub v spentModules d = false
  store : s.dict.storeFailed = false ∨ persists index sub d.access = false

section
variable {s : State} {who : Accessor} {index sub v spentModules : Nat} {d : ObjRow}

theorem writeStatus_of_accepts (h : s.AcceptsWrite who index sub d v spentModules) : s.writeStatus who index sub d v spentModules = 0 := by
  have hstore : (s.dict.storeFailed && persists index sub d.access) = false := Bool.and_eq_false_iff.2 h.store
  simp only [State.writeStatus, h.state, h.range, h.limit, h.budget, hstore, Bool.not_true, Bool.false_eq_true, if_false]

theorem writeStatus_of_stateRefuses (h : s.stateRefuses who index sub d v = true) : s.writeStatus who index sub d v spentModules = 7 := if_pos h

end

/-! ## What counting, budgets and the store leave as it is -/

section
variable (s : State) (who : Accessor)

@[simp] theorem noteAccess_dict : (s.noteAccess who).dict = s.dict := (noteAccess_reports s who).dict
@[simp] theorem noteAccess_mgmt : (s.noteAccess who).mgmt = s.mgmt := (noteAccess_reports s who).mgmt
@[simp] theorem noteAccess_tenants : (s.noteAccess who).tenants = s.tenants := (noteAccess_reports s who).tenants
@[simp] theorem noteAccess_pins : (s.noteAccess who).pins = s.pins := (noteAccess_reports s who).pins

@[simp] theorem noteAccess_leadsOthers : (s.noteAccess who).leadsOthers = s.leadsOthers := by
  simp only [State.leadsOthers, State.leads, noteAccess_mgmt, (noteAccess_reports s who).epochs]

/-- `t` has the management state and the settings of `s`; change budgets and the settings store may differ. -/
def SameSettings (s t : State) : Prop := t.mgmt = s.mgmt ∧ t.dict.settings = s.dict.settings

theorem spendBudget_sameSettings (index sub : Nat) (d : ObjRow) (v : Nat) : SameSettings s (s.spendBudget index sub d v) := by
  unfold State.spendBudget
  split
  · split <;> exact ⟨rfl, rfl⟩
  · exact ⟨rfl, rfl⟩

theorem recordStore_sameSettings (key tenant : Nat) (value : List Byte) : SameSettings s (s.recordStore key tenant value) := by
  unfold State.recordStore
  dsimp only
  split <;> exact ⟨rfl, rfl⟩

end

/-! ## What an accepted write records -/

/-- What an accepted write of a scalar does before its effect: the change budget advances, and the value joins the settings store where the object
persists (R423, R427). -/
def State.recordWrite (s : State) (index sub : Nat) (d : ObjRow) (v bytes : Nat) : State :=
  let a := s.spendBudget index sub d v
  if persists index sub d.access then a.recordStore (objKey index sub) 0 (leBytes bytes v) else a

section
variable {s : State} {index sub v bytes : Nat} {d : ObjRow}

theorem spendBudget_of_budgetOf_none (h : budgetOf index sub = none) : s.spendBudget index sub d v = s := by
  unfold State.spendBudget
  rw [h]

theorem recordWrite_of_persists (h : persists index sub d.access = true) :
    s.recordWrite index sub d v bytes = (s.spendBudget index sub d v).recordStore (objKey index sub) 0 (leBytes bytes v) := if_pos h

/-- A setting without a budget is recorded, and that is all. -/
theorem recordWrite_of_setting (hbudget : budgetOf index sub = none) (h : persists index sub d.access = true) :
    s.recordWrite index sub d v bytes = s.recordStore (objKey index sub) 0 (leBytes bytes v) := by
  rw [recordWrite_of_persists h, spendBudget_of_budgetOf_none hbudget]

/-- An object that acts on write records nothing. -/
theorem recordWrite_of_action (hbudget : budgetOf index sub = none) (h : persists index sub d.access = false) :
    s.recordWrite index sub d v bytes = s :=
  (if_neg (Bool.eq_false_iff.1 h)).trans (spendBudget_of_budgetOf_none hbudget)

theorem recordWrite_sameSettings : SameSettings s (s.recordWrite index sub d v bytes) := by
  obtain ⟨hmgmt, hsettings⟩ := spendBudget_sameSettings s index sub d v
  unfold State.recordWrite
  dsimp only
  split
  · obtain ⟨hmgmt', hsettings'⟩ := recordStore_sameSettings (s.spendBudget index sub d v) (objKey index sub) 0 (leBytes bytes v)
    exact ⟨hmgmt'.trans hmgmt, hsettings'.trans hsettings⟩
  · exact ⟨hmgmt, hsettings⟩

@[simp] theorem recordWrite_mgmt : (s.recordWrite index sub d v bytes).mgmt = s.mgmt := recordWrite_sameSettings.1

@[simp] theorem setting_recordWrite (i k dflt : Nat) : (s.recordWrite index sub d v bytes).setting i k dflt = s.setting i k dflt :=
  congrArg (fun x => Table.getD x (objKey i k) dflt) recordWrite_sameSettings.2

end

/-! ## One accepted write -/

/-- The answer SUCCESS goes out, and waiting requests go on (R420, R425; log 73). -/
def State.answerSuccess (s : State) : State := (s.emit (.response [0, 0, 0, 0])).resumeRequests

/-- Other modules answer only where their leader changes the isolation mode (R430). -/
theorem peersOf_of_quiet {s : State} {i : ObjItem} (h : (decide (i.index = 0x2030) && decide (i.sub = 2) && s.leadsOthers) = false)
    (given : Option (Nat × Nat)) : s.peersOf i given = (s, given.getD (0, 0)) := by
  unfold State.peersOf
  cases given with
  | some p => rfl
  | none =>
    refine if_neg ?_
    rw [Bool.and_assoc, Bool.and_assoc, ← Bool.and_assoc (decide (i.index = _)), h, Bool.and_false]
    exact Bool.false_ne_true

/-! ## Effects -/

/-- The definition of F_MAX: MHz in steps of 100 (R484, R486). -/
def fMaxRow : ObjRow := ⟨0x2C00, 0x2C00, 4, 4, 2, 2, .rw, 2100, 1000, 2100, 100, false⟩

/-- The definition of COMPOSITION_SEAL (R458). -/
abbrev sealRow : ObjRow := rwObj 0x2E01 1 1 0 0 1

/-- The definition of TENANT_ISOLATION_MODE (R203). -/
abbrev isolationRow : ObjRow := rwObj 0x2030 2 1 0 0 1

/-- The selected tenant's snapshot is requested, for the tenant of the first request that waits (R201, R202). -/
def State.requestTenantSnap (s : State) (who : Accessor) : State :=
  { s with dict := { s.dict with
    tenantSnap := requestSnap s.dict.tenantSnap s.time
    snapTenant := if s.dict.tenantSnap.busy then s.dict.snapTenant else s.tenantFor who } }

section
variable (s : State) (who : Accessor) (v : Nat)

theorem writeScalar_shedForce : s.writeScalar who 0x2C00 6 (rwObj 0x2C00 6 1 0 0 5) v = s.writeShedForce v := rfl
theorem writeScalar_fMax : s.writeScalar who 0x2C00 4 fMaxRow v = s.writeFMax v := rfl
theorem writeScalar_logBase : s.writeScalar who 0x2E0B 3 (rwObj 0x2E0B 3 4 0 0 (2 ^ 64 - 1)) v = s.setLogBase who v := rfl
theorem writeScalar_settingsDefault : s.writeScalar who 0x2E06 1 (woObj 0x2E06 1 1 1 1) v = s.restoreDefaults := by simp [State.writeScalar, woObj]
theorem writeScalar_tenantSnapReq : s.writeScalar who 0x2033 1 (woObj 0x2033 1 1 1 1) v = s.requestTenantSnap who := rfl
theorem writeScalar_tenantRemove : s.writeScalar who 0x2030 4 (woObj 0x2030 4 2 1 0xFFFE) v = s.removeTenant v := rfl

theorem writeScalar_seal_of_unsealed {s : State} (h : s.mgmt.sealed_ = false) :
    s.writeScalar who 0x2E01 1 sealRow 1 = (s.putSetting (objKey 0x2E01 1) 0 1).seal := by
  have hseal : s.writeScalar who 0x2E01 1 sealRow 1 =
      if s.mgmt.sealed_ then s.putSetting (objKey 0x2E01 1) 0 1 else (s.putSetting (objKey 0x2E01 1) 0 1).seal := rfl
  rw [hseal, h, if_neg Bool.false_ne_true]

theorem writeScalar_unseal : s.writeScalar who 0x2E01 1 sealRow 0 = (s.putSetting (objKey 0x2E01 1) 0 0).unseal := rfl

theorem writeScalar_isolation_of_ne {s : State} {v : Nat} (h : v ≠ s.setting 0x2030 2 0) :
    s.writeScalar who 0x2030 2 isolationRow v = (s.putSetting (objKey 0x2030 2) 0 v).setIsolation v := if_neg h

end

/-! ## Writes of the server -/

section
variable {s : State} {who : Accessor} (hup : s.mgmt.serverUp = true) (hrec : s.recoveryOffered = false)
include hup hrec

section
variable {index sub bytes v : Nat} {d : ObjRow} (hrow : d.isScalarAt index sub bytes = true) (hmay : mayWrite who index sub d.access = true)
  (hv : v < 256 ^ bytes) (given : Option (Nat × Nat)) (hquiet : (decide (index = 0x2030) && decide (sub = 2) && s.leadsOthers) = false)
include hrow hmay hv hquiet

/-- An accepted write of a scalar that is no tenant's is recorded and has its effect, and the answer is SUCCESS (R420, R423, R427). -/
theorem writeNow_of_accepts (htenant : index ≠ 0x2031)
    (h : (s.noteAccess who).AcceptsWrite who index sub d v (given.getD (0, 0)).1) :
    s.writeNow who index sub (leBytes bytes v) given =
      (((s.noteAccess who).recordWrite index sub d v bytes).writeScalar who index sub d v).answerSuccess := by
  simp only [ObjRow.isScalarAt, Bool.and_eq_true, decide_eq_true_eq] at hrow
  obtain ⟨⟨⟨⟨⟨hdef, hhigh⟩, haccess⟩, hty⟩, hlen⟩, hroute⟩ := hrow
  have hval : leNat (leBytes bytes v) = v := (leNat_leBytes bytes v).trans (Nat.mod_eq_of_lt hv)
  have hlen' : (leBytes bytes v).length = d.len := (leBytes_length bytes v).trans hlen.symm
  have hlead : (decide (index = 0x2030) && decide (sub = 2) && (s.noteAccess who).leadsOthers) = false := by
    rw [noteAccess_leadsOthers]; exact hquiet
  rw [writeNow_ok s who index sub _ given d _ hup hrec hdef (Option.isNone_eq_false_iff.2 hhigh) haccess hroute hmay hty hlen'
    (peersOf_of_quiet hquiet given) (by rw [hval]; exact writeStatus_of_accepts h)]
  simp only [hval, htenant, hlead, Bool.false_and, Bool.false_eq_true, if_false]
  rfl

/-- A write of a scalar that the present state refuses is answered ABORT_STATE, and does nothing else (R420, R537). -/
theorem writeNow_of_stateRefuses (h : (s.noteAccess who).stateRefuses who index sub d v = true) :
    s.writeNow who index sub (leBytes bytes v) given = ((s.noteAccess who).emit (.response [7, 0, 0, 0])).resumeRequests := by
  simp only [ObjRow.isScalarAt, Bool.and_eq_true, decide_eq_true_eq] at hrow
  obtain ⟨⟨⟨⟨⟨hdef, hhigh⟩, haccess⟩, hty⟩, hlen⟩, hroute⟩ := hrow
  have hval : leNat (leBytes bytes v) = v := (leNat_leBytes bytes v).trans (Nat.mod_eq_of_lt hv)
  have hlen' : (leBytes bytes v).length = d.len := (leBytes_length bytes v).trans hlen.symm
  exact writeNow_refused s who index sub _ given d _ 7 hup hrec hdef (Option.isNone_eq_false_iff.2 hhigh) haccess hroute hmay hty hlen'
    (peersOf_of_quiet hquiet given) (.inr (.inl rfl)) (by rw [hval]; exact writeStatus_of_stateRefuses h)

end

/-! ## Settings and actions of the module -/

/-- SHED_FORCE takes a step of R478. -/
theorem execShedForce_of_step {v : Nat} (hv : v ≤ 5) (hmay : mayWrite who 0x2C00 6 .rw = true) (hstore : s.dict.storeFailed = false) :
    execShedForce who v s =
      .next (((s.noteAccess who).recordStore (objKey 0x2C00 6) 0 (leBytes 1 v)).writeShedForce v).answerSuccess := by
  have haccepts : (s.noteAccess who).AcceptsWrite who 0x2C00 6 (rwObj 0x2C00 6 1 0 0 5) v 0 := {
    state := rfl, limit := rfl, budget := rfl
    range := by simp [State.rangeOk, ObjRow.admits, rwObj, hv, Nat.mod_one]
    store := .inl (by rw [noteAccess_dict, hstore]) }
  rw [execShedForce, writeNow_of_accepts hup hrec (by decide) hmay (by omega) none rfl (by decide) haccepts, recordWrite_of_setting rfl rfl,
    writeScalar_shedForce]

/-- F_MAX takes a multiple of 100 MHz in its range (R484). -/
theorem execFMax_of_range {v : Nat} (hlo : 1000 ≤ v) (hhi : v ≤ 2100) (hstep : v % 100 = 0) (hmay : mayWrite who 0x2C00 4 .rw = true)
    (hstore : s.dict.storeFailed = false) :
    execFMax who v s = .next (((s.noteAccess who).recordStore (objKey 0x2C00 4) 0 (leBytes 2 v)).writeFMax v).answerSuccess := by
  have haccepts : (s.noteAccess who).AcceptsWrite who 0x2C00 4 fMaxRow v 0 := {
    state := rfl, limit := rfl, budget := rfl
    range := by simp [State.rangeOk, ObjRow.admits, fMaxRow, hlo, hhi, hstep]
    store := .inl (by rw [noteAccess_dict, hstore]) }
  rw [execFMax, writeNow_of_accepts hup hrec (by decide) hmay (by omega) none rfl (by decide) haccepts, recordWrite_of_setting rfl rfl,
    writeScalar_fMax]

/-- LOG_BASE takes any sequence number, and nothing is recorded (R423, R453). -/
theorem execLogBase_of_lt {v : Nat} (hv : v < 256 ^ 8) (hmay : mayWrite who 0x2E0B 3 .rw = true) :
    execLogBase who v s = .next ((s.noteAccess who).setLogBase who v).answerSuccess := by
  have haccepts : (s.noteAccess who).AcceptsWrite who 0x2E0B 3 (rwObj 0x2E0B 3 4 0 0 (2 ^ 64 - 1)) v 0 := {
    state := rfl, limit := rfl, budget := rfl
    range := by simp [State.rangeOk, ObjRow.admits, rwObj, Nat.mod_one, Nat.le_of_lt_succ hv]
    store := .inr rfl }
  rw [execLogBase, writeNow_of_accepts hup hrec (by decide) hmay hv none rfl (by decide) haccepts, recordWrite_of_action rfl rfl,
    writeScalar_logBase]

/-- SETTINGS_DEFAULT is taken while the composition is unsealed (R461). -/
theorem execSettingsDefault_of_unsealed (hmay : mayWrite who 0x2E06 1 .wo = true) (hunsealed : s.mgmt.sealed_ = false) :
    execSettingsDefault who 1 s = .next (s.noteAccess who).restoreDefaults.answerSuccess := by
  have haccepts : (s.noteAccess who).AcceptsWrite who 0x2E06 1 (woObj 0x2E06 1 1 1 1) 1 0 := {
    state := by simp [State.stateRefuses, State.sealedNow, woObj, hunsealed]
    range := rfl, limit := rfl, budget := rfl, store := .inr rfl }
  rw [execSettingsDefault, writeNow_of_accepts hup hrec (by decide) hmay (by decide) none rfl (by decide) haccepts,
    recordWrite_of_action rfl rfl, writeScalar_settingsDefault]

/-! ## COMPOSITION_SEAL -/

omit hup hrec in
/-- An unsealed module with a stepping refuses a seal exactly where its descriptors do not verify (R459). -/
theorem stateRefuses_seal (hunsealed : s.mgmt.sealed_ = false) (hstepping : s.pins.stepping ≠ 0) :
    (s.noteAccess who).stateRefuses who 0x2E01 1 sealRow 1 = !(s.noteAccess who).descriptorOk := by
  simp [State.stateRefuses, rwObj, hunsealed, hstepping]

/-- A seal of a module whose descriptors do not verify is answered ABORT_STATE (R459). -/
theorem execCompositionSeal_of_bad_descriptor (hmay : mayWrite who 0x2E01 1 .rw = true) (hunsealed : s.mgmt.sealed_ = false)
    (hstepping : s.pins.stepping ≠ 0) (hbad : (s.noteAccess who).descriptorOk = false) :
    execCompositionSeal who 1 s = .next ((s.noteAccess who).emit (.response [7, 0, 0, 0])).resumeRequests := by
  rw [execCompositionSeal, writeNow_of_stateRefuses (d := sealRow) hup hrec (by decide) hmay (by decide) none rfl
    (by rw [stateRefuses_seal hunsealed hstepping, hbad, Bool.not_false])]

/-- A seal of an unsealed module whose descriptors verify (R427, R428, R459). -/
theorem execCompositionSeal_of_descriptorOk (hmay : mayWrite who 0x2E01 1 .rw = true) (hstore : s.dict.storeFailed = false)
    (hunsealed : s.mgmt.sealed_ = false) (hstepping : s.pins.stepping ≠ 0)
    (hbudget : (s.noteAccess who).budgetRefuses 0x2E01 1 1 0 sealRow = false) (hok : (s.noteAccess who).descriptorOk = true) :
    execCompositionSeal who 1 s = .next (((((s.noteAccess who).spendBudget 0x2E01 1 sealRow 1).recordStore (objKey 0x2E01 1) 0
      (leBytes 1 1)).putSetting (objKey 0x2E01 1) 0 1).seal).answerSuccess := by
  have haccepts : (s.noteAccess who).AcceptsWrite who 0x2E01 1 sealRow 1 0 := {
    state := by rw [stateRefuses_seal hunsealed hstepping, hok, Bool.not_true]
    range := rfl, limit := rfl, budget := hbudget
    store := .inl (by rw [noteAccess_dict, hstore]) }
  rw [execCompositionSeal, writeNow_of_accepts hup hrec (by decide) hmay (by decide) none rfl (by decide) haccepts,
    writeScalar_seal_of_unsealed who (by rw [recordWrite_mgmt, noteAccess_mgmt, hunsealed]), recordWrite_of_persists rfl]

/-- COMPOSITION_SEAL unseals whatever the state of the module (R459). -/
theorem execCompositionSeal_zero (hmay : mayWrite who 0x2E01 1 .rw = true) (hstore : s.dict.storeFailed = false)
    (hbudget : (s.noteAccess who).budgetRefuses 0x2E01 1 0 0 sealRow = false) :
    execCompositionSeal who 0 s = .next (((((s.noteAccess who).spendBudget 0x2E01 1 sealRow 0).recordStore (objKey 0x2E01 1) 0
      (leBytes 1 0)).putSetting (objKey 0x2E01 1) 0 0).unseal).answerSuccess := by
  have haccepts : (s.noteAccess who).AcceptsWrite who 0x2E01 1 sealRow 0 0 := {
    state := rfl, range := rfl, limit := rfl, budget := hbudget
    store := .inl (by rw [noteAccess_dict, hstore]) }
  rw [execCompositionSeal, writeNow_of_accepts hup hrec (by decide) hmay (by decide) none rfl (by decide) haccepts, writeScalar_unseal,
    recordWrite_of_persists rfl]

/-! ## Tenants -/

/-- TENANT_SNAP_REQ is taken while the accessor's tenant has a record (R183, R202). -/
theorem execTenantSnapReq_of_record (hmay : mayWrite who 0x2033 1 .wo = true) (hrecord : (s.noteAccess who).tenantGone who = false) :
    execTenantSnapReq who s = .next ((s.noteAccess who).requestTenantSnap who).answerSuccess := by
  have haccepts : (s.noteAccess who).AcceptsWrite who 0x2033 1 (woObj 0x2033 1 1 1 1) 1 0 := {
    state := hrecord, range := rfl, limit := rfl, budget := rfl, store := .inr rfl }
  rw [execTenantSnapReq, writeNow_of_accepts hup hrec (by decide) hmay (by decide) none rfl (by decide) haccepts,
    recordWrite_of_action rfl rfl, writeScalar_tenantSnapReq]

/-- TENANT_REMOVE discards a record that no binding names and no work is charged to (R183). -/
theorem execTenantRemove_of_idle {v : Nat} (hlo : 1 ≤ v) (hhi : v ≤ 0xFFFE) (hmay : mayWrite who 0x2030 4 .wo = true)
    (hrecord : (s.tenants.get v).isSome = true) (hbound : (s.noteAccess who).tenantBound v = false)
    (hbusy : (s.noteAccess who).tenantBusy v = false) :
    execTenantRemove who v s = .next ((s.noteAccess who).removeTenant v).answerSuccess := by
  have haccepts : (s.noteAccess who).AcceptsWrite who 0x2030 4 (woObj 0x2030 4 2 1 0xFFFE) v 0 := {
    limit := rfl, budget := rfl, store := .inr rfl
    state := by simp [State.stateRefuses, woObj, hbound, hbusy]
    range := by simp [State.rangeOk, ObjRow.admits, woObj, Nat.mod_one, hlo, hhi, hrecord] }
  rw [execTenantRemove, writeNow_of_accepts hup hrec (by decide) hmay (by omega) none rfl (by decide) haccepts, recordWrite_of_action rfl rfl,
    writeScalar_tenantRemove]

/-- TENANT_ISOLATION_MODE takes another mode than it holds: the budget advances, and the mode is recorded and scheduled (R185, R427, R430). -/
theorem execTenantIsolationMode_of_change {v : Nat} (others : ModuleAnswers) (hv : v ≤ 1) (hmay : mayWrite who 0x2030 2 .rw = true)
    (hstore : s.dict.storeFailed = false) (hchange : v ≠ s.setting 0x2030 2 0) (halone : (s.noteAccess who).leadsOthers = false)
    (hbudget : (s.noteAccess who).budgetRefuses 0x2030 2 v others.spent isolationRow = false) :
    execTenantIsolationMode who v others none s =
      .next (((((s.noteAccess who).spendBudget 0x2030 2 isolationRow v).recordStore (objKey 0x2030 2) 0 (leBytes 1 v)).putSetting
        (objKey 0x2030 2) 0 v).setIsolation v).answerSuccess := by
  rw [noteAccess_leadsOthers] at halone
  have haccepts : (s.noteAccess who).AcceptsWrite who 0x2030 2 isolationRow v others.spent := {
    state := rfl, limit := rfl, budget := hbudget
    range := by simp [State.rangeOk, ObjRow.admits, rwObj, Nat.mod_one, hv]
    store := .inl (by rw [noteAccess_dict, hstore]) }
  have hdiffers : v ≠ ((s.noteAccess who).recordWrite 0x2030 2 isolationRow v 1).setting 0x2030 2 0 := by
    rw [setting_recordWrite, State.setting, noteAccess_dict]; exact hchange
  rw [execTenantIsolationMode, writeNow_of_accepts hup hrec (by decide) hmay (by omega) (some (others.spent, others.failed))
    (by rw [halone, Bool.and_false]) (by decide) haccepts, writeScalar_isolation_of_ne who hdiffers, recordWrite_of_persists rfl]

end

/-- A change of mode that comes after the closure of its F is not taken (R430). -/
theorem execTenantIsolationMode_of_closed {s : State} {f : Nat} (hclosed : f ≤ s.epochs.closed) (who : Accessor) (v : Nat)
    (others : ModuleAnswers) : execTenantIsolationMode who v others (some f) s = .next s := congrArg _ (if_pos hclosed)

/-- Settles O12: each command's lemma gives the state. -/
theorem singleObjectWritesComplete : Obligations.SingleObjectWritesComplete := by
  unfold Obligations.SingleObjectWritesComplete
  intro who s hup hrec a done
  refine ⟨?shed, ?fMax, ?logBase, ?defaults, ?sealing, ?unsealing, ?snap, ?remove, ?mode, ?late⟩
  case shed => exact fun v hv hmay hstore => ⟨_, execShedForce_of_step hup hrec hv hmay hstore, rfl⟩
  case fMax => exact fun v hlo hhi hstep hmay hstore => ⟨_, execFMax_of_range hup hrec hlo hhi hstep hmay hstore, rfl⟩
  case logBase => exact fun v hv hmay => ⟨_, execLogBase_of_lt hup hrec hv hmay, rfl⟩
  case defaults => exact fun hmay hunsealed => ⟨_, execSettingsDefault_of_unsealed hup hrec hmay hunsealed, rfl⟩
  case sealing =>
    intro hmay hstore hunsealed hstepping hbudget
    refine ⟨_, ?_, rfl⟩
    cases hok : a.descriptorOk with
    | false => exact execCompositionSeal_of_bad_descriptor hup hrec hmay hunsealed hstepping hok
    | true => exact execCompositionSeal_of_descriptorOk hup hrec hmay hstore hunsealed hstepping hbudget hok
  case unsealing => exact fun hmay hstore hbudget => ⟨_, execCompositionSeal_zero hup hrec hmay hstore hbudget, rfl⟩
  case snap => exact fun hmay hrecord => ⟨_, execTenantSnapReq_of_record hup hrec hmay hrecord, rfl⟩
  case remove =>
    exact fun v hlo hhi hmay hrecord hbound hbusy => ⟨_, execTenantRemove_of_idle hup hrec hlo hhi hmay hrecord hbound hbusy, rfl⟩
  case mode =>
    exact fun v other fail hv hmay hstore hchange halone hbudget =>
      ⟨_, execTenantIsolationMode_of_change hup hrec ⟨other, fail⟩ hv hmay hstore hchange halone hbudget, rfl⟩
  case late => exact fun v other fail f hclosed => execTenantIsolationMode_of_closed hclosed who v ⟨other, fail⟩

end Sys2Proof.Machine
end

section
/-! SUPPORT. What no step takes back: the fields of the order in which one state comes after another (R206, R209, R242, R432, R450). -/
namespace Sys2Proof.Machine

/-- Settles O3: the state after a step comes after the state before it, in the order whose fields these are. -/
theorem noStepTakesAnythingBack : Obligations.NoStepTakesAnythingBack := by
  unfold Obligations.NoStepTakesAnythingBack
  intro s t h
  obtain ⟨hqueue, hclock, hepoch, hdraws, hsent, hsilicon, hkept⟩ := step_later h
  exact ⟨hqueue, hclock, hepoch.resolve_right, hdraws, hkept.starts, hkept.leaves, hkept.trees, hkept.records, hsent, hsilicon⟩

end Sys2Proof.Machine
end

section
/-! SUPPORT. The commands on ingest batches, the commit log, and the opening and closing of epochs (R206 to R208, R211, R213, R216, R217, R220,
R221, R352, R397, R405; logs 31, 88): one lemma per command, then the statement on all of them. -/
namespace Sys2Proof.Machine

/-! ## Batches -/

/-- An ingest entry that passes its checks enters as a batch with every record on its way (R386, R397, R539). -/
theorem execIngestEntryArrive_of_inside {fn pair sqIndex : Nat} {entry records : List Byte} {parts : List (IngestRec × List Byte) × List Byte}
    {s : State} (htaken : s.host.taken.contains ⟨fn, pair, sqIndex⟩ = true) (hkind : (s.pairOf fn pair).kind = 2) (hop : field entry 0 1 = 2)
    (hform : ingestEntryOk entry = true) :
    let a := s.forgetTaken ⟨fn, pair, sqIndex⟩
    dmaInside (a.fnNow fn) false (field entry 16 8) (field entry 24 4) = true →
    dmaInside (a.fnNow fn) true (field entry 32 8) (24 * field entry 28 2) = true →
    splitRecords (field entry 28 2) (slice records 0 (field entry 24 4)) = parts → parts.1.length = field entry 28 2 → parts.2 = [] →
    (a.fnNow fn).tenant ≠ 0 → execIngestEntryArrive fn pair sqIndex entry records true s = .next
      ((a.count (objKey (0x2040 + fn) 1) (field entry 24 4)).newBatch {
        fn, pair, sqIndex, basic := false, tenant := (a.fnNow fn).tenant,
        tag := field entry 8 8, resultsAddr := field entry 32 8, results := [] } (parts.1.map fun p => (p.1, recordFieldsOk p.2 p.1))) := by
  intro a hrecords hresults hparts hcount hrest htenant
  have hread := dmaRead_of_inside hrecords
  simp only [a, State.forgetTaken] at *
  simp only [execIngestEntryArrive, htaken, hkind, hop, hform, hrecords, hresults, hread, hparts, hcount, hrest, htenant, List.isEmpty_nil,
    Bool.not_true, Bool.and_self, ne_eq, not_true_eq_false, decide_false, Bool.or_self, Bool.false_eq_true, if_false]

/-- An ingest descriptor whose descriptor and records pass the windows is taken and enters as a batch; every record of an index that is not mapped,
or of an unbound function, is refused (R405 to R407). -/
theorem execBasicIngestDescriptor_of_inside {fn : Nat} {desc records : List Byte} {s : State} (hturn : s.turn = some (fn, 1))
    (hbasic : (s.fnState fn).expert = false)
    (hdesc : dmaInside (s.fnNow fn) false ((s.fnState fn).basic.igrBase + 32 * (s.fnState fn).basic.igrHead) 32 = true)
    (hmin : 1 ≤ field desc 16 2) (hmax : field desc 16 2 ≤ 4096) (hsel : field desc 18 1 < 16) (hzero : allZero desc 24 8 = true) :
    let a := (s.count (objKey (0x2040 + fn) 1) 32).takeIngest fn
    let m := a.basicIndex fn (field desc 18 1 % 16)
    let rs := basicRecords m.1 m.2 (min (field desc 16 2) 4096) records
    dmaInside (a.fnNow fn) false (field desc 8 8) rs.2 = true →
    execBasicIngestDescriptor fn desc records ⟨true, true⟩ s = .next ((a.count (objKey (0x2040 + fn) 1) rs.2).newBatch {
        fn, pair := 0, sqIndex := 0, basic := true, tenant := (a.fnState fn).tenant, tag := field desc 0 8, resultsAddr := 0,
        descAddr := (s.fnState fn).basic.igrBase + 32 * (s.fnState fn).basic.igrHead, results := [] }
      (if (m.1 = 0 ∧ m.2 = 0) ∨ (a.fnState fn).tenant = 0 then rs.1.map fun r => (r.1, false) else rs.1)) := by
  intro a m rs hrecords
  have hread := dmaRead_of_inside hdesc
  have hread' : a.dmaRead fn (field desc 8 8) rs.2 = _ := dmaRead_of_inside hrecords
  simp only [a, m, rs] at *
  simp only [execBasicIngestDescriptor, hturn, hbasic, hread, hread', hmin, hmax, hsel, hzero, decide_true, Bool.and_self, Bool.not_true,
    ne_eq, not_true_eq_false, decide_false, Bool.or_self, Bool.false_eq_true, if_false, if_true, Bool.or_eq_true, Bool.and_eq_true,
    decide_eq_true_eq]
  split <;> rfl

/-! ## The commit log -/

/-- The held writes of the first one's batch are ordered together where none of them waits (R211, R216; log 31). -/
theorem execRecordOrder_of_ready {s : State} {run rest : List Write} (hheld : headRun s.corpus.held = (run, rest)) (hrun : run ≠ [])
    (hready : (run.any fun w => s.writeWaits w) = false) :
    execRecordOrder s = .next (run.foldl (fun s w => s.orderWrite w) { s with corpus := { s.corpus with held := rest } }) := by
  have hsome : run.isEmpty = false := List.isEmpty_eq_false_iff.2 hrun
  simp only [execRecordOrder, hheld, hsome, hready, Bool.or_self, Bool.false_eq_true, if_false]

/-- The flush interval ends, and the pending records start programming (R220). -/
theorem execLogFlush_of_due {t : Nat} {s : State} (hdue : s.corpus.lastFlush + s.corpus.flushUs * cyclesPerUs ≤ max s.time t) :
    execLogFlush t s = .next ({ s.advance t with
      corpus := { s.corpus with lastFlush := max s.time t, flushUs := (s.advance t).setting 0x2700 4 200 } } : State).programLog := by
  simp only [execLogFlush, State.advance_time, State.advance_corpus, ge_iff_le, hdue, if_true]

/-- The oldest page of the log is durable, and its writes are applied and answered (R213, R217, R220). -/
theorem execLogPageDurable_of_head {page : Nat} {ws : List Write} {s : State} (hhead : s.corpus.logPages.head? = some (page, ws)) :
    execLogPageDurable page s = .next (ws.foldl (fun (s : State) w => s.durableWrite w)
      { s with corpus := { s.corpus with logPages := s.corpus.logPages.erase page } }).switchFolds := by
  simp only [execLogPageDurable, hhead, ne_eq, not_true_eq_false, if_false]

/-! ## Beacons -/

/-- The earliest switch of those whose epoch has not opened (R352; log 88). -/
def EpochState.dueSwitch (e : EpochState) : Option (Nat × Nat × Nat × Nat) :=
  firstBy (fun a b => decide (a.2.2.2 < b.2.2.2)) (e.switches.filter fun x => decide (x.2.2.2 > e.open_))

/-- The beacon with which this module closes its open epoch (R206, R352). -/
def State.nextBeacon (s : State) : BeaconBody :=
  let due := s.epochs.dueSwitch
  ⟨s.epochs.open_, s.setting 0x2700 1 1000, s.mgmt.moduleId, due.isSome, (due.map (·.1)).getD 0, (due.map (·.2.2.2)).getD 0⟩

/-- A leader whose epoch has run closes it and opens the next, with a beacon where it has others to tell (R205, R206). -/
theorem execBeaconEmit_of_due {t : Nat} {s : State} (hleads : (s.advance t).leads = true)
    (hdue : s.epochs.lastEmit + (s.advance t).epochCycles ≤ max s.time t) :
    let a := s.advance t
    let c := if s.mgmt.sealed_ then a.sendAllPorts none 5 (beaconBytes a.nextBeacon) else a
    execBeaconEmit t s = .next (({ c with epochs := { c.epochs with
      lastEmit := c.time, lastBeacon := c.time, gap := false, timeoutMs := c.setting 0x2700 2 100, leader := c.mgmt.moduleId } } : State).openEpoch
        a.nextBeacon) := by
  simp only [execBeaconEmit, hleads, State.advance_time, State.advance_epochs, State.advance_mgmt, Nat.not_lt.2 hdue, decide_false, Bool.not_true,
    Bool.or_self, Bool.false_eq_true, if_false, State.nextBeacon, EpochState.dueSwitch]

section
variable {port : Nat} {beacon : List Byte} {s : State} (hsealed : s.mgmt.sealed_ = true) (hlength : beacon.length = 32)
include hsealed hlength

/-- A beacon that closes the open epoch or a later one is relayed and opens the next (R206, R353). -/
theorem execBeaconReceive_of_closes (hcloses : s.epochs.open_ ≤ (parseBeacon beacon).closed) :
    let b := parseBeacon beacon
    execBeaconReceive port beacon s = .next ((((s.noteBeacon b).learnSwitch b).sendAllPorts (some port) 5 beacon).openEpoch b) := by
  have hopen : ¬(parseBeacon beacon).closed < (s.noteBeacon (parseBeacon beacon)).epochs.open_ := Nat.not_lt.2 hcloses
  simp only [execBeaconReceive, hsealed, hlength, hopen, Bool.not_true, ne_eq, not_true_eq_false, decide_false, Bool.or_self, Bool.false_eq_true,
    if_false]

/-- A beacon that closes nothing counts only as an arrival (R206, R208). -/
theorem execBeaconReceive_of_old (hold : (parseBeacon beacon).closed < s.epochs.open_) :
    execBeaconReceive port beacon s = .next (s.noteBeacon (parseBeacon beacon)) := by
  have hopen : (parseBeacon beacon).closed < (s.noteBeacon (parseBeacon beacon)).epochs.open_ := hold
  simp only [execBeaconReceive, hsealed, hlength, hopen, Bool.not_true, ne_eq, not_true_eq_false, decide_false, Bool.or_self, Bool.false_eq_true,
    if_false, if_true]

end

/-- A candidate that has heard no beacon of a lower rank for its time takes over (R352). -/
theorem execLeaderTakeover_of_due {t r : Nat} {s : State} (hrank : (s.advance t).rankOf s.mgmt.moduleId = some r) (hsealed : s.mgmt.sealed_ = true)
    (hfollows : s.epochs.leading = false) (hdue : s.epochs.lastLower + (r + 1) * s.epochs.timeoutMs * cyclesPerMs ≤ max s.time t) :
    execLeaderTakeover t s = .next { s.advance t with epochs := { s.epochs with
      leading := true, leader := s.mgmt.moduleId, lastEmit := max s.time t - (s.advance t).epochCycles } } := by
  simp only [execLeaderTakeover, State.advance_mgmt, State.advance_epochs, State.advance_time, hrank, hsealed, hfollows, Nat.not_lt.2 hdue,
    decide_false, Bool.not_true, Bool.or_self, Bool.false_eq_true, if_false]

/-! ## Closed epochs -/

/-- The oldest epoch that a beacon has closed is recorded in the cycle after the last of its events, once its writes are durable and their replicas
settled (R207). -/
theorem execEpochClosureRecord_of_settled {e at_ : Nat} {rest : List (Nat × Nat)} {s : State} (hclosing : s.epochs.closing = (e, at_) :: rest)
    (hwrites : s.writesSettled e = true) (hreplicas : s.replicasSettled e = true) :
    let last := ((s.epochs.settled.filter fun kv => kv.1 ≤ e).map (·.2)).foldl max at_
    let a := s.advance (last + 1)
    execEpochClosureRecord s = .next (({ a with epochs := { s.epochs with
      closing := rest, prevClosed := a.usableClosed, closed := e, closedAt := max s.time (last + 1),
      settled := s.epochs.settled.filter fun kv => decide (kv.1 > e) } } : State).count (objKey 0x2710 2) (max s.time (last + 1) - at_)) := by
  simp only [execEpochClosureRecord, hclosing, hwrites, hreplicas, State.advance_epochs, State.advance_time, Bool.not_true, Bool.or_self,
    Bool.false_eq_true, if_false]

/-- A silence of BEACON_TIMEOUT is counted and logged once (R208). -/
theorem execBeaconGaps_of_due {t : Nat} {s : State} (hfirst : s.epochs.gap = false)
    (hdue : s.epochs.lastBeacon + s.epochs.timeoutMs * cyclesPerMs ≤ max s.time t) :
    execBeaconGaps t s = .next ((({ s.advance t with epochs := { s.epochs with gap := true } } : State).tally 0x2710 6).logState 0x2700 2 unitModule
      s.epochs.closed s.epochs.open_) := by
  simp only [execBeaconGaps, State.advance_epochs, State.advance_time, State.tally_epochs, hfirst, Nat.not_lt.2 hdue, decide_false, Bool.or_self,
    Bool.false_eq_true, if_false]

/-- Settles O24: each command's lemma gives the state. -/
theorem ingestAndEpochCommandsComplete : Obligations.IngestAndEpochCommandsComplete := by
  unfold Obligations.IngestAndEpochCommandsComplete
  refine ⟨?entry, ?descriptor, ?order, fun t s => ⟨_, rfl, rfl⟩, ?flush, ?durable, ?emit, ?receive, ?takeover, ?closure, ?gap⟩
  case entry =>
    intro fn pair sqIndex entry records s htaken hkind hop hform a f hrecords hresults parts hcount hrest htenant
    exact ⟨_, execIngestEntryArrive_of_inside htaken hkind hop hform hrecords hresults rfl hcount hrest htenant, rfl⟩
  case descriptor =>
    intro fn desc records s hturn hbasic b hdesc hmin hmax hsel hzero a m rs x hrecords
    exact ⟨_, execBasicIngestDescriptor_of_inside hturn hbasic hdesc hmin hmax hsel hzero hrecords, rfl⟩
  case order =>
    intro s r hrun hready
    exact ⟨_, execRecordOrder_of_ready rfl hrun hready, rfl⟩
  case flush => exact fun t s hdue => ⟨_, execLogFlush_of_due hdue, rfl⟩
  case durable => exact fun page ws s hhead => ⟨_, execLogPageDurable_of_head hhead, rfl⟩
  case emit =>
    intro t s hleads hdue a due b c
    have hbeacon : a.nextBeacon = b := by simp only [State.nextBeacon, EpochState.dueSwitch, a, b, due, State.advance_epochs, State.advance_mgmt]
    refine ⟨_, execBeaconEmit_of_due hleads hdue, ?_⟩
    rw [hbeacon]
  case receive =>
    intro port beacon s hsealed hlength b
    exact ⟨fun hcloses => ⟨_, execBeaconReceive_of_closes hsealed hlength hcloses, rfl⟩,
      fun hold => ⟨_, execBeaconReceive_of_old hsealed hlength hold, rfl⟩⟩
  case takeover => exact fun t r s hrank hsealed hfollows hdue => ⟨_, execLeaderTakeover_of_due hrank hsealed hfollows hdue, rfl⟩
  case closure =>
    intro e at_ rest s hclosing hwrites hreplicas last a
    exact ⟨_, execEpochClosureRecord_of_settled hclosing hwrites hreplicas, rfl⟩
  case gap => exact fun t s hfirst hdue => ⟨_, execBeaconGaps_of_due hfirst hdue, rfl⟩

end Sys2Proof.Machine
end

section
/-! SUPPORT. The commands of a module's start, from the input voltage over the boot ROM and the phases to READY (R222, R243, R258, R297, R454, R462,
R463, R466, R487, R488, R490, R491; logs 63, 75): one lemma per command and case, then the statement on all of them. -/
namespace Sys2Proof.Machine

/-! ## The boot ROM -/

/-- Once the input and the bank are good and no flush runs, a start begins, on the identity that was found or without one (R454, R462, R530). -/
theorem execBootStart_of_good {t c : Nat} {s : State} (hoff : (s.advance t).mgmt.boot = .off) (hsince : (s.advance t).power.startSince = some c)
    (hinput : c + 100 * cyclesPerMs ≤ (s.advance t).time) (hmv : 70000 ≤ (s.advance t).pins.bankMv) (hmj : 9000 ≤ (s.advance t).pins.bankMj)
    (hflush : (s.advance t).power.flushing = false ∨ (s.advance t).power.busOff = true) (found : BootFind) :
    let a := s.advance t
    execBootStart t found s = .next (if found.identityOk then
        ((a.loadStore found.store).startModule.logStore (a.storeFaults found.store) found.store.budgets).bootRound.settleStat
      else ({ a.startModule with mgmt := { a.startModule.mgmt with boot := .noIdentity } } : State).settleStat) := by
  have hidle : ((s.advance t).power.flushing && !(s.advance t).power.busOff) = false := by
    rcases hflush with h | h <;> simp only [h, Bool.false_and, Bool.not_true, Bool.and_false]
  simp only [execBootStart, hoff, hsince, hinput, hmv, hmj, hidle, decide_true, bne_self_eq_false, Bool.and_self, Bool.not_true,
    Bool.or_self, Bool.false_eq_true, if_false]

/-- The record of a failed step of the boot ROM leaves the management complex as it is. -/
theorem bootFails_mgmt (s : State) : s.bootFails.mgmt = s.mgmt := State.logEvent_mgmt ..

/-- A slot has reported HEALTHY: its trial ends, and the object server is up (R462, R466). -/
def State.serverStarts (s : State) (slot : Nat) : State :=
  { s with mgmt := { s.mgmt with boot := .healthy slot, serverUp := true, serviced := s.time, trial := false } }

/-- In phase 0 of a start the ports are loaded and the rails asked for (R487). -/
def State.railsOnce (s : State) : State := if s.repair.started && s.repair.phase = 0 then s.startRails else s

section
variable {t slot at_ : Nat} {s : State} (hboot : (s.advance t).mgmt.boot = .running slot at_)
include hboot

/-- A slot that is no trial and not HEALTHY in time fails: the preferred one to the other slot, the other to recovery (R462). -/
theorem execBootWatchdog_of_late (hlate : at_ + (s.advance t).mgmt.watchdogS * cyclesPerS ≤ (s.advance t).time)
    (htrial : (s.advance t).mgmt.trial = false) :
    let f := (s.advance t).bootFails
    execBootWatchdog t s = .next (if slot = f.mgmt.preferred then f.bootOther.settleStat
      else ({ f with mgmt := { f.mgmt with boot := .recovery f.time, recStatus := 0, update := none } } : State).settleStat) := by
  simp only [execBootWatchdog, hboot, Nat.not_lt.2 hlate, bootFails_mgmt, htrial, Bool.false_eq_true, if_false]

/-- HEALTHY with no PART component to install brings the object server up and serves the host (R462, R466, R487). -/
theorem execHealthy_of_running (hpart : ((s.advance t).serverStarts slot).railsOnce.mgmt.partPending = false) :
    execHealthy t s = .next ((s.advance t).serverStarts slot).railsOnce.serveHost.settleStat := by
  have hnone : ¬(((s.advance t).serverStarts slot).railsOnce.mgmt.partPending &&
      ((s.advance t).serverStarts slot).railsOnce.repair.ready) = true := by
    rw [hpart, Bool.false_and]; exact Bool.false_ne_true
  simp only [execHealthy, hboot]
  exact congrArg (fun x : State => Host.Outcome.next x.serveHost.settleStat) (if_neg hnone)

end

/-- An offer of 30 s without a recovery image ends in a wait (R462). -/
theorem execRecoveryOfferEnd_of_late {t at_ : Nat} {s : State} (hboot : (s.advance t).mgmt.boot = .recovery at_)
    (hlate : at_ + 30 * cyclesPerS ≤ (s.advance t).time) :
    let f := (s.advance t).bootFails
    execRecoveryOfferEnd t s = .next ({ f with
      mgmt := { f.mgmt with boot := .wait f.time, rounds := f.mgmt.rounds + 1, update := none } } : State).settleStat := by
  simp only [execRecoveryOfferEnd, hboot, Nat.not_lt.2 hlate, if_false]

/-- A wait that has run ends in a new round (R462). -/
theorem execBootWaitEnd_of_late {t at_ : Nat} {s : State} (hboot : (s.advance t).mgmt.boot = .wait at_)
    (hlate : at_ + min 60 (2 ^ (min 6 ((s.advance t).mgmt.rounds - 1))) * cyclesPerS ≤ (s.advance t).time) :
    execBootWaitEnd t s = .next (s.advance t).bootRound.settleStat := by
  simp only [execBootWaitEnd, hboot, Nat.not_lt.2 hlate, if_false]

/-- REC_GO takes no image that is too long or not on a page (R463). -/
theorem execRecGo_of_bad_address {at_ : Nat} {s : State} (hboot : s.mgmt.boot = .recovery at_)
    (hbad : fwMax < s.mgmt.recLen ∨ s.mgmt.recAddr % 4096 ≠ 0) (image : List Byte) :
    execRecGo image s = .next { s with mgmt := { s.mgmt with recStatus := 1 } } := by
  have hcond : (decide (s.mgmt.recLen > fwMax) || decide (s.mgmt.recAddr % 4096 ≠ 0)) = true := by
    simpa only [Bool.or_eq_true, decide_eq_true_eq] using hbad
  simp only [execRecGo, hboot, hcond, if_true]

/-- REC_GO fetches and tries an image that has room and stands on a page (R463). -/
theorem execRecGo_of_good_address {at_ : Nat} {s : State} (hboot : s.mgmt.boot = .recovery at_) (hlen : s.mgmt.recLen ≤ fwMax)
    (hpage : s.mgmt.recAddr % 4096 = 0) (image : List Byte) :
    execRecGo image s = .next ((s.count (objKey 0x2040 1) s.mgmt.recLen).tryRecovery (image.take s.mgmt.recLen)).1 := by
  simp only [execRecGo, hboot, gt_iff_lt, Nat.not_lt.2 hlen, hpage, State.count_mgmt, ne_eq, not_true_eq_false, decide_false, Bool.or_self,
    Bool.false_eq_true, if_false]

/-! ## The phases -/

/-- An object that is no LIST is rebuilt in the tier that its last journalled switch names (R258). -/
def Tiers.reloaded (t : Tiers) (n : Nat) (o : TierObj) : TierObj := match t.journal.find? fun j => j.1 = n with
  | some j => if o.kind = 0 then o else { o with tier := j.2 }
  | none => o

/-- A reloaded object is as it was, or it is no LIST and stands in the tier of a journalled switch of it (R258). -/
theorem reloaded_cases (t : Tiers) (n : Nat) (o : TierObj) :
    t.reloaded n o = o ∨ o.kind ≠ 0 ∧ ∃ k tier, (k, tier) ∈ t.journal ∧ k = n ∧ t.reloaded n o = { o with tier } := by
  unfold Tiers.reloaded
  split
  · next j hfind =>
    split
    · exact .inl rfl
    · next hkind =>
      have hname : decide (j.1 = n) = true := List.find?_some (p := fun j : Nat × Nat => decide (j.1 = n)) hfind
      exact .inr ⟨hkind, j.1, j.2, List.mem_of_find?_eq_some hfind, of_decide_eq_true hname, rfl⟩
  · exact .inl rfl

/-- In phase 6 every object is reloaded and no page is left in REPAIR (R258). -/
theorem execReloadComplete_of_phase {s : State} (hphase : s.repair.phase = 6) : execReloadComplete s = .next (({ s with tiers := { s.tiers with
    objs := s.tiers.objs.map (fun no => (no.1, s.tiers.reloaded no.1 no.2)), repair := [] } } : State).toPhase 7) := by
  simp only [execReloadComplete, hphase, ne_eq, not_true_eq_false, if_false]
  rfl

@[simp] theorem toPhase_tiers (s : State) (n : Nat) : (s.toPhase n).tiers = s.tiers := settleStat_tiers _

@[simp] theorem toPhase_phase (s : State) (n : Nat) : (s.toPhase n).repair.phase = n := congrArg Repair.phase (settleStat_repair _)

/-- Training ends: failed devices are retired, the flash channels answer, and the memory test starts (R487, R488). -/
theorem execMemoryTrainingComplete_of_phase {s : State} (hphase : s.repair.phase = 3) (failed : List (Nat × Nat)) :
    let a := (List.range 32).foldl (fun s c => s.wake .onfi c 2) (failed.foldl (fun s d => s.retireDevice d.1 d.2) s)
    execMemoryTrainingComplete failed s = .next (({ a with log := { a.log with flashReady := true } } : State).toPhase 4) := by
  simp only [execMemoryTrainingComplete, hphase, ne_eq, not_true_eq_false, if_false]

/-- Each failing page takes a spare page of its device (R262, R488). -/
def State.remapPages (s : State) (pages : List (Nat × Nat × Nat)) : State :=
  let remap (t : Table Nat) (p : Nat × Nat × Nat) : Table Nat := t.set (p.1 * 256 + p.2.1) (t.getD (p.1 * 256 + p.2.1) 0 + 1)
  { s with tiers := { s.tiers with remapped := pages.foldl remap s.tiers.remapped } }

/-- The memory test ends: devices beyond repair are retired and failing pages remapped (R262, R263, R488). -/
theorem execMemtestComplete_of_phase {s : State} (hphase : s.repair.phase = 4) (pages : List (Nat × Nat × Nat)) (devices : List (Nat × Nat)) :
    execMemtestComplete pages devices s = .next (((devices.foldl (fun s d => s.retireDevice d.1 d.2) s).remapPages pages).toPhase 5) := by
  simp only [execMemtestComplete, hphase, ne_eq, not_true_eq_false, if_false]
  rfl

/-- In phase 5 the map and the commit log are replayed (R222, R297). -/
theorem execReplay_of_phase {t : Nat} {s : State} (hphase : (s.advance t).repair.phase = 5) (clean : Bool) (lost : List (Nat × Nat)) :
    execReplay t clean lost s = .next ((s.advance t).replayAll clean lost) := by
  simp only [execReplay, hphase, ne_eq, not_true_eq_false, if_false]

/-- The resident images are installed in every partition in service whose pool holds their tiles, and phase 7 is done (R487, R512). -/
def State.installResident (s : State) : State :=
  let fits := fun (i : Image) (p : Nat) => decide (i.encodeTiles ≤ 16 - (s.pool p).out.length) && decide (i.scoreTiles ≤ 16 - (s.pool p).out.length)
  let parts := (upTo 4 fun p => !s.repair.partsOut.contains p)
  { s with
    images := s.images.mapVals fun i => { i with installed := parts.filter (fits i) },
    repair := { s.repair with phasesDone := true, phase7At := s.time } }

/-- Phase 7 ends: receipts are sealed and images installed, and the module is ready or waits for its beacon and its topology (R243, R487, R491). -/
theorem execReceiptRecovery_of_phase {t : Nat} {s : State} (hphase : (s.advance t).repair.phase = 7)
    (hfirst : (s.advance t).repair.phasesDone = false) :
    let c := (s.advance t).recoverReceipts.installResident
    execReceiptRecovery t s = .next (c.toPhase (if c.beaconMet && c.topologyMet then 8 else 9)) := by
  simp only [execReceiptRecovery, hphase, hfirst, ne_eq, not_true_eq_false, decide_false, Bool.or_self, Bool.false_eq_true, if_false]
  rfl

/-! ## Readiness -/

/-- READY is declared once all phases are done and both conditions hold: the banks have their owners, and host and log are told (R264, R490). -/
theorem execReady_of_met {t : Nat} {s : State} (hfirst : (s.advance t).repair.ready = false) (hdone : (s.advance t).repair.phasesDone = true)
    (hbeacon : (s.advance t).beaconMet = true) (htopology : (s.advance t).topologyMet = true) :
    let b := (upTo 32 fun g => (s.advance t).strandUp g).foldl (fun s g => s.setBanks g) (s.advance t)
    execReady t s =
      .next (((({ b with repair := { b.repair with ready := true } } : State).toPhase 8).logState 0x2D00 6 unitModule 0 1).causeAll 2) := by
  simp only [execReady, hfirst, hdone, hbeacon, htopology, Bool.not_true, Bool.or_self, Bool.false_eq_true, if_false]

/-- After TOPOLOGY_WAIT the wait for readiness ends with a record of what is missing (R491). -/
theorem execTopologyWait_of_late {t : Nat} {s : State} (hphase : (s.advance t).repair.phase = 9) (hready : (s.advance t).repair.ready = false)
    (hmissing : ((s.advance t).beaconMet && (s.advance t).topologyMet) = false)
    (hlate : (s.advance t).repair.phase7At + (s.advance t).repair.topoWait * cyclesPerS ≤ (s.advance t).time) :
    let a := (s.advance t).toPhase 15
    execTopologyWait t s = .next (if a.beaconMet then a.logState 0x2D00 7 unitModule 9 15 else a.logState 0x2700 2 unitModule 9 15) := by
  simp only [execTopologyWait, hphase, hready, hmissing, Nat.not_lt.2 hlate, ne_eq, not_true_eq_false, decide_false, Bool.or_self,
    Bool.false_eq_true, if_false]

/-- Settles O34: each command's lemma gives the state, case by case. -/
theorem startCommandsComplete : Obligations.StartCommandsComplete := by
  unfold Obligations.StartCommandsComplete
  refine ⟨?start, ?running, ?waiting, ?recover, ?training, ?memtest, ?replay, ?reload, ?receipts, ?ready, ?wait⟩
  case start =>
    intro t c store s a hoff hsince hinput hmv hmj hflush
    have hstart := execBootStart_of_good hoff hsince hinput hmv hmj hflush
    exact ⟨⟨_, hstart ⟨true, store⟩, rfl⟩, ⟨_, hstart ⟨false, store⟩, rfl⟩⟩
  case running =>
    intro t slot at_ s a hboot
    refine ⟨fun hlate htrial => ?_, fun hpart => ⟨_, execHealthy_of_running hboot hpart, rfl⟩⟩
    have hfails := execBootWatchdog_of_late hboot hlate htrial
    exact ⟨fun hslot => ⟨_, hfails, if_pos hslot⟩, fun hslot => ⟨_, hfails, if_neg hslot⟩⟩
  case waiting =>
    intro t at_ s a
    exact ⟨fun hboot hlate => ⟨_, execRecoveryOfferEnd_of_late hboot hlate, rfl⟩, fun hboot hlate => ⟨_, execBootWaitEnd_of_late hboot hlate, rfl⟩⟩
  case recover =>
    intro image at_ s hboot
    exact ⟨fun hbad => ⟨_, execRecGo_of_bad_address hboot hbad image, rfl⟩,
      fun hlen hpage => ⟨_, execRecGo_of_good_address hboot hlen hpage image, rfl⟩⟩
  case training => exact fun failed s hphase => ⟨_, execMemoryTrainingComplete_of_phase hphase failed, rfl⟩
  case memtest => exact fun pages devices s hphase => ⟨_, execMemtestComplete_of_phase hphase pages devices, rfl⟩
  case replay => exact fun t clean lost s hphase => ⟨_, execReplay_of_phase hphase clean lost, rfl⟩
  case reload =>
    intro s hphase
    refine ⟨_, execReloadComplete_of_phase hphase, toPhase_phase _ _, by rw [toPhase_tiers], fun n o hmem => ?_⟩
    rw [toPhase_tiers] at hmem
    obtain ⟨⟨k, o'⟩, hobj, heq⟩ := List.mem_map.1 hmem
    obtain ⟨rfl, rfl⟩ := Prod.mk.inj heq
    exact ⟨o', hobj, reloaded_cases s.tiers k o'⟩
  case receipts =>
    intro t s a hphase hfirst
    exact ⟨_, execReceiptRecovery_of_phase hphase hfirst, rfl⟩
  case ready =>
    intro t s a hfirst hdone hbeacon htopology
    exact ⟨_, execReady_of_met hfirst hdone hbeacon htopology, rfl⟩
  case wait =>
    intro t s a hphase hready hmissing hlate
    exact ⟨_, execTopologyWait_of_late hphase hready hmissing hlate, rfl⟩

end Sys2Proof.Machine
end

section
/-! SUPPORT. The banks of a staging region and the words that rotate through them (R264). -/
namespace Sys2Proof.Machine

/-! ## Regions -/

/-- A bank is one of its region's. -/
theorem mem_regionOf {b : Nat} (hb : b < 32) :
    (regionOf b).1 ≤ b ∧ b < (regionOf b).1 + (regionOf b).2 ∧ (regionOf b).1 + (regionOf b).2 ≤ 32 := by
  unfold regionOf
  (repeat' split) <;> dsimp only <;> omega

/-- Every bank between the first and the last of a region has that region. -/
theorem regionOf_eq_of_mem {b c : Nat} (hlow : (regionOf b).1 ≤ c) (hhigh : c < (regionOf b).1 + (regionOf b).2) : regionOf c = regionOf b := by
  unfold regionOf at hlow hhigh ⊢
  by_cases hpairs : b < 16
  · rw [if_pos hpairs] at hlow hhigh ⊢
    dsimp only at hlow hhigh
    rw [if_pos (by omega), show c / 2 = b / 2 by omega]
  by_cases hquad : b < 20
  · rw [if_neg hpairs, if_pos hquad] at hlow hhigh ⊢
    dsimp only at hlow hhigh
    rw [if_neg (by omega), if_pos (by omega)]
  by_cases hoct : b < 28
  · rw [if_neg hpairs, if_neg hquad, if_pos hoct] at hlow hhigh ⊢
    dsimp only at hlow hhigh
    rw [if_neg (by omega), if_neg (by omega), if_pos (by omega)]
  · rw [if_neg hpairs, if_neg hquad, if_neg hoct] at hlow hhigh
    dsimp only at hlow hhigh
    rw [show c = b by omega]

/-! ## The words of a region of `r.2` banks from bank `r.1` on -/

section
variable {r : Nat × Nat} (hbanks : 0 < r.2)
include hbanks

/-- A word stands in a bank of its region. -/
theorem regionWord_bank_mem (n : Nat) : r.1 ≤ (regionWord r n).1 ∧ (regionWord r n).1 < r.1 + r.2 :=
  ⟨Nat.le_add_right _ _, Nat.add_lt_add_left (Nat.mod_lt n hbanks) _⟩

/-- The banks hold all words of a region that number fewer than their places. -/
theorem regionWord_word_lt {n : Nat} (hn : n < 2048 * r.2) : (regionWord r n).2 < 2048 :=
  (Nat.div_lt_iff_lt_mul hbanks).2 hn

/-- The next word stands in the next bank, after the last bank in the first. -/
theorem regionWord_succ_bank (n : Nat) :
    (regionWord r (n + 1)).1 = if (regionWord r n).1 + 1 = r.1 + r.2 then r.1 else (regionWord r n).1 + 1 := by
  have hmod : n % r.2 < r.2 := Nat.mod_lt n hbanks
  have hword : (regionWord r n).1 = r.1 + n % r.2 := rfl
  have hnext : (regionWord r (n + 1)).1 = r.1 + (n % r.2 + 1) % r.2 := by rw [Nat.mod_add_mod]; rfl
  by_cases hlast : (regionWord r n).1 + 1 = r.1 + r.2
  · rw [if_pos hlast, hnext, show n % r.2 + 1 = r.2 by omega, Nat.mod_self, Nat.add_zero]
  · rw [if_neg hlast, hnext, hword, Nat.mod_eq_of_lt (by omega), Nat.add_assoc]

/-- A place of the region is the place of the word that its bank and its row count. -/
theorem regionWord_of_place {b : Nat} (hlow : r.1 ≤ b) (hhigh : b < r.1 + r.2) (w : Nat) : regionWord r (b - r.1 + r.2 * w) = (b, w) := by
  have hbank : b - r.1 < r.2 := by omega
  rw [regionWord, Nat.add_mul_mod_self_left, Nat.mod_eq_of_lt hbank, Nat.add_mul_div_left _ _ hbanks, Nat.div_eq_of_lt hbank, Nat.zero_add,
    Nat.add_sub_cancel' hlow]

end

/-- No two words of a region share a place: the bank is the remainder of a word's number, and the row its quotient. -/
theorem regionWord_injective (r : Nat × Nat) : Function.Injective (regionWord r) := by
  intro m n h
  obtain ⟨hbank, hrow⟩ := Prod.mk.inj h
  rw [← Nat.mod_add_div m r.2, ← Nat.mod_add_div n r.2, Nat.add_left_cancel hbank, hrow]

/-- Settles O52: a word's bank and row are the remainder and the quotient of its number by the number of banks. -/
theorem regionWordsRotate : Obligations.RegionWordsRotate := by
  unfold Obligations.RegionWordsRotate
  intro b hb r
  obtain ⟨hlow, hhigh, hlast⟩ : r.1 ≤ b ∧ b < r.1 + r.2 ∧ r.1 + r.2 ≤ 32 := mem_regionOf hb
  have hbanks : 0 < r.2 := by omega
  refine ⟨⟨hlow, hhigh, hlast⟩, ?inside, regionWord_succ_bank hbanks, fun m n h => regionWord_injective r h, ?covered⟩
  case inside =>
    intro n hn
    obtain ⟨hfirst, hbound⟩ := regionWord_bank_mem hbanks n
    exact ⟨hfirst, hbound, regionWord_word_lt hbanks hn, regionOf_eq_of_mem hfirst hbound⟩
  case covered =>
    intro w hw
    refine ⟨b - r.1 + r.2 * w, ?_, regionWord_of_place hbanks hlow hhigh w⟩
    calc b - r.1 + r.2 * w < r.2 * (w + 1) := by rw [Nat.mul_succ]; omega
      _ ≤ r.2 * 2048 := Nat.mul_le_mul_left _ hw
      _ = 2048 * r.2 := Nat.mul_comm _ _

end Sys2Proof.Machine
end

section
/-! SUPPORT. The machine after reset meets the invariants that every step keeps (R265, R441, R451). -/
namespace Sys2Proof.Machine

/-- A bank whose register nobody has written is management's (R265). -/
theorem ownerOf_of_unwritten {s : State} {id : Nat} (howner : s.staging.owner.get id = none) (hhanded : s.staging.handed.get id = none) :
    s.ownerOf id = 3 := by
  rw [State.ownerOf, hhanded, State.writtenOwner, Table.getD, howner]
  rfl

/-- Nothing waits in an empty queue that could be malformed. -/
theorem queueWf_of_pending_nil {s : State} (h : s.pending = []) : QueueWf s := by
  intro c hc
  rw [h] at hc
  exact absurd hc List.not_mem_nil

/-- Settles O7: queue, staging, counters, mailboxes and ring are empty after reset, and an empty table lists no owner. -/
theorem resetMeetsTheInvariants : Obligations.ResetMeetsTheInvariants := by
  unfold Obligations.ResetMeetsTheInvariants
  have hqueue : State.reset.pending = [] := rfl
  have hmail : MailFits State.reset.mbx := fun _ h => absurd h List.not_mem_nil
  have hring : RingFits State.reset.log := Nat.zero_le 4096
  exact ⟨queueWf_of_pending_nil hqueue, hqueue, memWf_nil, rfl, fun _ => ownerOf_of_unwritten rfl rfl, hmail, hring⟩

end Sys2Proof.Machine
end

section
/-! SUPPORT. The commands on placement, moves between tiers, repair and the retirement of a device (R252 to R258, R262, R263, R400, R425; logs 43,
73): one lemma per command and case, then the statement on all of them. -/
namespace Sys2Proof.Machine

/-! ## Placement calls -/

/-- A placement call queues one move per object, and a list's preference follows it (R254). -/
def State.queueMoves (s : State) (handle target : Nat) (o : TierObj) (owner : MoveOwner) : State :=
  let n := handle % 2 ^ 28
  { s with tiers := { s.tiers with
    objs := if o.kind = 0 then s.tiers.objs.set n { o with pref := target } else s.tiers.objs,
    moves := s.tiers.moves ++ (s.callObjs n target o).map (s.queuedMove target),
    calls := s.tiers.calls.set s.tiers.nextCall ⟨handle, owner⟩, nextCall := s.tiers.nextCall + 1 } }

section
variable {vf : Bool} {b : List Byte} {o : TierObj} {s : State} (hpass : s.placeRefusal vf b = none) (hlive : s.liveObj (field b 0 8) = some o)
include hpass hlive

/-- A call that passes, and has something to move, queues its moves (R254). -/
theorem placeCall_of_moves (hplace : bit (field b 9 1) 0 = false) (hmoves : s.callObjs (field b 0 8 % 2 ^ 28) (field b 8 1) o ≠ [])
    (owner : MoveOwner) : s.placeCall vf owner b = s.queueMoves (field b 0 8) (field b 8 1) o owner := by
  simp only [State.placeCall, hpass, hlive, hplace, List.isEmpty_eq_false_iff.2 hmoves, Bool.false_eq_true, if_false]
  rfl

/-- A cancelling call that passes abandons its object's moves and completes (R254). -/
theorem placeCall_of_cancel (hcancel : bit (field b 9 1) 0 = true) (owner : MoveOwner) :
    s.placeCall vf owner b = (s.cancelMoves (s.objMoves (field b 0 8 % 2 ^ 28) o)).answerCall owner 0 := by
  simp only [State.placeCall, hpass, hlive, hcancel, if_true]

end

/-- The management firmware's call queues its moves (R254, R425). -/
theorem execMgmtPlace_of_moves {call : List Byte} {o : TierObj} {s : State} (hpass : s.placeRefusal false call = none)
    (hlive : s.liveObj (field call 0 8) = some o) (hplace : bit (field call 9 1) 0 = false)
    (hmoves : s.callObjs (field call 0 8 % 2 ^ 28) (field call 8 1) o ≠ []) :
    execMgmtPlace call s = .next (s.queueMoves (field call 0 8) (field call 8 1) o (.mgmt s.tiers.nextCall)) := by
  rw [execMgmtPlace, placeCall_of_moves hpass hlive hplace hmoves]

section
variable {cmd : AdminCmd} {o : TierObj} {s a : State} {b : List Byte} (hruns : s.adminRuns cmd 0x60 16 true false = true)
  (ha : s.adminTaken cmd = a) (hb : slice (cmd.entry.drop 48) 0 16 = b)
include hruns ha hb

/-- A PLACE command that runs makes its call, as a VF's where it is one (R254, R400). -/
theorem placeCommand_of_runs : s.placeCommand cmd = a.placeCall (decide (cmd.fn ≠ 0)) (.admin (adminRef cmd)) b := by
  rw [State.placeCommand, adminCommand_runs _ _ _ _ _ _ _ hruns, ha, hb]

variable (hpass : a.placeRefusal (decide (cmd.fn ≠ 0)) b = none) (hlive : a.liveObj (field b 0 8) = some o)
include hpass hlive

/-- PLACE queues the moves of its call (R254). -/
theorem execPlace_of_moves (hplace : bit (field b 9 1) 0 = false) (hmoves : a.callObjs (field b 0 8 % 2 ^ 28) (field b 8 1) o ≠ []) :
    execPlace cmd s = .next (a.queueMoves (field b 0 8) (field b 8 1) o (.admin (adminRef cmd))).resumeRequests := by
  rw [execPlace, placeCommand_of_runs hruns ha hb, placeCall_of_moves hpass hlive hplace hmoves]

/-- A PLACE whose CANCEL flag is set abandons the moves and completes (R254). -/
theorem execPlaceCancel_of_cancel (hcancel : bit (field b 9 1) 0 = true) (hflag : bit (field cmd.entry 57 1) 0 = true) :
    execPlaceCancel cmd s =
      .next ((a.cancelMoves (a.objMoves (field b 0 8 % 2 ^ 28) o)).answerCall (.admin (adminRef cmd)) 0).resumeRequests := by
  rw [execPlaceCancel, if_pos hflag, placeCommand_of_runs hruns ha hb, placeCall_of_cancel hpass hlive hcancel]

end

/-- DESCRIBE of one object answers its descriptor; only a list's answers those of its objects too, when it is asked for them (R252). -/
theorem execDescribe_of_one {cmd : AdminCmd} {o : TierObj} {s a : State} {h : Nat}
    (hruns : s.adminRuns cmd 0x61 9 (field cmd.entry 56 1 < 2) true = true) (ha : s.adminTaken cmd = a) (hh : field cmd.entry 48 8 = h)
    (hlive : a.liveObj h = some o) (hone : bit (field cmd.entry 56 1) 0 = false ∨ o.kind ≠ 0) :
    execDescribe cmd s = .next (a.adminDone (adminRef cmd) 0 (a.descriptor (h % 2 ^ 28) o) []) := by
  have hobjs : (bit (field cmd.entry 56 1) 0 && decide (o.kind = 0)) = false := by
    rw [Bool.and_eq_false_iff, decide_eq_false_iff_not]; exact hone
  simp only [execDescribe, adminCommand_runs _ _ _ _ _ _ _ hruns, ha, hh, hlive, hobjs, Bool.false_eq_true, if_false, List.flatMap_nil,
    List.append_nil]

/-! ## Moves -/

/-- The first queued move starts where fewer than 8 run and its destination has room, with its whole object to copy (R254, R255). -/
theorem execMoveStart_of_room {m : Move} {o : TierObj} {s : State} (hfirst : (s.tiers.moves.find? fun m => !m.running) = some m)
    (hobj : s.tiers.objs.get m.obj = some o) (hfew : (s.tiers.moves.filter fun x => x.running && !x.switched).length < 8)
    (hupkeep : s.upkeepRuns = true) (hroom : o.size ≤ s.tierRoom m.target false) :
    execMoveStart s = .next (s.updTierMove m.obj fun x => { x with running := true, source := o.tier, copied := o.size, dirty := [] }) := by
  simp only [execMoveStart, hfirst, hobj, ge_iff_le, Nat.not_le.2 hfew, hupkeep, gt_iff_lt, Nat.not_lt.2 hroom, decide_false, Bool.not_true,
    Bool.or_self, Bool.false_eq_true, if_false]

section
variable {obj : Nat} {m : Move} {s : State} (hmove : (s.tiers.moves.find? fun m => m.obj = obj && m.running && !m.switched) = some m)
  (hruns : s.movesRun m = true) (hwhole : (s.tiers.repair.any fun r => r.obj = obj) = false)
include hmove hruns hwhole

/-- A chunk of an HBM or LPDDR source that fails error correction is marked for repair, and the move waits (R257). -/
theorem execMoveRoundComplete_of_read_failed (hdram : m.source ≤ 1) (writeOk : Bool) :
    execMoveRoundComplete obj ⟨false, writeOk⟩ s = .next (s.markRepair m.source obj).readFailed := by
  simp only [execMoveRoundComplete, hmove, hruns, hwhole, hdram, Bool.not_true, Bool.not_false, Bool.or_self, Bool.false_eq_true, if_false, if_true]

/-- A write of the destination that fails abandons the move (R257). -/
theorem execMoveRoundComplete_of_write_failed :
    execMoveRoundComplete obj ⟨true, false⟩ s = .next (s.failMove m 0x409).resumeRequests := by
  simp only [execMoveRoundComplete, hmove, hruns, hwhole, Bool.not_true, Bool.not_false, Bool.or_self, Bool.false_eq_true, if_false, if_true]

/-- A round that has copied everything is followed by one of the chunks written meanwhile, or by the switch, when 50 µs suffice for those (R255). -/
theorem execMoveRoundComplete_of_copied :
    let a := s.count (objKey 0x2810 1) m.copied
    execMoveRoundComplete obj ⟨true, true⟩ s = .next (if 65536 * m.dirty.length > a.tailBytes
      then a.updTierMove obj fun x => { x with copied := 65536 * m.dirty.length, dirty := [] }
      else ((a.count (objKey 0x2810 1) (65536 * m.dirty.length)).switchMove m).resumeRequests) := by
  simp only [execMoveRoundComplete, hmove, hruns, hwhole, Bool.not_true, Bool.or_self, Bool.false_eq_true, if_false]

end

/-- The source of a switched move is freed once no read of it is in progress (R255). -/
theorem execMoveSourceFree_of_read {obj : Nat} {m : Move} {s : State} (hmove : (s.tiers.moves.find? fun m => m.obj = obj && m.switched) = some m)
    (hread : s.sourceReads m = false) :
    execMoveSourceFree obj s = .next { s with tiers := { s.tiers with moves := s.tiers.moves.filter fun x => !(x.obj = obj && x.switched) } } := by
  simp only [execMoveSourceFree, hmove, hread, Bool.false_eq_true, if_false]

/-! ## Repair and retirement -/

/-- A page leaves REPAIR, remapped to a spare page of its device unless that has retired (R262, R263). -/
def State.leaveRepair (s : State) (tier device page : Nat) : State :=
  let k := tier * 256 + device
  { s with tiers := { s.tiers with
    repair := s.tiers.repair.filter fun x => !(x.tier = tier && x.device = device && x.page = page),
    remapped := if s.tiers.retired.contains k then s.tiers.remapped else s.tiers.remapped.set k (s.tiers.remapped.getD k 0 + 1) } }

/-- One of the first 64 pages in REPAIR leaves it with its content regenerated (R262). -/
theorem execRepairComplete_of_waiting {tier device page : Nat} {r : RepairPage} {s : State}
    (hpage : ((s.tiers.repair.take 64).find? fun r => r.tier = tier && r.device = device && r.page = page) = some r) :
    execRepairComplete tier device page s =
      .next (((s.leaveRepair tier device page).regenPage r.obj page).count (objKey 0x2810 2) 4096) := by
  simp only [execRepairComplete, hpage]
  rfl

/-- A device's pages, as the spec leaves them free, enter REPAIR in place of those of them that were there (R263; log 43). -/
def State.retirePages (s : State) (tier device : Nat) (pages : List RepairPage) : State :=
  { s with
    freeCount := s.freeCount + 1,
    tiers := { s.tiers with
      retired := s.tiers.retired ++ [tier * 256 + device],
      repair := (s.tiers.repair.filter fun (r : RepairPage) => !(r.tier = tier && r.device = device)) ++ pages } }

/-- A stack or package in service retires: its pages enter REPAIR, and code pairs leave their tiers until the rest fits (R263). -/
theorem execDeviceRetire_of_serving {tier device : Nat} {s : State} (htier : tier ≤ 1) (hdevice : device < if tier = 0 then 10 else 24)
    (hserves : s.tiers.retired.contains (tier * 256 + device) = false) :
    let unit := if tier = 0 then unitStack device else unitPackage device
    let pages := (Config.pagesHeld s.freeCount).map fun p => (⟨tier, device, p.1, p.2⟩ : RepairPage)
    let b := (((s.retirePages tier device pages).markRetired unit).logState 0x2810 7 unit 0 1).count (objKey 0x2810 7) pages.length
    execDeviceRetire tier device s = .next (((b.makeRoom 1).makeRoom 0).makeRoom 1).dropSketches.settle.resumeRequests := by
  simp only [execDeviceRetire, State.retireDevice, gt_iff_lt, Nat.not_lt.2 htier, ge_iff_le, Nat.not_le.2 hdevice, hserves, decide_false,
    Bool.or_self, Bool.false_eq_true, if_false]
  rfl

/-- Settles O30: each command's lemma gives the state, case by case. -/
theorem placementCommandsComplete : Obligations.PlacementCommandsComplete := by
  unfold Obligations.PlacementCommandsComplete
  refine ⟨?mgmtPlace, ?place, ?describe, ?start, ?round, ?free, ?repair, ?retire⟩
  case mgmtPlace =>
    intro call o s hpass hlive hplace n os hmoves
    exact ⟨_, execMgmtPlace_of_moves hpass hlive hplace hmoves, rfl⟩
  case place =>
    intro cmd o s hruns a b hpass hlive n os
    exact ⟨fun hplace hmoves => ⟨_, execPlace_of_moves hruns rfl rfl hpass hlive hplace hmoves, rfl⟩,
      fun hcancel hflag => ⟨_, execPlaceCancel_of_cancel hruns rfl rfl hpass hlive hcancel hflag, rfl⟩⟩
  case describe =>
    intro cmd o s hruns a h hlive hone
    exact ⟨_, execDescribe_of_one hruns rfl rfl hlive hone, rfl⟩
  case start =>
    intro m o s hfirst hobj hfew hupkeep hroom
    exact ⟨_, execMoveStart_of_room hfirst hobj hfew hupkeep hroom, rfl⟩
  case round =>
    intro obj m s hmove hruns hwhole
    exact ⟨fun hdram => ⟨_, execMoveRoundComplete_of_read_failed hmove hruns hwhole hdram true, rfl⟩,
      ⟨_, execMoveRoundComplete_of_write_failed hmove hruns hwhole, rfl⟩, ⟨_, execMoveRoundComplete_of_copied hmove hruns hwhole, rfl⟩⟩
  case free => exact fun obj m s hmove hread => ⟨_, execMoveSourceFree_of_read hmove hread, rfl⟩
  case repair => exact fun tier device page r s hpage => ⟨_, execRepairComplete_of_waiting hpage, rfl⟩
  case retire =>
    intro tier device s htier hdevice hserves
    exact ⟨_, execDeviceRetire_of_serving htier hdevice hserves, rfl⟩

end Sys2Proof.Machine
end

section
/-! SUPPORT. The commands on staging banks and on Harebell's march (R265 to R267, R269 to R274): one lemma per command and case, then the statement
on all of them. -/
namespace Sys2Proof.Machine

/-! ## Banks handed over -/

section
variable {part strand bank master : Nat} (hpart : part < 4) (hstrand : strand < 9) (hbank : bank < 32) (hmaster : master < 4)
include hpart hstrand hbank hmaster

/-- The numbers of a bank and a master that exist pass the range check. -/
theorem bank_in_range : (decide (part ≥ 4) || decide (strand ≥ 9) || decide (bank ≥ 32) || decide (master ≥ 4)) = false := by
  simp only [ge_iff_le, Nat.not_le.2 hpart, Nat.not_le.2 hstrand, Nat.not_le.2 hbank, Nat.not_le.2 hmaster, decide_false, Bool.or_self]

/-- The owner of a bank, or management, hands it over (R266). -/
theorem execBankOwner_of_entitled {s : State} (hown : master = s.ownerOf (bankId part strand bank) ∨ master = 3) (value : Nat) :
    execBankOwner part strand bank master value none s = .next (s.giveBank (bankId part strand bank) (value % 4)) := by
  have hentitled : (decide (master ≠ s.ownerOf (bankId part strand bank)) && decide (master ≠ 3)) = false := by
    rw [Bool.and_eq_false_iff, decide_eq_false_iff_not, decide_eq_false_iff_not, Decidable.not_not, Decidable.not_not]; exact hown
  simp only [execBankOwner, bank_in_range hpart hstrand hbank hmaster, hentitled, Bool.false_eq_true, if_false]

/-- Another master is refused and counted (R266, R270). -/
theorem execBankOwner_of_other {s : State} (hother : master ≠ s.ownerOf (bankId part strand bank)) (hmgmt : master ≠ 3) (value : Nat) :
    execBankOwner part strand bank master value none s = .next (s.stagingCount part strand (master + 1)) := by
  simp only [execBankOwner, bank_in_range hpart hstrand hbank hmaster, decide_eq_true hother, decide_eq_true hmgmt, Bool.and_self,
    Bool.false_eq_true, if_false, if_true]

/-- Of two values in one cycle management's is taken, and a master beside it is refused and counted (R266, R270). -/
theorem execBankOwner_of_management (s : State) (value v : Nat) :
    execBankOwner part strand bank master value (some v) s =
      .next ((if master = 3 then s else s.stagingCount part strand (master + 1)).giveBank (bankId part strand bank) (v % 4)) := by
  simp only [execBankOwner, bank_in_range hpart hstrand hbank hmaster, Bool.false_eq_true, if_false]

end

/-! ## Accesses -/

/-- The numbers of an access are those of a word and a master that exist. -/
structure AccessInRange (a : StagingAccess) : Prop where
  part : a.part < 4
  strand : a.strand < 9
  bank : a.bank < 32
  word : a.word < 2048
  master : a.master < 4

section
variable {a : StagingAccess} {s : State}

/-- An access in range passes the range check. -/
theorem AccessInRange.check (h : AccessInRange a) :
    (decide (a.part ≥ 4) || decide (a.strand ≥ 9) || decide (a.bank ≥ 32) || decide (a.word ≥ 2048) || decide (a.master ≥ 4)) = false := by
  simp only [ge_iff_le, Nat.not_le.2 h.part, Nat.not_le.2 h.strand, Nat.not_le.2 h.bank, Nat.not_le.2 h.word, Nat.not_le.2 h.master, decide_false,
    Bool.or_self]

/-- The owner's access is served (R265). -/
theorem execStagingRefused_of_owner (h : AccessInRange a) (hown : s.ownerOf (bankId a.part a.strand a.bank) = a.master) :
    execStagingRefused a s = .next (s.serveAccess a) := by
  simp only [execStagingRefused, h.check, hown, Bool.false_eq_true, if_false, if_true]

/-- A write alone writes its word (R265). -/
theorem serveAccess_of_write {b : List Byte} (hwrite : a.write = some b) (hread : a.read = false) :
    s.serveAccess a = s.writeWord a.part (accessWord a) b := by
  simp only [State.serveAccess, hwrite, hread, Bool.false_eq_true, if_false]

/-- A read together with a write of its word returns the new data (R269). -/
theorem serveAccess_of_both {b : List Byte} (hwrite : a.write = some b) (hread : a.read = true) :
    s.serveAccess a =
      (s.writeWord a.part (accessWord a) b).emit (.staging ((s.writeWord a.part (accessWord a) b).readWord a.part (accessWord a))) := by
  simp only [State.serveAccess, hwrite, hread, if_true]

/-- A read that SECDED finds without error returns the word (R264, R265). -/
theorem serveAccess_of_read (hwrite : a.write = none) (hecc : a.ecc = 0) :
    s.serveAccess a = s.emit (.staging (s.readWord a.part (accessWord a))) := by
  simp only [State.serveAccess, State.readChecked, hwrite, hecc, decide_true, Bool.true_or, if_true]

variable (h : AccessInRange a) (hother : s.ownerOf (bankId a.part a.strand a.bank) ≠ a.master)
include h hother

/-- A refused read is counted and answered with zeros and a bus error (R267). -/
theorem execStagingRefused_of_read (hwrite : a.write = none) (hbatch : a.batch = none) :
    execStagingRefused a s = .next (((s.stagingCount a.part a.strand (a.master + 1)).emit (.staging (List.replicate wordBytes 0))).emit
      (.busError a.master)) := by
  simp only [execStagingRefused, h.check, hother, hwrite, hbatch, Option.isSome_none, Bool.false_and, Bool.false_eq_true, if_false]

/-- A refused write of a batch's own tile is counted, withdraws the batch and scores the strand (R267). -/
theorem execStagingRefused_of_batch_write {b : List Byte} {n : Nat} (hwrite : a.write = some b) (hread : a.read = false)
    (hbatch : a.batch = some n) :
    execStagingRefused a s = .next (((s.stagingCount a.part a.strand (a.master + 1)).withdrawBatch n).scorePhys a.part a.strand 250) := by
  simp only [execStagingRefused, h.check, hother, hwrite, hread, hbatch, Option.isSome_some, Bool.not_false, Bool.and_self, Bool.false_eq_true,
    if_false, if_true]

end

/-! ## The march -/

/-- The Harebell engine of a partition. -/
abbrev State.harebell (s : State) (part : Nat) : Harebell := s.staging.hb.getD part {}

section
variable {part t : Nat} {s : State} (hpart : part < 4)
include hpart

/-- After HAREBELL_INTERVAL the next word is copied to the save register, and its test starts (R271, R274). -/
theorem execHarebellWord_of_due {a : State} {h : Harebell} (ha : s.advance t = a) (hh : a.harebell part = h) (hidle : h.active = false)
    (henabled : a.setting 0x2800 4 1 ≠ 0) (hupkeep : a.upkeepRuns = true)
    (hdue : h.lastDone + a.setting 0x2800 3 24000 * cyclesPerUs ≤ a.time) :
    execHarebellWord part t s = .next { a with staging := { a.staging with
      hb := a.staging.hb.set part { h with
        active := true, word := nextWord h, startedAt := a.time, save := readMem a.staging.mem (wordAddr part (nextWord h)) wordBytes } } } := by
  simp only [execHarebellWord, ha, hh, ge_iff_le, Nat.not_le.2 hpart, hidle, henabled, hupkeep, Nat.not_lt.2 hdue, decide_false, Bool.not_true,
    Bool.or_self, Bool.false_eq_true, if_false]

variable (hactive : ((s.advance t).harebell part).active = true)
include hactive

/-- A march on a word that is under test ends as it passed or failed (R271, R273). -/
theorem execHarebellTestComplete_of_active (pass : Bool) : execHarebellTestComplete part pass t s = .next ((s.advance t).testDone part pass) := by
  simp only [execHarebellTestComplete, ge_iff_le, Nat.not_le.2 hpart, hactive, decide_false, Bool.not_true, Bool.or_self, Bool.false_eq_true,
    if_false]

/-- A test that has run 4,096 cycles is counted, and its word is deferred (R272). -/
theorem execHbDeferred_of_late (hlate : ((s.advance t).harebell part).startedAt + 4096 ≤ (s.advance t).time) :
    execHbDeferred part t s = .next (((s.advance t).leaveWord part true).tally (0x2840 + part) 5) := by
  simp only [execHbDeferred, ge_iff_le, Nat.not_le.2 hpart, hactive, Nat.not_lt.2 hlate, decide_false, Bool.not_true, Bool.or_self,
    Bool.false_eq_true, if_false]

end

/-- The march on a word that passed counts its bytes and leaves the word as it was saved (R271). -/
theorem testDone_of_pass (s : State) (part : Nat) : s.testDone part true = (s.count (objKey (0x2840 + part) 1) wordBytes).leaveWord part false := by
  simp only [State.testDone, if_true]

/-- Settles O31: each command's lemma gives the state, case by case. -/
theorem stagingCommandsComplete : Obligations.StagingCommandsComplete := by
  unfold Obligations.StagingCommandsComplete
  refine ⟨?owner, ?access, ?word, ?test, ?deferred⟩
  case owner =>
    intro part strand bank master value s hpart hstrand hbank hmaster id
    exact ⟨fun hown => ⟨_, execBankOwner_of_entitled hpart hstrand hbank hmaster hown value, rfl⟩,
      fun hother hmgmt => ⟨_, execBankOwner_of_other hpart hstrand hbank hmaster hother hmgmt value, rfl⟩,
      fun v => ⟨_, execBankOwner_of_management hpart hstrand hbank (by decide) s value v, rfl⟩⟩
  case access =>
    intro a s hpart hstrand hbank hword hmaster
    have hrange : AccessInRange a := ⟨hpart, hstrand, hbank, hword, hmaster⟩
    refine ⟨fun hown => ?_, fun hother => ?_⟩
    · have hserved := execStagingRefused_of_owner hrange hown
      exact ⟨fun b hwrite hread => ⟨_, hserved, serveAccess_of_write hwrite hread⟩,
        fun b hwrite hread => ⟨_, hserved, serveAccess_of_both hwrite hread⟩,
        fun hwrite hecc => ⟨_, hserved, serveAccess_of_read hwrite hecc⟩⟩
    · exact ⟨fun hwrite hbatch => ⟨_, execStagingRefused_of_read hrange hother hwrite hbatch, rfl⟩,
        fun b n hwrite hread hbatch => ⟨_, execStagingRefused_of_batch_write hrange hother hwrite hread hbatch, rfl⟩⟩
  case word =>
    intro part t s a h hpart hidle henabled hupkeep hdue
    exact ⟨_, execHarebellWord_of_due hpart rfl rfl hidle henabled hupkeep hdue, rfl⟩
  case test =>
    intro part t s hpart hactive
    exact ⟨⟨_, execHarebellTestComplete_of_active hpart hactive true, testDone_of_pass _ part⟩,
      ⟨_, execHarebellTestComplete_of_active hpart hactive false, rfl⟩⟩
  case deferred =>
    intro part t s hpart hactive hlate
    exact ⟨_, execHbDeferred_of_late hpart hactive hlate, rfl⟩

end Sys2Proof.Machine
end

section
/-! SUPPORT. The commands of the limiter, the shedding steps, the flush and the temperatures (R474, R478, R480, R482, R483): one lemma per
command and case, then the statement on all of them. -/
namespace Sys2Proof.Machine

/-! ## The limiter and the voltage -/

@[simp] theorem State.advance_filtered (s : State) (t : Nat) : (s.advance t).filtered = s.filtered := by
  rw [State.filtered, State.filtered, State.advance_power_filtered]

section
variable {t mv c : Nat} {s : State}

/-- Input above 52 A for 20 µs forces step 3 for 100 ms (R474). -/
theorem execLimiterTrips_of_overcurrent (hc : s.power.overCurrentAt = some c) (hlong : c + 20 * cyclesPerUs ≤ max s.time t) :
    execLimiterTrips t s = .next ((({ s.advance t with power := { (s.advance t).power with
      limiterOn := true, limiterUntil := max s.time t + 100 * cyclesPerMs, overCurrentAt := none } } : State).tally 0x2C20 5).logEvent
        0x2C20 5 2 unitModule []).settleShed := by
  simp only [execLimiterTrips, State.advance_power_overCurrentAt, State.advance_time, hc, Nat.not_lt.2 hlong, if_false]

/-- The state whose step in force SHED_STEP settles: the voltage `mv` calls for step `n`, and the limiter for step 3 until its time (R474,
R478). -/
def State.voltCalls (s : State) (t mv n : Nat) : State :=
  { s.advance t with power := { (s.advance t).power with
    voltStep := n
    aboveSince := if n = s.power.voltStep then s.power.aboveSince else if mv > shedLeave n then some (max s.time t) else none
    limiterOn := s.power.limiterOn && decide (max s.time t < s.power.limiterUntil) } }

variable (hmv : s.filtered = some mv) (hpeak : s.power.filtered.foldl max 0 < mv + 6000)
include hmv hpeak

/-- A voltage that has not risen above the thresholds in force calls for the step it has fallen to at once (R478). -/
theorem execShedStep_of_fallen (hle : s.power.voltStep ≤ voltEnter mv) : execShedStep t s = .next (s.voltCalls t mv (voltEnter mv)).settleShed := by
  cases hc : s.power.aboveSince <;>
    simp only [execShedStep, State.voltCalls, State.advance_filtered, State.advance_time, State.advance_power_filtered,
      State.advance_power_voltStep, State.advance_power_aboveSince, State.advance_power_limiterOn, State.advance_power_limiterUntil, hmv, hc,
      Nat.not_le.2 hpeak, decide_eq_false (Nat.not_lt.2 hle), Bool.and_false, Bool.false_and, Nat.max_eq_right hle, Bool.false_eq_true, if_false]

/-- A voltage that has been above the threshold of the step in force for 100 ms calls for the next lower one (R478). -/
theorem execShedStep_of_recovered (hlt : voltEnter mv < s.power.voltStep) (hsix : s.power.voltStep < 6) (hc : s.power.aboveSince = some c)
    (hlong : c + 100 * cyclesPerMs ≤ max s.time t) : execShedStep t s = .next (s.voltCalls t mv (s.power.voltStep - 1)).settleShed := by
  simp only [execShedStep, State.voltCalls, State.advance_filtered, State.advance_time, State.advance_power_filtered, State.advance_power_voltStep,
    State.advance_power_aboveSince, State.advance_power_limiterOn, State.advance_power_limiterUntil, hmv, hc, Nat.not_le.2 hpeak, ge_iff_le,
    gt_iff_lt, decide_eq_true hlt, decide_eq_true hsix, decide_eq_true hlong, decide_eq_true (Nat.zero_lt_of_lt hlt), Bool.and_self, if_false,
    if_true]

end

/-! ## The flush -/

/-- What the flush of R480 has written when its LIFECYCLE record is made: every page and the pending journal records are on flash. -/
def State.flushed (s : State) : State :=
  let a := s.closeWains
  let b := (a.flash.pages.filter fun kp => kp.2.state < 2 && !kp.2.units.isEmpty).foldl (fun s kp =>
    if kp.2.state = 0 then s.issueProgram kp.1 else s) a
  { b with flash := { b.flash with
    pages := b.flash.pages.mapVals fun p => if p.state < 2 then { p with state := 2, buffered := false } else p
    rows := b.flash.rows.mapVals fun r => { r with sbs := r.sbs.mapVals fun b => { b with erasing := false } }
    jDurable := b.flash.jDurable ++ b.flash.jPending, jPending := [], chans := [] } }

/-- VBUS off: the supply of every domain and the management processor are gone (R480). -/
def State.cutVbus (s : State) : State :=
  { s with
    power := { s.power with busOff := true, doms := [] }
    mgmt := { s.mgmt with boot := .off, serverUp := false, update := none, committed := false } }

/-- A flush that has begun ends with its LIFECYCLE record and VBUS off (R480). -/
theorem execHoldupFlushes_of_flushing {s : State} (t : Nat) (hflush : s.power.flushing = true) (hbus : s.power.busOff = false) :
    execHoldupFlushes t s = .next (((s.advance t).flushed.logEvent 0x2C20 7 4 unitModule []).cutVbus) := by
  simp only [execHoldupFlushes, State.advance_power_flushing, State.advance_power_busOff, hflush, hbus, Bool.not_true, Bool.or_self,
    Bool.false_eq_true, if_false]
  rfl

/-- After a flush no page waits for its program (R480). -/
theorem State.flushed_pages {s : State} {kp : Nat × FlashPage} (h : kp ∈ s.flushed.flash.pages) : 2 ≤ kp.2.state := by
  obtain ⟨x, -, rfl⟩ := List.mem_map.1 h
  dsimp only
  split
  · exact Nat.le_refl 2
  · omega

/-! ## Temperatures -/

section
variable {sub point release trip : Nat} {s : State} (hpoints : s.thermalPoints sub = some (point, release, trip))
include hpoints

/-- A sensor of a unit at its throttle point is noted, counted and logged, and its unit scored (R482, R497). -/
theorem execThermalThrottles_of_hot (hnew : s.power.throttled.contains sub = false)
    (hhot : tempGe (s.sensors.getD (objKey 0x2CF0 sub) 0) point = true) (hport : ¬(sub = 5 ∨ sub = 6)) (hunit : sensorUnit sub ≠ unitModule) :
    execThermalThrottles sub s = .next ((((({ s with power := { s.power with
      throttled := s.power.throttled ++ [sub] } } : State).tally 0x2C20 8).logEvent 0x2C20 8 2 (sensorUnit sub) (leBytes 8 sub)).score
        (sensorUnit sub) 10).settle) := by
  simp only [execThermalThrottles, hpoints, hnew, hhot, hport, hunit, Bool.not_true, Bool.or_self, Bool.false_eq_true, if_false]

/-- A sensor below its release point is no longer throttled (R482). -/
theorem execThermalRelease_of_cool (hcool : tempBelow (s.sensors.getD (objKey 0x2CF0 sub) 0) release = true) :
    execThermalRelease sub s = .next { s with power := { s.power with throttled := s.power.throttled.filter (· ≠ sub) } } := by
  simp only [execThermalRelease, hpoints, hcool, Bool.not_true, Bool.false_eq_true, if_false]

end

theorem unitPart_ne_unitModule (p : Nat) : unitPart p ≠ unitModule := by
  simp only [unitPart, unitModule]
  omega

section
variable {p : Nat} (hp : p < 4)
include hp

/-- Sensors 1 to 4 watch the partitions (R449, R482): each throttles at its cap, is released 3 °C below and trips at 105 °C. -/
theorem thermalPoints_of_partition (s : State) :
    s.thermalPoints (p + 1) = some (s.setting 0x2C02 (p + 1) 95, s.setting 0x2C02 (p + 1) 95 - 3, 105) :=
  if_pos ⟨Nat.le_add_left 1 p, hp⟩

theorem sensorUnit_of_partition : sensorUnit (p + 1) = unitPart p := if_pos ⟨Nat.le_add_left 1 p, hp⟩

/-- A partition's sensor at its trip point is noted, counted and logged, the partition scored and reset at once (R482, R495). -/
theorem execThermalTrips_of_partition {s : State} (hnew : s.power.tripped.contains (p + 1) = false) :
    execThermalTrips (p + 1) s = .next (((((({ s with power := { s.power with
      tripped := s.power.tripped ++ [p + 1] } } : State).tally 0x2C20 9).logEvent 0x2C20 9 2 (unitPart p) (leBytes 8 (p + 1))).score
        (unitPart p) 300).settle).tripPartition p) := by
  have hhasTrip : (105 : Nat) ≠ 0 := by decide
  simp only [execThermalTrips, thermalPoints_of_partition hp, sensorUnit_of_partition hp, unitPart_ne_unitModule p, hnew, Nat.succ_le_of_lt hp,
    Nat.add_sub_cancel, hhasTrip, decide_false, Bool.or_self, Bool.false_eq_true, if_false, if_true]

/-- A cap exceeded for 1 s at the lowest clock is counted and logged, and the tiles that set it retire (R483, R506). -/
theorem execCapNotHeld_of_exceeded {t c : Nat} {s : State} (hc : s.power.capSince.get p = some c) (hlong : c + cyclesPerS ≤ max s.time t)
    (hnew : s.power.capCounted.contains p = false) :
    execCapNotHeld p t s = .next ((s.repair.savedCap.filter fun c => c.1 = p).foldl (fun s c => s.retireUnit c.2.1)
      ((({ s.advance t with power := { (s.advance t).power with capCounted := s.power.capCounted ++ [p] } } : State).tally 0x2C20 0xA).logEvent
        0x2C20 0xA 2 (unitPart p) (leBytes 8 (s.setting 0x2C02 (p + 1) 95)))).settleLevel := by
  simp only [execCapNotHeld, State.advance_power_capSince, State.advance_power_capCounted, State.advance_time, hc, hnew, ge_iff_le,
    Nat.not_le.2 hp, Nat.not_lt.2 hlong, decide_false, Bool.or_self, Bool.false_eq_true, if_false, State.logEvent_repair, State.tally_repair,
    State.advance_repair, State.setting, State.advance_dict]

end

/-- Settles O11: each command's lemma gives the state, case by case. -/
theorem sheddingAndThermalCommandsComplete : Obligations.SheddingAndThermalCommandsComplete := by
  unfold Obligations.SheddingAndThermalCommandsComplete
  refine ⟨?limiter, ?fallen, ?recovered, ?flush, ?throttle, ?release, ?trip, ?cap⟩
  case limiter => exact fun t c s hc hlong => ⟨_, execLimiterTrips_of_overcurrent hc hlong, rfl⟩
  case fallen =>
    intro t mv s hmv hle hpeak
    exact ⟨_, execShedStep_of_fallen hmv hpeak hle, _, rfl⟩
  case recovered =>
    intro t mv c s hmv hlt hsix hpeak hc hlong
    exact ⟨_, execShedStep_of_recovered hmv hpeak hlt hsix hc hlong, _, rfl⟩
  case flush =>
    intro t s hflush hbus
    refine ⟨_, execHoldupFlushes_of_flushing t hflush hbus, rfl, rfl, rfl, rfl, ?_, fun kp hkp => ?_⟩
    · rw [State.cutVbus, State.logEvent_flash, State.flushed]
    · rw [State.cutVbus, State.logEvent_flash] at hkp
      exact State.flushed_pages hkp
  case throttle =>
    intro sub point release trip s hpoints hnew hhot hfive hsix hunit
    exact ⟨_, execThermalThrottles_of_hot hpoints hnew hhot (not_or.2 ⟨hfive, hsix⟩) hunit, rfl⟩
  case release => exact fun sub point release trip s hpoints hcool => ⟨_, execThermalRelease_of_cool hpoints hcool, rfl⟩
  case trip => exact fun p s hp hnew => ⟨_, execThermalTrips_of_partition hp hnew, rfl⟩
  case cap => exact fun part t c s hp hc hlong hnew => ⟨_, execCapNotHeld_of_exceeded hp hc hlong hnew, rfl⟩

end Sys2Proof.Machine
end

section
/-! SUPPORT. The headers of flash pages and the records of the translation journal as words one after another (R288, R293). -/
namespace Sys2Proof.Machine

/-- A field that lies inside the beginning of a string is a field of that beginning. -/
theorem field_of_prefix {a b : List Byte} (h : a <+: b) {off n : Nat} (hfits : off + n ≤ a.length) : field b off n = field a off n := by
  obtain ⟨rest, rfl⟩ := h
  exact field_left _ _ _ _ hfits

/-- The kind of a page fits its byte (R288). -/
theorem pageKind_lt (p : FlashPage) : pageKind p < 256 := by
  unfold pageKind
  split
  · decide
  · split <;> decide

/-- The words with which a page's header begins: KIND, STREAM, ROW, UNITS, SUPERBLOCK and PAGE (R288). -/
def pageWords (key : Nat) (p : FlashPage) : List (Nat × Nat) :=
  [(1, pageKind p), (1, p.stream), (1, (keyParts key).1), (1, 2 ^ p.units.length - 1), (2, (keyParts key).2.1), (2, (keyParts key).2.2.1)]

theorem pageWords_prefix (b : Superblock) (key fill : Nat) (p : FlashPage) : packed (pageWords key p) <+: pageFields b key fill p := by
  simp only [pageFields, packed, pageWords, List.flatMap_cons, List.flatMap_nil, List.append_nil, List.append_assoc, List.prefix_append_right_inj,
    List.prefix_append]

theorem pageFields_length (b : Superblock) (key fill : Nat) (p : FlashPage) : (pageFields b key fill p).length = 124 := by
  simp only [pageFields, List.length_append, leBytes_length, length_blocks _ _ (fun _ => leBytes_length _ _), List.length_range]

/-- What the CRC of a page's header covers: bytes 0 to 123 (R288). -/
def State.pageBody (s : State) (key : Nat) (p : FlashPage) : List Byte :=
  pageFields (s.sb (keyParts key).1 (keyParts key).2.1) key
    (if p.parity then s.wainFill (keyParts key).1 (keyParts key).2.1 (keyParts key).2.2.1 else 0) p

theorem State.pageHeader_eq (s : State) (key : Nat) (p : FlashPage) :
    s.pageHeader key p = s.pageBody key p ++ leBytes 4 (crc32c (s.pageBody key p)) := rfl

theorem State.pageBody_length (s : State) (key : Nat) (p : FlashPage) : (s.pageBody key p).length = 124 := pageFields_length _ _ _ _

theorem State.pageHeader_length (s : State) (key : Nat) (p : FlashPage) : (s.pageHeader key p).length = 128 := by
  rw [s.pageHeader_eq, List.length_append, s.pageBody_length, leBytes_length]

/-- The last word of a page's header is the CRC-32C of the bytes before it (R288). -/
theorem State.field_pageHeader_crc (s : State) (key : Nat) (p : FlashPage) :
    field (s.pageHeader key p) 124 4 = crc32c ((s.pageHeader key p).take 124) % 2 ^ 32 := by
  rw [s.pageHeader_eq, List.take_left' (s.pageBody_length key p), field_right _ _ _ _ (s.pageBody_length key p)]
  exact field_leBytes 4 _

/-- A page's header gives each word of its beginning behind the words before it. -/
theorem State.field_pageHeader (s : State) {key : Nat} {p : FlashPage} (i : Nat) {o n x : Nat} (h : (pageWords key p)[i]? = some (n, x))
    (hplace : (((pageWords key p).take i).map (·.1)).sum = o) (hfits : o + n ≤ 8) : field (s.pageHeader key p) o n = x % 256 ^ n := by
  rw [s.pageHeader_eq, field_left _ _ _ _ (by rw [s.pageBody_length]; omega),
    State.pageBody, field_of_prefix (pageWords_prefix _ key _ p) (by rwa [packed_length]), ← hplace]
  exact field_packed h

/-- The second copy of a page's header repeats it but in a parity page (R288). -/
theorem State.pageHeader2_of_data (s : State) (key : Nat) {p : FlashPage} (h : p.parity = false) : s.pageHeader2 key p = s.pageHeader key p := by
  simp only [State.pageHeader2, h, Bool.false_eq_true, if_false]

/-- The words of a journal record (R293). -/
def journalWords (j : JournalRec) : List (Nat × Nat) :=
  [(1, j.ty), (1, j.row), (2, j.sb), (4, j.argA), (8, j.seq), (8, j.argB), (8, j.argC)]

theorem journalBytes_eq (j : JournalRec) : journalBytes j = packed (journalWords j) := by
  simp only [journalBytes, packed, journalWords, List.flatMap_cons, List.flatMap_nil, List.append_assoc, List.append_nil]

theorem journalBytes_length (j : JournalRec) : (journalBytes j).length = 32 := by rw [journalBytes_eq, packed_length]; rfl

/-- A journal record gives each of its words behind the words before it. -/
theorem field_journalBytes {j : JournalRec} (i : Nat) {o n x : Nat} (h : (journalWords j)[i]? = some (n, x))
    (hplace : (((journalWords j).take i).map (·.1)).sum = o) : field (journalBytes j) o n = x % 256 ^ n := by
  rw [journalBytes_eq, ← hplace]
  exact field_packed h

/-- Settles O53, by the words of which a header's beginning and a journal record consist. -/
theorem flashHeadersFollowTheLayout : Obligations.FlashHeadersFollowTheLayout := by
  unfold Obligations.FlashHeadersFollowTheLayout
  refine ⟨fun s key p => ?header, fun j => ?record⟩
  case header =>
    have hkind : field (s.pageHeader key p) 0 1 = pageKind p % 256 := s.field_pageHeader 0 rfl rfl (by decide)
    rw [Nat.mod_eq_of_lt (pageKind_lt p)] at hkind
    exact ⟨s.pageHeader_length key p, s.field_pageHeader_crc key p, hkind, s.field_pageHeader 1 rfl rfl (by decide),
      s.field_pageHeader 2 rfl rfl (by decide), s.field_pageHeader 4 rfl rfl (by decide), s.field_pageHeader 5 rfl rfl (by decide),
      s.pageHeader2_of_data key⟩
  case record =>
    exact ⟨journalBytes_length j, field_journalBytes 0 rfl rfl, field_journalBytes 1 rfl rfl, field_journalBytes 2 rfl rfl,
      field_journalBytes 3 rfl rfl, field_journalBytes 4 rfl rfl, field_journalBytes 5 rfl rfl, field_journalBytes 6 rfl rfl⟩

end Sys2Proof.Machine
end

section
/-! SUPPORT. The commands of the flash translation layer (R280, R285, R287, R289, R290, R293, R295, R301 to R306): one lemma per command and
case, then the statement on all of them. -/
namespace Sys2Proof.Machine

/-! ## Reads -/

/-- A read of a mapped unit whose page is programmed (R285): the map's entry, the page and slot it names, and the page's place. -/
structure ReadsPage (s : State) (lba entry : Nat) (at_ : Nat × Nat) (r n w c : Nat) (p : FlashPage) : Prop where
  entry_eq : s.flash.map.getD lba 0 = entry
  mapped : entry ≠ 0
  place_eq : s.locate lba entry = at_
  parts_eq : keyParts at_.1 = (r, n, w, c)
  page_eq : s.flash.pages.getD at_.1 { units := [] } = p
  programmed : 2 ≤ p.state

/-- A channel's controller senses a unit: it is awake, the bytes are counted and its busy cycles spent. -/
def State.senseUnit (s : State) (c : Nat) : State :=
  ((s.wake .onfi c 2).count (objKey (0x2920 + c) 1) 4096).spendCycles (0x2920 + c) 3

theorem State.senseUnit_def (s : State) (c : Nat) :
    ((s.wake .onfi c 2).count (objKey (0x2920 + c) 1) 4096).spendCycles (0x2920 + c) 3 = s.senseUnit c := rfl

/-- Has a superblock another channel than `c` whose die is out of service (R306)? -/
def State.otherDead (s : State) (r n c : Nat) : Bool :=
  (maskChannels (s.sb r n).chMask).any fun d => d ≠ c && (s.row r).retired.contains d

theorem State.otherDead_def (s : State) (r n c : Nat) :
    ((maskChannels (s.sb r n).chMask).any fun d => d ≠ c && (s.row r).retired.contains d) = s.otherDead r n c := rfl

/-- An unmapped unit reads as zeros and is counted (R285). -/
theorem execFlashUnitRead_of_unmapped {lba : Nat} {s : State} (h : s.flash.map.getD lba 0 = 0) (level : Option Nat) (rebuilt : Bool) :
    execFlashUnitRead lba level rebuilt s = .next (s.tally 0x2910 4) := by
  simp only [execFlashUnitRead, h, if_true]

section
variable {s : State} {lba entry r n w c : Nat} {at_ : Nat × Nat} {p : FlashPage} (h : ReadsPage s lba entry at_ r n w c p)
include h

section
variable (hlive : ((s.senseUnit c).row r).retired.contains c = false)
include hlive

/-- A unit that decodes at its first level is read (R289). -/
theorem execFlashUnitRead_of_decoded (rebuilt : Bool) : execFlashUnitRead lba (some 0) rebuilt s = .next (s.senseUnit c) := by
  simp only [execFlashUnitRead, h.entry_eq, h.mapped, h.place_eq, h.parts_eq, h.page_eq, Nat.not_lt.2 h.programmed, State.senseUnit_def, hlive,
    Bool.false_and, Bool.false_eq_true, if_false, if_true]

/-- A unit that decodes at a retry level is noted at it, at most at level 15 (R289). -/
theorem execFlashUnitRead_of_retried {l : Nat} (hl : l ≠ 0) (rebuilt : Bool) :
    execFlashUnitRead lba (some l) rebuilt s = .next ((s.senseUnit c).retryRead r n c (min 15 l)) := by
  simp only [execFlashUnitRead, h.entry_eq, h.mapped, h.place_eq, h.parts_eq, h.page_eq, Nat.not_lt.2 h.programmed, State.senseUnit_def, hlive, hl,
    Bool.false_and, Bool.false_eq_true, if_false]

/-- A unit that decodes at no level and is not rebuilt fails (R287, R289). -/
theorem execFlashUnitRead_of_undecoded :
    execFlashUnitRead lba none false s = .next ((((s.senseUnit c).retryRead r n c 15).tally 0x2910 6).tally 0x2810 6) := by
  simp only [execFlashUnitRead, h.entry_eq, h.mapped, h.place_eq, h.parts_eq, h.page_eq, Nat.not_lt.2 h.programmed, State.senseUnit_def, hlive,
    Bool.false_and, Bool.false_eq_true, if_false]

end

section
variable (hdead : ((s.senseUnit c).row r).retired.contains c = true)
include hdead

/-- A unit of a die out of service is rebuilt from the other channels of its wain (R287, R306). -/
theorem execFlashUnitRead_of_dead {level : Option Nat} {rebuilt : Bool} (hone : (s.senseUnit c).otherDead r n c = false)
    (hreads : level.isSome = true ∨ rebuilt = true) :
    execFlashUnitRead lba level rebuilt s =
      .next ((s.senseUnit c).rebuildUnit lba entry ((p.units[at_.2]?.map (·.data)).getD []) r n c) := by
  cases hunit : p.units[at_.2]? <;> cases level with
  | none =>
    obtain rfl : rebuilt = true := hreads.resolve_left Bool.false_ne_true
    simp only [execFlashUnitRead, h.entry_eq, h.mapped, h.place_eq, h.parts_eq, h.page_eq, Nat.not_lt.2 h.programmed, State.senseUnit_def,
      State.otherDead_def, hdead, hone, hunit, Option.map_none, Option.map_some, Option.getD_none, Option.getD_some, Bool.and_false,
      Bool.not_false, Bool.and_self, Bool.false_eq_true, if_false, if_true]
  | some l =>
    simp only [execFlashUnitRead, h.entry_eq, h.mapped, h.place_eq, h.parts_eq, h.page_eq, Nat.not_lt.2 h.programmed, State.senseUnit_def,
      State.otherDead_def, hdead, hone, hunit, Option.map_none, Option.map_some, Option.getD_none, Option.getD_some, Bool.and_false,
      Bool.false_eq_true, if_false, if_true]

/-- A unit of a die out of service fails while another die of its superblock is out of service too (R306). -/
theorem execFlashUnitRead_of_two_dead (htwo : (s.senseUnit c).otherDead r n c = true) (level : Option Nat) (rebuilt : Bool) :
    execFlashUnitRead lba level rebuilt s = .next (((s.senseUnit c).tally 0x2910 6).tally 0x2810 6) := by
  simp only [execFlashUnitRead, h.entry_eq, h.mapped, h.place_eq, h.parts_eq, h.page_eq, Nat.not_lt.2 h.programmed, State.senseUnit_def,
    State.otherDead_def, hdead, htwo, Bool.and_self, Bool.not_true, Bool.and_false, Bool.false_eq_true, if_false, if_true]

end

end

/-! ## Programs -/

/-- A page takes the state `n`: 2 programmed, 3 failed (R287, R290). -/
def State.markPage (s : State) (page n : Nat) : State :=
  { s with flash := { s.flash with pages := s.flash.pages.alter page fun p => { p with state := n } } }

/-- A page's program is over on channel `c`: its buffers are free and its bytes counted (R300). -/
def State.endProgram (s : State) (page c : Nat) (p : FlashPage) : State :=
  ((s.advance p.startAt).freeBuffers page p).count (objKey (0x2920 + c) 2) 16384

section
variable {s : State} {page r n w c : Nat} {p : FlashPage} (hpage : s.flash.pages.get page = some p) (hissued : p.state = 1)
  (hparts : keyParts page = (r, n, w, c)) (hopen : s.jWaits 2 r n = false)
include hpage hissued hparts hopen

/-- A programmed page is counted for its stream, and parity, freed superblocks and the throttle follow (R287, R294, R303). -/
theorem execPageProgramComplete_of_programmed :
    execPageProgramComplete page true s = .next (((((if p.parity then (s.endProgram page c p).markPage page 2
      else ((s.endProgram page c p).markPage page 2).count (objKey 0x2910 (progCounter p.stream)) (4096 * p.units.length)).tryParity
        r n w).freeRow r).setThrottle)) := by
  simp only [execPageProgramComplete, hpage, hparts, hissued, hopen, ne_eq, not_true_eq_false, decide_false, Bool.or_self, Bool.false_eq_true,
    if_false, if_true, State.endProgram, State.markPage]

/-- The units of a page that failed are assigned again, and its block is retired (R290, R305). -/
theorem execPageProgramComplete_of_failed :
    execPageProgramComplete page false s = .next ((((if p.parity then ((s.endProgram page c p).markPage page 3).tally 0x2910 9
      else (((s.endProgram page c p).markPage page 3).tally 0x2910 9).reassign page p).retireBlock r n c).tryParity r n w).setThrottle) := by
  simp only [execPageProgramComplete, hpage, hparts, hissued, hopen, ne_eq, not_true_eq_false, decide_false, Bool.or_self, Bool.false_eq_true,
    if_false, State.endProgram, State.markPage]

end

/-! ## Discards and the journal -/

/-- A range of units that exist is discarded (R285). -/
theorem execDiscard_of_range {first count : Nat} (hsome : 1 ≤ count) (hfits : first + count ≤ 2 ^ 35) (owner : Nat) (s : State) :
    execDiscard first count owner s = .next (s.discard first count owner) := by
  simp only [execDiscard, Nat.ne_of_gt hsome, Nat.not_lt.2 hfits, decide_false, Bool.or_self, Bool.false_eq_true, if_false]

/-- A journal page is programmed once 512 records are pending, or 200 µs after the first (R293). -/
theorem execJournalPageProgram_of_due {t : Nat} {j : JournalRec} {s : State} (hfirst : s.flash.jPending.head? = some j)
    (hdue : 512 ≤ s.flash.jPending.length ∨ j.madeAt + 200 * cyclesPerUs ≤ max s.time t) :
    execJournalPageProgram t s = .next (s.advance t).journalPage := by
  obtain ⟨rest, hpending⟩ := List.head?_eq_some_iff.1 hfirst
  have hnow : (decide (s.flash.jPending.length < 512) && decide (max s.time t < j.madeAt + 200 * cyclesPerUs)) = false := by
    rw [Bool.and_eq_false_iff, decide_eq_false_iff_not, decide_eq_false_iff_not, Nat.not_lt, Nat.not_lt]; exact hdue
  rw [hpending] at hnow
  simp only [execJournalPageProgram, State.advance_flash, State.advance_time, hpending, hnow, Bool.false_eq_true, if_false]

/-- The journal's records: those that are pending, and those that are durable (R293). -/
def State.journalRecords (s : State) : List JournalRec × List JournalRec := (s.flash.jPending, s.flash.jDurable)

/-- A fold whose every step leaves a part of the state leaves it. -/
theorem foldl_keeps {α β : Type} {g : State → β} {f : State → α → State} (hf : ∀ s x, g (f s x) = g s) (xs : List α) (s : State) :
    g (xs.foldl f s) = g s := by
  induction xs generalizing s with
  | nil => rfl
  | cons x xs ih => rw [List.foldl_cons, ih, hf]

/-- A channel controller that wakes and works makes no journal record. -/
theorem State.wake_spendCycles_journalRecords (s : State) (k : DomainKind) (n cls index sub : Nat) :
    ((s.wake k n cls).spendCycles index sub).journalRecords = s.journalRecords := by
  rw [State.journalRecords, State.spendCycles, State.wake_flash]
  rfl

/-- The start of a program makes no journal record: it changes a row's starts, a page and the die's last program. -/
theorem State.issueProgram_journalRecords (s : State) (k : Nat) : (s.issueProgram k).journalRecords = s.journalRecords := by
  unfold State.issueProgram
  dsimp only
  refine (State.wake_spendCycles_journalRecords _ _ _ _ _ _).trans ?_
  split
  · rfl
  · rfl

theorem State.tryProgram_journalRecords (s : State) (k : Nat) : (s.tryProgram k).journalRecords = s.journalRecords := by
  unfold State.tryProgram
  split
  · dsimp only
    split
    · exact s.issueProgram_journalRecords k
    · rfl
  · rfl

theorem State.tryParity_journalRecords (s : State) (r n p : Nat) : (s.tryParity r n p).journalRecords = s.journalRecords := by
  unfold State.tryParity
  dsimp only
  split
  · split
    · exact s.issueProgram_journalRecords _
    · rfl
  · rfl

/-- The pages that wait to start their programs make no journal record. -/
theorem State.startPages_journalRecords (s : State) : s.startPages.journalRecords = s.journalRecords :=
  foldl_keeps (fun a _ => (State.tryParity_journalRecords _ _ _ _).trans (a.tryProgram_journalRecords _)) _ s

/-- A journal page makes up to 512 pending records durable (R293). -/
theorem State.journalPage_journalRecords (s : State) :
    s.journalPage.journalRecords = (s.flash.jPending.drop 512, s.flash.jDurable ++ s.flash.jPending.take 512) := by
  unfold State.journalPage
  dsimp only
  rw [State.startPages_journalRecords, foldl_keeps (g := State.journalRecords)]
  · simp only [State.journalRecords, State.count_flash]
  · intro a d
    split <;> rfl

/-! ## Checkpoints -/

/-- A checkpoint begins an interval after the last one, or once enough superblocks have been opened (R295). -/
theorem execCheckpointStart_of_due {t : Nat} {s : State} (hidle : (s.advance t).flash.ckpt.running = false)
    (hdue : (s.advance t).flash.ckpt.startedAt + (s.advance t).setting 0x2900 4 30 * cyclesPerS ≤ (s.advance t).time ∨
      (s.advance t).setting 0x2900 5 64 ≤ (s.advance t).flash.ckpt.opened) :
    execCheckpointStart t s = .next (s.advance t).startCheckpoint := by
  have hnow : (decide ((s.advance t).time < (s.advance t).flash.ckpt.startedAt + (s.advance t).setting 0x2900 4 30 * cyclesPerS) &&
      decide ((s.advance t).flash.ckpt.opened < (s.advance t).setting 0x2900 5 64)) = false := by
    rw [Bool.and_eq_false_iff, decide_eq_false_iff_not, decide_eq_false_iff_not, Nat.not_lt, Nat.not_lt]; exact hdue
  simp only [execCheckpointStart, hidle, hnow, Bool.or_self, Bool.false_eq_true, if_false]

/-- A checkpoint ends once every record and every unit up to its highest sequence is durable (R295). -/
theorem execCheckpoints_of_durable {s : State} (hrunning : s.flash.ckpt.running = true)
    (hrecords : (s.flash.jPending.any fun j => decide (j.seq ≤ s.flash.ckpt.segSeq)) = false)
    (hunits : (s.flash.pages.any fun kp =>
      kp.2.state < 2 && !kp.2.parity && kp.2.units.any fun u => decide (u.seq ≤ s.flash.ckpt.segSeq)) = false) :
    execCheckpoints s = .next s.endCheckpoint := by
  simp only [execCheckpoints, hrunning, hrecords, hunits, Bool.not_true, Bool.or_self, Bool.false_eq_true, if_false]

/-! ## Collection -/

section
variable {row : Nat} (hrow : row < 16)
include hrow

/-- A row under collection takes its victim (R302, R304). -/
theorem execGcVictim_of_chosen {n : Nat} {s : State} (hcollects : s.collects row = true) (hvictim : s.chooseVictim row = some n) :
    execGcVictim row s = .next (s.collectSb row n) := by
  simp only [execGcVictim, ge_iff_le, Nat.not_le.2 hrow, hcollects, hvictim, decide_false, Bool.not_true, Bool.or_self, Bool.false_eq_true,
    if_false]

/-- The erase of a freed superblock starts once its SB_FREE is durable (R280, R294). -/
theorem execSbErase_of_free {sb : Nat} {s : State} (hfree : ((s.tryFree row sb).sb row sb).state = 3)
    (hidle : ((s.tryFree row sb).sb row sb).erasing = false) (hsteady : (s.tryFree row sb).flash.flushing = false)
    (hdurable : (s.tryFree row sb).jWaits 4 row sb = false) :
    execSbErase row sb s = .next ((s.tryFree row sb).startErase row sb) := by
  simp only [execSbErase, ge_iff_le, Nat.not_le.2 hrow, hfree, hidle, hsteady, hdurable, ne_eq, not_true_eq_false, decide_false, Bool.or_self,
    Bool.false_eq_true, if_false]

/-- A superblock under erase is free again (R304, R305). -/
theorem execEraseComplete_of_erasing {sb : Nat} {s : State} (herasing : (s.sb row sb).erasing = true) (failed : Option Nat) :
    execEraseComplete row sb failed s = .next (s.eraseDone row sb failed) := by
  simp only [execEraseComplete, ge_iff_le, Nat.not_le.2 hrow, herasing, decide_false, Bool.not_true, Bool.or_self, Bool.false_eq_true, if_false]

end

/-! ## Dies and buffers -/

/-- A die that exists leaves service (R306). -/
theorem execDiesRetired_of_die {chan die : Nat} (hchan : chan < 32) (hdie : die < 16) (s : State) :
    execDiesRetired chan die s = .next (s.retireDie chan die) := by
  simp only [execDiesRetired, ge_iff_le, Nat.not_le.2 hchan, Nat.not_le.2 hdie, decide_false, Bool.or_self, Bool.false_eq_true, if_false]

/-- Four buffers of a channel's own write part go to the page that has waited longest (R301). -/
theorem execBufferGrant_of_own {chan k : Nat} {rest : List Nat} {s : State} (hwait : (s.flash.chans.getD chan {}).writeWait = k :: rest)
    (hroom : (s.flash.chans.getD chan {}).writeBufs + 4 ≤ 256) :
    execBufferGrant chan true s = .next (({ s with flash := { s.flash with
      chans := s.flash.chans.set chan { s.flash.chans.getD chan {} with writeWait := rest, writeBufs := (s.flash.chans.getD chan {}).writeBufs + 4 },
      pages := s.flash.pages.alter k fun p => { p with shared := false, buffered := true } } } : State).tryProgram k) := by
  simp only [execBufferGrant, hwait, hroom, Bool.not_true, Bool.false_eq_true, if_false, if_true]

/-- Settles O32: each command's lemma gives the state, case by case. -/
theorem flashCommandsComplete : Obligations.FlashCommandsComplete := by
  unfold Obligations.FlashCommandsComplete
  refine ⟨?read, ?program, ?discard, ?journal, ?start, ?finish, ?victim, ?erase, ?erased, ?die, ?buffer⟩
  case read =>
    intro lba level rebuilt s entry at_ k c p data a second
    have hreads (hmapped : entry ≠ 0) (hprog : 2 ≤ p.state) : ReadsPage s lba entry at_ k.1 k.2.1 k.2.2.1 c p :=
      ⟨rfl, hmapped, rfl, rfl, rfl, hprog⟩
    refine ⟨fun hzero => ⟨_, execFlashUnitRead_of_unmapped hzero level rebuilt, rfl⟩, ?rebuilt, ?live, ?two⟩
    case rebuilt => exact fun hmapped hprog hdead hone hlevel => ⟨_, execFlashUnitRead_of_dead (hreads hmapped hprog) hdead hone hlevel, rfl⟩
    case live =>
      intro hmapped hprog hlive
      have h := hreads hmapped hprog
      refine ⟨?_, ?_, ?_⟩
      · rintro rfl
        exact ⟨_, execFlashUnitRead_of_decoded h hlive rebuilt, rfl⟩
      · rintro l rfl hl
        exact ⟨_, execFlashUnitRead_of_retried h hlive hl rebuilt, rfl⟩
      · rintro rfl rfl
        exact ⟨_, execFlashUnitRead_of_undecoded h hlive, rfl⟩
    case two => exact fun hmapped hprog hdead htwo => ⟨_, execFlashUnitRead_of_two_dead (hreads hmapped hprog) hdead htwo level rebuilt, rfl⟩
  case program =>
    intro page p s hpage hissued k hopen a mark
    exact ⟨⟨_, execPageProgramComplete_of_programmed hpage hissued rfl hopen, rfl⟩,
      ⟨_, execPageProgramComplete_of_failed hpage hissued rfl hopen, rfl⟩⟩
  case discard => exact fun first count owner s hsome _ hfits => ⟨_, execDiscard_of_range hsome hfits owner s, rfl⟩
  case journal =>
    intro t j s hfirst hdue
    obtain ⟨hpending, hdurable⟩ := Prod.mk.inj (s.advance t).journalPage_journalRecords
    rw [State.advance_flash] at hpending hdurable
    exact ⟨_, execJournalPageProgram_of_due hfirst hdue, rfl, hpending, hdurable⟩
  case start =>
    intro t s a hidle hdue
    exact ⟨_, execCheckpointStart_of_due hidle hdue, rfl⟩
  case finish => exact fun s hrunning hrecords hunits => ⟨_, execCheckpoints_of_durable hrunning hrecords hunits, rfl⟩
  case victim => exact fun row n s hrow hcollects hvictim => ⟨_, execGcVictim_of_chosen hrow hcollects hvictim, rfl⟩
  case erase =>
    intro row sb s a hrow hfree hidle hsteady hdurable
    exact ⟨_, execSbErase_of_free hrow hfree hidle hsteady hdurable, rfl⟩
  case erased => exact fun row sb failed s hrow herasing => ⟨_, execEraseComplete_of_erasing hrow herasing failed, rfl⟩
  case die => exact fun chan die s hchan hdie _ => ⟨_, execDiesRetired_of_die hchan hdie s, rfl⟩
  case buffer => exact fun chan k rest s hwait hroom => ⟨_, execBufferGrant_of_own hwait hroom, rfl⟩

end Sys2Proof.Machine
end

section
/-! SUPPORT. Which command stops the machine: of all meanings only FLIT_RECEIVE's can answer a fault, for a flit that is not 256 bytes (R316). -/
namespace Sys2Proof.Machine

/-- A FLIT_RECEIVE whose bytes are not a flit's 256 stops by name (R316). -/
theorem execFlitReceive_of_malformed {flit : List Byte} (h : flit.length ≠ 256) (port : Nat) (s : State) :
    execFlitReceive port flit s = .fault (.malformed "FLIT_RECEIVE") := if_pos h

/-- Settles O5, by the length of a flit; every other command's meaning is a next state as it stands. -/
theorem onlyMalformedFlitsStop : Obligations.OnlyMalformedFlitsStop := by
  unfold Obligations.OnlyMalformedFlitsStop
  intro c s
  cases c with
  | flitReceive port flit =>
    by_cases hlen : flit.length = 256
    · exact .inl (execFlitReceive_next hlen port s)
    · exact .inr ⟨port, flit, rfl, hlen, execFlitReceive_of_malformed hlen port s⟩
  | _ => exact .inl ⟨_, rfl⟩

end Sys2Proof.Machine
end

section
/-! SUPPORT. The commands that train, identify, retrain and sample a port (R313 to R315, R327, R336, R337, R340): one lemma per command and case,
then the statement on all of them. -/
namespace Sys2Proof.Machine

/-! ## Training and identity -/

/-- A port with ENABLE set: DISABLED becomes DOWN, any other state stays (R313, R340). -/
def State.enabledPort (s : State) (port : Nat) : State :=
  s.setPort port { s.port port with enable := true, state := if (s.port port).state = 7 then 0 else (s.port port).state }

/-- A port that has not retired is enabled, and its die woken unless the port is shed (R313, R340). -/
theorem State.portEnable_of_kept {port : Nat} {s : State} (hport : port < 32) (hkept : (s.healthOf (unitPort port)).retired = false) :
    s.portEnable port = if (s.port port).state = 6 then s.enabledPort port else (s.enabledPort port).wake .port port 2 := by
  simp only [State.portEnable, ge_iff_le, Nat.not_le.2 hport, hkept, decide_false, Bool.or_self, Bool.false_eq_true, if_false, State.enabledPort]

section
variable {port lanes : Nat} {s : State} (hport : port < 32) (hlanes : 1 ≤ lanes) (hpowered : s.powered .port port = true)
include hport hlanes hpowered

/-- A signal on an enabled port that is DOWN starts its training (R313). -/
theorem execPortSignalDetect_of_down (henabled : (s.port port).enable = true) (hdown : (s.port port).state = 0)
    (hcable : s.pins.cables.contains port = true) :
    execPortSignalDetect port lanes s = .next (s.setPort port { s.port port with state := 1, since := s.time, failed := false }) :=
  congrArg Host.Outcome.next (if_pos ⟨hport, henabled, hdown, hlanes, hcable, hpowered⟩)

/-- At FEC lock a port in training takes the width of its lanes and sends its IDENT (R313, R314). -/
theorem execPortSignalDetect_of_training (htraining : (s.port port).state = 1) :
    execPortSignalDetect port lanes s = .next ((s.setPort port { s.port port with
      state := 2, width := widthFor lanes (s.port port).maxWidth }).sendFlit port 2 false false 0 (s.identContent port)) := by
  have hup : (s.port port).state ≠ 0 := by rw [htraining]; decide
  exact congrArg Host.Outcome.next ((if_neg fun h => hup h.2.2.1).trans (if_pos ⟨hport, htraining, hlanes, hpowered⟩))

end

/-- A step of the training that lasts beyond its limit takes the port DOWN and is counted (R313). -/
theorem execTrainFails_of_late {port t : Nat} {s : State}
    (hlate : (((s.advance t).port port).state = 1 ∧ ((s.advance t).port port).since + 50 * cyclesPerMs ≤ max s.time t) ∨
      (((s.advance t).port port).state = 2 ∧ ((s.advance t).port port).since + 56 * cyclesPerMs ≤ max s.time t)) :
    execTrainFails port t s = .next (((s.advance t).setPort port { (s.advance t).port port with
      state := 0, since := max s.time t, failed := true }).tally (0x2A40 + port) 7) := by
  simp only [execTrainFails, State.advance_time, ge_iff_le, if_pos hlate]

/-- A port whose training failed 100 ms ago trains again (R313). -/
theorem execTrainRetry_of_due {port t : Nat} {s : State} (henabled : ((s.advance t).port port).enable = true)
    (hdown : ((s.advance t).port port).state = 0) (hfailed : ((s.advance t).port port).failed = true)
    (hdue : ((s.advance t).port port).since + 100 * cyclesPerMs ≤ max s.time t) (hcable : (s.advance t).pins.cables.contains port = true) :
    execTrainRetry port t s = .next ((s.advance t).setPort port { (s.advance t).port port with
      state := 1, since := max s.time t, failed := false }) := by
  rw [← State.advance_time] at hdue ⊢
  exact congrArg Host.Outcome.next (if_pos ⟨henabled, hdown, hfailed, hdue, hcable⟩)

section
variable {port : Nat} {content : List Byte} {s : State}

/-- A port compares an identity in the states IDENT, UP and MISMATCH (R313, R314). -/
theorem not_identIgnored {n : Nat} (h : n = 2 ∨ n = 3 ∨ n = 5) : ¬(!(decide (n = 2) || decide (n = 3) || decide (n = 5))) = true := by
  simpa only [Bool.not_eq_true', Bool.not_eq_false, Bool.or_eq_true, decide_eq_true_eq, or_assoc] using h

/-- An identity that matches takes a port in IDENT or MISMATCH UP, and waiting frames try their routes (R313, R314). -/
theorem execIdent_of_match (hmatches : s.identMatches port content = true) (hstate : (s.port port).state = 2 ∨ (s.port port).state = 5) :
    execIdent port content s = .next (s.setPort port { s.port port with
      state := 3, ident := content, nbrModule := field content 0 2, nbrPort := field content 2 1 }).routeWaiting := by
  have hcompared : (s.port port).state = 2 ∨ (s.port port).state = 3 ∨ (s.port port).state = 5 := by omega
  have hnew : (s.port port).state ≠ 3 := by omega
  have htaken : (s.identMatches port content && ((s.port port).state ≠ 3 || (s.port port).ident = content)) = true := by
    rw [hmatches, decide_eq_true hnew]; rfl
  exact congrArg Host.Outcome.next ((if_neg (not_identIgnored hcompared)).trans ((if_pos htaken).trans (if_neg hnew)))

/-- An identity that does not match, or that has changed at an UP port, takes the port to MISMATCH (R314). -/
theorem execIdent_of_mismatch (hdiffers : s.identMatches port content = false ∨ ((s.port port).state = 3 ∧ (s.port port).ident ≠ content))
    (hstate : (s.port port).state = 2 ∨ (s.port port).state = 3) :
    execIdent port content s = .next (((s.setPort port { s.port port with
      state := 5, nbrModule := field content 0 2 % 4096, nbrPort := field content 2 1 % 32 }).tally (0x2A40 + port) 8).logState
        (0x2A40 + port) 8 (unitPort port) (s.port port).state 5) := by
  have hrefused : (s.identMatches port content && ((s.port port).state ≠ 3 || (s.port port).ident = content)) = false := by
    rcases hdiffers with h | ⟨hup, hident⟩
    · rw [h, Bool.false_and]
    · simp [hup, hident]
  have hcompared : (s.port port).state = 2 ∨ (s.port port).state = 3 ∨ (s.port port).state = 5 := by omega
  have hlinked : (s.port port).state ≠ 5 := by omega
  exact congrArg Host.Outcome.next
    ((if_neg (not_identIgnored hcompared)).trans ((if_neg (ne_true_of_eq_false hrefused)).trans (if_neg hlinked)))

end

/-! ## Retrains and failures -/

/-- A retrain of an UP port begins: it is counted, and scored at the port's unit (R315, R497). -/
theorem State.startRetrain_of_up {port : Nat} {s : State} (hup : (s.port port).state = 3) :
    s.startRetrain port = ((s.setPort port { s.port port with state := 4, since := s.time, replays := 0 }).tally (0x2A40 + port) 6).score
      (unitPort port) 20 := if_pos hup

/-- Lost lanes, FEC failures and eight replays of a flit retrain a port (R315). -/
theorem execRetrainTrigger_of_cause {port cause : Nat} {s : State} (hcause : cause < 2 ∨ (cause = 2 ∧ 8 ≤ (s.port port).replays)) :
    execRetrainTrigger port cause s = .next ((s.startRetrain port).settlePort port) := by
  have hvalid : ¬(cause > 2 ∨ (cause = 2 ∧ (s.port port).replays < 8)) := by omega
  simp only [execRetrainTrigger, Bool.or_eq_true, Bool.and_eq_true, decide_eq_true_eq, if_neg hvalid]

section
variable {port : Nat} {s : State} (hretrains : (s.port port).state = 4)
include hretrains

/-- A retrained port is UP at the width its lanes support; a narrower one is an event (R315). -/
theorem execRetrainComplete_of_lanes {lanes : Nat} (hlanes : 0 < lanes) :
    execRetrainComplete port lanes s = .next (if widthFor lanes (s.port port).maxWidth < (s.port port).width
      then (s.setPort port { s.port port with state := 3, width := widthFor lanes (s.port port).maxWidth }).logState (0x2A00 + port) 2
        (unitPort port) (s.port port).width (widthFor lanes (s.port port).maxWidth)
      else s.setPort port { s.port port with state := 3, width := widthFor lanes (s.port port).maxWidth }).routeWaiting :=
  congrArg Host.Outcome.next ((if_neg (not_not_intro hretrains)).trans (if_neg (Nat.ne_of_gt hlanes)))

/-- A port whose retrain leaves it no lane goes DOWN (R315, R327). -/
theorem execRetrainComplete_zero : execRetrainComplete port 0 s = .next (s.downPort port 0) :=
  congrArg Host.Outcome.next ((if_neg (not_not_intro hretrains)).trans (if_pos rfl))

end

/-- A link that fails takes a port DOWN, unless it is DOWN, shed or DISABLED already (R327). -/
theorem execPortDown_of_linked {port : Nat} {s : State} (hdown : (s.port port).state ≠ 0) (hshed : (s.port port).state ≠ 6)
    (hdisabled : (s.port port).state ≠ 7) : execPortDown port s = .next (s.downPort port 0) := by
  simp only [execPortDown, hdown, hshed, hdisabled, decide_false, Bool.or_self, Bool.false_eq_true, if_false]

/-! ## Samples and histograms -/

/-- The samples of one class queue, numbered port by port, enter its two histograms (R336). -/
def State.sampleQueue (s : State) (i : Nat) : State :=
  (s.count (binKey (i / 5) (i % 5) 0 (binOf (s.sampleOf (s.port (i / 5)) (i % 5)).1)) 1).count
    (binKey (i / 5) (i % 5) 1 (binOf (s.sampleOf (s.port (i / 5)) (i % 5)).2)) 1

/-- In the first cycle of each 1.024 µs every queue is sampled (R336). -/
theorem execQueueSample_of_due {t : Nat} {s : State} (hdue : (s.advance t).time * 10 % 16384 < 10) :
    execQueueSample t s = .next ((List.range 160).foldl State.sampleQueue (s.advance t)) :=
  congrArg Host.Outcome.next (if_neg (Nat.not_le.2 hdue))

/-- HIST_SNAP copies a port's live bins and advances HIST_SEQ (R337). -/
theorem State.histSnap_of_port {port : Nat} (hport : port < 32) (s : State) :
    s.histSnap port = s.setPort port { s.port port with
      histSnap := (List.range 640).map fun i => s.counter (binKey port 0 0 0 + i), histSeq := ((s.port port).histSeq + 1) % 2 ^ 32 } :=
  if_neg (Nat.not_le.2 hport)

/-- HIST_CLR clears a port's live bins and leaves every other counter (R337). -/
theorem State.histClr_of_port {port : Nat} (hport : port < 32) (s : State) :
    s.histClr port = { s with counters := s.counters.keep fun k _ => !(binKey port 0 0 0 ≤ k && k < binKey port 0 0 0 + 640) } :=
  if_neg (Nat.not_le.2 hport)

/-- Settles O28: each command's lemma gives the state, case by case. -/
theorem portCommandsComplete : Obligations.PortCommandsComplete := by
  unfold Obligations.PortCommandsComplete
  refine ⟨?enable, ?signal, ?lock, ?train, ?ident, ?retrain, ?retrained, ?down, ?sample, ?histogram⟩
  case enable => exact fun port s hport hkept => ⟨_, rfl, State.portEnable_of_kept hport hkept⟩
  case signal =>
    exact fun port lanes s hport henabled hdown hlanes hcable hpowered =>
      ⟨_, execPortSignalDetect_of_down hport hlanes hpowered henabled hdown hcable, rfl⟩
  case lock =>
    exact fun port lanes s hport htraining hlanes hpowered => ⟨_, execPortSignalDetect_of_training hport hlanes hpowered htraining, rfl⟩
  case train =>
    exact fun port t s => ⟨fun hlate => ⟨_, execTrainFails_of_late hlate, rfl⟩,
      fun henabled hdown hfailed hdue hcable => ⟨_, execTrainRetry_of_due henabled hdown hfailed hdue hcable, rfl⟩⟩
  case ident =>
    exact fun port content s => ⟨fun hmatches hstate => ⟨_, execIdent_of_match hmatches hstate, rfl⟩,
      fun hdiffers hstate => ⟨_, execIdent_of_mismatch hdiffers hstate, rfl⟩⟩
  case retrain =>
    intro port s hup a
    have hstart : s.startRetrain port = a := State.startRetrain_of_up hup
    exact ⟨⟨_, rfl, by rw [hstart]⟩, fun cause hcause => ⟨_, execRetrainTrigger_of_cause hcause, by rw [hstart]⟩⟩
  case retrained =>
    exact fun port lanes s hretrains => ⟨fun hlanes => ⟨_, execRetrainComplete_of_lanes hretrains hlanes, rfl⟩,
      ⟨_, execRetrainComplete_zero hretrains, rfl⟩⟩
  case down => exact fun port s hdown hshed hdisabled => ⟨_, execPortDown_of_linked hdown hshed hdisabled, rfl⟩
  case sample => exact fun t s hdue => ⟨_, execQueueSample_of_due hdue, rfl⟩
  case histogram =>
    exact fun port s hport => ⟨⟨_, rfl, State.histSnap_of_port hport s⟩, ⟨_, rfl, State.histClr_of_port hport s⟩⟩

end Sys2Proof.Machine
end

section
/-! SUPPORT. The commands on flits and frames, gates and shapers (R316 to R318, R322 to R334): one lemma per command and case, then the statement on
all of them. -/
namespace Sys2Proof.Machine

/-! ## Flits -/

section
variable {port : Nat} {flit : List Byte} {s : State} (hlen : flit.length = 256)
  (hlocked : (s.port port).state = 2 ∨ (s.port port).state = 3 ∨ (s.port port).state = 5)
include hlen hlocked

/-- A port whose lanes are locked reads a flit by its CRC: a good one acknowledges and is placed, a bad one asks for a replay (R316, R317). -/
theorem execFlitReceive_of_locked :
    execFlitReceive port flit s = .next (if crc64 (flit.take 248) ≠ field flit 248 8 then s.setPort port { s.port port with nak := true }
      else (s.ackFlit port flit).placeFlit port flit) := by
  have hlive : ¬(((s.port port).state ≤ 1 ∨ (s.port port).state = 4) ∨ 6 ≤ (s.port port).state) := by omega
  simp only [execFlitReceive, hlen, ne_eq, not_true_eq_false, if_false, Bool.or_eq_true, decide_eq_true_eq, ge_iff_le, if_neg hlive]

theorem execFlitReceive_of_bad_crc (hbad : crc64 (flit.take 248) ≠ field flit 248 8) :
    execFlitReceive port flit s = .next (s.setPort port { s.port port with nak := true }) := by
  rw [execFlitReceive_of_locked hlen hlocked, if_pos hbad]

theorem execFlitReceive_of_good_crc (hgood : crc64 (flit.take 248) = field flit 248 8) :
    execFlitReceive port flit s = .next ((s.ackFlit port flit).placeFlit port flit) := by
  rw [execFlitReceive_of_locked hlen hlocked, if_neg (not_not_intro hgood)]

end

section
variable {port : Nat} {flit : List Byte} {s : State}

/-- A flit out of sequence asks for a replay (R317). -/
theorem State.placeFlit_of_gap (hgap : bits (field flit 1 2) 11 0 ≠ (s.port port).rxSeq) :
    s.placeFlit port flit = s.setPort port { s.port port with nak := true } := if_pos hgap

section
variable (hseq : bits (field flit 1 2) 11 0 = (s.port port).rxSeq)
include hseq

/-- A flit in sequence that takes no number, IDLE among them, ends a NAK (R316, R317). -/
theorem State.placeFlit_of_unnumbered (htype : field flit 0 1 % 4 = 0 ∨ field flit 0 1 % 4 = 3) :
    s.placeFlit port flit = s.setPort port { s.port port with nak := false } := by
  simp only [State.placeFlit, hseq, ne_eq, not_true_eq_false, if_false, Bool.or_eq_true, decide_eq_true_eq, if_pos htype]

/-- An IDENT flit, and a DATA flit at a port that is not UP, take their number and no more (R314, R317). -/
theorem State.placeFlit_of_no_frame (htype : field flit 0 1 % 4 = 2 ∨ (field flit 0 1 % 4 = 1 ∧ (s.port port).state ≠ 3)) :
    s.placeFlit port flit = s.setPort port { s.port port with nak := false, rxSeq := ((s.port port).rxSeq + 1) % 4096 } := by
  have hnumbered : ¬(field flit 0 1 % 4 = 0 ∨ field flit 0 1 % 4 = 3) := by omega
  have hkept : field flit 0 1 % 4 = 2 ∨ (s.port port).state ≠ 3 := htype.imp_right (·.2)
  simp only [State.placeFlit, hseq, ne_eq, not_true_eq_false, if_false, Bool.or_eq_true, decide_eq_true_eq, if_neg hnumbered, if_pos hkept]

/-- A DATA flit at an UP port goes on to its frame (R316, R318). -/
theorem State.placeFlit_of_data (htype : field flit 0 1 % 4 = 1) (hup : (s.port port).state = 3) :
    s.placeFlit port flit = (s.setPort port (assemble { s.port port with nak := false, rxSeq := ((s.port port).rxSeq + 1) % 4096 }
      (bit (field flit 0 1) 2) (bit (field flit 0 1) 3) (bits (field flit 0 1) 6 4) (slice flit 16 (field flit 5 1)))).count
        (objKey (0x2A40 + port) 2) 256 := by
  simp only [State.placeFlit, hseq, htype, hup, ne_eq, not_true_eq_false, decide_false, Bool.or_self, Bool.false_eq_true, if_false,
    Nat.one_ne_zero, OfNat.one_ne_ofNat]

end

end

/-! ## Headers and whole frames -/

section
variable {port : Nat} {r : RxFrame} {s : State}
  (hfirst : (((s.port port).partial_ ++ (s.port port).rx.toList).find? fun r => !r.accepted && !r.deferred) = some r)
include hfirst

/-- An accepted header takes its buffers and its DEMAND, and ACCEPT is queued as its answer (R323, R324). -/
theorem execFrameHeaderDecide_of_accepted {g sh : Nat} (hdecided : s.decideHeader port r = .ok (g, sh)) :
    let demand := if field r.header 2 2 = s.mgmt.moduleId then field r.header 12 4 else 0
    let q := decideFirst (fun r => some { r with accepted := true, guaranteed := g, shared := sh, demand }) (s.port port)
    let a := (s.setPort port { q with answers := q.answers ++ [r.tag + 0x30000] }).bookIn port r.cls g sh
    execFrameHeaderDecide port s = .next { a with
      fabric := { a.fabric with demand := a.fabric.demand.put r.cls 0 (a.fabric.demand.getD r.cls 0 + demand) } } := by
  simp only [execFrameHeaderDecide, hfirst, hdecided]

/-- A deferred header's answer carries the cause of DEFER, which is counted (R323 to R325). -/
theorem execFrameHeaderDecide_of_deferred {c : Nat} (hdecided : s.decideHeader port r = .error c) :
    let q := decideFirst (fun x => if r.whole || (s.port port).partial_.contains r then none else some { x with deferred := true }) (s.port port)
    execFrameHeaderDecide port s =
      .next ((s.setPort port { q with answers := q.answers ++ [r.tag + 0x10000 + c * 0x40000] }).countDefer port c) := by
  simp only [execFrameHeaderDecide, hfirst, hdecided]

end

/-- A received frame's buffers are released and it leaves its port (R322, R339). -/
def State.takeFrame (s : State) (port : Nat) (r : RxFrame) : State :=
  (s.releaseRx port r).setPort port { (s.releaseRx port r).port port with partial_ := (s.port port).partial_.erase r }

section
variable {port tag : Nat} {r : RxFrame} {s : State}
  (hwhole : ((s.port port).partial_.find? fun r => r.tag = tag && r.accepted && r.whole) = some r)
include hwhole

/-- A whole frame for this module goes to the exchange inbox (R322). -/
theorem execFrameDeliver_of_here (hhere : field r.header 2 2 = (s.takeFrame port r).mgmt.moduleId) :
    execFrameDeliver port tag s = .next ((s.takeFrame port r).emit (.inbox (field r.header 4 2) r.cls (field r.header 10 2) (field r.header 24 2)
      (field r.header 16 8) ((r.bytes.take (field r.header 8 2)).drop 32))) := by
  simp only [State.takeFrame] at hhere
  simp only [execFrameDeliver, hwhole, hhere, if_true, State.takeFrame]

/-- A whole frame in transit takes its route with one hop less (R322). -/
theorem execFrameDeliver_of_transit (htransit : field r.header 2 2 ≠ (s.takeFrame port r).mgmt.moduleId) :
    execFrameDeliver port tag s = .next ((s.takeFrame port r).routeFrame {
      tag := 0, dest := field r.header 2 2, src := field r.header 4 2, cls := r.cls, hops := field r.header 7 1 - 1, kind := field r.header 10 2,
      demand := field r.header 12 4, mapEpoch := field r.header 16 8, tenant := field r.header 24 2,
      body := (r.bytes.take (field r.header 8 2)).drop 32 }) := by
  simp only [State.takeFrame] at htransit
  simp only [execFrameDeliver, hwhole, htransit, if_false, State.takeFrame]

end

/-! ## Answers -/

section
variable {port word : Nat} {f : Frame} {s : State} (hvalid : bit word 16 = true)
  (hsent : ((s.port port).flying.find? fun f => f.tag = bits word 15 0 && !f.accepted && f.backoffUntil = 0) = some f)
include hvalid hsent

/-- ACCEPT ends the header-first mode of the frame's class and destination, and frames that are through leave (R324, R326). -/
theorem execAnswerReceive_of_accept (haccept : bit word 17 = true) :
    execAnswerReceive port word s = .next ((s.setPort port { s.port port with
      flying := replaceFirst (fun x => x.tag = f.tag) (fun x => { x with accepted := true, defers := 0 }) (s.port port).flying,
      headerFirst := (s.port port).headerFirst.filter fun k => k ≠ f.dest * 8 + f.cls }).settleFrames port) := by
  simp only [execAnswerReceive, hvalid, hsent, haccept, Bool.not_true, Bool.false_eq_true, if_false, if_true]

/-- DEFER puts the frame into backoff (R326). -/
theorem execAnswerReceive_of_defer (hdefer : bit word 17 = false) : execAnswerReceive port word s = .next (s.deferFrame port f) := by
  simp only [execAnswerReceive, hvalid, hsent, hdefer, Bool.not_true, Bool.false_eq_true, if_false]

end

section
variable {port tag t : Nat} {f : Frame} {s : State}

/-- A frame whose backoff has ended goes to the head of its class queue (R326). -/
theorem execDeferBackoff_of_ended
    (hended : ((s.advance t).port port).flying.find? (fun f => f.tag = tag && f.backoffUntil ≠ 0 && f.backoffUntil ≤ (s.advance t).time) = some f) :
    execDeferBackoff port tag t s = .next ((s.advance t).setPort port { (s.advance t).port port with
      flying := ((s.advance t).port port).flying.erase f,
      queues := ((s.advance t).port port).queues.set f.cls
        ({ f with backoffUntil := 0, sent := 0 } :: ((s.advance t).port port).queues.getD f.cls []) }) := by
  simp only [execDeferBackoff, hended]

/-- A frame whose answer is missing is deferred (R327). -/
theorem execAnswerTimeout_of_missing
    (hmissing : ((s.advance t).port port).flying.find? (fun f => f.tag = tag && !f.accepted && f.backoffUntil = 0 &&
      (s.advance t).time ≥ f.headerAt + nsCycles f.timeoutNs) = some f) :
    execAnswerTimeout port tag t s = .next ((s.advance t).deferFrame port f) := by
  simp only [execAnswerTimeout, hmissing]

end

/-! ## Starts -/

/-- The classes' fixed priority C, R, Q, I, M is also the order in which their queues drop the frames at their heads that the address set refuses
(R321, R332). -/
def State.dropAllRefused (s : State) (port : Nat) : State := ([4, 1, 0, 2, 3] : List Nat).foldl (fun s c => s.dropRefused port c) s

theorem State.dropAllRefused_def (s : State) (port : Nat) :
    ([4, 1, 0, 2, 3] : List Nat).foldl (fun s c => s.dropRefused port c) s = s.dropAllRefused port := rfl

/-- The frame of the first class in priority that may start one (R332). -/
def State.nextStart (s : State) (port : Nat) : Option (Frame × Bool) := ([4, 1, 0, 2, 3] : List Nat).findSome? fun c => s.mayStart port c

theorem State.nextStart_def (s : State) (port : Nat) :
    (([4, 1, 0, 2, 3] : List Nat).findSome? fun c => s.mayStart port c) = s.nextStart port := rfl

section
variable {port t : Nat} {s : State} (hup : (s.advance t).portUp port = true)
include hup

/-- The first class in priority that may start its frame starts it (R332). -/
theorem execFrameStart_of_ready {f : Frame} {cont : Bool} (hready : ((s.advance t).dropAllRefused port).nextStart port = some (f, cont)) :
    execFrameStart port t s = .next (((s.advance t).dropAllRefused port).startFrame port f cont) := by
  simp only [execFrameStart, State.dropAllRefused_def, State.nextStart_def, hup, hready, Bool.not_true, Bool.false_eq_true, if_false]

/-- While no class may start a frame the port sends an IDLE flit (R316, R332). -/
theorem execFrameStart_of_idle (hidle : ((s.advance t).dropAllRefused port).nextStart port = none) :
    execFrameStart port t s = .next (((s.advance t).dropAllRefused port).sendFlit port 0 false false 0 []) := by
  simp only [execFrameStart, State.dropAllRefused_def, State.nextStart_def, hup, hidle, Bool.not_true, Bool.false_eq_true, if_false]

end

/-! ## Gates and shapers -/

/-- A port at the start of a gate cycle: an accepted switch that is due takes effect (R330). -/
def Port.atCycleStart (p : Port) (start : Nat) : Port :=
  if (p.switchAt.map fun c => decide (c ≤ start)).getD false then { p with active := 1 - p.active, switchAt := none } else p

/-- The gate entry in force is the one at the present offset in the gate cycle (R329, R330). -/
theorem execGateEntry_eq (port t : Nat) (s : State) :
    let a := s.advance t
    let start := a.time / gateCycle * gateCycle
    let p := (a.port port).atCycleStart start
    let e := gateAtOffset (gateList p p.active) 0 0 (a.time - start)
    execGateEntry port t s = .next (a.setPort port { p with gate := e.1, gateAt := start + e.2, cycleAt := start }) := by
  cases hswitch : ((s.advance t).port port).switchAt with
  | none => simp only [execGateEntry, Port.atCycleStart, hswitch, Option.map_none, Option.getD_none]
  | some c => simp only [execGateEntry, Port.atCycleStart, hswitch, Option.map_some, Option.getD_some]

/-- A requested switch sets GCL_STATUS to the check that refuses it, or is in effect at the next cycle start, the one after within the last 1 µs
(R330). -/
theorem State.gclSwitch_eq (port t : Nat) (s : State) :
    let a := s.advance t
    let c := a.gclCheck (a.port port) (1 - (a.port port).active)
    let next := (a.time / gateCycle + 1) * gateCycle
    s.gclSwitch port t = a.setPort port (if c ≠ 0 then { a.port port with gclStatus := c }
      else { a.port port with switchAt := some (if a.time + cyclesPerUs ≥ next then next + gateCycle else next) }) :=
  (apply_ite _ _ _ _).symm

/-- At each microsecond of the timebase every bucket of every port is refilled (R334). -/
theorem execShaperRefill_of_due {t : Nat} {s : State} (hdue : max s.time t % cyclesPerUs = 0) :
    execShaperRefill t s = .next ((List.range 32).foldl (fun s n => s.setPort n ((List.range 5).foldl (refillPort s.time) (s.port n))) (s.advance t)) := by
  simp only [execShaperRefill, State.advance_time, hdue, ne_eq, not_true_eq_false, if_false]

/-- Settles O29: each command's lemma gives the state, case by case. -/
theorem frameCommandsComplete : Obligations.FrameCommandsComplete := by
  unfold Obligations.FrameCommandsComplete
  refine ⟨?flit, ?header, ?deliver, ?answer, ?wait, ?start, ?gate, ?switch, ?shaper⟩
  case flit =>
    exact fun port flit s hlen hlocked => ⟨fun hbad => ⟨_, execFlitReceive_of_bad_crc hlen hlocked hbad, rfl⟩,
      fun hgood => ⟨_, execFlitReceive_of_good_crc hlen hlocked hgood, State.placeFlit_of_gap, State.placeFlit_of_unnumbered,
        State.placeFlit_of_no_frame, State.placeFlit_of_data⟩⟩
  case header =>
    exact fun port r s hfirst => ⟨fun g sh hdecided => ⟨_, execFrameHeaderDecide_of_accepted hfirst hdecided, rfl⟩,
      fun c hdecided => ⟨_, execFrameHeaderDecide_of_deferred hfirst hdecided, rfl⟩⟩
  case deliver =>
    exact fun port tag r s hwhole => ⟨fun hhere => ⟨_, execFrameDeliver_of_here hwhole hhere, rfl⟩,
      fun htransit => ⟨_, execFrameDeliver_of_transit hwhole htransit, rfl⟩⟩
  case answer =>
    exact fun port word f s hvalid hsent => ⟨fun haccept => ⟨_, execAnswerReceive_of_accept hvalid hsent haccept, rfl⟩,
      fun hdefer => ⟨_, execAnswerReceive_of_defer hvalid hsent hdefer, rfl⟩⟩
  case wait =>
    exact fun port tag t f s => ⟨fun hended => ⟨_, execDeferBackoff_of_ended hended, rfl⟩,
      fun hmissing => ⟨_, execAnswerTimeout_of_missing hmissing, rfl⟩⟩
  case start =>
    intro port t s hup
    simp only [State.dropAllRefused_def, State.nextStart_def]
    exact ⟨fun f cont hready => ⟨_, execFrameStart_of_ready hup hready, rfl⟩, fun hidle => ⟨_, (execFrameStart_of_idle hup hidle :), rfl⟩⟩
  case gate => exact fun port t s => ⟨_, execGateEntry_eq port t s, rfl⟩
  case switch => exact fun port t s => ⟨_, rfl, State.gclSwitch_eq port t s⟩
  case shaper => exact fun t s hdue => ⟨_, execShaperRefill_of_due hdue, rfl⟩

end Sys2Proof.Machine
end

section
/-! SUPPORT. The queue's ends and the bounds that every step keeps: a front command runs on the rest, an empty queue idles for a cycle, no word
enters the queue, and mailboxes and event ring stay within their sizes (R441, R444, R451). -/
namespace Sys2Proof.Machine

/-- Settles O40: the state after a step comes after the state before it, and later states keep both bounds. -/
theorem mailboxesAndEventRingStayWithinTheirSizes : Obligations.MailboxesAndEventRingStayWithinTheirSizes := by
  unfold Obligations.MailboxesAndEventRingStayWithinTheirSizes
  exact ⟨fun _ _ hmail h => (step_later h).kept.mail hmail, fun _ _ hring h => (step_later h).kept.ring hring⟩

/-- Settles O1: the front command of a queue that holds one is what the step runs. -/
theorem stepRunsFrontCommand : Obligations.StepRunsFrontCommand := by
  unfold Obligations.StepRunsFrontCommand
  exact fun c rest s => step_of_pending_cons (s := { s with pending := c :: rest }) rfl

/-- Time that moves on by one cycle is not held back by the clock. -/
theorem State.advance_succ_time (s : State) : (s.advance (s.time + 1)).time = s.time + 1 := by
  rw [State.advance_time, Nat.max_eq_right (Nat.le_succ s.time)]

/-- Settles O2: an empty queue's step is the idle step, and its clock is one cycle on. -/
theorem idleStepAdvancesOneCycle : Obligations.IdleStepAdvancesOneCycle := by
  unfold Obligations.IdleStepAdvancesOneCycle
  exact fun s hempty => ⟨_, step_of_pending_nil hempty, rfl, State.advance_succ_time s⟩

/-- Settles O8: the table's decoder answers no command for any word, so a word adds none to the queue. -/
theorem noWordSpellsACommand : Obligations.NoWordSpellsACommand := by
  unfold Obligations.NoWordSpellsACommand
  exact fun n w s => ⟨rfl, rfl⟩

end Sys2Proof.Machine
end

section
/-! SUPPORT. What the dictionary defines at an index (R411) and what is left of the budgets (R428, R429). -/
namespace Sys2Proof.Machine

/-! ## The sub-indices of an index -/

/-- Is an index among a row's? -/
def ObjRow.atIndex (r : ObjRow) (index : Nat) : Bool := r.i0 ≤ index && index ≤ r.i1

/-- The sub-indices of an index's counters and of their summary. -/
def counterSubs (index : Nat) : List Nat := match counterShape index with
  | some c => c.summary :: (c.free ++ c.event)
  | none => []

/-- The sub-indices that bound an index from above: the last one of each of its rows, and those of its counters. -/
def subBounds (index : Nat) : List Nat := (objRows.filter (·.atIndex index)).map (·.s1) ++ counterSubs index

/-- The highest sub-index of a defined index is the largest of its bounds. -/
theorem foldl_max_subBounds {index h : Nat} (hdef : highestSub index = some h) : (subBounds index).foldl max 0 = h := by
  have hbounds : highestSub index = if (subBounds index).isEmpty then none else some ((subBounds index).foldl max 0) := rfl
  rw [hbounds] at hdef
  exact Option.some.inj (Option.ite_none_left_eq_some.1 hdef).2

/-- No bound of an index is above its highest sub-index. -/
theorem le_highestSub {index h b : Nat} (hdef : highestSub index = some h) (hb : b ∈ subBounds index) : b ≤ h :=
  foldl_max_subBounds hdef ▸ (List.max?_eq_some_iff.1 List.max?_cons').2 b (List.mem_cons_of_mem 0 hb)

/-- The highest sub-index of an index is one of its bounds, where it is not zero. -/
theorem highestSub_mem {index h : Nat} (hdef : highestSub index = some h) (hh : h ≠ 0) : h ∈ subBounds index := by
  have hmem : (subBounds index).foldl max 0 ∈ 0 :: subBounds index := (List.max?_eq_some_iff.1 List.max?_cons').1
  rw [foldl_max_subBounds hdef] at hmem
  exact (List.mem_cons.1 hmem).resolve_left hh

/-- A sub-index other than 0 is defined by a row that covers it, or by the shape of its index's counters. -/
theorem objDef_isSome_iff {index sub : Nat} (hsub : sub ≠ 0) : (objDef index sub).isSome = true ↔
    (∃ r ∈ objRows, r.atIndex index = true ∧ r.s0 ≤ sub ∧ sub ≤ r.s1) ∨ sub ∈ counterSubs index := by
  unfold objDef counterSubs ObjRow.atIndex
  rw [if_neg hsub]
  cases hrow : objRows.find? fun r => r.i0 ≤ index && index ≤ r.i1 && r.s0 ≤ sub && sub ≤ r.s1 with
  | some r =>
    have hr := List.find?_some hrow
    simp only [Bool.and_eq_true, decide_eq_true_eq] at hr ⊢
    simp only [Option.isSome_some, true_iff]
    exact .inl ⟨r, List.mem_of_find?_eq_some hrow, hr.1.1, hr.1.2, hr.2⟩
  | none =>
    have hnone : ¬∃ r ∈ objRows, (r.i0 ≤ index && index ≤ r.i1) = true ∧ r.s0 ≤ sub ∧ sub ≤ r.s1 := by
      rintro ⟨r, hr, hcovers⟩
      exact List.find?_eq_none.1 hrow r hr (by simpa only [Bool.and_eq_true, decide_eq_true_eq, and_assoc] using hcovers)
    rw [or_iff_right hnone]
    cases counterShape index with
    | none => simp
    | some c =>
      have hsummary : (c.summary ≠ 0 && decide (sub = c.summary)) = true ↔ sub = c.summary := by
        simpa using fun h : sub = c.summary => h ▸ hsub
      simp only [List.contains_iff_mem, hsummary, List.mem_cons, List.mem_append]
      split_ifs with hfree hevent hlast
      · simp [hfree]
      · simp [hevent]
      · simp [hlast]
      · simp [hfree, hevent, hlast]

/-- The last sub-index of a row is not before its first. -/
theorem objRows_s0_le {r : ObjRow} (hr : r ∈ objRows) : r.s0 ≤ r.s1 :=
  of_decide_eq_true (List.all_eq_true.1 (by decide : (objRows.all fun r => decide (r.s0 ≤ r.s1)) = true) r hr)

/-- The highest sub-index of a defined index is defined. -/
theorem objDef_highestSub_isSome {index h : Nat} (hdef : highestSub index = some h) : (objDef index h).isSome = true := by
  by_cases hh : h = 0
  · simp [hh, objDef, hdef]
  rw [objDef_isSome_iff hh]
  refine (List.mem_append.1 (highestSub_mem hdef hh)).imp_left fun hrow => ?_
  obtain ⟨r, hr, rfl⟩ := List.mem_map.1 hrow
  obtain ⟨hmem, hat⟩ := List.mem_filter.1 hr
  exact ⟨r, hmem, hat, objRows_s0_le hmem, le_rfl⟩

/-- No sub-index above the highest one is defined. -/
theorem sub_le_highestSub {index sub h : Nat} (hdef : highestSub index = some h) (hsub : (objDef index sub).isSome = true) : sub ≤ h := by
  by_cases hzero : sub = 0
  · exact hzero ▸ Nat.zero_le h
  rcases (objDef_isSome_iff hzero).1 hsub with ⟨r, hr, hat, -, hlast⟩ | hcounter
  · exact hlast.trans (le_highestSub hdef (List.mem_append_left _ (List.mem_map_of_mem (List.mem_filter.2 ⟨hr, hat⟩))))
  · exact le_highestSub hdef (List.mem_append_right _ hcounter)

/-- A well-formed item on a sub-index that its defined index does not define is refused with ABORT_NO_SUB (R419, R537). -/
theorem State.itemRefusal_of_no_sub {i : ObjItem} {h : Nat} (hform : i.formOk = true) (hdef : highestSub i.index = some h)
    (hsub : objDef i.index i.sub = none) (s : State) (who : Accessor) : s.itemRefusal who i = 2 := by
  simp only [State.itemRefusal, hform, hdef, hsub, Bool.not_true, Bool.false_eq_true, Option.isNone_some, if_false]

/-- Settles O42, by the rows and the counters that bound an index's sub-indices from above. -/
theorem subIndexZeroHoldsTheHighest : Obligations.SubIndexZeroHoldsTheHighest := by
  unfold Obligations.SubIndexZeroHoldsTheHighest
  intro index h hdef
  refine ⟨⟨roObj index 0 1, ?zero, rfl, rfl, rfl, ?value⟩, objDef_highestSub_isSome hdef, fun _ => sub_le_highestSub hdef, ?refused⟩
  case zero => simp only [objDef, hdef, if_true, Option.map_some]
  case value => exact fun s who => by simp only [State.objValue, hdef, if_true, Option.getD_some]
  case refused =>
    rintro s who i hform rfl - - hsub
    exact State.itemRefusal_of_no_sub hform hdef hsub s who

/-! ## Remaining budgets -/

/-- Sub-index .01 to .04 of 0x2E04 reads as what is left of the budget at that place of R428's table (R429). -/
theorem State.objValue_budget {sub : Nat} (hsub : sub ≠ 0) (s : State) (who : Accessor) (d : ObjRow) :
    s.objValue who 0x2E04 sub d = s.budgetLeft (sub - 1) := by
  simp [State.objValue, hsub, State.mgmtValue]

/-- Each budget of R428's table has its sub-index of 0x2E04, its object's counter and its number of changes at one place. -/
theorem budget_place : ∀ x ∈ ([(1, 0x2030, 2, 4), (2, 0x2E01, 1, 16), (3, 0x2E02, 1, 64), (4, 0x2E03, 1, 8)] : List (Nat × Nat × Nat × Nat)),
    objDef 0x2E04 x.1 = some (roObjs 0x2E04 0x2E04 1 4 2) ∧ x.1 ≠ 0 ∧ budgetKeys.getD (x.1 - 1) 0 = objKey x.2.1 x.2.2.1 ∧
      ([4, 16, 64, 8] : List Nat).getD (x.1 - 1) 0 = x.2.2.2 := by decide

/-- Settles O43, budget by budget: each is read at its place, as what is left of it. -/
theorem remainingBudgetsAreReadable : Obligations.RemainingBudgetsAreReadable := by
  unfold Obligations.RemainingBudgetsAreReadable
  intro s who k index sub budget hplace
  obtain ⟨hdef, hk, hkey, hbudget⟩ := budget_place _ hplace
  have hvalue (d : ObjRow) : s.objValue who 0x2E04 k d =
      if s.dict.spent.contains (objKey index sub) then 0 else budget - s.dict.used.getD (objKey index sub) 0 := by
    rw [State.objValue_budget hk, State.budgetLeft, hkey, hbudget]
  refine ⟨_, hdef, rfl, rfl, rfl, ?spent, ?unspent, ?used⟩
  case spent => exact fun h => (hvalue _).trans (if_pos h)
  case unspent => exact fun h => (hvalue _).trans (if_neg (ne_true_of_eq_false h))
  case used =>
    intro h
    rw [hvalue, Nat.sub_eq_zero_of_le h, ite_self]

end Sys2Proof.Machine
end

section
/-! SUPPORT. The samples of the input and the steps of the arithmetic clocks (R474, R476, R478). -/
namespace Sys2Proof.Machine

/-! ## What a clock, a setting and a domain read after time has moved on -/

@[simp] theorem State.advance_clockOf (s : State) (t p : Nat) : (s.advance t).clockOf p = s.clockOf p := by
  rw [State.clockOf, State.clockOf, State.advance_power_f]

@[simp] theorem State.advance_setting (s : State) (t index sub dflt : Nat) : (s.advance t).setting index sub dflt = s.setting index sub dflt := by
  rw [State.setting, State.setting, State.advance_dict]

@[simp] theorem State.advance_domain (s : State) (t : Nat) (d : DomainId) : (s.advance t).domain d = s.domain d := by
  rw [State.domain, State.domain, State.advance_power_doms]

/-! ## The samples -/

/-- A condition's cycle is kept exactly while the condition holds. -/
theorem since_isSome (held : Bool) (old : Option Nat) (now : Nat) : (since held old now).isSome = held := by
  cases held <;> rfl

/-- The state with a sample of the input taken: its means, and since when its conditions have held (R474, R478). -/
def State.sampled (s : State) (mv ma : Nat) : State :=
  let volts := (mv :: s.power.volts).take 120
  { s with power := { s.power with
    volts, filtered := (filteredMv volts :: s.power.filtered).take 100, amps := ma
    above := decide (mv * ma > s.ceilingUw mv)
    belowSince := since (decide (mv * ma * 100 < s.ceilingUw mv * 95)) s.power.belowSince s.time
    aboveSince := since (decide (filteredMv volts > shedLeave s.power.voltStep)) s.power.aboveSince s.time
    overCurrentAt := since (decide (ma > 52000)) s.power.overCurrentAt s.time
    startSince := since (decide (mv ≥ 42000) && (!s.power.switchOpen || decide (mv ≤ 60000))) s.power.startSince s.time } }

/-- POWER_SAMPLE takes the sample and settles STAT (R474, R478). -/
theorem execPowerSample_eq (t mv ma : Nat) (s : State) : execPowerSample t mv ma s = .next ((s.advance t).sampled mv ma).settleStat := rfl

/-! ## The steps -/

/-- Has a gap passed since the last step, where there was one? -/
def spacedBy (gap now : Nat) (last : Option Nat) : Bool := match last with
  | some c => decide (now ≥ c + gap)
  | none => true

theorem spacedBy_eq_true {gap now : Nat} {last : Option Nat} (h : ∀ c, last = some c → c + gap ≤ now) : spacedBy gap now last = true := by
  cases last with
  | none => rfl
  | some c => exact decide_eq_true (h c rfl)

section
variable {part t : Nat} {s : State} (hpart : part < 4)
include hpart

/-- A load above the ceiling takes a partition's clock one step down every 10 µs (R474). -/
theorem execFStep_of_above (habove : s.power.above = true) (hfast : s.clockOf part > 1000)
    (hspaced : ∀ c, s.power.lastDown.get part = some c → c + 10 * cyclesPerUs ≤ max s.time t) :
    execFStep part t s = .next ((({ s.advance t with power := { (s.advance t).power with
      lastDown := s.power.lastDown.set part (max s.time t) } } : State).setClock part (s.clockOf part - 100)).tally 0x2C20 4) := by
  rw [← State.advance_time] at hspaced ⊢
  rw [← State.advance_power_lastDown s t] at hspaced ⊢
  rw [← State.advance_power_above s t] at habove
  rw [← State.advance_clockOf s t] at hfast ⊢
  have hdown := Bool.and_eq_true_iff.2 ⟨Bool.and_eq_true_iff.2 ⟨habove, spacedBy_eq_true hspaced⟩, decide_eq_true hfast⟩
  exact congrArg Host.Outcome.next ((if_neg (Nat.not_le.2 hpart)).trans (if_pos hdown))

/-- A load below 95 percent of the ceiling for 100 µs asks for the token of one step up, every 100 µs and up to F_MAX (R474, R476). -/
theorem execFStep_of_below {c : Nat} (habove : s.power.above = false) (hcool : s.power.throttled.contains (part + 1) = false)
    (hbelow : s.power.belowSince = some c) (hlong : c + 100 * cyclesPerUs ≤ max s.time t)
    (hspaced : ∀ k, s.power.lastUp.get part = some k → k + 100 * cyclesPerUs ≤ max s.time t)
    (hmax : s.clockOf part + 100 ≤ s.setting 0x2C00 4 2100) :
    execFStep part t s = .next (({ s.advance t with power := { (s.advance t).power with
      lastUp := s.power.lastUp.set part (max s.time t) } } : State).raiseWake ⟨.upStep, part⟩ 3) := by
  rw [← State.advance_time] at hlong hspaced ⊢
  rw [← State.advance_power_lastUp s t] at hspaced ⊢
  rw [← State.advance_power_above s t] at habove
  rw [← State.advance_power_throttled s t] at hcool
  rw [← State.advance_power_belowSince s t] at hbelow
  rw [← State.advance_clockOf s t, ← State.advance_setting s t] at hmax
  refine congrArg Host.Outcome.next ((if_neg (Nat.not_le.2 hpart)).trans ((if_neg ?down).trans ((if_neg ?hot).trans (if_pos ?up))))
  case down => rw [habove]; exact Bool.false_ne_true
  case hot => rw [hcool]; exact Bool.false_ne_true
  case up =>
    rw [habove, hcool, hbelow]
    have hlight := Bool.or_eq_true_iff.2 (.inl (b := decide ((s.advance t).power.thermal.getD part 0 > 0) = true) (decide_eq_true hlong))
    exact Bool.and_eq_true_iff.2 ⟨Bool.and_eq_true_iff.2 ⟨hlight, spacedBy_eq_true hspaced⟩, decide_eq_true hmax⟩

end

/-- A request for an up-step's token waits behind the others, unless step 6 sheds its domain or it waits already (R476, R478). -/
theorem State.raiseWake_upStep {part cls : Nat} {s : State} (hstep : s.power.step < 6) (hgated : s.domain ⟨.upStep, part⟩ = .gated)
    (hnew : (s.power.requests.any fun r => r.dom == ⟨.upStep, part⟩ && !r.off) = false) :
    s.raiseWake ⟨.upStep, part⟩ cls = { s with power := { s.power with
      requests := s.power.requests ++ [({ dom := ⟨.upStep, part⟩, cls := cls, off := false, at_ := s.time } : TokenReq)] } } := by
  have hunshed : s.domainShed ⟨.upStep, part⟩ = false := decide_eq_false (Nat.not_le.2 hstep)
  simp only [State.raiseWake, hgated, hunshed, hnew, bne_self_eq_false, Bool.or_self, Bool.false_eq_true, if_false]

/-- Settles O9: each command's lemma gives the state, case by case. -/
theorem powerSampleAndFStepComplete : Obligations.PowerSampleAndFStepComplete := by
  unfold Obligations.PowerSampleAndFStepComplete
  refine ⟨?sample, ?down, ?up⟩
  case sample =>
    intro t mv ma s
    refine ⟨_, execPowerSample_eq t mv ma s, ?_⟩
    simp [State.sampled, State.filtered, State.ceilingUw, since_isSome]
  case down =>
    intro part t s hpart habove hfast hspaced
    refine ⟨_, execFStep_of_above hpart habove hfast hspaced, ?_⟩
    simp [State.setClock]
  case up =>
    intro part t c s hpart habove hcool hbelow hlong hspaced hmax hstep hgated hnew
    refine ⟨_, execFStep_of_below hpart habove hcool hbelow hlong hspaced hmax, ?_⟩
    rw [State.raiseWake_upStep]
    · simp
    · simpa using hstep
    · exact (State.advance_domain s t _).trans hgated
    · simpa using hnew

end Sys2Proof.Machine
end

section
/-! SUPPORT. The wake sequencer: what gates, is granted, becomes powered and is binned (R473 to R479, R486). -/
namespace Sys2Proof.Machine

/-! ## Idle domains -/

section
variable {s : State} {t : Nat}

/-- An idle powered domain asks to be gated, once (R475, R476). -/
theorem State.gateOff_of_idle {d : DomainId} (hpowered : s.domain d = .powered) (hidle : (s.advance t).idleLong (domainKey d) = true)
    (hnew : (s.power.requests.any fun r => r.dom == d) = false) :
    (s.advance t).gateOff d = { s.advance t with power := { (s.advance t).power with
      requests := s.power.requests ++ [({ dom := d, cls := 5, off := true, at_ := max s.time t } : TokenReq)] } } := by
  simp only [State.gateOff, State.advance_domain, State.advance_power_requests, State.advance_time, hpowered, hidle, hnew, bne_self_eq_false,
    Bool.not_true, Bool.or_self, Bool.false_eq_true, if_false]

/-- IDLE_GATE names no partition's base and no up-step (R475). -/
theorem execIdleGate_of_domain {d : DomainId} (hbase : d.kind ≠ .base) (hup : d.kind ≠ .upStep) :
    execIdleGate d t s = .next ((s.advance t).gateOff d) := by
  simp only [execIdleGate, beq_eq_false_iff_ne.2 hbase, beq_eq_false_iff_ne.2 hup, Bool.or_self, Bool.false_eq_true, if_false]

theorem domainKey_base (part : Nat) : domainKey ⟨.base, part⟩ = part := by
  rw [domainKey, domainKindNo, Nat.zero_mul, Nat.zero_add]

end

/-! ## Slots -/

/-- Is a request one that a slot's grants consider: raised before the slot, and no background work above the ceiling (R474, R476)? -/
def State.tokenReady (s : State) (r : TokenReq) : Bool := decide (r.at_ < s.time) && !(r.cls = 4 && s.power.above)

/-- The requests granted in a slot, and those of its candidates that are left over (R476). -/
def State.slotTokens (s : State) : List TokenReq × List TokenReq := fitTokens 400 (sortBy tokenBefore (s.power.requests.filter s.tokenReady))

/-- A candidate that is left over has been deferred, where it is a wake (R476). -/
def deferToken (r : TokenReq) : TokenReq := { r with deferred := r.deferred || (!r.off && r.dom.kind != .upStep) }

/-- The state with a slot begun and the requests that it does not grant kept (R476). -/
def State.slotted (s : State) : State :=
  { s with power := { s.power with
    requests := s.slotTokens.2.map deferToken ++ s.power.requests.filter fun r => !s.tokenReady r, lastSlot := s.time } }

/-- A slot that is new counts the wakes it defers and grants its tokens (R474, R476). -/
theorem execWakeSlot_of_due {t : Nat} {s : State} (hstart : max s.time t % slotCycles = 0) (hnew : s.power.lastSlot < max s.time t) :
    let a := s.advance t
    ∃ fresh, execWakeSlot t s = .next (a.slotTokens.1.foldl (fun s r => s.grantToken r) (a.slotted.count (objKey 0x2C20 3) fresh)) := by
  rw [← State.advance_time] at hstart hnew
  rw [← State.advance_power_lastSlot s t] at hnew
  refine ⟨_, congrArg Host.Outcome.next (if_neg ?_)⟩
  simp only [hstart, Nat.not_le.2 hnew, ne_eq, not_true_eq_false, decide_false, Bool.false_and, Bool.or_self, Bool.false_eq_true,
    not_false_eq_true]

@[simp] theorem State.advance_tokenReady (s : State) (t : Nat) :
    (s.advance t).tokenReady = fun r => decide (r.at_ < max s.time t) && !(r.cls = 4 && s.power.above) := by
  funext r
  rw [State.tokenReady, State.advance_time, State.advance_power_above]

@[simp] theorem State.advance_slotTokens (s : State) (t : Nat) :
    (s.advance t).slotTokens = fitTokens 400 (sortBy tokenBefore (s.power.requests.filter fun r =>
      decide (r.at_ < max s.time t) && !(r.cls = 4 && s.power.above))) := by
  rw [State.slotTokens, State.advance_tokenReady, State.advance_power_requests]

/-! ## Granted domains -/

/-- The state with a domain's grant taken off the list (R476). -/
def State.ungranted (s : State) (d : DomainId) : State :=
  { s with power := { s.power with granted := s.power.granted.filter fun x => x.dom != d } }

section
variable {t : Nat} {s : State} {r : TokenReq}

/-- An up-step that is granted raises the partition's clock one step at its slot's end, up to F_MAX (R474, R476). -/
theorem execDomainReady_of_upStep {part : Nat} (hgranted : (s.power.granted.find? fun r => r.dom == ⟨.upStep, part⟩) = some r)
    (hslot : r.slot + slotCycles ≤ max s.time t) :
    let a := (s.advance t).ungranted ⟨.upStep, part⟩
    execDomainReady ⟨.upStep, part⟩ t s = .next (({ a with power := { a.power with
      doms := a.power.doms.erase (domainKey ⟨.upStep, part⟩)
      thermal := a.power.thermal.put part 0 (a.power.thermal.getD part 0 - 1) } } : State).setClock part
        (min (a.setting 0x2C00 4 2100) (a.clockOf part + 100))) := by
  rw [← State.advance_power_granted s t] at hgranted
  rw [← State.advance_time] at hslot
  have hdue : ¬(decide ((s.advance t).time < r.slot + slotCycles) || decide ((s.advance t).time < 0)) = true := by
    rw [decide_eq_false (Nat.not_lt.2 hslot)]
    exact Bool.false_ne_true
  simp only [execDomainReady, hgranted]
  exact congrArg Host.Outcome.next (if_neg hdue)

/-- The state with a domain powered: its idle period begins (R475, R476). -/
def State.poweredUp (s : State) (d : DomainId) : State :=
  { s with power := { s.power with
    doms := s.power.doms.set (domainKey d) .powered, idleAt := s.power.idleAt.set (domainKey d) (s.time, s.idleDelay (domainKey d)) } }

/-- A domain that is powered up stays so while its latency is counted (R476, R477). -/
theorem State.poweredUp_count_domain (s : State) (d : DomainId) (key n : Nat) : ((s.poweredUp d).count key n).domain d = .powered := by
  rw [State.domain, State.count_power, State.poweredUp, Table.getD_set_same]

/-- A strand that is granted is powered at its slot's end, once its partition's PLL has locked; its wake's latency is binned, and where its
domain is shed it is gated again (R473, R476, R477, R479). -/
theorem execDomainReady_of_strand {g : Nat} (hgranted : (s.power.granted.find? fun r => r.dom == ⟨.strand, g⟩) = some r)
    (hslot : r.slot + slotCycles ≤ max s.time t) (hlock : s.power.pllAt.getD (g / 8) 0 ≤ max s.time t) :
    let a := (((s.advance t).ungranted ⟨.strand, g⟩).poweredUp ⟨.strand, g⟩).count (wakeBinKey (binOf ((max s.time t - r.at_) * 5 / 8))) 1
    execDomainReady ⟨.strand, g⟩ t s = .next (if a.domainShed ⟨.strand, g⟩ then a.gateShed ⟨.strand, g⟩ else a) := by
  rw [← State.advance_power_granted s t] at hgranted
  rw [← State.advance_power_pllAt s t] at hlock
  rw [← State.advance_time] at hslot hlock ⊢
  have hdue : ¬(decide ((s.advance t).time < r.slot + slotCycles) ||
      decide ((s.advance t).time < (s.advance t).power.pllAt.getD (g / 8) 0)) = true := by
    rw [decide_eq_false (Nat.not_lt.2 hslot), decide_eq_false (Nat.not_lt.2 hlock)]
    exact Bool.false_ne_true
  simp only [execDomainReady, hgranted]
  exact congrArg Host.Outcome.next (if_neg hdue)

end

/-- Shedding a powered domain leaves what is powered and granted, and asks to gate the domain (R476, R479). -/
theorem State.gateShed_of_powered {s : State} {d : DomainId} (hpowered : s.domain d = .powered) :
    s.gateShed d = { s with power := { s.power with requests := (s.power.requests.filter fun r => r.dom != d) ++
      [({ dom := d, cls := 1, off := true, at_ := s.time } : TokenReq)] } } := by
  simp only [State.gateShed, hpowered, beq_self_eq_true, if_true]

/-- Settles O10: each command's lemma gives the state, case by case. -/
theorem wakeSequencerCompletes : Obligations.WakeSequencerCompletes := by
  unfold Obligations.WakeSequencerCompletes
  refine ⟨?idle, ?pll, ?slot, ?upStep, ?strand, ?snap, ?clear⟩
  case idle =>
    intro dom t s hbase hup hpowered hidle hnew
    exact ⟨_, (execIdleGate_of_domain hbase hup).trans (congrArg _ (State.gateOff_of_idle hpowered hidle hnew)), rfl⟩
  case pll =>
    intro part t s hpowered hidle hnew
    rw [← domainKey_base part] at hidle
    exact ⟨_, congrArg Host.Outcome.next (State.gateOff_of_idle hpowered hidle hnew), rfl⟩
  case slot =>
    intro t s hstart hnew ready x
    obtain ⟨fresh, hslot⟩ := execWakeSlot_of_due hstart hnew
    refine ⟨_, hslot, ?time, ?last, fit_sum 400 _, ?granted, ?requests⟩
    all_goals simp [State.slotted, deferToken, ready, x]
  case upStep =>
    intro part t s r hgranted hslot
    refine ⟨_, execDomainReady_of_upStep hgranted hslot, ?_⟩
    simp [State.ungranted, State.setClock, State.clockOf, State.setting, domainKey, domainKindNo]
  case strand =>
    intro g t s r hgranted hslot hlock
    refine ⟨_, execDomainReady_of_strand hgranted hslot hlock, ?_⟩
    have hpowered := State.poweredUp_count_domain ((s.advance t).ungranted ⟨.strand, g⟩) ⟨.strand, g⟩
      (wakeBinKey (binOf ((max s.time t - r.at_) * 5 / 8))) 1
    by_cases hstep : 6 ≤ s.power.step
    · rw [if_pos (by simpa [State.domainShed, State.poweredUp, State.ungranted] using hstep), State.gateShed_of_powered hpowered]
      exact ⟨hpowered, by simp [State.poweredUp, State.ungranted], fun _ => by simp [State.poweredUp, State.ungranted]⟩
    · rw [if_neg (by simpa [State.domainShed, State.poweredUp, State.ungranted] using hstep)]
      exact ⟨hpowered, by simp [State.poweredUp, State.ungranted], fun h => absurd h hstep⟩
  case snap => exact fun s => ⟨_, rfl, rfl⟩
  case clear =>
    intro s
    refine ⟨_, rfl, fun kv hkv => ?_, fun kv hkv hlow => ?_, rfl, rfl, rfl⟩
    · obtain ⟨hmem, hout⟩ := List.mem_filter.1 hkv
      refine ⟨hmem, ?_⟩
      simpa [imp_iff_not_or] using hout
    · exact List.mem_filter.2 ⟨hkv, by simp [Nat.not_le.2 hlow]⟩

end Sys2Proof.Machine
end

section
/-! SUPPORT. The PCIe link, function enable, windows, doorbells and messages (R378, R380, R384, R385, R389, R390, R403 to R405, R408, R543): one
lemma per command and case, then the statement on all of them. -/
namespace Sys2Proof.Machine

/-! ## Link and enable -/

/-- The link trains to a speed and width both sides have, while PERST_N is not asserted (R378). -/
theorem execPcieLinkTrain_of_supported {gen width : Nat} {s : State} (hgen : gen = 4 ∨ gen = 5 ∨ gen = 6)
    (hwidth : width = 4 ∨ width = 8 ∨ width = 16) (hperst : s.host.perst = false) :
    execPcieLinkTrain gen width s = .next { s with host := { s.host with linkGen := gen, linkWidth := width } } :=
  congrArg Host.Outcome.next (if_pos ⟨hgen, hwidth, by rw [hperst]; rfl⟩)

/-- The VFs come into being once (R408). -/
theorem execVfEnable_of_disabled {s : State} (hvf : s.host.vfEnable = false) :
    execVfEnable s = .next { s with host := { s.host with vfEnable := true, vfVectors := s.setting 0x2036 1 31 } } :=
  congrArg Host.Outcome.next (if_neg (ne_true_of_eq_false hvf))

section
variable {fn : Nat} {s : State} (hallowed : s.enableAllowed fn = true)
include hallowed

/-- An expert-level enable with proper ADMIN registers inside the windows gives the function its ring pair 0 (R380, R543). -/
theorem State.fnEnable_of_expert {sq cq : Nat} (hlevel : s.levelExpert fn = true) (hsq : (s.fnState fn).adminSize % 65536 = sq)
    (hcq : (s.fnState fn).adminSize / 65536 = cq) (hsqSize : ringSizeOk sq = true) (hcqSize : ringSizeOk cq = true)
    (hsqBase : (s.fnState fn).adminSqBase % 4096 = 0) (hcqBase : (s.fnState fn).adminCqBase % 4096 = 0)
    (hread : dmaInside { s.fnState fn with expert := true } false (s.fnState fn).adminSqBase (128 * sq) = true)
    (hwrite : dmaInside { s.fnState fn with expert := true } true (s.fnState fn).adminCqBase (64 * cq) = true) :
    s.fnEnable fn = (s.setFn fn { s.fnState fn with
      expert := true, enabled := true, tenant := s.fnTenant fn,
      pairs := [(0, ({ state := 1, kind := 0, sqBase := (s.fnState fn).adminSqBase, sqSize := sq, cqBase := (s.fnState fn).adminCqBase
                       cqSize := cq, vector := (s.fnState fn).adminVector } : RingPair))] }).cause fn 2 := by
  simp only [State.fnEnable, hallowed, hlevel, hsq, hcq, hsqSize, hcqSize, hsqBase, hcqBase, hread, hwrite, ne_eq, not_true_eq_false,
    decide_false, Bool.and_self, Bool.not_true, Bool.or_self, Bool.false_eq_true, if_true, if_false]

/-- A basic-level enable (R380, R405). -/
theorem State.fnRun_of_basic (hlevel : s.levelExpert fn = false) :
    s.fnRun fn = s.setFn fn { s.fnState fn with enabled := true, expert := false, tenant := s.fnTenant fn } := by
  simp only [State.fnRun, hallowed, hlevel, Bool.not_false, Bool.and_self, if_true]
  rfl

end

/-! ## The level at which a function answers -/

/-- Does a function answer at the expert level: by its captured level while enabled, by FUNCTION_LEVEL before (R380, R408)? -/
def State.answersExpert (s : State) (fn : Nat) : Bool := if (s.fnState fn).enabled then (s.fnState fn).expert else s.levelExpert fn

section
variable {fn : Nat} {s : State}

theorem State.expertIgnores_eq (s : State) (fn : Nat) :
    ((s.fnState fn).enabled && (s.fnState fn).expert || !(s.fnState fn).enabled && s.levelExpert fn) = s.answersExpert fn := by
  rw [State.answersExpert]
  cases (s.fnState fn).enabled <;> simp

theorem State.basicIgnores_eq (s : State) (fn : Nat) :
    ((s.fnState fn).enabled && !(s.fnState fn).expert || !(s.fnState fn).enabled && !s.levelExpert fn) = !s.answersExpert fn := by
  rw [State.answersExpert]
  cases (s.fnState fn).enabled <;> simp

/-! ## Windows -/

/-- The register of a window that an offset in it names takes a value (R384). -/
def Window.setRegister (w : Window) (off v : Nat) : Window := match off with
  | 0 => { w with base := v % 2 ^ 64 }
  | 8 => { w with last := v % 2 ^ 64 }
  | 16 => { w with valid := bit v 0, read := bit v 1, write := bit v 2 }
  | _ => w

/-- A window register of an expert-level function takes its value from the next cycle on (R384, R385). -/
theorem execDmaWindowWrite_of_expert {w off : Nat} (hw : w < 16) (hoff : off < 32) (hexpert : s.answersExpert fn = true) (v : Nat) :
    execDmaWindowWrite fn (32 * w + off) v s = .next (s.setFn fn { s.fnState fn with
      windows := (s.fnState fn).windows.put w {} (((s.fnState fn).windows.getD w {}).setRegister off v)
      winOld := some (s.time, (s.fnNow fn).windows) }) := by
  have hwindow : (32 * w + off) / 32 = w := by omega
  have hregister : (32 * w + off) % 32 = off := by omega
  have hpage : ¬32 * w + off ≥ 512 := by omega
  cases hold : (s.fnState fn).winOld <;>
    simp only [execDmaWindowWrite, State.basicIgnores_eq, hexpert, hwindow, hregister, hpage, State.fnNow, hold, apply_ite FnState.windows,
      Bool.not_true, decide_false, Bool.or_self, Bool.false_eq_true, if_false] <;>
    rfl

/-! ## Doorbells -/

/-- SQ_TAIL of a pair that exists moves its tail, or is a ring fault outside the ring (R389, R390). -/
theorem execSqTail_eq {pair : Nat} (hanswers : s.doorbells fn = true) (hpair : pair < 64) (hexists : (s.pairOf fn pair).state ≠ 0) (v : Nat) :
    execSqTail fn pair v s = .next (if (s.pairOf fn pair).sqSize ≤ v % 65536 then s.ringFault fn pair 1
      else s.setPair fn pair { s.pairOf fn pair with sqTail := v % 65536 }) := by
  simp only [execSqTail, hanswers, Nat.not_le.2 hpair, hexists, ge_iff_le, Bool.not_true, decide_false, Bool.or_self, Bool.false_eq_true, if_false]

/-- CQ_HEAD frees as many completion entries as its head moves on, where so many wait (R389, R392). -/
theorem execCqHead_of_consumed {pair v adv : Nat} (hanswers : s.doorbells fn = true) (hpair : pair < 64)
    (hexists : (s.pairOf fn pair).state ≠ 0) (hinside : v % 65536 < (s.pairOf fn pair).cqSize)
    (hadv : (v % 65536 + (s.pairOf fn pair).cqSize - (s.pairOf fn pair).cqHead) % (s.pairOf fn pair).cqSize = adv)
    (hwritten : adv ≤ (s.pairOf fn pair).unconsumed) :
    execCqHead fn pair v s = .next (s.setPair fn pair { s.pairOf fn pair with
      cqHead := v % 65536, unconsumed := (s.pairOf fn pair).unconsumed - adv }) := by
  simp only [execCqHead, hanswers, Nat.not_le.2 hpair, hexists, hadv, Nat.not_le.2 hinside, Nat.not_lt.2 hwritten,
    Bool.not_true, decide_false, Bool.or_self, Bool.false_eq_true, if_false]

/-- QSR_TAIL of a function at the basic level moves its tail; an enabled function's only inside the ring (R405). -/
theorem State.qsrTail_of_inside {v : Nat} (hbasic : s.answersExpert fn = false)
    (hinside : (s.fnState fn).enabled = false ∨ v % 65536 < (s.fnState fn).basic.qsrSize) :
    s.qsrTail fn v = s.setFn fn { s.fnState fn with basic := { (s.fnState fn).basic with qsrTail := v % 65536 } } := by
  have hring : ((s.fnState fn).enabled && decide (v % 65536 ≥ (s.fnState fn).basic.qsrSize)) = false := by
    rw [Bool.and_eq_false_iff, decide_eq_false_iff_not]
    exact hinside.imp_right Nat.not_le.2
  simp only [State.qsrTail, State.expertIgnores_eq, hbasic, hring, Bool.false_eq_true, if_false]

/-- IGR_TAIL of a function at the basic level moves its tail; an enabled function's only inside the ring (R405). -/
theorem State.igrTail_of_inside {v : Nat} (hbasic : s.answersExpert fn = false)
    (hinside : (s.fnState fn).enabled = false ∨ v % 65536 < (s.fnState fn).basic.igrSize) :
    s.igrTail fn v = s.setFn fn { s.fnState fn with basic := { (s.fnState fn).basic with igrTail := v % 65536 } } := by
  have hring : ((s.fnState fn).enabled && decide (v % 65536 ≥ (s.fnState fn).basic.igrSize)) = false := by
    rw [Bool.and_eq_false_iff, decide_eq_false_iff_not]
    exact hinside.imp_right Nat.not_le.2
  simp only [State.igrTail, State.expertIgnores_eq, hbasic, hring, Bool.false_eq_true, if_false]

/-- QCR_HEAD of an enabled basic-level function frees as many completion entries as its head moves on, where so many wait (R405). -/
theorem State.qcrHead_of_consumed {v adv : Nat} (henabled : (s.fnState fn).enabled = true) (hlevel : (s.fnState fn).expert = false)
    (hinside : v % 65536 < (s.fnState fn).basic.qcrSize)
    (hadv : (v % 65536 + (s.fnState fn).basic.qcrSize - (s.fnState fn).basic.qcrHead) % (s.fnState fn).basic.qcrSize = adv)
    (hwritten : adv ≤ (s.fnState fn).basic.unconsumed) :
    s.qcrHead fn v = s.setFn fn { s.fnState fn with basic := { (s.fnState fn).basic with
      qcrHead := v % 65536, unconsumed := (s.fnState fn).basic.unconsumed - adv } } := by
  simp only [State.qcrHead, henabled, hlevel, hadv, Nat.not_le.2 hinside, Nat.not_lt.2 hwritten, Bool.not_true,
    decide_false, Bool.and_false, Bool.false_and, Bool.or_self, Bool.false_eq_true, if_false, if_true]

/-! ## Messages -/

/-- COAL_US after the oldest unsignalled completion its pair's message is sent (R404). -/
theorem execCoalTimer_of_due {pair t : Nat} (howed : ((s.advance t).pairOf fn pair).unsignalled > 0)
    (hdue : ((s.advance t).pairOf fn pair).oldestAt + ((s.advance t).pairOf fn pair).coalUs * cyclesPerUs ≤ max s.time t) :
    execCoalTimer fn pair t s = .next (((s.advance t).setPair fn pair
      { (s.advance t).pairOf fn pair with unsignalled := 0 }).msix fn ((s.advance t).pairOf fn pair).vector) := by
  rw [← State.advance_time] at hdue
  exact congrArg Host.Outcome.next (if_pos ⟨howed, hdue⟩)

/-- A vector that is unmasked sends the message that is pending on it (R403). -/
theorem State.msixUnmask_of_vector {vec : Nat} (hvec : vec < s.vectorCount fn) :
    let x := s.setFn fn { s.fnState fn with
      vecs := (s.fnState fn).vecs.set vec { (s.fnState fn).vecs.getD vec {} with masked := false, pending := false } }
    s.msixUnmask fn vec = if ((s.fnState fn).vecs.getD vec {}).pending then x.msix fn vec else x := if_neg (Nat.not_le.2 hvec)

end

/-- Settles O15: each command's lemma gives the state, case by case. -/
theorem hostInterfaceCommandsComplete : Obligations.HostInterfaceCommandsComplete := by
  unfold Obligations.HostInterfaceCommandsComplete
  refine ⟨?train, ?vf, ?enable, ?run, ?window, ?sqTail, ?cqHead, ?timer, ?unmask, ?qsrTail, ?qcrHead, ?igrTail⟩
  case train => exact fun gen width s hgen hwidth hperst => ⟨_, execPcieLinkTrain_of_supported hgen hwidth hperst, rfl⟩
  case vf => exact fun s hvf => ⟨_, execVfEnable_of_disabled hvf, rfl⟩
  case enable =>
    intro fn s hallowed hlevel hsqSize hcqSize hsqBase hcqBase hread hwrite
    exact ⟨_, rfl, State.fnEnable_of_expert hallowed hlevel rfl rfl hsqSize hcqSize hsqBase hcqBase hread hwrite⟩
  case run => exact fun fn s hallowed hlevel => ⟨_, rfl, State.fnRun_of_basic hallowed hlevel⟩
  case window =>
    intro fn w v s hw hexpert
    exact ⟨⟨_, execDmaWindowWrite_of_expert hw (by decide : 0 < 32) hexpert v, rfl⟩,
      ⟨_, execDmaWindowWrite_of_expert hw (by decide : 8 < 32) hexpert v, rfl⟩,
      ⟨_, execDmaWindowWrite_of_expert hw (by decide : 16 < 32) hexpert v, rfl⟩⟩
  case sqTail =>
    intro fn pair v s hanswers hpair hexists
    have hdoorbell := execSqTail_eq hanswers hpair hexists v
    exact ⟨fun hinside => ⟨_, hdoorbell, if_neg (Nat.not_le.2 hinside)⟩, fun houtside => ⟨_, hdoorbell, if_pos houtside⟩⟩
  case cqHead =>
    exact fun fn pair v s hanswers hpair hexists hinside hwritten =>
      ⟨_, execCqHead_of_consumed hanswers hpair hexists hinside rfl hwritten, rfl⟩
  case timer => exact fun fn pair t s howed hdue => ⟨_, execCoalTimer_of_due howed hdue, rfl⟩
  case unmask => exact fun fn vec s hvec => ⟨_, rfl, State.msixUnmask_of_vector hvec⟩
  case qsrTail => exact fun fn v s hbasic hinside => ⟨_, rfl, State.qsrTail_of_inside hbasic hinside⟩
  case qcrHead =>
    exact fun fn v s henabled hlevel hinside hwritten => ⟨_, rfl, State.qcrHead_of_consumed henabled hlevel hinside rfl hwritten⟩
  case igrTail => exact fun fn v s hbasic hinside => ⟨_, rfl, State.igrTail_of_inside hbasic hinside⟩

end Sys2Proof.Machine
end

section
/-! SUPPORT. The turn of a ring, and the administration commands of rings, identity and object access (R392, R393, R400, R401, R404, R431, R454):
one lemma per command, then the statement on all of them. -/
namespace Sys2Proof.Machine

/-! ## The next entry -/

/-- The turn is that of the next pair of the next function that has one (R393). -/
theorem State.turn_of_next {fn pair : Nat} {s : State} (hfn : nextRobin 64 s.host.lastFn (fun fn => (s.nextPair fn).isSome) = some fn)
    (hpair : s.nextPair fn = some pair) : s.turn = some (fn, pair) := by
  simp only [State.turn, hfn, hpair, Option.bind_some, Option.map_some]

/-- The entry whose turn it is and that the windows let through is taken (R392, R393). -/
theorem execEntryTake_of_turn {fn pair : Nat} {p : RingPair} {s : State} (hturn : s.turn = some (fn, pair)) (hlevel : (s.fnState fn).expert = true)
    (hp : s.pairOf fn pair = p) (hinside : dmaInside (s.fnNow fn) false (p.sqBase + 128 * p.sqHead) 128 = true) :
    let d := (s.count (objKey (0x2040 + fn) 1) 128).setPair fn pair { p with
      sqHead := if p.sqHead + 1 ≥ p.sqSize then 0 else p.sqHead + 1, reserved := p.reserved + 1 }
    execEntryTake true s = .next (({ d with host := { d.host with taken := d.host.taken ++ [⟨fn, pair, p.sqHead⟩] } } : State).took fn pair) := by
  simp only [execEntryTake, hturn, hlevel, hp, dmaRead_of_inside hinside, Bool.not_true, Bool.false_eq_true, if_false]

/-! ## Administration commands -/

theorem adminRef_fn (cmd : AdminCmd) : (adminRef cmd).fn = cmd.fn := rfl

section
variable {cmd : AdminCmd} {s a : State} {pair : Nat} (ha : s.adminTaken cmd = a) (hpair : field cmd.entry 48 1 = pair)
include ha hpair

/-- CREATE_RING of an absent pair with proper sizes, bases and interrupt makes it ACTIVE (R400, R401). -/
theorem execCreateRing_of_absent (hruns : s.adminRuns cmd 0x10 32 (allZero cmd.entry 60 4) false = true) (hlow : 1 ≤ pair) (hhigh : pair ≤ 63)
    (habsent : (a.pairOf cmd.fn pair).state = 0) (hkind : field cmd.entry 49 1 = 1 ∨ field cmd.entry 49 1 = 2)
    (hsq : ringSizeOk (field cmd.entry 50 2) = true) (hcq : ringSizeOk (field cmd.entry 52 2) = true) (hsqBase : field cmd.entry 64 8 % 4096 = 0)
    (hcqBase : field cmd.entry 72 8 % 4096 = 0)
    (hint : a.interruptOk cmd.fn (field cmd.entry 54 2) (field cmd.entry 56 2) (field cmd.entry 58 2) = true) :
    execCreateRing cmd s = .next ((a.setPair cmd.fn pair
      ({ state := 1, kind := field cmd.entry 49 1, sqBase := field cmd.entry 64 8, sqSize := field cmd.entry 50 2
         cqBase := field cmd.entry 72 8, cqSize := field cmd.entry 52 2, vector := field cmd.entry 54 2
         coalCount := field cmd.entry 56 2, coalUs := field cmd.entry 58 2 } : RingPair)).adminDone (adminRef cmd) 0 [] []) := by
  have hnamed : ¬pair = 0 := Nat.one_le_iff_ne_zero.1 hlow
  have hkindOk : (decide (field cmd.entry 49 1 = 1) || decide (field cmd.entry 49 1 = 2)) = true := by
    simpa only [Bool.or_eq_true, decide_eq_true_eq] using hkind
  simp only [execCreateRing, adminCommand_runs _ _ _ _ _ _ _ hruns, ha, hpair, adminRef_fn, hnamed, Nat.not_lt.2 hhigh, habsent, hkindOk, hsq,
    hcq, hsqBase, hcqBase, hint, ne_eq, not_true_eq_false, decide_false, Bool.not_true, Bool.or_self, Bool.false_eq_true,
    if_false]

/-- DELETE_RING of a pair that is ACTIVE or FAULTED makes it DELETING (R390, R400). -/
theorem execDeleteRing_of_present (hruns : s.adminRuns cmd 0x11 1 true false = true) (hlow : 1 ≤ pair) (hhigh : pair ≤ 63)
    (hpresent : (a.pairOf cmd.fn pair).state = 1 ∨ (a.pairOf cmd.fn pair).state = 2) :
    execDeleteRing cmd s = .next ((a.setPair cmd.fn pair { a.pairOf cmd.fn pair with
      state := 3, deleting := some (adminRef cmd) }).finishDelete cmd.fn pair) := by
  have hnamed : ¬pair = 0 := Nat.one_le_iff_ne_zero.1 hlow
  have hexists : ¬(a.pairOf cmd.fn pair).state = 0 := by omega
  have hstays : ¬(a.pairOf cmd.fn pair).state = 3 := by omega
  simp only [execDeleteRing, adminCommand_runs _ _ _ _ _ _ _ hruns, ha, hpair, adminRef_fn, hnamed, Nat.not_lt.2 hhigh, hexists, hstays,
    decide_false, Bool.or_self, Bool.false_eq_true, if_false]

/-- SET_INTERRUPT of a pair that exists sets its vector and thresholds after its own completion (R404); pair 0 keeps its vector for the next
enable (R543). -/
theorem execSetInterrupt_of_present (hruns : s.adminRuns cmd 0x12 8 (allZero cmd.entry 49 1) false = true) (hhigh : pair ≤ 63)
    (hexists : (a.pairOf cmd.fn pair).state ≠ 0)
    (hint : a.interruptOk cmd.fn (field cmd.entry 50 2) (field cmd.entry 52 2) (field cmd.entry 54 2) = true) :
    let d := a.adminDone (adminRef cmd) 0 [] []
    let x := d.setPair cmd.fn pair { d.pairOf cmd.fn pair with
      vector := field cmd.entry 50 2, coalCount := field cmd.entry 52 2, coalUs := field cmd.entry 54 2 }
    execSetInterrupt cmd s = .next (if pair = 0 then x.updFn cmd.fn fun f => { f with adminVector := field cmd.entry 50 2 } else x) := by
  simp only [execSetInterrupt, adminCommand_runs _ _ _ _ _ _ _ hruns, ha, hpair, adminRef_fn, Nat.not_lt.2 hhigh, hexists, hint,
    Bool.not_true, Bool.false_eq_true, if_false]

end

/-- IDENTITY answers the module ID and the identity key (R400, R454). -/
theorem execIdentity_of_runs {cmd : AdminCmd} {s : State} (hruns : s.adminRuns cmd 0x51 0 true false = true) :
    execIdentity cmd s = .next ((s.adminTaken cmd).adminDone (adminRef cmd) 0
      (leBytes 2 s.mgmt.moduleId ++ leBytes 6 0 ++ edPublic identitySecret) []) := by
  simp only [execIdentity, adminCommand_runs _ _ _ _ _ _ _ hruns, State.adminTaken, State.count_mgmt]

/-- OBJECT_ACCESS runs a request whose response fits its output (R431). -/
theorem execObjectAccess_of_fits {cmd : AdminCmd} {s : State} (hruns : s.adminRuns cmd 0x70 0 true false = true)
    (hlen : (adminInput cmd).length ≤ 65568) (hheader : requestHeaderOk (adminInput cmd) = true)
    (hfits : responseSize (parseItems (field (adminInput cmd) 0 2) ((adminInput cmd).drop 8)) ≤ (adminRef cmd).outLen) :
    execObjectAccess cmd s = .next ((s.adminTaken cmd).runRequest (.admin (adminRef cmd)) (.fn cmd.fn) (adminInput cmd)) := by
  simp only [execObjectAccess, adminCommand_runs _ _ _ _ _ _ _ hruns, hheader, Nat.not_lt.2 hlen, Nat.not_lt.2 hfits, gt_iff_lt, if_true, if_false]

/-- Settles O16: each command's lemma gives the state. -/
theorem ringAndAccessCommandsComplete : Obligations.RingAndAccessCommandsComplete := by
  unfold Obligations.RingAndAccessCommandsComplete
  refine ⟨?take, ?create, ?delete, ?interrupt, ?identity, ?access⟩
  case take =>
    intro fn pair s hfn hpair hlevel hinside p d e
    exact ⟨_, execEntryTake_of_turn (State.turn_of_next hfn hpair) hlevel rfl hinside, rfl⟩
  case create =>
    intro cmd s hruns a pair hlow hhigh habsent hkind hsq hcq hsqBase hcqBase hint
    exact ⟨_, execCreateRing_of_absent rfl rfl hruns hlow hhigh habsent hkind hsq hcq hsqBase hcqBase hint, rfl⟩
  case delete =>
    intro cmd s hruns a pair hlow hhigh hpresent
    exact ⟨_, execDeleteRing_of_present rfl rfl hruns hlow hhigh hpresent, rfl⟩
  case interrupt =>
    intro cmd s hruns a d pair hhigh hexists hint x
    exact ⟨_, execSetInterrupt_of_present rfl rfl hruns hhigh hexists hint, rfl⟩
  case identity => exact fun cmd s hruns => ⟨_, execIdentity_of_runs hruns, rfl⟩
  case access => exact fun cmd s hruns hlen hheader hfits => ⟨_, execObjectAccess_of_fits hruns hlen hheader hfits, rfl⟩

end Sys2Proof.Machine
end

section
/-! SUPPORT. The partial resets, their drains and returns, and the half-life of scores (R425, R482, R493 to R498): one lemma per command, then the
statement on all of them. -/
namespace Sys2Proof.Machine

/-! ## Resets -/

section
variable {scope part strand t : Nat} {j : ResetJob} {s : State}

/-- A drain that has ended, or whose limit has passed, ends in its reset (R493, R494). -/
theorem execResetDrainEnd_of_over (hj : (s.repair.jobs.find? fun j => jobNamed scope part strand j && j.draining && !j.waiting) = some j)
    (hover : (s.advance t).drained j = true ∨ j.startedAt + j.limit ≤ max s.time t) :
    execResetDrainEnd scope part strand t s = .next (((s.advance t).endDrain j).settleStat).resumeRequests := by
  have hends : ((s.advance t).drained j || decide ((s.advance t).time ≥ j.startedAt + j.limit)) = true := by
    simpa only [Bool.or_eq_true, decide_eq_true_eq, State.advance_time] using hover
  simp only [execResetDrainEnd, State.advance_repair, hj, hends, if_true]

/-- A unit whose reset has run returns, one that tripped once it has cooled (R482, R493). -/
theorem execUnitReturn_of_run
    (hj : (s.repair.jobs.find? fun j =>
      jobNamed scope part strand j && !j.draining && decide (max s.time t ≥ j.startedAt + resetCycles j.scope)) = some j)
    (hcool : s.stillHot j = false) :
    execUnitReturn scope part strand t s = .next ((if j.thermal then ({ s.advance t with power := { (s.advance t).power with
      tripped := s.power.tripped.filter (· ≠ j.part + 1) } } : State) else s.advance t).returnUnit j).resumeRequests := by
  have hcooled : (s.advance t).stillHot j = false := by rw [← hcool, State.stillHot, State.stillHot, State.advance_sensors]
  simp only [execUnitReturn, State.advance_repair, State.advance_time, State.advance_power_tripped, hj, hcooled, Bool.false_eq_true, if_false]

end

/-! ## The half-life -/

/-- Every unit that has a health has its score halved (R498). -/
def State.halveScores (s : State) : State :=
  (s.repair.health.map (·.1)).foldl (fun s n => s.setHealth n { s.healthOf n with score := (s.healthOf n).score / 2 }) s

/-- Halving the scores leaves the time, the settings, the work in flight, the domains and the resets (R498). -/
theorem State.halveScores_frame (s : State) :
    s.halveScores.time = s.time ∧ s.halveScores.dict = s.dict ∧ s.halveScores.pipe = s.pipe ∧ s.halveScores.power = s.power ∧
    s.halveScores.repair.jobs = s.repair.jobs := by
  unfold State.halveScores
  generalize s.repair.health.map (·.1) = units
  induction units generalizing s with
  | nil => exact ⟨rfl, rfl, rfl, rfl, rfl⟩
  | cons n units ih =>
    obtain ⟨htime, hdict, hpipe, hpower, hjobs⟩ := ih (s.setHealth n { s.healthOf n with score := (s.healthOf n).score / 2 })
    refine ⟨htime.trans ?_, hdict.trans ?_, hpipe.trans ?_, hpower.trans ?_, hjobs.trans ?_⟩ <;> simp

/-- At the end of a half-life every score is halved, and the next half-life begins with the setting now in force (R498). -/
theorem execHealthHalfLife_of_over {t : Nat} {s : State} (hover : s.repair.halfLifeAt + s.repair.halfLifeH * 3600 * cyclesPerS ≤ max s.time t) :
    let x := (s.advance t).halveScores
    execHealthHalfLife t s = .next ({ x with repair := { x.repair with
      halfLifeAt := max s.time t, halfLifeH := s.setting 0x2D03 1 168 } } : State).settleLevel := by
  intro x
  obtain ⟨htime, hdict, -⟩ := (s.advance t).halveScores_frame
  have hsetting : x.setting 0x2D03 1 168 = s.setting 0x2D03 1 168 := by rw [State.setting, hdict, State.advance_dict, State.setting]
  rw [← hsetting, ← State.advance_time, ← htime]
  rw [← State.advance_time, ← State.advance_repair s t] at hover
  exact congrArg Host.Outcome.next (if_neg (Nat.not_lt.2 hover))

/-! ## Reset requests -/

/-- A reset request that names a unit in service begins the unit's reset, and its answer waits for the unit's return (R425, R493, R496). -/
theorem State.resetWrite_of_unit {who : Accessor} {req : ResetReq} {s : State} (hup : s.mgmt.serverUp = true) (hrec : s.recoveryOffered = false)
    (hmay : mayWrite who 0x2D01 1 .wo = true)
    (hseg : (s.dict.segWrites.any fun w => w.key = objKey 0x2D01 1 && w.accessor ≠ accessorNo who) = false) (scope : Nat)
    (hform : resetFormOk (resetBytes scope req) = true)
    (hunit : ((s.noteAccess who).dropSeg who (objKey 0x2D01 1)).resetUnitOk (resetBytes scope req) = true)
    (hfree : s.repair.jobs.any (covers (resetBytes scope req)) = false) :
    let x := ((s.noteAccess who).dropSeg who (objKey 0x2D01 1)).beginReset (resetBytes scope req)
    x.repair.jobs.any (covers (resetBytes scope req)) = true ∧
    s.resetWrite who scope req = ({ x with dict := { x.dict with waitingReqs := x.dict.waitingReqs ++ [⟨.single, who, 0, false, [],
      ⟨2, false, 0x2D01, 1, 0, 8, resetBytes scope req, true⟩, [], .reset (resetBytes scope req)⟩] } } : State).resumeRequests :=
  ⟨beginReset_covers _ _ hform, writeNow_reset s who _ (resetBytes_length scope req) hup hrec hmay hseg hform hunit hfree⟩

/-- Settles O13: each command's lemma gives the state, scope by scope. -/
theorem resetAndHealthCommandsComplete : Obligations.ResetAndHealthCommandsComplete := by
  unfold Obligations.ResetAndHealthCommandsComplete
  refine ⟨?request, ?drain, ?return_, ?halfLife⟩
  case request =>
    intro who req s hup hrec hmay hseg a begun
    have hbegun := State.resetWrite_of_unit (req := req) hup hrec hmay hseg
    exact ⟨fun hform hunit hfree => ⟨_, rfl, hbegun 1 hform hunit hfree⟩, fun hform hunit hfree => ⟨_, rfl, hbegun 2 hform hunit hfree⟩,
      fun hform hunit hfree => ⟨_, rfl, hbegun 3 hform hunit hfree⟩, fun hform hunit hfree => ⟨_, rfl, hbegun 4 hform hunit hfree⟩⟩
  case drain => exact fun scope part strand t j s hj hover => ⟨_, execResetDrainEnd_of_over hj hover, rfl⟩
  case return_ => exact fun scope part strand t j s hj hcool => ⟨_, execUnitReturn_of_run hj hcool, rfl⟩
  case halfLife =>
    intro t s hover
    obtain ⟨-, -, hpipe, hpower, hjobs⟩ := (s.advance t).halveScores_frame
    have hunits : (s.advance t).halveScores =
        (s.repair.health.map (·.1)).foldl (fun s n => s.setHealth n { s.healthOf n with score := (s.healthOf n).score / 2 }) (s.advance t) := by
      rw [State.halveScores, State.advance_repair]
    refine ⟨_, execHealthHalfLife_of_over hover, _, _, hunits, ?_, ?_, ?_, rfl, rfl⟩
    · rw [hpipe, State.advance_pipe]
    · rw [hpower, State.advance_power_doms]
    · rw [hjobs, State.advance_repair]

end Sys2Proof.Machine
end

section
/-! SUPPORT. The leases on request state, the replicas of hot rows and the code group of a shard (R365 to R371, R374, R375): one lemma per command and
case, then the statement on all of them. -/
namespace Sys2Proof.Machine

/-! ## Leases on request state -/

section
variable {src : Nat} {msg : List Byte} {s : State}

section
variable {l : Lease} (hl : s.leaseOf (field msg 8 8) src true = some l)
include hl

/-- TAKEN drops the draining module's copy (R369). -/
theorem execTaken_of_lease (hop : leaseIs 2 msg = true) :
    execTaken src msg s = .next (s.updLease (field msg 8 8) true fun l => { l with taken := true, dropped := true, copy := [] }) := by
  simp only [execTaken, hop, hl, Option.isNone_some, Bool.not_true, Bool.or_self, Bool.false_eq_true, if_false]

/-- An ANSWER that the other side holds the complete copy drops this one (R370). -/
theorem execLeaseAnswer_of_complete (hop : leaseIs 4 msg = true) (hcomplete : field msg 1 1 = 2) :
    execLeaseAnswer src msg s = .next (s.updLease (field msg 8 8) true fun l => { l with taken := true, dropped := true, copy := [] }) := by
  simp only [execLeaseAnswer, hop, hl, hcomplete, Option.isNone_some, ne_eq, not_true_eq_false, decide_false, Bool.not_true, Bool.or_self,
    Bool.false_eq_true, if_false]

/-- RESEND sends the state again while its copy is held (R370). -/
theorem execResend_of_held (hop : leaseIs 5 msg = true) (hheld : l.dropped = false) (hcopy : l.copy ≠ []) :
    execResend src msg s = .next (s.sendState l) := by
  simp only [execResend, hop, hl, hheld, List.isEmpty_eq_false_iff.2 hcopy, Bool.not_true, Bool.or_self, Bool.false_eq_true, if_false]

end

/-- ASK is answered with what this module holds; a complete copy is taken again, a missing one asked for by the owner of record (R370). -/
theorem execAsk_of_form (hop : leaseIs 3 msg = true) :
    let expiry := s.time + field msg 24 4 * cyclesPerUs
    let a := s.sendLease src 4 (s.holdsOf (field msg 8 8) src) (field msg 8 8) s.newestMap expiry
    execAsk src msg s = .next (if s.holdsOf (field msg 8 8) src = 2 then a.sendLease src 2 0 (field msg 8 8) a.newestMap expiry
      else if a.takesFrom src then a.sendLease src 5 0 (field msg 8 8) a.newestMap expiry else a) := by
  simp only [execAsk, hop, Bool.not_true, Bool.false_eq_true, if_false]

/-- The draining side's lease that has expired with no answer ends its query ORPHANED (R370). -/
theorem execOrphanedQueries_of_expired {handle t q : Nat} {l : Lease} {x : Query} {a : State}
    (hl : ((s.advance t).exchange.leases.find? fun (l : Lease) => l.handle = handle && decide ((s.advance t).time ≥ l.expiry)) = some l)
    (hdraining : l.draining = true)
    (ha : ({ s.advance t with exchange := { (s.advance t).exchange with
      leases := (s.advance t).exchange.leases.filter fun (y : Lease) => !(y.handle = handle && y.draining == true) } } : State) = a)
    (hq : a.queryOf handle = some q) (hx : a.query q = some x) :
    execOrphanedQueries handle t s = .next ((a.toEmit q { x with orphaned := true, answer := [] }).tally 0x2B10 0xD) := by
  simp only [execOrphanedQueries, hl, hdraining, ha, hq, hx, if_true]

end

/-! ## Replicas of hot rows -/

section
variable {s : State}

/-- A hot row at its home, with no write of it unsettled and no replicas out, goes to the modules that read it most (R365). -/
theorem execHotRowReplicate_of_hot {ns id row table f : Nat} {t : FeatTable} (hcode : tableCode ns id = table) (ht : s.table table = some t)
    (hf : s.featShard table row = some f) (hhome : (s.featHome f s.epochs.open_).1 = s.mgmt.moduleId) (hhot : s.rowHot table row = true)
    (hrow : s.exchange.rows.get (rowKey table row) = none) (hpending : s.corpus.logPending = []) (hpages : s.corpus.logPages = [])
    (hout : s.exchange.replicasOut = []) :
    let fresh := (s.topReaders table row).take 8
    let v := s.rowValue t row
    execHotRowReplicate ns id row s = .next (fresh.foldl (fun s p =>
      (s.sendTransfer p 0x0C (rowsContent 0 0 [rowCopy table row v.2 v.1])).sendInvalidate p []) { s with
        exchange := { s.exchange with replicasOut := fresh.map fun p => { table, row, peer := p, version := v.2 } } }) := by
  simp only [execHotRowReplicate, hcode, ht, hf, hhome, hhot, hrow, hpending, hpages, hout, ne_eq, not_true_eq_false, decide_false, List.any_nil,
    List.filter_nil, List.length_nil, List.nil_append, Nat.sub_zero, Bool.not_true, Bool.or_self, Bool.false_eq_true, if_false]

/-- INVALIDATE of a proper body stops the rows that it names, starts the lease anew and is echoed (R366, R367). -/
theorem execInvalidate_of_entries {src : Nat} {body : List Byte} (hform : body.length % 24 = 0) (hfew : (invalEntries body).length ≤ 20) :
    let hit (r : Replica) : Bool := r.peer = src && (invalEntries body).any fun e => e.1 = r.table % 2 ^ 32 && e.2.1 = r.row
    let a : State := { s with exchange := { s.exchange with
      replicasIn := s.exchange.replicasIn.map (fun r => if hit r then { r with valid := false } else r)
      invalSeen := s.exchange.invalSeen.set src (s.time, s.setting 0x2B00 5 5000) } }
    execInvalidate src body s = .next (if (invalEntries body).isEmpty then a else a.sendFrame src 4 8 0 a.newestMap 0 body 0) := by
  have hproper : ¬(decide (body.length % 24 ≠ 0) || decide ((invalEntries body).length > 20)) = true := by
    simp [hform, hfew]
  exact congrArg Host.Outcome.next (if_neg hproper)

/-- When the replica lease with a peer has run out, this module's replicas of its rows and its replicas of this module's rows are dropped (R366,
R367). -/
theorem execReplicaLeaseExpire_eq (peer t : Nat) (s : State) :
    let lostIn : Bool := ((s.exchange.invalSeen.get peer).map fun c => decide (max s.time t > s.leaseEnd c)).getD false
    let lostOut : Bool := (s.exchange.replicasOut.any fun r => r.peer = peer) &&
      decide (max s.time t > s.leaseEnd (s.exchange.invalSent.getD peer (0, 0)))
    let a : State := if lostIn then ({ s.advance t with exchange := { s.exchange with
        replicasIn := s.exchange.replicasIn.filter fun r => r.peer ≠ peer } } : State).syncReplicas else s.advance t
    execReplicaLeaseExpire peer t s = .next (if lostOut then { a with exchange := { a.exchange with
        replicasOut := a.exchange.replicasOut.filter fun r => r.peer ≠ peer } } else a) := by
  have hend (b : Nat × Nat) : (s.advance t).leaseEnd b = s.leaseEnd b := by rw [State.leaseEnd, State.leaseEnd, State.advance_epochs]
  cases hseen : s.exchange.invalSeen.get peer <;>
    simp only [execReplicaLeaseExpire, State.advance_exchange, State.advance_time, hend, hseen, Option.map_none, Option.map_some,
      Option.getD_none, Option.getD_some]

end

/-! ## The code group -/

section
variable {s : State} {shard : Nat}

/-- A stripe that is unfinished CODE_FLUSH after its first byte closes (R371). -/
theorem execCodeFlush_of_due {t : Nat} {c : CodedStream} (hc : (s.advance t).exchange.streams.get shard = some c) (hopen : c.open_ ≠ [])
    (hdue : c.firstAt + c.flushMs * cyclesPerMs ≤ max s.time t) : execCodeFlush shard t s = .next ((s.advance t).closeStripe shard) := by
  simp only [execCodeFlush, hc, List.isEmpty_eq_false_iff.2 hopen, State.advance_time, Nat.not_lt.2 hdue, decide_false, Bool.or_self,
    Bool.false_eq_true, if_false]

/-- A member rebuilds its fragment of a stripe from eight others (R374). -/
theorem execMemberRebuild_of_stripe {frag n : Nat} {h : FragIn} {fs read : List FragIn} {data : List (List Byte)}
    (hmember : (s.codeGroup shard)[frag]? = some s.mgmt.moduleId) (hread : stripesOf read = [(n, h :: fs)])
    (hdata : recoverStripe ((h :: fs).filter fun f => f.frag ≠ frag) = some data) :
    execMemberRebuild shard frag read s = .next (s.keepFragment
      ⟨shard, frag, n, h.firstEpoch, h.lastEpoch, (data ++ [parityChunk 0 data, parityChunk 1 data]).getD frag []⟩) := by
  simp only [execMemberRebuild, hmember, hread, hdata, List.foldl_cons, List.foldl_nil, List.head?_cons, ne_eq, not_true_eq_false, if_false]

/-- The new home of a REBUILDING shard rebuilds it from the stripes read, each from any eight fragments (R374, R375). -/
theorem execHomeRebuild_of_rebuilding {m : CompMap} {read : List FragIn} {data : List (Option (List (List Byte)))} (hm : s.lastMap = some m)
    (hhome : shardOf m shard = some (s.mgmt.moduleId, 2)) (hdata : ((stripesOf read).map fun x => recoverStripe x.2) = data)
    (hsome : stripesOf read ≠ []) (hall : data.any Option.isNone = false) :
    execHomeRebuild shard read s = .next (s.rebuildShard shard (data.flatMap fun d => (d.getD []).flatten)
      ((read.map (·.lastEpoch)).foldl max 0) (((stripesOf read).map (·.1)).foldl max 0 + 1)) := by
  simp only [execHomeRebuild, hm, hhome, hdata, hall, List.isEmpty_eq_false_iff.2 hsome, Option.bind_some, Bool.or_self, Bool.false_eq_true,
    if_false, if_true]

end

/-- Settles O26: each command's lemma gives the state, case by case. -/
theorem leaseAndRebuildCommandsComplete : Obligations.LeaseAndRebuildCommandsComplete := by
  unfold Obligations.LeaseAndRebuildCommandsComplete
  refine ⟨?lease, ?ask, ?orphan, ?hot, ?invalidate, ?ack, ?expire, ?flush, ?member, ?home⟩
  case lease =>
    intro src msg l s hl dropped
    exact ⟨fun hop => ⟨_, execTaken_of_lease hl hop, rfl⟩, fun hop hcomplete => ⟨_, execLeaseAnswer_of_complete hl hop hcomplete, rfl⟩,
      fun hop hheld hcopy => ⟨_, execResend_of_held hl hop hheld hcopy, rfl⟩⟩
  case ask =>
    intro src msg s hop holds expiry a
    exact ⟨_, execAsk_of_form hop, fun htwo => if_pos htwo, fun htwo htakes => (if_neg htwo).trans (if_pos htakes),
      fun htwo hleaves => (if_neg htwo).trans (if_neg (ne_true_of_eq_false hleaves))⟩
  case orphan =>
    intro handle t q l x s b hl hdraining a hq hx
    exact ⟨_, execOrphanedQueries_of_expired hl hdraining rfl hq hx, rfl⟩
  case hot =>
    intro ns id row t f s table ht hf hhome hhot hrow hpending hpages hout fresh v
    exact ⟨_, execHotRowReplicate_of_hot rfl ht hf hhome hhot hrow hpending hpages hout, rfl⟩
  case invalidate =>
    intro src body s hform hfew hit a
    exact ⟨_, execInvalidate_of_entries hform hfew, rfl⟩
  case ack => exact fun src body s => ⟨_, rfl, rfl⟩
  case expire =>
    intro peer t s ends lostIn lostOut a
    exact ⟨_, execReplicaLeaseExpire_eq peer t s, rfl⟩
  case flush => exact fun shard t c s hc hopen hdue => ⟨_, execCodeFlush_of_due hc hopen hdue, rfl⟩
  case member =>
    exact fun shard frag n fs h data read s hmember hread hdata => ⟨_, execMemberRebuild_of_stripe hmember hread hdata, rfl⟩
  case home =>
    intro shard m read s hm hhome data hsome hall
    exact ⟨_, execHomeRebuild_of_rebuilding hm hhome rfl hsome hall, rfl⟩

end Sys2Proof.Machine
end

section
/-! SUPPORT. The commands of the management complex and of the field network (R421, R434, R435, R443 to R452, R460, R465, R467, R468): one lemma
per command and case, then the statement on all of them. -/
namespace Sys2Proof.Machine

/-! ## Mailboxes -/

section
variable {master channel : Nat} {bytes : List Byte} {s : State}

/-- A sender's push into its channel stores the message, or is a bus error where the channel is full (R443, R444). -/
theorem execMbxPush_onDie (hchannel : channel < 32) (hsender : senderOk master channel = true) (hmaster : master ≠ 0x100) :
    execMbxPush master channel .onDie bytes s = .next (if 8 ≤ (s.channel channel).length then (s.tally 0x2E0C 4).emit (.busError master)
      else s.storeMessage master channel bytes) := by
  simp only [execMbxPush, hsender, hmaster, Nat.not_le.2 hchannel, ge_iff_le, bne_self_eq_false, Bool.not_false, Bool.not_true, decide_false,
    Bool.or_self, Bool.false_eq_true, if_false, if_true]

/-- A message of the host goes into its channel with room, and the firmware looks at it (R443, R448). -/
theorem execMbxPush_host {path : PushPath} (hpath : path ≠ .onDie) (hchannel : channel ≤ 3) (hlen : bytes.length = 64)
    (hroom : (s.channel channel).length < 8) :
    execMbxPush master channel path bytes s = .next (s.storeMessage 0x100 channel bytes).serveHost := by
  simp only [execMbxPush, bne_iff_ne.2 hpath, hlen, Nat.not_lt.2 hchannel, Nat.not_le.2 hroom, ge_iff_le, ne_eq, not_true_eq_false,
    Bool.not_true, Bool.false_eq_true, if_false]

/-- Dropped notices are reported once a slot of NS4 is free (R452). -/
theorem State.reportDropped_of_room (hdropped : s.log.dropped ≠ 0) (hroom : (s.channel 4).length < 8) :
    s.reportDropped = ({ s with log := { s.log with dropped := 0 } } : State).hostMessage 4 0x0201 (leBytes 4 s.log.dropped) := by
  simp only [State.reportDropped, hdropped, Nat.not_le.2 hroom, decide_false, Bool.or_self, Bool.false_eq_true, if_false]

end

/-! ## Firmware requests of the host -/

section
variable {c : Nat} {m : List Byte} {s : State} (hup : s.mgmt.serverUp = true)
include hup

/-- The firmware takes an image that the host offers (R448, R465). -/
theorem execFwFetch_of_request (hm : s.hostRequest 0x100 = some (c, m)) (image : List Byte) :
    execFwFetch image s = .next ((s.popMessage c).takeImage c m image).serveHost := by
  simp only [execFwFetch, hm, hup, Bool.not_true, Bool.false_eq_true, if_false]

/-- The firmware enrols a key that the host offers (R448, R457). -/
theorem execKeyEnrol_of_request (hm : s.hostRequest 0x300 = some (c, m)) (record : List Byte) :
    execKeyEnrol record s = .next ((s.popMessage c).enrolKey c m record).serveHost := by
  simp only [execKeyEnrol, hm, hup, Bool.not_true, Bool.false_eq_true, if_false]

end

/-! ## Firmware update -/

/-- The slot that is not preferred becomes preferred, in trial, and the management complex restarts into it (R465). -/
def State.activated (s : State) : State :=
  ({ s with mgmt := { s.mgmt with
    previous := s.mgmt.preferred, preferred := 1 - s.mgmt.preferred, trial := true, update := none, committed := false
    partPending := hasPart (s.slot (1 - s.mgmt.preferred)).image, rounds := 0 } } : State).restartMgmt (1 - s.mgmt.preferred)

/-- A committed update is activated (R465). -/
theorem State.fwSwitch_of_committed {s : State} (hupdate : s.mgmt.update.isSome = true) (hcommitted : s.mgmt.committed = true) :
    s.fwSwitch = (s.activated, 0) := by
  simp only [State.fwSwitch, State.activated, Option.isNone_eq_false_iff.2 hupdate, hcommitted, Bool.not_true, Bool.or_self, Bool.false_eq_true,
    if_false]

/-- FW_ACTIVATE of a committed update activates it and answers with the slot (R448, R465). -/
theorem execFwActivate_of_committed {c : Nat} {m : List Byte} {s a : State} (hm : s.hostRequest 0x101 = some (c, m))
    (hup : s.mgmt.serverUp = true) (ha : (s.popMessage c).serveHost = a) (hcommitted : a.mgmt.committed = true)
    (hupdate : a.mgmt.update.isSome = true) : execFwActivate s = .next (a.activated.fwResult c 0 (1 - a.mgmt.preferred)) := by
  simp only [execFwActivate, hm, hup, ha, hcommitted, State.fwSwitch_of_committed hupdate hcommitted, ne_eq, not_true_eq_false, Bool.not_true,
    Bool.false_eq_true, if_false, if_true]

/-- ACTIVATE of a committed update (R465). -/
theorem execFwActivateSlot_of_committed {t : Nat} {s : State} (hup : (s.advance t).mgmt.serverUp = true)
    (hupdate : (s.advance t).mgmt.update.isSome = true) (hcommitted : (s.advance t).mgmt.committed = true) :
    execFwActivateSlot t s = .next (s.advance t).activated := by
  simp only [execFwActivateSlot, hup, State.fwSwitch_of_committed hupdate hcommitted, if_true]

section
variable {s : State} (hup : s.mgmt.serverUp = true)
include hup

/-- BEGIN of a permitted length opens an update, where none is open (R465). -/
theorem execFwBegin_of_length {length : Nat} (hlow : 370 ≤ length) (hhigh : length ≤ fwMax) (hnone : s.mgmt.update = none) :
    execFwBegin length s = .next { s with mgmt := { s.mgmt with update := some (length, []), committed := false } } := by
  simp only [execFwBegin, State.fwOpen, hup, hnone, Nat.not_lt.2 hlow, Nat.not_lt.2 hhigh, Option.isSome_none, decide_false,
    Bool.or_self, Bool.false_eq_true, if_false, if_true]

section
variable {len : Nat} {got : List Byte} (hupdate : s.mgmt.update = some (len, got))
include hupdate

/-- FW_DATA adds 64 KiB to an update that is not complete (R465). -/
theorem execFwData_of_more {bytes : List Byte} (hbytes : bytes.length = 65536) (hmore : got.length < len) :
    execFwData bytes s = .next { s with mgmt := { s.mgmt with update := some (len, (got ++ bytes).take len) } } := by
  simp only [execFwData, State.fwMore, hup, hupdate, hbytes, Nat.not_le.2 hmore, decide_true, Bool.and_self, if_true, if_false]

/-- COMMIT checks the complete image; one that fails ends the update, one that passes fills the slot that is not preferred (R465). -/
theorem execFwCommit_of_complete (hcomplete : len ≤ got.length) (hopen : s.mgmt.committed = false) :
    execFwCommit s = .next (if s.fwStatus 1 got ≠ 0 then { s with mgmt := { s.mgmt with update := none } }
      else ({ s with mgmt := { s.mgmt with committed := true } } : State).setSlot (1 - s.mgmt.preferred)
        { valid := true, image := got, version := field got 16 4, security := field got 12 4 }) := by
  simp only [execFwCommit, State.fwCheck, hup, hupdate, hopen, Nat.not_lt.2 hcomplete, decide_false, Bool.or_self, Bool.false_eq_true, if_false,
    if_true, apply_ite Prod.fst]

/-- ABORT ends the open update (R465). -/
theorem execFwAbort_of_open : execFwAbort s = .next { s with mgmt := { s.mgmt with update := none, committed := false } } := by
  simp only [execFwAbort, State.fwEnd, hup, hupdate, if_true]

end

/-! ## Log and sensors -/

/-- The firmware copies log records while it runs (R451). -/
theorem execLogCopy_of_up (count : Nat) : execLogCopy count s = .next (s.copyLog count) := by
  simp only [execLogCopy, hup, Bool.not_true, Bool.false_eq_true, if_false]

end

/-- One sensor is sampled; one that does not answer reads as a NaN, and writes a FAULT record the first time (R449). -/
def State.sampleSensor (values : List (Nat × Nat × F32)) (s : State) (k : Nat) : State :=
  let v := (values.find? fun x => objKey x.1 x.2.1 = k).map (·.2.2)
  let s : State := { s with sensors := s.sensors.set k (v.getD f32Silent) }
  if v.isNone && !s.mgmt.silent.contains k then
    ({ s with mgmt := { s.mgmt with silent := s.mgmt.silent ++ [k] } } : State).logEvent (k / 256) (k % 256) 2 (sensorUnitOf k) []
  else s

/-- Every 10 ms every sensor is sampled, and the caps are watched (R449, R483). -/
theorem execSensorSample_of_due {t : Nat} {s : State} (hdue : max s.time t % (10 * cyclesPerMs) = 0) (values : List (Nat × Nat × F32)) :
    execSensorSample t values s = .next (sensorKeys.foldl (State.sampleSensor values) (s.advance t)).watchCaps := by
  rw [← State.advance_time] at hdue
  exact congrArg Host.Outcome.next (if_neg (not_not_intro hdue))

/-! ## The watchdog and the link -/

section
variable {t : Nat} {s : State}

/-- A management core that has not serviced its watchdog for 2 s is reset alone (R467). -/
theorem execWatchdogResets_of_late {slot : Nat} (hboot : (s.advance t).mgmt.boot = .healthy slot)
    (hlate : (s.advance t).mgmt.serviced + 2 * cyclesPerS ≤ (s.advance t).time) :
    execWatchdogResets t s = .next (((s.advance t).tally 0x2E0C 7).restartMgmt slot) := by
  simp only [execWatchdogResets, hboot, Nat.not_lt.2 hlate, if_false]

/-- The link that comes up is greeted with a HELLO (R434). -/
theorem execFieldLinkUp_of_down (hdown : s.dict.linkUp = false) :
    execFieldLinkUp s = .next ({ s with dict := { s.dict with linkUp := true } } : State).sendHello :=
  congrArg Host.Outcome.next (if_neg (ne_true_of_eq_false hdown))

/-- Every 10 s a HELLO goes out while the link is up (R434). -/
theorem execHello_of_due (hlink : s.dict.linkUp = true) (hdue : s.dict.lastHello + 10 * cyclesPerS ≤ max s.time t) :
    execHello t s = .next (s.advance t).sendHello := by
  simp only [execHello, State.advance_dict, State.advance_time, hlink, ge_iff_le, hdue, decide_true, Bool.and_self, if_true]

/-- At the end of an interval the telemetry goes out under the mode in force for it, and the next interval takes the settings (R428, R468). -/
theorem execTelemetryExport_of_due {a : State} (ha : s.advance t = a) (hdue : a.mgmt.lastExport + a.mgmt.exportS * cyclesPerS ≤ a.time) :
    let b := if a.mgmt.exportMode ≠ 0 && a.mgmt.serverUp && a.dict.linkUp then a.sendTelemetry a.mgmt.exportMode else a
    execTelemetryExport t s = .next { b with mgmt := { b.mgmt with
      lastExport := b.time, exportMode := b.setting 0x2E03 1 0, exportS := b.setting 0x2E03 2 10 } } := by
  simp only [execTelemetryExport, ha, Nat.not_lt.2 hdue, if_false]

end

/-! ## Requests of the field network -/

section
variable {frame : List Byte} {s a : State} (hup : s.mgmt.serverUp = true) (ha : s.count (objKey 0x2E08 1) frame.length = a)
include hup ha

/-- A frame of the wrong form is counted and dropped (R435). -/
theorem execOapRequest_of_bad_form (hform : a.oapFormOk frame = false) : execOapRequest frame s = .next (a.tally 0x2E08 4) := by
  simp only [execOapRequest, hup, ha, hform, Bool.not_true, Bool.not_false, Bool.false_and, Bool.false_eq_true, if_false, if_true]

variable (hform : a.oapFormOk frame = true)
include hform

/-- A frame whose signature does not verify is counted and dropped (R435). -/
theorem execOapRequest_of_unsigned (hsigned : a.oapSigned frame = false) : execOapRequest frame s = .next (a.tally 0x2E08 5) := by
  simp only [execOapRequest, hup, ha, hform, hsigned, Bool.not_true, Bool.not_false, Bool.false_and, Bool.false_eq_true, if_false, if_true]

/-- A signed frame of this start, the first of its key, runs as a request with the rights of its key's role (R435). -/
theorem execOapRequest_of_first {slot seq : Nat} (hsigned : a.oapSigned frame = true) (hslot : field frame 6 1 = slot)
    (hseq : field frame 24 8 = seq) (hstart : field frame 16 8 = a.dict.incarnation) (hfirst : a.dict.oapSeq.get slot = none)
    (hidle : a.dict.waitingReqs = []) :
    execOapRequest frame s = .next (({ a with dict := { a.dict with oapSeq := a.dict.oapSeq.set slot seq } } : State).runRequest
      (.oap seq) (if a.keyRole slot = 2 then .operator else .reader) (slice frame 32 (field frame 12 4))) := by
  have hroom : ¬(0 : Nat) ≥ 8 := by decide
  simp only [execOapRequest, hup, ha, hform, hsigned, hslot, hseq, hstart, hfirst, hidle, hroom, List.filter_nil, List.length_nil,
    Option.isSome_none, ne_eq, not_true_eq_false, Bool.and_false, Bool.not_true, Bool.false_and, Bool.false_eq_true, if_false]
  rfl

end

/-- Settles O33: each command's lemma gives the state, case by case. -/
theorem managementCommandsComplete : Obligations.ManagementCommandsComplete := by
  unfold Obligations.ManagementCommandsComplete
  refine ⟨?push, ?hostPush, ?pop, ?notices, ?fetch, ?activate, ?enrol, ?copy, ?sensors, ?compact, ?update, ?activateSlot, ?watchdog, ?linkUp,
    ?linkDown, ?hello, ?request, ?telemetry, ?timeout⟩
  case push =>
    intro master channel bytes s hchannel hsender hmaster
    have hpush := execMbxPush_onDie (bytes := bytes) (s := s) hchannel hsender hmaster
    exact ⟨fun hroom => ⟨_, hpush, if_neg (Nat.not_le.2 hroom)⟩, fun hfull => ⟨_, hpush, if_pos hfull⟩⟩
  case hostPush =>
    exact fun master channel path bytes s hpath hchannel hlen hroom => ⟨_, execMbxPush_host hpath hchannel hlen hroom, rfl⟩
  case pop => exact fun mask s => ⟨_, rfl, rfl⟩
  case notices => exact fun s hdropped hroom => ⟨_, rfl, State.reportDropped_of_room hdropped hroom⟩
  case fetch => exact fun image c m s hm hup => ⟨_, execFwFetch_of_request hup hm image, rfl⟩
  case activate =>
    intro c m s hm hup a hcommitted hupdate
    exact ⟨_, execFwActivate_of_committed hm hup rfl hcommitted hupdate, rfl⟩
  case enrol => exact fun record c m s hm hup => ⟨_, execKeyEnrol_of_request hup hm record, rfl⟩
  case copy => exact fun count s hup => ⟨_, execLogCopy_of_up hup count, rfl⟩
  case sensors => exact fun t values s hdue => ⟨_, execSensorSample_of_due hdue values, rfl⟩
  case compact => exact fun s hfull => ⟨_, congrArg Host.Outcome.next (if_pos hfull), rfl⟩
  case update =>
    intro length bytes s hup
    refine ⟨fun hlow hhigh hnone => ⟨_, execFwBegin_of_length hup hlow hhigh hnone, rfl⟩, fun len got hupdate => ?_⟩
    exact ⟨fun hbytes hmore => ⟨_, execFwData_of_more hup hupdate hbytes hmore, rfl⟩,
      fun hcomplete hopen hbad => ⟨_, execFwCommit_of_complete hup hupdate hcomplete hopen, if_pos hbad⟩,
      fun hcomplete hopen hgood => ⟨_, execFwCommit_of_complete hup hupdate hcomplete hopen, if_neg (not_not_intro hgood)⟩,
      ⟨_, execFwAbort_of_open hup hupdate, rfl⟩⟩
  case activateSlot =>
    intro t s a hup hupdate hcommitted
    exact ⟨_, execFwActivateSlot_of_committed hup hupdate hcommitted, rfl⟩
  case watchdog => exact fun t slot s hboot hlate => ⟨_, execWatchdogResets_of_late hboot hlate, rfl⟩
  case linkUp => exact fun s hdown => ⟨_, execFieldLinkUp_of_down hdown, rfl⟩
  case linkDown => exact fun s => ⟨_, rfl, rfl⟩
  case hello => exact fun t s hlink hdue => ⟨_, execHello_of_due hlink hdue, rfl⟩
  case request =>
    intro frame s hup a slot seq
    exact ⟨fun hform => ⟨_, execOapRequest_of_bad_form hup rfl hform, rfl⟩,
      fun hform hsigned => ⟨_, execOapRequest_of_unsigned hup rfl hform hsigned, rfl⟩,
      fun hform hsigned hstart hfirst hidle => ⟨_, execOapRequest_of_first hup rfl hform hsigned rfl rfl hstart hfirst hidle, rfl⟩⟩
  case telemetry =>
    intro t s a hdue
    exact ⟨_, execTelemetryExport_of_due rfl hdue, rfl⟩
  case timeout => exact fun t s => ⟨_, rfl, rfl⟩

end Sys2Proof.Machine
end

section
/-! SUPPORT. The Campion probes, the dual-strand checks, the shadow, and the pins (R502 to R511, R518, R520, R526, R530): one lemma per command and
case, then the statement on all of them. -/
namespace Sys2Proof.Machine

/-! ## Probes and dual checks -/

/-- The target of a module's next probe: three in four go to a strand, one in four to a tensor tile (R502). -/
def State.campionTarget (s : State) : Option Nat :=
  let p := s.repair.nextCampion
  if p % 4 = 3 then rotation s.tensorTiles (p / 4) else rotation (upTo 32 s.strandUp) (p - p / 4)

/-- A probe that is due goes to the next target of its rotation (R502). -/
theorem execCampionIssue_of_due {t x : Nat} {s a : State} (ha : (s.advance t).takeRate = a) (hready : a.repair.ready = true)
    (hstep : a.power.step < 2) (hrate : a.repair.campionRate ≠ 0)
    (hdue : a.repair.lastCampion + cyclesPerS / a.repair.campionRate ≤ a.time) (htarget : a.campionTarget = some x) :
    execCampionIssue t s = .next (({ a with repair := { a.repair with lastCampion := a.time } } : State).addCampion
      (decide (a.repair.nextCampion % 4 = 3)) x) := by
  rw [State.campionTarget] at htarget
  simp only [execCampionIssue, ha, hready, hrate, htarget, Nat.not_le.2 hstep, Nat.not_lt.2 hdue, decide_eq_true_eq, Bool.not_true,
    decide_false, Bool.or_self, Bool.false_eq_true, if_false]

/-- A probe's result is counted; a pass is remembered, a failure handled (R503). -/
theorem execCampionResult_of_probe {num stage : Nat} {c : Campion} {s : State} (hc : (s.repair.campions.find? fun c => c.num = num) = some c)
    (hstage : campionStageOk c stage = true) (load : Nat) :
    let a := ({ s with repair := { s.repair with campions := s.repair.campions.filter fun x => x.num ≠ num } } : State).tally 0x2D10 6
    execCampionResult num stage load s = .next (if stage = 0 then a.campionPassed c else (a.campionFailed c stage load).settle) := by
  simp only [execCampionResult, hc, hstage, Bool.not_true, Bool.false_eq_true, if_false]

/-- The digests of a dual check are compared once both runs have ended (R504). -/
theorem execDualCheckCompare_of_both {q list : Nat} {d : DualCheck} {s : State}
    (hd : (s.repair.duals.find? fun d => handleSerial d.handle = q && d.list = list && d.d1.isSome && d.d2.isSome) = some d)
    (first second : List Byte) :
    let a : State := { s with repair := { s.repair with duals := s.repair.duals.erase d } }
    execDualCheckCompare q list first second s = .next (if first = second then a.tally 0x2D10 8 else a.dualMismatch d) := by
  simp only [execDualCheckCompare, hd]

/-! ## The shadow -/

section
variable {peer n : Nat} {e : ShardEntry} {s : State} (hpeer : peer ≠ s.mgmt.moduleId) (hmodule : peer < 4096) (hidle : s.repair.shadow.state = 0)
  (hmoves : s.exchange.moves = []) (he : (s.lastMap.bind fun m => m.shards[n]?) = some e)
include hpeer hmodule hidle hmoves he

/-- A leader marks a LIVE shard of its own MOVING in its next map (R507). -/
theorem execShadowStart_of_live (hhome : e.home = s.mgmt.moduleId) (hlive : e.state = 0) (hleads : s.leads = true) :
    execShadowStart peer true [n] s = .next (s.announceNext fun m => mapShard false n (fun x => { x with state := 1 }) m) := by
  simp [execShadowStart, hpeer, Nat.not_le.2 hmodule, List.eraseDups_cons, hidle, hmoves, he, hhome, hlive, hleads]

/-- The partner copies a MOVING shard of its own to its shadow (R507). -/
theorem execShadowStart_of_partner (hhome : e.home = s.mgmt.moduleId) (hmoving : e.state = 1) :
    let m : ShardMove := { shard := n, source := s.mgmt.moduleId, dest := peer, f1 := s.newestMap, shadow := true }
    execShadowStart peer true [n] s = .next ((({ s with
      repair := { s.repair with shadow := { role := 1, peer, shards := [n] } },
      exchange := { s.exchange with moves := [m] } } : State).setShadow 1).copyRound m) := by
  simp [execShadowStart, hpeer, Nat.not_le.2 hmodule, List.eraseDups_cons, hidle, hmoves, he, hhome, hmoving]

/-- The shadow takes up a MOVING shard of its partner (R507). -/
theorem execShadowStart_of_shadow (hhome : e.home = peer) (hmoving : e.state = 1) :
    execShadowStart peer false [n] s = .next (({ s with
      repair := { s.repair with shadow := { role := 2, peer, shards := [n] } },
      exchange := { s.exchange with moves := [] } } : State).setShadow 1) := by
  simp [execShadowStart, hpeer, Nat.not_le.2 hmodule, List.eraseDups_cons, hidle, hmoves, he, hhome, hmoving]

end

section
variable {s : State}

/-- The probes whose digests the partner still waits for. -/
def State.shadowLive (s : State) : List ShadowWait := s.repair.shadow.waiting.filter fun w => decide (s.time < w.deadlineAt)

/-- The state with the partner's waiting probes replaced. -/
def State.withWaiting (s : State) (ws : List ShadowWait) : State :=
  { s with repair := { s.repair with shadow := { s.repair.shadow with waiting := ws } } }

/-- Does a probe wait for the digest of a handle and a list? -/
def awaits (handle list : Nat) (w : ShadowWait) : Bool := decide (w.handle = handle) && decide (w.list = list) && decide (w.state = 0)

section
variable {handle list : Nat} {digest : List Byte} {w : ShadowWait} (hrole : s.repair.shadow.role = 1) (hstate : s.repair.shadow.state = 2)
  (hw : s.shadowLive.find? (awaits handle list) = some w)
include hrole hstate hw

/-- A digest that comes while its probe waits is compared with the partner's own (R508 to R510). -/
theorem execShadowDigest_of_waiting : execShadowDigest handle list digest s = .next (
    if w.digest = digest then
      let ws := replaceFirst (awaits handle list) (fun w => { w with state := 1 }) s.shadowLive
      if !s.checkRuns handle && ws.all (fun w => w.handle ≠ handle || w.state = 1) then
        (s.withWaiting (ws.map fun w => if w.handle = handle then { w with state := 3 } else w)).shadowAgrees
      else s.withWaiting ws
    else
      let a := s.withWaiting (replaceFirst (awaits handle list) (fun w => { w with state := 2 }) s.shadowLive)
      if s.shadowLive.any fun w => w.handle = handle && w.state = 2 then a else a.shadowDisagrees w.g) := by
  have hcompares : ¬(decide (s.repair.shadow.role ≠ 1) || decide (s.repair.shadow.state ≠ 2)) = true := by
    simp [hrole, hstate]
  have hfound : (s.repair.shadow.waiting.filter fun w => decide (s.time < w.deadlineAt)).find?
      (fun w => decide (w.handle = handle) && decide (w.list = list) && decide (w.state = 0)) = some w := hw
  refine congrArg Host.Outcome.next ((if_neg hcompares).trans ?_)
  simp only [hfound]
  rfl

end

/-- A failed peer ends the shadow; where the shadow of a failed partner leads, its next map shows the set REBUILDING, at this module where it has
room (R511; log 94). -/
theorem execShadowPeerFail_eq (s : State) :
    let a := s.endShadow
    let lost := fun (e : ShardEntry) => { e with state := 2, home := if a.tierRoom 0 false > 0 then a.mgmt.moduleId else e.home }
    execShadowPeerFail s = .next (if s.repair.shadow.state = 0 ∨ s.repair.shadow.role ≠ 2 ∨ a.leads = false then a
      else a.announceNext fun m => s.repair.shadow.shards.foldl (fun (m : CompMap) n => mapShard false n lost m) m) := by
  simp only [execShadowPeerFail, Bool.or_eq_true, decide_eq_true_eq, Bool.not_eq_true', or_assoc]

end

/-! ## The pins -/

section
variable {s : State}

/-- PRESENT_N open opens the input switch and flushes (R518). -/
theorem execPresentNOpen_of_present (hpresent : s.pins.present = true) : execPresentNOpen s = .next ((({ s with
    pins := { s.pins with present := false }, power := { s.power with switchOpen := true } } : State).forceFlush.logEvent
      0x2C00 5 4 unitModule []).settleStat) := by
  simp only [execPresentNOpen, hpresent, Bool.not_true, Bool.false_eq_true, if_false]

/-- A mean of the last ten samples above 61.0 V opens the input switch and flushes (R526). -/
theorem execOvervoltage_of_high {t : Nat} (hten : (s.power.volts.take 10).length = 10) (hhigh : 610000 < (s.power.volts.take 10).sum)
    (hclosed : s.power.switchOpen = false) :
    execOvervoltage t s = .next ((({ s.advance t with power := { (s.advance t).power with switchOpen := true } } : State).forceFlush.logEvent
      0x2CF1 1 2 unitModule (leBytes 8 ((s.power.volts.take 10).sum / 10))).settleStat) := by
  have htrips : ¬(decide ((s.power.volts.take 10).length < 10) || decide ((s.power.volts.take 10).sum ≤ 610000) || s.power.switchOpen) = true := by
    rw [hten, hclosed, decide_eq_false (Nat.not_le.2 hhigh)]
    decide
  rw [← State.advance_power_volts s t, ← State.advance_power_switchOpen s t] at htrips
  rw [← State.advance_power_volts s t]
  exact congrArg Host.Outcome.next (if_neg htrips)

/-- The bank is measured while the module is off; one that fails is logged (R523, R530). -/
theorem execBankQualify_of_off (hboot : s.mgmt.boot = .off) (mv mj : Nat) :
    let a : State := { s with pins := { s.pins with bankMv := mv, bankMj := mj } }
    execBankQualify mv mj s = .next (if mv < 70000 ∨ mj < 9000 then
      a.logEvent 0x2C00 5 2 unitModule (leBytes 8 mv ++ leBytes 8 mj) else a).settleStat := by
  simp only [execBankQualify, hboot, bne_self_eq_false, Bool.or_eq_true, decide_eq_true_eq, Bool.false_eq_true, if_false]

end

/-- Settles O35: each command's lemma gives the state, case by case. -/
theorem checkAndPinCommandsComplete : Obligations.CheckAndPinCommandsComplete := by
  unfold Obligations.CheckAndPinCommandsComplete
  refine ⟨?issue, ?result, ?dual, ?start, ?digest, ?peerFail, ?present, ?overvoltage, ?perst, ?bank⟩
  case issue =>
    intro t x s a p hready hstep hrate hdue htarget
    exact ⟨_, execCampionIssue_of_due rfl hready hstep hrate hdue htarget, rfl⟩
  case result =>
    intro num stage load c s hc hstage a
    have hresult := execCampionResult_of_probe hc hstage load
    exact ⟨fun hpass => ⟨_, hresult, if_pos hpass⟩, fun hfail => ⟨_, hresult, if_neg hfail⟩⟩
  case dual =>
    intro q list first second d s hd a
    have hcompare := execDualCheckCompare_of_both hd first second
    exact ⟨fun hequal => ⟨_, hcompare, if_pos hequal⟩, fun hdiffers => ⟨_, hcompare, if_neg hdiffers⟩⟩
  case start =>
    intro peer n e s hpeer hmodule hidle hmoves he m
    exact ⟨fun hhome hlive hleads => ⟨_, execShadowStart_of_live hpeer hmodule hidle hmoves he hhome hlive hleads, rfl⟩,
      fun hhome hmoving => ⟨_, execShadowStart_of_partner hpeer hmodule hidle hmoves he hhome hmoving, rfl⟩,
      fun hhome hmoving => ⟨_, execShadowStart_of_shadow hpeer hmodule hidle hmoves he hhome hmoving, rfl⟩⟩
  case digest =>
    intro handle list digest w s hrole hstate live put mine hw
    have hdigest := execShadowDigest_of_waiting (digest := digest) hrole hstate hw
    refine ⟨fun hdiffers hfirst => ⟨_, hdigest, (if_neg hdiffers).trans (if_neg (ne_true_of_eq_false hfirst))⟩, ?_⟩
    intro ws hequal hruns hlast
    exact ⟨_, hdigest, (if_pos hequal).trans (if_pos (Bool.and_eq_true_iff.2 ⟨by rw [hruns]; rfl, hlast⟩))⟩
  case peerFail =>
    intro s
    have hfail := execShadowPeerFail_eq s
    refine ⟨fun hends => ⟨_, hfail, if_pos hends⟩, fun hstate hrole hleads => ⟨_, hfail, if_neg ?_⟩⟩
    rintro (h | h | h)
    · exact hstate h
    · exact h hrole
    · exact Bool.false_ne_true (h.symm.trans hleads)
  case present => exact fun s hpresent => ⟨_, execPresentNOpen_of_present hpresent, rfl⟩
  case overvoltage =>
    intro t s hten hhigh hclosed a
    exact ⟨_, execOvervoltage_of_high hten hhigh hclosed, rfl⟩
  case perst => exact fun s => ⟨⟨_, rfl, rfl⟩, ⟨_, rfl, rfl⟩⟩
  case bank =>
    intro mv mj s hboot a
    exact ⟨_, execBankQualify_of_off hboot mv mj, rfl⟩

end Sys2Proof.Machine
end
